-- ==== Sys2Proof/Word.lean ====
section
/-! DEFINITION. The word types of the model and their plainest arithmetic (00_scope.md, R4 and the
conventions of that chapter). Whatever the manual treats as bits is a bit vector; identifiers, counts,
instants and addresses are natural numbers. -/

namespace Sys2Proof

/-- One byte of a memory or of a frame. -/
abbrev Byte := BitVec 8

/-- A 64-bit word: command words (06 R150), parameter registers (06 R149), arguments (07 R193). -/
abbrev W64 := BitVec 64

/-- An FP32 pattern (IEEE 754 binary32), as accumulators and vector lanes hold it. -/
abbrev F32 := BitVec 32

/-- A map with natural keys, held as a list of pairs in rising key order. What an unlisted key reads as
is the default that the reader names; a listed value never equals it. -/
abbrev NMap (α : Type) := List (Nat × α)

end Sys2Proof
end

