-- ==== Sys2Proof/Syntax.lean ====
section
/-! DEFINITION. The commands of the block: one constructor for each row of the table of operations and
events, in the table's order but for the last forty, where those without operands stand last (Lean's runtime
cannot build a constructor with operands past the 245th). The operands name units and carry the values that
arrive from outside. Units are named by natural numbers: `p` a logical pond, `g` a logical pond that has rank 0
in its gang, `m` a dictionary master (14 Table DIC-11), `k` a brook, `f` a future, `port` a CAN port. -/

namespace Sys2Proof

/-- A request frame of the USDO server (14 R383). The frame layout belongs to CiA 1301, an outside
document; the model keeps what the server acts on. -/
inductive Usdo where
  /-- Expedited read of an object. -/
  | read (index sub : Nat)
  /-- Expedited write of an object. -/
  | write (index sub : Nat) (data : List Byte)
  /-- Opens a segmented read. -/
  | readOpen (index sub : Nat)
  /-- Asks for the next segment of an open read. -/
  | readNext
  /-- Opens a segmented write of `len` bytes. -/
  | writeOpen (index sub len : Nat)
  /-- One segment of an open write; `last` marks the final one. -/
  | writeNext (data : List Byte) (last : Bool)
  /-- The client aborts its session. -/
  | abort
  /-- A command byte that the server does not know. -/
  | unknown
  deriving DecidableEq, Repr

/-- The commands of the block, one constructor per row of the table. -/
inductive Instr where
  /-- INTERNAL_GENERATOR_EDGE: The internal generator's period expires and it issues a tick edge T_nom after the last used edge. -/
  | internalGeneratorEdge
  /-- TICK_IN_EDGE: An edge arrives on TICK_IN and is accepted, adopted or ignored and counted according to P_min and the source in use. -/
  | tickInEdge (t : Nat) (rising : Bool)
  /-- TICK_SOURCE_TAKEOVER: 2 × T_nom passes without an accepted TICK_IN edge; the internal generator issues a used edge, becomes the source and sets tick-source-lost. -/
  | tickSourceTakeover
  /-- READOPT_FALLBACK: A pending re-adopt request sees no TICK_IN edge within 2 × T_nom; the internal generator issues an edge and the request fails. -/
  | readoptFallback
  /-- INPUT_LATCH: At E + 64 clk the sluice flips the input bank and takes each future's input as present or absent. -/
  | inputLatch
  /-- ARRAY_START_STAGGER_RELEASE: An idle pond held gated is released at E + 15,000 + 16 × n clk. -/
  | arrayStartStaggerRelease (p : Nat)
  /-- SERVING_DISPATCH_START: At S + A_sw, or when the switch-out ends, rank 0 of each gang begins dispatch, starting with any carried step. -/
  | servingDispatchStart (g : Nat)
  /-- GROUP_FETCH: Rank 0 fetches the next group of entries, forwards it to the other ranks and runs its prologue and step section. -/
  | groupFetch (g : Nat) (t : Nat)
  /-- SERVING_END: At D_s unfinished steps are carried over or aborted, and the commit phase begins. -/
  | servingEnd
  /-- ROW_REPAIR: At D_s with enough guard band, one requested HBM row is repaired by post-package repair. -/
  | rowRepair
  /-- COST_EXCEEDED: A serving step's elapsed clk passes its certified cost; it is counted and the fault source set. -/
  | costExceeded (g : Nat)
  /-- REGISTER_WRITE: A write to a dictionary object without behaviour of its own is checked by Table DIC-4 and applied whole or refused. `len` counts the bytes of the value; for the CXL host it is the width of the store plus 16 times the byte of its cell at which it begins. -/
  | registerWrite (m : Nat) (index : Nat) (sub : Nat) (len : Nat) (v : Nat)
  /-- SOURCE_SELECT_WRITE: A write to 0x2200.01 stores the source select and, when 1 with the generator in use, makes or withdraws a re-adopt request. -/
  | sourceSelectWrite (m : Nat) (v : Nat)
  /-- READOPT_REQUEST: Writing 1 to 0x2200.04 makes a re-adopt request pending, suppressing internal edges. -/
  | readoptRequest (m : Nat)
  /-- READOPT_WITHDRAW: Writing 0 to 0x2200.04 withdraws a pending re-adopt request. -/
  | readoptWithdraw (m : Nat)
  /-- STAGED_BASIN_WRITE: A write to a home-basin or basin-record object changes only the staged copy. -/
  | stagedBasinWrite (m : Nat) (index : Nat) (sub : Nat) (v : Nat)
  /-- BASIN_COMMIT_REQUEST: Writing 1 to 0x2110.01 requests a commit of the staged basin table at the next edge. -/
  | basinCommitRequest (m : Nat)
  /-- TEST_SPARE_REQUEST: Writing a logical number to 0x2120.01 in the setup regime replaces that pond as if it had failed. -/
  | testSpareRequest (m : Nat) (v : Nat)
  /-- LOAD_REQUEST: Writing 1 to 0x2610.03 starts loading a program into the inactive banks of a basin. -/
  | loadRequest (m : Nat)
  /-- PROGRAM_LOAD_DONE: The loader finishes checking and fetching an image and reports the result. -/
  | programLoadDone
  /-- BANK_SWITCH_REQUEST: Writing 1 to 0x2611.02 requests a bank switch for a basin at the next edge. -/
  | bankSwitchRequest (m : Nat)
  /-- CLEAR_BANK_REQUEST: Writing 1 to 0x2611.03 requests that the basin's inactive banks be emptied. -/
  | clearBankRequest (m : Nat)
  /-- STATE_STRIDE_WRITE: A write of the state stride is accepted only in setup with no future allocated. -/
  | stateStrideWrite (m : Nat) (v : Nat)
  /-- POOL_CONFIG_WRITE: A write configuring a page pool is accepted only in setup with no page in use or limbo. -/
  | poolConfigWrite (m : Nat) (q : Nat) (sub : Nat) (v : Nat)
  /-- ADOPT_REQUEST: Writing 1 to 0x2B01.05 requests adoption of numerics records at the next edge. -/
  | adoptRequest (m : Nat)
  /-- FABRIC_COMMIT_REQUEST: Writing 1 to 0x2C01.02 requests adoption of the fabric tables at the next edge. -/
  | fabricCommitRequest (m : Nat)
  /-- TASK_START: A task request with action 1 starts a background task at the next edge. -/
  | taskStart (m : Nat) (task : Nat)
  /-- TASK_END: A task request with action 2 ends a background task at its next switch point. -/
  | taskEnd (m : Nat) (task : Nat)
  /-- ACKNOWLEDGE_SOURCES: The owner acknowledges set sources, stopping their escalation timers. -/
  | acknowledgeSources (m : Nat) (high : Bool) (mask : Nat)
  /-- CLEAR_SOURCES: The owner clears sources, refused for level sources whose cause is active. -/
  | clearSources (m : Nat) (high : Bool) (mask : Nat)
  /-- REGIME_REQUEST: A write to 0x2E00.02 requests the service or setup regime from the next edge. -/
  | regimeRequest (m : Nat) (v : Nat)
  /-- RETIRE_REQUEST: Writing 1 to 0x2E10.0B starts the retirement of a memory member. -/
  | retireRequest (m : Nat)
  /-- ACTIVATION_REQUEST: Writing 1 to 0x2E30.01 requests activation of the staged firmware image. -/
  | activationRequest (m : Nat)
  /-- VERIFY_REQUEST: Writing 1 to 0x3020.03 starts reading, verifying and staging a firmware image. -/
  | verifyRequest (m : Nat)
  /-- BURN_REQUEST: Writing 1 to 0x3030.03 in setup burns anti-rollback fuses up to the target. -/
  | burnRequest (m : Nat)
  /-- RELOCK: Writing 1 to 0x3040.04 returns the debug level to 0. -/
  | relock (m : Nat)
  /-- PERMANENT_DEBUG_DISABLE: Writing 1 to 0x3040.05 in setup burns the fuse that locks debug forever. -/
  | permanentDebugDisable (m : Nat)
  /-- MARGIN_REQUEST: Writing 1 to 0x2A20.04 starts a margin measurement of one member in the setup regime. -/
  | marginRequest (m : Nat)
  /-- MARGIN_DONE: A margin sweep ends and its result, width, height and offsets are reported. -/
  | marginDone
  /-- POWER_STATE_REQUEST: A write to 0x2F00.01 requests a deeper state or acts as an owner wake. -/
  | powerStateRequest (m : Nat) (v : Nat)
  /-- CLAIM: A claim priority written while vacant opens or joins an ownership election. -/
  | claim (m : Nat) (priority : Nat)
  /-- LEASE_HEARTBEAT: The owner's write refreshes its lease to the lease length. -/
  | leaseHeartbeat (m : Nat)
  /-- RELEASE: The owner releases ownership, cancelling pending edge requests. -/
  | release (m : Nat)
  /-- SUCCESSOR: The owner names a successor, or writes 0 to cancel a handover. -/
  | successor (m : Nat) (id : Nat)
  /-- ACCEPT: The named successor accepts and becomes owner with a fresh lease. -/
  | accept (m : Nat)
  /-- SEIZE: The debug port seizes ownership at once and sets owner-lost. -/
  | seize (m : Nat)
  /-- RESET_COMMUNICATION: Writing 0x3110.05 acts as the NMT reset communication command on both ports. -/
  | resetCommunication (m : Nat)
  /-- ELECTION_CLOSE: The election window passes and the highest-priority claim becomes owner. -/
  | electionClose
  /-- LEASE_EXPIRY: The lease time passes without refresh, or the owning host's link drops, and ownership becomes vacant. -/
  | leaseExpiry
  /-- HANDOVER_TIMEOUT: The handover timeout passes without acceptance and the handover ends. -/
  | handoverTimeout
  /-- MASTER_TABLE_TIMEOUT: A CAN client leaves the master table after 60 s without a request. -/
  | masterTableTimeout (id : Nat)
  /-- COMMAND_PUSH: The control core fetches a non-control command, patches it and pushes it into its engine queue, stalling while the queue is full. -/
  | commandPush (p : Nat) (t : Nat) (ecc : Nat)
  /-- QUEUE_SLOT_FREED: A stalled push resumes when its engine queue frees a slot. -/
  | queueSlotFreed (p : Nat) (t : Nat)
  /-- COMMAND_COMPLETE: A command reaches its completion instant and adds its signal count to its counter. -/
  | commandComplete (p : Nat) (id : Nat) (t : Nat)
  /-- ERROR_HANDLER_ENTRY: After an error cause, started commands drain and the error-exit section runs, the group getting status 0x0B. -/
  | errorHandlerEntry (p : Nat)
  /-- GANG_ERROR_NOTIFY: Notice of a member's error exit reaches the other gang members, which exit with cause 0x08. -/
  | gangErrorNotify (p : Nat)
  /-- SET: P[d] is set to the immediate word. -/
  | set (p : Nat)
  /-- ALU: P[d] is set to P[a] op Y for the arithmetic or logic function selected. -/
  | alu (p : Nat)
  /-- LOAD: P[d] is loaded from 8 bytes at a UDA, or the program exits on a bad address. -/
  | load (p : Nat)
  /-- STORE: P[b] is written to 8 bytes at a UDA, or the program exits on a bad address. -/
  | store (p : Nat)
  /-- LOOP: A loop counter is set and the loop is skipped when it is zero. -/
  | loop (p : Nat)
  /-- ENDLOOP: A loop counter is decremented and the branch taken while it is not zero. -/
  | endloop (p : Nat)
  /-- CMP: A comparator is set from a relation between P[a] and Y. -/
  | cmp (p : Nat)
  /-- BR: The control core branches always or on a comparator. -/
  | br (p : Nat)
  /-- SIGPEER: A peer-counter signal is sent to a gang member after earlier writes land. -/
  | sigpeer (p : Nat)
  /-- PEER_SIGNAL_ARRIVAL: A SIGPEER addition becomes visible at the target member after the halo latency. -/
  | peerSignalArrival (p : Nat)
  /-- FENCE: The control core waits until every command it pushed has completed. -/
  | fence (p : Nat)
  /-- RET: After a fence the section returns to the dispatcher. -/
  | ret (p : Nat)
  /-- ERR: The program takes its error exit with cause 0x80 + func. -/
  | err (p : Nat)
  /-- NOP: Nothing happens. -/
  | nop (p : Nat)
  /-- RESUME: Execution continues at the cheap point where the program was switched out. -/
  | resume (p : Nat)
  /-- SCONF: A stream end is opened or reopened as producer or consumer. -/
  | sconf (p : Nat)
  /-- SSEND: A credit is taken and source bytes are copied into the consumer's next slot, incrementing its arrival counter on landing. -/
  | ssend (p : Nat)
  /-- SFREE: The consumer returns n credits to the producer. -/
  | sfree (p : Nat)
  /-- CREDIT_RETURN: A returned credit becomes usable at the producer after the credit-return latency. -/
  | creditReturn (p : Nat) (st : Nat)
  /-- MMA: B passes stream activation tiles through the weight block and overwrite or accumulate into accumulator rows. -/
  | mma (p : Nat)
  /-- WATCH_SAMPLE_DONE: The tile watch completes a sample and judges it a match or mismatch. -/
  | watchSampleDone (p : Nat)
  /-- WLOAD: A weight block is loaded into the shadow registers without streaming. -/
  | wload (p : Nat)
  /-- EXPANDER_GRANT: A waiting command is granted the activation expander in arrival order. -/
  | expanderGrant (p : Nat)
  /-- ADD: Vector a + b over a sweep. -/
  | add (p : Nat)
  /-- SUB: Vector a − b over a sweep. -/
  | sub (p : Nat)
  /-- MUL: Vector a × b over a sweep. -/
  | mul (p : Nat)
  /-- FMA: Vector a × b + c rounded once. -/
  | fma (p : Nat)
  /-- MIN: Vector IEEE minimum of a and b. -/
  | min (p : Nat)
  /-- MAX: Vector IEEE maximum of a and b. -/
  | max (p : Nat)
  /-- ABS: Vector absolute value. -/
  | abs (p : Nat)
  /-- NEG: Vector negation. -/
  | neg (p : Nat)
  /-- SEL: Vector select of a where c is non-zero, else b. -/
  | sel (p : Nat)
  /-- VECTOR_CMP: Vector comparison giving 1.0 or +0 per element. -/
  | vectorCmp (p : Nat)
  /-- CVT: Vector conversion of a to the destination format. -/
  | cvt (p : Nat)
  /-- DIV: Vector a / b correctly rounded. -/
  | div (p : Nat)
  /-- RCP: Vector reciprocal. -/
  | rcp (p : Nat)
  /-- SQRT: Vector square root. -/
  | sqrt (p : Nat)
  /-- RSQRT: Vector reciprocal square root. -/
  | rsqrt (p : Nat)
  /-- EXP2: Vector power of two. -/
  | exp2 (p : Nat)
  /-- LOG2: Vector base-2 logarithm. -/
  | log2 (p : Nat)
  /-- EXP: Vector exponential. -/
  | exp (p : Nat)
  /-- LOG: Vector natural logarithm. -/
  | log (p : Nat)
  /-- TANH: Vector hyperbolic tangent. -/
  | tanh (p : Nat)
  /-- SIGMOID: Vector sigmoid. -/
  | sigmoid (p : Nat)
  /-- SILU: Vector SiLU. -/
  | silu (p : Nat)
  /-- GELU: Vector GELU. -/
  | gelu (p : Nat)
  /-- SOFTPLUS: Vector softplus. -/
  | softplus (p : Nat)
  /-- RROW: Each row is reduced across its columns by a fixed pairwise tree. -/
  | rrow (p : Nat)
  /-- RCOL: Each column is reduced across the sweep's rows in ascending order. -/
  | rcol (p : Nat)
  /-- GATE: Rows pass the five gate stages of bias, function, combine, state update and output. -/
  | gate (p : Nat)
  /-- POOL: The window reducer pools a feature map by max, sum or average. -/
  | pool (p : Nat)
  /-- SSTEP: One recurrent update is applied to each state row. -/
  | sstep (p : Nat)
  /-- SCAN: The recurrent update runs over T steps for R lanes, forward, reversed or local. -/
  | scan (p : Nat)
  /-- SFIX: A local scan is fixed up with the carry rows and running products. -/
  | sfix (p : Nat)
  /-- TLOAD: Expander tables are loaded from the table image area, invalid images being marked. -/
  | tload (p : Nat)
  /-- CREATE: A free future ID becomes a runnable or parked future. -/
  | create (f : Nat) (a : W64) (b : W64)
  /-- FORK: A child future is made sharing the parent's pages and borrowing its state. -/
  | fork (f : Nat) (c : Nat) (a : W64) (b : W64)
  /-- PARK: A runnable or lent future becomes parked. -/
  | park (f : Nat) (a : W64) (b : W64)
  /-- UNPARK: A parked or halted future becomes runnable or lent. -/
  | unpark (f : Nat) (a : W64) (b : W64)
  /-- RETIRE: A future releases its pages and borrow and becomes free. -/
  | retire (f : Nat) (a : W64) (b : W64)
  /-- SET_FUTURE: The future operation SET changes masked fields of an entry. -/
  | setFuture (f : Nat) (a : W64) (b : W64)
  /-- TRUNCATE: A future's length is cut and later page entries released. -/
  | truncate (f : Nat) (a : W64) (b : W64)
  /-- SHIFT: The first A page entries are released and the rest moved down. -/
  | shift (f : Nat) (a : W64) (b : W64)
  /-- SETUSER: A future's user word is set. -/
  | setuser (f : Nat) (a : W64) (b : W64)
  /-- PWALK: Page descriptors are written for consecutive page-table entries. -/
  | pwalk (p : Nat)
  /-- PAPPEND: Pages are prepared for n new tokens, allocating or copying on write. -/
  | pappend (p : Nat)
  /-- ATTF: The attention forward pass of one layer runs for one future. -/
  | attf (p : Nat)
  /-- ATTB: The attention backward pass of one layer runs for one future. -/
  | attb (p : Nat)
  /-- ICTX: An intake context is opened for a codec and size, or closed. -/
  | ictx (p : Nat)
  /-- DECODE: One coded unit is decoded and any released picture converted and written as a coded map. -/
  | decode (p : Nat)
  /-- FLUSH: The next picture in output order is released and written. -/
  | flush (p : Nat)
  /-- BOXSEL: Detector output is decoded into boxes and suppressed greedily. -/
  | boxsel (p : Nat)
  /-- CHIP_UNIT_DISPATCH: A free post-processing or intake unit starts the oldest command at a pond queue head. -/
  | chipUnitDispatch (cls : Nat)
  /-- DIRECTIVE_RING_READ: The device reads the published directive count and starts directives in ring order. -/
  | directiveRingRead
  /-- DEFINE: An object is defined, frames taken and zeroed and map entries written. -/
  | define (n : Nat)
  /-- PLACE: An object's extents are migrated to the target tier and pinned as given. -/
  | place (n : Nat)
  /-- FREE: An object's extents are unmapped and its record freed. -/
  | free (n : Nat)
  /-- SETBACKUP: A read-only object's backup UDA is set. -/
  | setbackup (n : Nat)
  /-- CLEAN: Poisoned bits are cleared in every extent of an object. -/
  | clean (n : Nat)
  /-- SETMASK: An object's program mask is set. -/
  | setmask (n : Nat)
  /-- DIRECTIVE_COMPLETE: A directive in progress completes and the consumed count advances over completed directives. -/
  | directiveComplete (n : Nat)
  /-- FRAME_RELEASE: A freed frame returns once its outstanding transactions have completed. -/
  | frameRelease (tier : Nat) (frame : Nat)
  /-- MIGRATION_DONE: An extent copy finishes and the map switches to the new frame. -/
  | migrationDone (e : Nat)
  /-- COPY: The pond DMA copies rows between UDA and pond buffers. -/
  | copy (p : Nat)
  /-- FP32_ADD: COPY with op 1 adds FP32 values into the destination granule by granule. -/
  | fp32Add (p : Nat)
  /-- ZERO_FILL: COPY with op 2 fills destination rows with zeros. -/
  | zeroFill (p : Nat)
  /-- PFMARK: A prefetch schedule's cursor is restarted or advanced and due entries started. -/
  | pfmark (p : Nat)
  /-- UNCORRECTABLE_MEMORY_ERROR: An uncorrectable read error poisons the extent and starts a re-fetch or fails it. -/
  | uncorrectableMemoryError (uda : Nat)
  /-- REFETCH_DONE: The backup extent copy completes, poison clears and waiting reads complete. -/
  | refetchDone (e : Nat)
  /-- CORRECTED_ERROR: A correctable sector error is corrected, written back and counted. -/
  | correctedError (uda : Nat)
  /-- HBM_RECENTRE: Every 32 ms a pseudo-channel re-centres its delays within refresh. -/
  | hbmRecentre (c : Nat)
  /-- SHORE_WCK_CHECK: Every 64 ms a shore channel checks drift and starts a retrain if needed. -/
  | shoreWckCheck (c : Nat) (drift : Bool)
  /-- SHORE_RETRAIN_DONE: A shore channel retrain ends and the channel returns to service. -/
  | shoreRetrainDone (c : Nat)
  /-- FLIT_RECEIVE: A flit arrives on a brook and is checked, acknowledged, nak'd or discarded. -/
  | flitReceive (k : Nat) (head : W64) (payload : List Byte) (crc : W64)
  /-- BROOK_RETRAIN_DONE: A brook retrain ends, successfully or as a failure that may bring the brook down. -/
  | brookRetrainDone (k : Nat) (ok : Bool)
  /-- LANE_ERROR_WINDOW: A 1 s measurement window ends and a lane above threshold is spared. -/
  | laneErrorWindow (k : Nat) (lane : Nat) (ratio : F32)
  /-- ACK: A link-control ack flit carries the acknowledgement. -/
  | ack (k : Nat) (seq : Nat)
  /-- CREDIT_GRANT: A credit grant flit gives a sender more flits to a destination. -/
  | creditGrant (k : Nat) (peer : Nat) (flits : Nat)
  /-- SPARE_REQUEST: A link-control flit requests replacing a lane by the spare. -/
  | spareRequest (k : Nat) (lane : Nat)
  /-- SPARE_CONFIRM: A link-control flit confirms the lane replacement. -/
  | spareConfirm (k : Nat) (lane : Nat)
  /-- WIDTH_CHANGE: A link-control flit moves the brook to reduced width on one lane group. -/
  | widthChange (k : Nat) (group : Nat)
  /-- END_TO_END_ACK: A message's landing is acknowledged end to end. -/
  | endToEndAck (k : Nat) (peer : Nat) (msg : Nat)
  /-- IDENTITY: A link-control flit announces the sender's routing ID after training. -/
  | identity (k : Nat) (peer : Nat)
  /-- WRITE: A fabric write message lands its bytes through the ingress pool. -/
  | write (src : Nat) (msg : Nat) (uda : Nat) (data : List Byte)
  /-- WRITE_LAST_SIGNAL: The last write of a PUT lands and increments a fabric counter. -/
  | writeLastSignal (src : Nat) (msg : Nat) (uda : Nat) (counter : Nat) (data : List Byte)
  /-- READ_REQUEST: A peer's read request is served with a read response. -/
  | readRequest (src : Nat) (msg : Nat) (uda : Nat) (len : Nat) (transfer : Nat)
  /-- READ_RESPONSE: Read data arrive for a GET, or a poisoned response ends it. -/
  | readResponse (src : Nat) (msg : Nat) (transfer : Nat) (poisoned : Bool) (data : List Byte)
  /-- COLLECTIVE_PART: A collective part arrives and is matched by group sequence. -/
  | collectivePart (src : Nat) (msg : Nat) (group : Nat) (seq : Nat) (stamp : Nat) (part : Nat) (data : List Byte)
  /-- END_TO_END_TIMEOUT: An unacknowledged message is resent on another brook of the mask. -/
  | endToEndTimeout (dst : Nat) (msg : Nat)
  /-- PUT: Local data are written to a peer's UDA, optionally signalling its counter. -/
  | put (p : Nat)
  /-- GET: Data are read from a peer's UDA into local memory. -/
  | get (p : Nat)
  /-- ALLREDUCE: A group sums its sources in member order and every member receives the sum. -/
  | allreduce (p : Nat)
  /-- REDUCESCATTER: A group sums parts, leaving part c at member c. -/
  | reducescatter (p : Nat)
  /-- ALLGATHER: Each member's part is placed at every member, with stamp keeping or checking. -/
  | allgather (p : Nat)
  /-- BROADCAST: The root's bytes are copied to every member. -/
  | broadcast (p : Nat)
  /-- ALLTOALL: Each member sends its part m to member m. -/
  | alltoall (p : Nat)
  /-- STAMPCHK: Members' current shard stamps are compared with the keep area. -/
  | stampchk (p : Nat)
  /-- WAITF: The command completes when a fabric counter reaches a value. -/
  | waitf (p : Nat)
  /-- WAITF_TIMEOUT: A WAITF timeout expires and the command ends with fabric-timeout. -/
  | waitfTimeout (p : Nat)
  /-- COLLECTIVE_TIMEOUT: A collective not completed within its timeout ends with collective-fault. -/
  | collectiveTimeout (p : Nat)
  /-- PERMUTE: An in-place re-shard is checked and begins its rounds. -/
  | permute (p : Nat)
  /-- PERMUTE_ROUND_END: A permute round ends when acknowledgements are learnt and scratch blocks move into the slot. -/
  | permuteRoundEnd (p : Nat)
  /-- SLICE_EXPIRY: A running task exceeds the slice length with another eligible, and a stop is requested. -/
  | sliceExpiry (g : Nat)
  /-- SCHEDULER_DECISION: At a decision instant the eligible task with the smallest pass is chosen. -/
  | schedulerDecision (g : Nat)
  /-- RESTORE_DONE: A restore completes with its table and weight reloads and the task runs. -/
  | restoreDone (g : Nat)
  /-- FORCED_STOP: F clk after a stop request a rank stops by force. -/
  | forcedStop (p : Nat)
  /-- SWITCH_OUT_SAVE: When every rank has stopped, each saves its live state into its slot. -/
  | switchOutSave (g : Nat)
  /-- SWITCH_OUT_DONE: The save ends and the task becomes switched out with resume valid. -/
  | switchOutDone (g : Nat)
  /-- MAILBOX_GO: Writing go starts a mailbox access to a string or domain object. -/
  | mailboxGo (index : Nat) (sub : Nat) (wr : Bool) (data : List Byte)
  /-- USDO_REQUEST: A USDO frame starts or continues an expedited or segmented transfer. -/
  | usdoRequest (port : Nat) (client : Nat) (frame : Usdo)
  /-- USDO_SESSION_TIMEOUT: A session idle for over 1,000 ms is aborted. -/
  | usdoSessionTimeout (port : Nat) (client : Nat)
  /-- NMT_START: The NMT start command enters operational. -/
  | nmtStart (port : Nat)
  /-- NMT_STOP: The NMT stop command enters stopped. -/
  | nmtStop (port : Nat)
  /-- NMT_ENTER_PREOPERATIONAL: The NMT command enters pre-operational. -/
  | nmtEnterPreoperational (port : Nat)
  /-- NMT_RESET_NODE: Reset node restores the communication objects and enters pre-operational. -/
  | nmtResetNode (port : Nat)
  /-- NMT_RESET_COMMUNICATION: Reset communication restores 0x1000 to 0x1FFF and enters pre-operational. -/
  | nmtResetCommunication (port : Nat)
  /-- HEARTBEAT: The producer heartbeat time expires and a heartbeat is sent. -/
  | heartbeat
  /-- EMCY_INHIBIT_EXPIRY: The EMCY inhibit time ends and the next waiting message is sent. -/
  | emcyInhibitExpiry (port : Nat)
  /-- TPDO_INHIBIT_EXPIRY: A held TPDO is sent when its inhibit time ends. -/
  | tpdoInhibitExpiry (n : Nat)
  /-- TPDO_EVENT_TIMER: A TPDO's event timer expires and it is sent. -/
  | tpdoEventTimer (n : Nat)
  /-- BUS_OFF: A CAN port becomes bus-off. -/
  | busOff (port : Nat)
  /-- BUS_OFF_RECOVERY: A bus-off port recovers after 128 occurrences of 11 recessive bits. -/
  | busOffRecovery (port : Nat)
  /-- ESCALATION_EXPIRY: An unacknowledged source's escalation timer expires and its service target is applied. -/
  | escalationExpiry (n : Nat)
  /-- POND_WATCHDOG_TIMEOUT: A started command exceeds the pond watchdog time and sets source 14. -/
  | pondWatchdogTimeout (p : Nat)
  /-- SPARE_COPY_DONE: The spare's copy of banks, registers and tables completes. -/
  | spareCopyDone (ok : Bool)
  /-- MEMBER_EVACUATION_DONE: A member holds no allocated frame and becomes retired. -/
  | memberEvacuationDone (tier : Nat) (member : Nat)
  /-- POWER_PHASE_FAILURE: A core-rail phase faults, is switched off and sets source 61. -/
  | powerPhaseFailure
  /-- SERVICE_CORE_WATCHDOG: The service core watchdog goes unserved for 100 ms and the core restarts. -/
  | serviceCoreWatchdog
  /-- ACTIVATION_TIMEOUT: A new image fails to resume within 200 ms and the previous image is restarted. -/
  | activationTimeout
  /-- PERST_N_ASSERT: PERST_N asserted with PWR_OK high causes a chip reset. -/
  | perstNAssert
  /-- HOT_RESET: An in-band reset resets configuration, BARs, MSI-X, decoders and the snoop filter. -/
  | hotReset
  /-- LINK_TRAINED: The CXL link trains at 16 lanes or falls back to 8. -/
  | linkTrained (lanes : Nat) (speed : Nat)
  /-- CXL_LINK_DOWN: The CXL link goes down; tier-2 requests wait and the host lease ends. -/
  | cxlLinkDown
  /-- LINK_RETRAIN_TIMER: Every 100 ms a down link is retrained. -/
  | linkRetrainTimer
  /-- LINK_LOSS_TIMEOUT: Waiting tier-2 reads complete poisoned and writes are discarded. -/
  | linkLossTimeout
  /-- HOST_MEM_READ: A host CXL.mem read of the unified range is served. -/
  | hostMemRead (uda : Nat) (len : Nat) (hold : Nat)
  /-- HOST_MEM_WRITE: A host CXL.mem write reaches the ingress ordering point and completes. -/
  | hostMemWrite (uda : Nat) (data : List Byte)
  /-- SNOOP_RESPONSE: The host answers a back-invalidation and a waiting device write proceeds. -/
  | snoopResponse (line : Nat) (data : List Byte)
  /-- MODRST_N_RELEASE: MODRST_N released with PWR_OK high starts the boot ROM. -/
  | modrstNRelease (straps : Nat)
  /-- BOOT_STAGE_END: A boot stage completes and the next begins. -/
  | bootStageEnd (fails : List Nat)
  /-- VERIFY_DONE: The staged image's verification and flash write end with a result code. -/
  | verifyDone
  /-- GET_VERSION: SPDM request answered with the supported versions. -/
  | getVersion
  /-- GET_CAPABILITIES: SPDM request answered with capabilities. -/
  | getCapabilities
  /-- NEGOTIATE_ALGORITHMS: SPDM request answered with P-384 and SHA-384. -/
  | negotiateAlgorithms
  /-- GET_DIGESTS: SPDM request answered with certificate digests. -/
  | getDigests
  /-- GET_CERTIFICATE: SPDM request answered with the slot-0 chain. -/
  | getCertificate (slot : Nat)
  /-- CHALLENGE: SPDM challenge answered with an alias-key signature. -/
  | challenge (slot : Nat)
  /-- GET_MEASUREMENTS: SPDM request answered with the measurement blocks. -/
  | getMeasurements (index : Nat)
  /-- TAP_RESET: TRST_N or Test-Logic-Reset resets the TAP and selects IDCODE. -/
  | tapReset
  /-- EXTEST: The boundary register drives pins while MODRST_N is low. -/
  | extest (pins : Nat)
  /-- SAMPLE_PRELOAD: The boundary register samples or preloads pin values. -/
  | samplePreload (pins : Nat)
  /-- UNLOCK: Words of an unlock token are shifted in for verification. -/
  | unlock (word : F32)
  /-- DICT: The dictionary access register starts a read, write or poll of an object. -/
  | dict (dr : Nat)
  /-- DEBUG_STATUS: DBGCTL action 0 captures a pond's debug state. -/
  | debugStatus (p : Nat)
  /-- DEBUG_HALT: DBGCTL action 1 stops a pond's control core before its next command. -/
  | debugHalt (p : Nat)
  /-- DEBUG_RESUME: DBGCTL action 2 lets a halted pond continue fetching. -/
  | debugResume (p : Nat)
  /-- DEBUG_STEP: DBGCTL action 3 executes one command on a halted pond. -/
  | debugStep (p : Nat)
  /-- DEBUG_HALT_GANG: DBGCTL action 4 halts every pond of the gang. -/
  | debugHaltGang (p : Nat)
  /-- DEBUG_RELOCK: DBGCTL action 0xF returns the debug level to 0. -/
  | debugRelock (p : Nat)
  /-- POND_HALTED: A halting pond's pushed commands complete and it becomes halted. -/
  | pondHalted (p : Nat)
  /-- BRKPT: A breakpoint comparator is set or captured. -/
  | brkpt (dr : W64)
  /-- DBGMEM_READ: DBGMEM reads 8 bytes of UDA or a halted pond's buffer. -/
  | dbgmemRead (space : Nat) (p : Nat) (addr : Nat)
  /-- DBGMEM_WRITE: DBGMEM writes 8 bytes of UDA or a halted pond's buffer. -/
  | dbgmemWrite (space : Nat) (p : Nat) (addr : Nat) (data : W64)
  /-- WAKE_N_ASSERT: WAKE_N low for 1 µs is asserted and acts as a wake. -/
  | wakeNAssert (t : Nat)
  /-- SUPPLY_OUT_OF_RANGE: The averaged input leaves or re-enters 46.5 V to 55.5 V, changing source 60's cause. -/
  | supplyOutOfRange (out : Bool)
  /-- TEMPERATURE_HIGH: A sensor reaches or falls 5 °C below the high threshold, changing source 63's cause. -/
  | temperatureHigh (hot : Bool)
  /-- MSIX_UNMASK: The host unmasks an MSI-X vector whose pending bit is set, and one message is sent. -/
  | msixUnmask (v : Nat)
  /-- CHIP_ENGINE_UNIT_FAILED: An intake decoder, post-processing unit or fabric-engine lane fails its self-check and goes out of service, activating source 69. -/
  | chipEngineUnitFailed (cls : Nat) (unit : Nat)
  /-- IDCODE: The 32-bit IDCODE is captured. -/
  | idcode
  /-- LOCKSTAT: The debug level, disable fuse and failures are captured. -/
  | lockstat
  /-- NONCE: The current 256-bit unlock nonce is shifted out. -/
  | nonce
  /-- UNLOCK_VERIFY_DONE: A complete token is verified and the debug level raised or a failure counted. -/
  | unlockVerifyDone
  /-- DBGMEM_POLL: DBGMEM polls the status of the latest access. -/
  | dbgmemPoll
  /-- BYPASS: The one-bit bypass register is selected. -/
  | bypass
  /-- POWER_ENTRY_DONE: An entry to Still, Dormant or Standby completes, starting any held wake. -/
  | powerEntryDone
  /-- POWER_EXIT_DONE: An exit completes and the module is Active. -/
  | powerExitDone
  /-- WAKE_N_RELEASE: WAKE_N high for 1 µs releases the filtered level. -/
  | wakeNRelease
  /-- WAKE_TIMER_EXPIRY: The wake timer passes after entry and wakes the module. -/
  | wakeTimerExpiry
  /-- POND_POWER_UP: A paced interval lets up to 16 more ponds begin powering up. -/
  | pondPowerUp
  /-- SUPPLY_STOP: Input below 44 V for 1 ms or above 58 V stops the module by R414. -/
  | supplyStop
  /-- SUPPLY_RECOVERED: Input within limits for 100 ms lets the compute dies boot from B3. -/
  | supplyRecovered
  /-- TEMPERATURE_CRITICAL: A sensor at 110 °C or above activates source 64. -/
  | temperatureCritical
  /-- COOL_DOWN_RELEASE: Every sensor below 90 °C releases the hold at B3. -/
  | coolDownRelease
  /-- PWR_OK_FALL: A fall of PWR_OK acts as an assertion of MODRST_N. -/
  | pwrOkFall
  /-- MODRST_N_ASSERT: MODRST_N asserted resets the chip domain. -/
  | modrstNAssert
  /-- PERST_N_RELEASE: The release of PERST_N starts CXL link training, which is up within 30 ms. -/
  | perstNRelease
  /-- POWER_UP: The input enters 48 V to 54 V at insertion, inrush is limited and PWR_OK rises within 25 ms. -/
  | powerUp
  /-- POWER_STAGES_OFF: The input falls below 40.0 V, the power stages turn off and the tiers lose contents not yet in self-refresh. -/
  | powerStagesOff
  /-- WAKE_N_PULSE_FILTERED: WAKE_N returns high before it has been low for 1 µs, and the pulse is filtered and counted at 0x2F02.07. -/
  | wakeNPulseFiltered
  /-- SPDM_UNSUPPORTED_REQUEST: An SPDM request other than the seven supported ones receives ERROR with UnsupportedRequest. -/
  | spdmUnsupportedRequest
  deriving DecidableEq, Repr

end Sys2Proof
end

