-- ==== Sys2Proof/Decode.lean ====
section
/-! DEFINITION. Commands spelled by bits. The table of operations and events gives no row any bits: commands
arrive at the block's registers, links and pins, each in its own form, and no word spells one. -/

namespace Sys2Proof

/-- The command that a word spells by the bits of the table: none, since no row of the table has bits. -/
def decodeTableWord (nbits w : Nat) : Option Instr :=
  match nbits, w with
  | _, _ => none

end Sys2Proof
end

