-- ==== Sys2Proof/Config.lean ====
section
/-! DEFINITION. The values that the manual leaves open. Each is a constant without a body: no proof can see
what it is, so a claim holds whatever it is (assumption log 10). -/

namespace Sys2Proof

/-- A value that nothing constrains, the n-th one. -/
opaque Config.freeWord : Nat → BitVec 64

/-- Results of the vector functions within their bounds (04 R97, Table VEC-4), by opcode and operand. -/
opaque Config.vectorFn : Nat → F32 → F32

/-- The sign and payload bits of the NaN patterns that the matrix array forms (03 R63, R65: IEEE 754 leaves them open). -/
opaque Config.nanBits : F32

/-- What an operand with selector none reads as (04 Table VEC-1). -/
opaque Config.noOperand : F32

/-- Results of the gate functions within their bounds (04 R106), by function and operand. -/
opaque Config.gateFn : Nat → F32 → F32

/-- Pictures decoded from a coded unit (09 R261, R263; outside documents), by codec, context number, count of
the picture and the unit's bytes: the value of a sample by its index. -/
opaque Config.decodedSample : Nat → Nat → Nat → List Byte → Nat → Nat

/-- What a decoder finds in the syntax of a coded unit (09 R263), by codec, state words, unit's bytes and
index. -/
opaque Config.decodedInfo : Nat → List Nat → List Byte → Nat → Nat

/-- Whether an ECDSA P-384 signature verifies: key slot, signed bytes, signature (16 R444). -/
opaque Config.ecdsaValid : Nat → List Byte → List Byte → Bool

/-- Whether an LMS signature verifies: key slot, signed bytes, signature (16 R444). -/
opaque Config.lmsValid : Nat → List Byte → List Byte → Bool

/-- SHA-384 (16 R443): an outside document. -/
opaque Config.sha384 : List Byte → List Byte

/-- The n-th nonce of 32 bytes (16 R453). -/
opaque Config.nonce : Nat → List Byte

/-- Certificates and signatures of attestation (16 R448, R449), by kind and the data they rest on. -/
opaque Config.attest : Nat → List Byte → List Byte

/-- The firmware image that a device's flash slot holds at shipment (16 R441). -/
opaque Config.shippedImage : Nat → List Byte

/-- Whether a flash write fails (16 R447). -/
opaque Config.flashFails : Nat → Bool

/-- The row of a pseudo-channel in which a byte of it lies, the bank of a row, and the spare rows of a bank (15 R421,
R422; the address mapping within a pseudo-channel is not stated). -/
opaque Config.rowOf : Nat → Nat → Nat
opaque Config.bankOf : Nat → Nat → Nat
opaque Config.spareRows : Nat → Nat → Nat

/-- What a margin measurement finds (10 R308), by the number of the measurement, tier, member and quantity. -/
opaque Config.eye : Nat → Nat → Nat → Nat → Nat

/-- What a sensor reads (17 Table PWR-8, 0x2F20), by object and tick. -/
opaque Config.sensor : Nat → Nat → Nat

/-- Whether the host rejects the n-th mirror write (16 R435). -/
opaque Config.mirrorRejected : Nat → Bool

/-- What an accumulator (by index) or a vector register (from 2^20 on) holds after a retention that loses it (17 Table
PWR-1), by the number of the loss, pond and index. -/
opaque Config.lostValue : Nat → Nat → Nat → F32

/-- Whether a DBGMEM space to which the manual gives no meaning addresses the instruction banks (16 R456). -/
opaque Config.bankSpace : Nat → Bool

/-- Event codes of trace records to which no table gives a number (05 R139, R143; 04 R110), by event. -/
opaque Config.traceCode : Nat → Nat

/-- Granules that the copy of an extent has done, at most one for each 4 clk, by the number of the free value (10 R287, R288:
the rate is given as a bound only). -/
opaque Config.copyCursor : Nat → Nat

/-- Clk from go to the end of a mailbox access, at most 2 ms, by the number of the free value (14 R390). -/
opaque Config.mailboxTime : Nat → Nat

/-- A fold of the numerics unit has not finished by an edge, by the number of the free value and the record (11 R316: the spec gives no
time for a fold). -/
opaque Config.foldLate : Nat → Nat → Bool

/-- Symbols that the forward error correction of a brook has corrected in a window, and codewords that it could not correct at a flit
that fails its check (12 Table FAB-11), by the number of the free value. -/
opaque Config.correctedSymbols : Nat → Nat
opaque Config.badCodewords : Nat → Nat

end Sys2Proof
end

