-- ==== Sys2Proof/Machine/Maps.lean ====
section
/-! DEFINITION. Sparse maps with natural keys in one canonical form: keys strictly rising, no listed value
equal to the default. Memory, registers and every indexed table of the block are held this way, so that
equal contents are equal data. -/

namespace Sys2Proof.Machine

/-- The value at key `k`; the default where the key is unlisted. -/
def mapFind {α : Type} (d : α) : NMap α → Nat → α
  | [], _ => d
  | (k', v) :: rest, k => if k = k' then v else if k < k' then d else mapFind d rest k

/-- The map with key `k` unlisted. -/
def mapErase {α : Type} : NMap α → Nat → NMap α
  | [], _ => []
  | (k', v) :: rest, k =>
    if k = k' then rest else if k < k' then (k', v) :: rest else (k', v) :: mapErase rest k

/-- The map with key `k` listed at value `v`. -/
def mapInsert {α : Type} : NMap α → Nat → α → NMap α
  | [], k, v => [(k, v)]
  | (k', v') :: rest, k, v =>
    if k = k' then (k, v) :: rest
    else if k < k' then (k, v) :: (k', v') :: rest
    else (k', v') :: mapInsert rest k v

/-- The map that reads `v` at `k` and as before elsewhere; the canonical form is kept. -/
def mapPut {α : Type} [DecidableEq α] (d : α) (m : NMap α) (k : Nat) (v : α) : NMap α :=
  if v = d then mapErase m k else mapInsert m k v

/-- The map with the value at `k` passed through `f`. -/
def mapModify {α : Type} [DecidableEq α] (d : α) (m : NMap α) (k : Nat) (f : α → α) : NMap α :=
  mapPut d m k (f (mapFind d m k))

/-- The map with every listed value passed through `f`. -/
def mapAll {α : Type} [DecidableEq α] (d : α) (f : α → α) (m : NMap α) : NMap α :=
  (m.map fun e => (e.1, f e.2)).filter fun e => decide (e.2 ≠ d)

/-- The map with every key in `[lo, hi)` unlisted. -/
def mapEraseRange {α : Type} (m : NMap α) (lo hi : Nat) : NMap α :=
  m.filter fun e => !(decide (lo ≤ e.1) && decide (e.1 < hi))

/-- The canonical form. -/
def mapWf {α : Type} [DecidableEq α] (d : α) : NMap α → Bool
  | [] => true
  | [(_, v)] => decide (v ≠ d)
  | (k, v) :: (k', v') :: rest =>
    decide (v ≠ d) && decide (k < k') && mapWf d ((k', v') :: rest)

/-- The keys of a map rise strictly. -/
def MapSorted {α : Type} (m : NMap α) : Prop := m.Pairwise fun a b => a.1 < b.1

/-- The keys that the map lists. -/
def mapKeys {α : Type} (m : NMap α) : List Nat := m.map (·.1)

/-- `n` consecutive values from key `k`. -/
def mapRead {α : Type} (d : α) (m : NMap α) (k : Nat) : Nat → List α
  | 0 => []
  | n + 1 => mapFind d m k :: mapRead d m (k + 1) n

/-- Consecutive values stored from key `k` upward. -/
def mapWrite {α : Type} [DecidableEq α] (d : α) (m : NMap α) (k : Nat) : List α → NMap α
  | [] => m
  | v :: vs => mapWrite d (mapPut d m k v) (k + 1) vs

/-- Bits `[hi:lo]` of a natural number (00 R4: bit 0 is the least significant). -/
def bits (w hi lo : Nat) : Nat := (w >>> lo) % 2 ^ (hi + 1 - lo)

/-- One bit of a natural number. -/
def bitAt (w i : Nat) : Bool := Nat.testBit w i

/-- The number with bit `i` set to `b`. -/
def withBit (w i : Nat) (b : Bool) : Nat :=
  if Nat.testBit w i then (if b then w else w - 2 ^ i) else (if b then w + 2 ^ i else w)

/-- Little-endian value of a byte list (00 R4). -/
def leValue : List Byte → Nat
  | [] => 0
  | b :: bs => b.toNat + 256 * leValue bs

/-- The `n` little-endian bytes of a value (00 R4). -/
def leBytes (v : Nat) : Nat → List Byte
  | 0 => []
  | n + 1 => BitVec.ofNat 8 v :: leBytes (v / 256) n

/-- Two's complement reading of an `n`-bit field. -/
def signedOf (n w : Nat) : Int :=
  let v := w % 2 ^ n
  if v < 2 ^ (n - 1) then (v : Int) else (v : Int) - 2 ^ n

/-- The `n`-bit two's complement field of an integer. -/
def fieldOf (n : Nat) (i : Int) : Nat := (i % (2 ^ n : Int)).toNat

/-- The least element of a list by a key, the first one among equals. -/
def minBy {α : Type} (key : α → Nat) : List α → Option α
  | [] => none
  | a :: as =>
    match minBy key as with
    | none => some a
    | some b => if key a ≤ key b then some a else some b

/-- `a / b` rounded up; 0 for a divisor of 0. -/
def ceilDiv (a b : Nat) : Nat := (a + b - 1) / b

/-- `f` applied to `0 … n − 1` in rising order, threading a state. -/
def forUpTo {σ : Type} (n : Nat) (f : Nat → σ → σ) (s : σ) : σ :=
  (List.range n).foldl (fun a i => f i a) s

/-- `f` applied to each element of a list in order, threading a state. -/
def forEach {α σ : Type} (l : List α) (f : α → σ → σ) (s : σ) : σ :=
  l.foldl (fun a x => f x a) s

end Sys2Proof.Machine
end

