-- ==== Sys2Proof/Machine/DictTable.lean ====
section
/-! DEFINITION. The objects of the dictionary, read row by row from the object tables of the chapters
(14 R373, R374): index range, sub-index range, type, access, default, range of accepted values, whether a
write needs the setup regime, and whether a read gives the value captured at the last used edge (03 R87). -/

namespace Sys2Proof.Machine

/-- Data types of the dictionary (14 Table DIC-2). -/
inductive ObjType where
  | bool
  | u8
  | u16
  | u32
  | u64
  | i32
  | r32
  | str
  | dom
  deriving DecidableEq, Repr

/-- Access codes (14 Table DIC-3). -/
inductive Access where
  | const
  | ro
  | wo
  | rw
  | rwo
  deriving DecidableEq, Repr

/-- One row of the object tables. -/
structure ObjRow where
  ilo : Nat
  ihi : Nat
  slo : Nat
  shi : Nat
  type : ObjType
  access : Access
  default : Nat
  lo : Nat
  hi : Nat
  setup : Bool
  captured : Bool
  deriving DecidableEq, Repr

/-- Size of a type in bytes (14 Table DIC-2); 0 for the types of varying length. -/
def typeSize : ObjType → Nat
  | .bool => 1
  | .u8 => 1
  | .u16 => 2
  | .u32 => 4
  | .u64 => 8
  | .i32 => 4
  | .r32 => 4
  | .str => 0
  | .dom => 0

/-- A row for one index. -/
def row1 (i slo shi : Nat) (t : ObjType) (a : Access) (d : Nat) (lo hi : Nat) (setup cap : Bool) : ObjRow :=
  { ilo := i, ihi := i, slo := slo, shi := shi, type := t, access := a, default := d, lo := lo, hi := hi,
    setup := setup, captured := cap }

/-- A row for a run of indices. -/
def rowN (ilo ihi slo shi : Nat) (t : ObjType) (a : Access) (d : Nat) (lo hi : Nat) (setup cap : Bool) :
    ObjRow :=
  { ilo := ilo, ihi := ihi, slo := slo, shi := shi, type := t, access := a, default := d, lo := lo, hi := hi,
    setup := setup, captured := cap }

/-- Objects of indices 0x1000 to 0x10FF (chapter 14). -/
def rows10 : List ObjRow := [
  row1 0x1000 0 0 .u32 .const 0 0 0xffffffff false false,
  row1 0x1001 0 0 .u8 .ro 0 0 255 false false,
  row1 0x1008 0 0 .str .const 0 0 0 false false,
  row1 0x1014 0 0 .u32 .rwo 0 0 0xffffffff false false,
  row1 0x1015 0 0 .u16 .rwo 10 0 0xffff false false,
  row1 0x1017 0 0 .u16 .rwo 100 0 0xffff false false,
  row1 0x1018 1 1 .u32 .const 3415 0 0xffffffff false false,
  row1 0x1018 2 4 .u32 .const 0 0 0xffffffff false false]

/-- Objects of indices 0x1800 to 0x18FF (chapter 14). -/
def rows18 : List ObjRow := [
  rowN 0x1800 0x1803 1 1 .u32 .rwo 0 0 0xffffffff false false,
  rowN 0x1800 0x1803 2 2 .u8 .const 254 0 255 false false,
  rowN 0x1800 0x1803 3 3 .u16 .rwo 100 0 0xffff false false,
  rowN 0x1800 0x1803 5 5 .u16 .rwo 1000 0 0xffff false false]

/-- Objects of indices 0x1A00 to 0x1AFF (chapter 14). -/
def rows1A : List ObjRow := [
  row1 0x1a00 1 1 .u32 .const 0x22020140 0 0xffffffff false false,
  row1 0x1a00 2 2 .u32 .const 0x22030140 0 0xffffffff false false,
  row1 0x1a00 3 3 .u32 .const 0x22030240 0 0xffffffff false false,
  row1 0x1a00 4 4 .u32 .const 0x22030340 0 0xffffffff false false,
  row1 0x1a00 5 5 .u32 .const 0x22030940 0 0xffffffff false false,
  row1 0x1a00 6 6 .u32 .const 0x22030a40 0 0xffffffff false false,
  row1 0x1a01 1 1 .u32 .const 0x50000f40 0 0xffffffff false false,
  row1 0x1a01 2 2 .u32 .const 0x50001040 0 0xffffffff false false,
  row1 0x1a01 3 3 .u32 .const 0x22020408 0 0xffffffff false false,
  row1 0x1a01 4 4 .u32 .const 0x31010710 0 0xffffffff false false,
  row1 0x1a01 5 5 .u32 .const 0x31010820 0 0xffffffff false false,
  row1 0x1a02 1 1 .u32 .const 0x2a040620 0 0xffffffff false false,
  row1 0x1a02 2 2 .u32 .const 0x2a020110 0 0xffffffff false false,
  row1 0x1a02 3 3 .u32 .const 0x2a020508 0 0xffffffff false false,
  row1 0x1a02 4 4 .u32 .const 0x21200208 0 0xffffffff false false,
  row1 0x1a02 5 5 .u32 .const 0x2a040a40 0 0xffffffff false false,
  row1 0x1a02 6 6 .u32 .const 0x2a040840 0 0xffffffff false false,
  row1 0x1a03 1 1 .u32 .const 0x2c050740 0 0xffffffff false false,
  row1 0x1a03 2 2 .u32 .const 0x2c050840 0 0xffffffff false false,
  row1 0x1a03 3 3 .u32 .const 0x2c050940 0 0xffffffff false false,
  row1 0x1a03 4 4 .u32 .const 0x2c050b40 0 0xffffffff false false]

/-- Objects of indices 0x2000 to 0x20FF (chapter 01, 16). -/
def rows20 : List ObjRow := [
  row1 0x2000 1 3 .str .const 0 0 0 false false,
  row1 0x2000 4 4 .u64 .const 0 0 0xffffffffffffffff false false,
  row1 0x2000 5 6 .u16 .const 0 0 0xffff false false,
  row1 0x2001 1 2 .u32 .ro 0 0 0xffffffff false false,
  row1 0x2001 3 3 .u8 .ro 0 0 255 false false,
  row1 0x2001 4 4 .dom .ro 0 0 0 false false,
  row1 0x2010 1 2 .dom .const 0 0 0 false false,
  row1 0x2010 3 3 .dom .ro 0 0 0 false false,
  row1 0x2080 0 0 .u8 .const 10 0 255 false false,
  row1 0x2080 1 1 .u8 .const 0 0 255 false false,
  row1 0x2080 2 2 .u16 .const 0 0 0xffff false false,
  row1 0x2080 3 3 .u16 .const 16 0 0xffff false false,
  row1 0x2080 4 5 .u16 .const 0 0 0xffff false false,
  row1 0x2080 6 7 .u8 .const 0 0 255 false false,
  row1 0x2080 8 10 .u64 .const 0 0 0xffffffffffffffff false false]

/-- Objects of indices 0x2100 to 0x21FF (chapter 01). -/
def rows21 : List ObjRow := [
  row1 0x2101 0 0 .u8 .const 128 0 255 false false,
  row1 0x2101 1 128 .u8 .ro 0 0 255 false false,
  row1 0x2102 1 128 .u8 .rwo 0 0 255 false false,
  row1 0x2103 1 128 .u8 .ro 0 0 255 false false,
  row1 0x2110 1 1 .bool .rwo 0 0 1 false false,
  row1 0x2110 2 2 .u8 .ro 255 0 255 false false,
  row1 0x2110 3 3 .u64 .ro 0 0 0xffffffffffffffff false false,
  row1 0x2120 1 1 .u8 .rwo 255 0 255 true false,
  row1 0x2120 2 2 .u8 .ro 16 0 255 false false,
  row1 0x2120 3 3 .u16 .ro 0 0 0xffff false false]

/-- Objects of indices 0x2200 to 0x22FF (chapter 02). -/
def rows22 : List ObjRow := [
  row1 0x2200 1 1 .u8 .rwo 0 0 1 false false,
  row1 0x2200 2 2 .u8 .ro 0 0 255 false false,
  row1 0x2200 3 3 .u8 .rwo 0 0 1 false false,
  row1 0x2200 4 4 .bool .rwo 0 0 1 false false,
  row1 0x2200 5 5 .u8 .ro 255 0 255 false false,
  row1 0x2200 6 6 .u32 .ro 0 0 0xffffffff false false,
  row1 0x2200 7 8 .u64 .ro 0 0 0xffffffffffffffff false false,
  row1 0x2201 1 1 .u32 .rwo 0x2710 250 0xf4240 false false,
  row1 0x2201 2 2 .u32 .rwo 9900 250 0xf4240 false false,
  row1 0x2201 3 3 .u16 .rwo 50 10 500 false false,
  row1 0x2201 4 4 .u32 .ro 0xbebc20 0 0xffffffff false false,
  row1 0x2201 5 5 .u32 .ro 0xb4ee5c 0 0xffffffff false false,
  row1 0x2201 6 6 .u32 .ro 0xb532b8 0 0xffffffff false false,
  row1 0x2201 7 7 .u32 .const 0x445c 0 0xffffffff false false,
  row1 0x2201 8 8 .u32 .const 0x30d4 0 0xffffffff false false,
  row1 0x2202 1 1 .u64 .ro 0 0 0xffffffffffffffff false false,
  row1 0x2202 2 3 .u32 .ro 0 0 0xffffffff false false,
  row1 0x2202 4 4 .u8 .ro 0 0 255 false false,
  row1 0x2203 1 10 .u64 .ro 0 0 0xffffffffffffffff false false,
  row1 0x2204 1 2 .u64 .ro 0 0 0xffffffffffffffff false false,
  row1 0x2204 3 3 .i32 .ro 0 0 0xffffffff false false,
  row1 0x2204 4 5 .u64 .ro 0 0 0xffffffffffffffff false false,
  row1 0x2205 1 1 .u64 .ro 0xff0080000000 0 0xffffffffffffffff false false,
  row1 0x2205 2 2 .u32 .rwo 4096 256 0x10000 true false,
  row1 0x2205 3 3 .u64 .ro 0xff0180000000 0 0xffffffffffffffff false false,
  row1 0x2205 4 4 .u32 .rwo 4096 256 0x10000 true false,
  row1 0x2205 5 5 .u64 .ro 0xff02ab200000 0 0xffffffffffffffff false false,
  row1 0x2205 6 6 .u64 .ro 0xff02ab400000 0 0xffffffffffffffff false false,
  row1 0x2205 7 7 .u16 .const 256 0 0xffff false false,
  row1 0x2205 8 8 .u16 .ro 0 0 0xffff false false,
  row1 0x2205 9 9 .u64 .ro 0 0 0xffffffffffffffff false false,
  row1 0x2207 1 1 .bool .rwo 0 0 1 false false]

/-- Objects of indices 0x2300 to 0x23FF (chapter 03). -/
def rows23 : List ObjRow := [
  row1 0x2300 0 0 .u8 .const 6 0 255 false false,
  row1 0x2300 1 1 .u32 .rwo 0x4000 256 0x40000000 false false,
  row1 0x2300 2 2 .u16 .const 524 0 0xffff false false,
  row1 0x2300 3 3 .u16 .const 256 0 0xffff false false,
  row1 0x2300 4 4 .u16 .const 512 0 0xffff false false,
  row1 0x2300 5 5 .u8 .const 16 0 255 false false,
  row1 0x2300 6 6 .u16 .const 287 0 0xffff false false,
  row1 0x2301 0 0 .u8 .const 5 0 255 false false,
  row1 0x2301 1 5 .u64 .ro 0 0 0xffffffffffffffff false true,
  row1 0x2310 0 0 .u8 .const 128 0 255 false false,
  row1 0x2310 1 128 .u64 .rwo 0 0 0xffffffffffffffff false false]

/-- Objects of indices 0x2400 to 0x24FF (chapter 04). -/
def rows24 : List ObjRow := [
  row1 0x2400 0 0 .u8 .const 8 0 255 false false,
  row1 0x2400 1 1 .u16 .const 256 0 0xffff false false,
  row1 0x2400 2 2 .u8 .const 32 0 255 false false,
  row1 0x2400 3 3 .u8 .const 12 0 255 false false,
  row1 0x2400 4 4 .u8 .const 4 0 255 false false,
  row1 0x2400 5 5 .u8 .const 28 0 255 false false,
  row1 0x2400 6 6 .u8 .const 40 0 255 false false,
  row1 0x2400 7 7 .u16 .const 256 0 0xffff false false,
  row1 0x2400 8 8 .u8 .const 16 0 255 false false,
  row1 0x2401 0 0 .u8 .const 7 0 255 false false,
  row1 0x2401 1 7 .u64 .ro 0 0 0xffffffffffffffff false true,
  row1 0x2402 0 0 .u8 .const 6 0 255 false false,
  row1 0x2402 1 6 .u64 .ro 0 0 0xffffffffffffffff false true,
  row1 0x2403 0 0 .u8 .const 2 0 255 false false,
  row1 0x2403 1 2 .u64 .ro 0 0 0xffffffffffffffff false true]

/-- Objects of indices 0x2500 to 0x25FF (chapter 05). -/
def rows25 : List ObjRow := [
  row1 0x2500 0 0 .u8 .const 7 0 255 false false,
  row1 0x2500 1 1 .u16 .const 256 0 0xffff false false,
  row1 0x2500 2 2 .u8 .const 2 0 255 false false,
  row1 0x2500 3 3 .u16 .const 256 0 0xffff false false,
  row1 0x2500 4 4 .u8 .const 32 0 255 false false,
  row1 0x2500 5 5 .u64 .ro 0xff02a8000000 0 0xffffffffffffffff false false,
  row1 0x2500 6 6 .u32 .const 0x40000 0 0xffffffff false false,
  row1 0x2500 7 7 .u8 .const 8 0 255 false false,
  row1 0x2501 0 0 .u8 .const 12 0 255 false false,
  row1 0x2501 1 3 .u64 .ro 0 0 0xffffffffffffffff false true,
  row1 0x2501 4 4 .u32 .ro 0 0 0xffffffff false false,
  row1 0x2501 5 12 .u64 .ro 0 0 0xffffffffffffffff false true,
  row1 0x2502 0 0 .u8 .const 7 0 255 false false,
  row1 0x2502 1 7 .u64 .ro 0 0 0xffffffffffffffff false true,
  row1 0x2503 0 0 .u8 .const 128 0 255 false false,
  row1 0x2503 1 128 .u16 .ro 0 0 0xffff false false]

/-- Objects of indices 0x2600 to 0x26FF (chapter 06). -/
def rows26 : List ObjRow := [
  row1 0x2600 0 0 .u8 .const 12 0 255 false false,
  row1 0x2600 1 1 .u32 .const 0x8000 0 0xffffffff false false,
  row1 0x2600 2 2 .u8 .const 2 0 255 false false,
  row1 0x2600 3 3 .u16 .const 256 0 0xffff false false,
  row1 0x2600 4 4 .u8 .const 16 0 255 false false,
  row1 0x2600 5 5 .u8 .const 8 0 255 false false,
  row1 0x2600 6 6 .u8 .const 64 0 255 false false,
  row1 0x2600 7 8 .u8 .const 32 0 255 false false,
  row1 0x2600 9 9 .u64 .ro 0xff0000000000 0 0xffffffffffffffff false false,
  row1 0x2600 10 10 .u32 .const 0x800000 0 0xffffffff false false,
  row1 0x2600 11 11 .u64 .ro 0xff02ab480000 0 0xffffffffffffffff false false,
  row1 0x2600 12 12 .u64 .ro 0xff02ab440000 0 0xffffffffffffffff false false,
  row1 0x2601 0 0 .u8 .const 12 0 255 false false,
  row1 0x2601 1 12 .u64 .ro 0 0 0xffffffffffffffff false true,
  row1 0x2602 1 2 .u64 .ro 0 0 0xffffffffffffffff false false,
  row1 0x2610 1 2 .u8 .rwo 0 0 255 false false,
  row1 0x2610 3 3 .bool .rwo 0 0 1 false false,
  row1 0x2610 4 5 .u8 .ro 255 0 255 false false,
  row1 0x2610 6 6 .u16 .ro 0xffff 0 0xffff false false,
  row1 0x2610 7 7 .u64 .ro 0 0 0xffffffffffffffff false false,
  row1 0x2611 1 1 .u8 .rwo 0 0 255 false false,
  row1 0x2611 2 3 .bool .rwo 0 0 1 false false,
  row1 0x2611 4 4 .u8 .ro 255 0 255 false false,
  row1 0x2611 5 5 .u64 .ro 0 0 0xffffffffffffffff false false,
  row1 0x2612 1 128 .u8 .ro 0 0 255 false false,
  row1 0x2613 1 2 .u64 .ro 0 0 0xffffffffffffffff false true,
  row1 0x2620 1 1 .u64 .ro 0xff02aa000000 0 0xffffffffffffffff false false,
  row1 0x2620 2 2 .u16 .const 4096 0 0xffff false false,
  row1 0x2620 3 3 .u8 .rwo 0 0 255 false false,
  row1 0x2620 4 4 .u16 .rwo 0 0 0xffff false false,
  row1 0x2620 5 6 .u64 .ro 0 0 0xffffffffffffffff false true,
  row1 0x2621 1 128 .u16 .ro 0 0 0xffff false false,
  row1 0x2630 1 1 .u8 .rwo 0 0 255 false false,
  row1 0x2631 1 32 .u64 .ro 0 0 0xffffffffffffffff false true,
  row1 0x2632 1 32 .u64 .ro 0 0 0xffffffffffffffff false true]

/-- Objects of indices 0x2700 to 0x27FF (chapter 07). -/
def rows27 : List ObjRow := [
  row1 0x2700 1 1 .u64 .ro 0xff02ab000000 0 0xffffffffffffffff false false,
  row1 0x2700 2 2 .u64 .ro 0xff0280000000 0 0xffffffffffffffff false false,
  row1 0x2700 3 3 .u64 .ro 0xff02a0000000 0 0xffffffffffffffff false false,
  row1 0x2700 4 4 .u64 .ro 0xff02ab410000 0 0xffffffffffffffff false false,
  row1 0x2700 5 5 .u16 .const 4096 0 0xffff false false,
  row1 0x2700 6 6 .u64 .ro 0xff02ab430000 0 0xffffffffffffffff false false,
  row1 0x2700 7 7 .u64 .ro 0 0 0xffffffffffffffff false false,
  row1 0x2700 8 8 .u32 .const 0x40000 0 0xffffffff false false,
  row1 0x2701 1 5 .u16 .ro 0 0 0xffff false false,
  row1 0x2702 1 1 .u64 .ro 0xff1000000000 0 0xffffffffffffffff false false,
  row1 0x2702 2 2 .u32 .rwo 0x40000 4096 0x40000000 true false,
  row1 0x2703 1 6 .u64 .ro 0 0 0xffffffffffffffff false true,
  row1 0x2703 7 7 .u32 .ro 0 0 0xffffffff false false,
  rowN 0x2710 0x2713 1 1 .u64 .rwo 0 0 0xffffffffffffffff true false,
  rowN 0x2710 0x2713 2 2 .u16 .rwo 0 0 0x4000 true false,
  rowN 0x2710 0x2713 3 3 .u32 .rwo 0 0 0x400000 true false,
  rowN 0x2710 0x2713 4 5 .u32 .ro 0 0 0xffffffff false false,
  rowN 0x2710 0x2713 6 6 .u32 .rwo 0 0 0xffffffff true false,
  rowN 0x2710 0x2713 7 9 .u64 .ro 0 0 0xffffffffffffffff false true,
  row1 0x2720 1 10 .u64 .ro 0 0 0xffffffffffffffff false true,
  row1 0x2720 11 12 .u32 .ro 0 0 0xffffffff false false]

/-- Objects of indices 0x2800 to 0x28FF (chapter 08). -/
def rows28 : List ObjRow := [
  row1 0x2800 0 0 .u8 .const 5 0 255 false false,
  row1 0x2800 1 1 .u8 .const 4 0 255 false false,
  row1 0x2800 2 2 .u8 .const 8 0 255 false false,
  row1 0x2800 3 3 .u8 .const 40 0 255 false false,
  row1 0x2800 4 5 .u16 .const 4096 0 0xffff false false,
  row1 0x2801 0 0 .u8 .const 10 0 255 false false,
  row1 0x2801 1 10 .u64 .ro 0 0 0xffffffffffffffff false true]

/-- Objects of indices 0x2900 to 0x29FF (chapter 09). -/
def rows29 : List ObjRow := [
  row1 0x2900 0 0 .u8 .const 7 0 255 false false,
  row1 0x2900 1 1 .u8 .const 64 0 255 false false,
  row1 0x2900 2 2 .r32 .const 0x3fcccccd 0 0xffffffff false false,
  row1 0x2900 3 3 .r32 .const 0x404ccccd 0 0xffffffff false false,
  row1 0x2900 4 4 .u16 .const 2500 0 0xffff false false,
  row1 0x2900 5 5 .u16 .const 0x4000 0 0xffff false false,
  row1 0x2900 6 6 .u16 .const 4096 0 0xffff false false,
  row1 0x2900 7 7 .u16 .const 2000 0 0xffff false false,
  row1 0x2901 0 0 .u8 .const 8 0 255 false false,
  row1 0x2901 1 8 .u64 .ro 0 0 0xffffffffffffffff false true,
  row1 0x2902 0 0 .u8 .const 8 0 255 false false,
  row1 0x2902 1 8 .u64 .ro 0 0 0xffffffffffffffff false true,
  row1 0x2903 1 1 .u64 .ro 0 0 0xffffffffffffffff false true,
  row1 0x2910 1 64 .u32 .ro 0 0 0xffffffff false false]

/-- Objects of indices 0x2A00 to 0x2AFF (chapter 10). -/
def rows2A : List ObjRow := [
  row1 0x2a00 0 0 .u8 .const 12 0 255 false false,
  row1 0x2a00 1 1 .u32 .const 0x3b9ac 0 0xffffffff false false,
  row1 0x2a00 2 2 .u32 .const 2580 0 0xffffffff false false,
  row1 0x2a00 3 3 .u32 .const 0x746a5 0 0xffffffff false false,
  row1 0x2a00 4 4 .u32 .const 0x40db 0 0xffffffff false false,
  row1 0x2a00 5 5 .u32 .const 0x200000 0 0xffffffff false false,
  row1 0x2a00 6 6 .u16 .const 128 0 0xffff false false,
  row1 0x2a00 7 7 .u32 .const 0x10000 0 0xffffffff false false,
  row1 0x2a00 8 8 .u16 .const 256 0 0xffff false false,
  row1 0x2a00 9 9 .u64 .rwo 0 0 0xffffffffffffffff true false,
  row1 0x2a00 10 10 .u32 .rwo 0 0 0x2000000 true false,
  row1 0x2a00 11 11 .u64 .const 0xff0000000000 0 0xffffffffffffffff false false,
  row1 0x2a00 12 12 .u16 .const 512 0 0xffff false false,
  row1 0x2a01 1 1 .u64 .ro 0xff0300000000 0 0xffffffffffffffff false false,
  row1 0x2a01 2 2 .u64 .ro 0xff0340000000 0 0xffffffffffffffff false false,
  row1 0x2a01 3 3 .u64 .ro 0xff0340040000 0 0xffffffffffffffff false false,
  row1 0x2a01 4 4 .u16 .const 1024 0 0xffff false false,
  row1 0x2a01 5 5 .u64 .ro 0xff0340050000 0 0xffffffffffffffff false false,
  row1 0x2a01 6 6 .u64 .ro 0 0 0xffffffffffffffff false false,
  row1 0x2a01 7 7 .u64 .ro 0xff0340200000 0 0xffffffffffffffff false false,
  row1 0x2a02 1 1 .u16 .ro 512 0 0xffff false false,
  row1 0x2a02 2 2 .u32 .ro 0x3b9ac 0 0xffffffff false false,
  row1 0x2a02 3 3 .u32 .ro 0 0 0xffffffff false false,
  row1 0x2a02 4 4 .u32 .ro 607 0 0xffffffff false false,
  row1 0x2a02 5 5 .u8 .ro 16 0 255 false false,
  row1 0x2a02 6 6 .u32 .ro 0x746a5 0 0xffffffff false false,
  row1 0x2a02 7 8 .u32 .ro 0 0 0xffffffff false false,
  row1 0x2a03 1 6 .u64 .ro 0 0 0xffffffffffffffff false true,
  row1 0x2a04 1 5 .u64 .ro 0 0 0xffffffffffffffff false true,
  row1 0x2a04 6 6 .u32 .ro 0 0 0xffffffff false false,
  row1 0x2a04 7 13 .u64 .ro 0 0 0xffffffffffffffff false true,
  row1 0x2a05 1 8 .u64 .ro 0 0 0xffffffffffffffff false true,
  row1 0x2a10 1 7 .u64 .ro 0 0 0xffffffffffffffff false true,
  row1 0x2a11 1 7 .u64 .ro 0 0 0xffffffffffffffff false true,
  row1 0x2a12 1 7 .u64 .ro 0 0 0xffffffffffffffff false true,
  row1 0x2a20 1 1 .u8 .rwo 0 0 1 false false,
  row1 0x2a20 2 2 .u16 .rwo 0 0 511 false false,
  row1 0x2a20 3 3 .u8 .rwo 2 0 2 false false,
  row1 0x2a20 4 4 .bool .rwo 0 0 1 false false,
  row1 0x2a20 5 5 .u8 .ro 255 0 255 false false,
  row1 0x2a20 6 7 .u16 .ro 0 0 0xffff false false,
  row1 0x2a20 8 9 .i32 .ro 0 0 0xffffffff false false,
  row1 0x2a30 1 1 .u8 .rw 0 0 1 false false,
  row1 0x2a30 2 2 .u16 .rw 0 0 511 false false,
  row1 0x2a30 3 3 .u8 .ro 0 0 255 false false,
  row1 0x2a30 4 5 .u64 .ro 0 0 0xffffffffffffffff false true,
  row1 0x2a30 6 7 .u16 .ro 0 0 0xffff false false,
  row1 0x2a30 8 8 .u64 .ro 0 0 0xffffffffffffffff false true]

/-- Objects of indices 0x2B00 to 0x2BFF (chapter 11). -/
def rows2B : List ObjRow := [
  row1 0x2b00 0 0 .u8 .const 5 0 255 false false,
  row1 0x2b00 1 1 .u16 .const 1024 0 0xffff false false,
  row1 0x2b00 2 2 .u8 .const 64 0 255 false false,
  row1 0x2b00 3 3 .u32 .const 0x880000 0 0xffffffff false false,
  row1 0x2b00 4 4 .u8 .const 8 0 255 false false,
  row1 0x2b00 5 5 .u16 .const 1024 0 0xffff false false,
  row1 0x2b01 0 0 .u8 .const 7 0 255 false false,
  row1 0x2b01 1 1 .u64 .rwo 0 0 0xffffffffffffffff true false,
  row1 0x2b01 2 2 .u8 .ro 0 0 255 false false,
  row1 0x2b01 3 3 .u16 .rwo 0 0 1023 false false,
  row1 0x2b01 4 4 .u16 .rwo 1 1 1024 false false,
  row1 0x2b01 5 5 .bool .rwo 0 0 1 false false,
  row1 0x2b01 6 6 .u8 .ro 255 0 255 false false,
  row1 0x2b01 7 7 .u16 .ro 0xffff 0 0xffff false false,
  row1 0x2b02 0 0 .u8 .const 11 0 255 false false,
  row1 0x2b02 1 4 .u64 .ro 0 0 0xffffffffffffffff false true,
  row1 0x2b02 5 5 .u16 .ro 0 0 0xffff false false,
  row1 0x2b02 6 9 .u64 .ro 0 0 0xffffffffffffffff false true,
  row1 0x2b02 10 10 .u16 .ro 0 0 0xffff false false,
  row1 0x2b02 11 11 .u16 .ro 0xffff 0 0xffff false false,
  row1 0x2b10 0 0 .u8 .const 3 0 255 false false,
  row1 0x2b10 1 1 .u32 .rwo 4096 0 0x100000 false false,
  row1 0x2b10 2 2 .u16 .rwo 1024 1 0xffff false false,
  row1 0x2b10 3 3 .u8 .rwo 2 1 255 false false,
  row1 0x2b11 0 0 .u8 .const 10 0 255 false false,
  row1 0x2b11 1 3 .u64 .ro 0 0 0xffffffffffffffff false true,
  row1 0x2b11 4 4 .r32 .ro 0 0 0xffffffff false false,
  row1 0x2b11 5 6 .u32 .ro 0 0 0xffffffff false false,
  row1 0x2b11 7 8 .r32 .ro 0 0 0xffffffff false false,
  row1 0x2b11 9 9 .u64 .ro 0 0 0xffffffffffffffff false false,
  row1 0x2b11 10 10 .u64 .ro 0 0 0xffffffffffffffff false true,
  row1 0x2b12 1 128 .u32 .ro 0 0 0xffffffff false true,
  row1 0x2b13 1 128 .u8 .ro 0 0 255 false true]

/-- Objects of indices 0x2C00 to 0x2CFF (chapter 12). -/
def rows2C : List ObjRow := [
  row1 0x2c00 1 1 .u16 .rwo 0 0 4095 true false,
  row1 0x2c00 2 2 .bool .rwo 0 0 1 true false,
  row1 0x2c00 3 3 .u8 .const 18 0 255 false false,
  row1 0x2c00 4 4 .u16 .const 1024 0 0xffff false false,
  row1 0x2c00 5 5 .u32 .const 0x10000 0 0xffffffff false false,
  row1 0x2c01 1 1 .u64 .rwo 0 0 0xffffffffffffffff false false,
  row1 0x2c01 2 2 .bool .rwo 0 0 1 false false,
  row1 0x2c01 3 3 .u8 .ro 255 0 255 false false,
  row1 0x2c01 4 4 .u16 .ro 0xffff 0 0xffff false false,
  row1 0x2c02 1 1 .u32 .rwo 1250 0 0xffffffff false false,
  row1 0x2c02 2 2 .u32 .rwo 2500 0 0xffffffff false false,
  row1 0x2c02 3 3 .u32 .rwo 5000 0 0xffffffff false false,
  row1 0x2c02 4 4 .u32 .rwo 0x30d4 0 0xffffffff false false,
  row1 0x2c02 5 8 .u32 .rwo 2520 0 2520 false false,
  row1 0x2c03 1 1 .u32 .rwo 1000 0 0xffffffff false false,
  row1 0x2c03 2 2 .u32 .rwo 100 0 0xffffffff false false,
  row1 0x2c03 3 3 .u8 .const 8 0 255 false false,
  row1 0x2c03 4 4 .u8 .const 3 0 255 false false,
  row1 0x2c03 5 5 .r32 .rwo 0x3727c5ac 0 0xffffffff false false,
  row1 0x2c04 1 1 .u32 .const 0x6000000 0 0xffffffff false false,
  row1 0x2c04 2 2 .u32 .rwo 0x4000 0 0xffffffff true false,
  row1 0x2c04 3 3 .u32 .rwo 0x400000 0 0xffffffff false false,
  row1 0x2c04 4 4 .u32 .ro 0 0 0xffffffff false false,
  row1 0x2c04 5 5 .u32 .ro 0 0 0xffffffff false true,
  row1 0x2c04 6 6 .u64 .ro 0 0 0xffffffffffffffff false true,
  row1 0x2c05 1 12 .u64 .ro 0 0 0xffffffffffffffff false true,
  row1 0x2c06 1 128 .u8 .ro 255 0 255 false false,
  row1 0x2c07 1 128 .u8 .ro 255 0 255 false false]

/-- Objects of indices 0x2D00 to 0x2DFF (chapter 13). -/
def rows2D : List ObjRow := [
  row1 0x2d00 0 0 .u8 .const 7 0 255 false false,
  row1 0x2d00 1 1 .u8 .const 64 0 255 false false,
  row1 0x2d00 2 2 .u16 .const 256 0 0xffff false false,
  row1 0x2d00 3 3 .u16 .const 1000 0 0xffff false false,
  row1 0x2d00 4 4 .u16 .const 128 0 0xffff false false,
  row1 0x2d00 5 5 .u8 .const 96 0 255 false false,
  row1 0x2d00 6 6 .u32 .const 0x218000 0 0xffffffff false false,
  row1 0x2d00 7 7 .u32 .rwo 0x1312d0 0x30d4 0x4a817c80 false false,
  row1 0x2d01 1 1 .u64 .rwo 0 0 0xffffffffffffffff true false,
  row1 0x2d01 2 2 .bool .ro 0 0 1 false false,
  row1 0x2d02 1 1 .u8 .rwo 0 0 255 false false,
  row1 0x2d02 2 2 .u8 .rwo 0 1 2 false false,
  row1 0x2d02 3 3 .bool .rwo 0 0 1 false false,
  row1 0x2d02 4 4 .u8 .ro 255 0 255 false false,
  row1 0x2d02 5 5 .u64 .ro 0 0 0xffffffffffffffff false false,
  row1 0x2d03 1 10 .u64 .ro 0 0 0xffffffffffffffff false true]

/-- Objects of indices 0x2E00 to 0x2EFF (chapter 15). -/
def rows2E : List ObjRow := [
  row1 0x2e00 1 1 .u8 .ro 1 0 255 false false,
  row1 0x2e00 2 2 .u8 .rwo 0 0 1 false false,
  row1 0x2e00 3 3 .u32 .rwo 250 1 0xea60 false false,
  row1 0x2e00 4 4 .u32 .rwo 50 1 0x2710 false false,
  row1 0x2e00 5 5 .bool .rwo 0 0 1 false false,
  row1 0x2e00 6 6 .bool .ro 0 0 1 false false,
  row1 0x2e00 7 7 .u32 .ro 0x10000 0 0xffffffff false false,
  row1 0x2e00 8 8 .u8 .ro 0 0 255 false false,
  row1 0x2e01 1 4 .u64 .ro 0 0 0xffffffffffffffff false false,
  row1 0x2e01 5 8 .u64 .wo 0 0 0xffffffffffffffff false false,
  row1 0x2e01 9 10 .u64 .ro 0 0 0xffffffffffffffff false true,
  row1 0x2e02 1 1 .u8 .ro 0 0 255 false false,
  row1 0x2e02 2 2 .u8 .ro 255 0 255 false false,
  row1 0x2e02 3 3 .bool .ro 0 0 1 false false,
  row1 0x2e02 4 4 .u32 .ro 0 0 0xffffffff false true,
  row1 0x2e02 5 5 .u64 .ro 0 0 0xffffffffffffffff false true,
  row1 0x2e02 6 6 .u32 .ro 0 0 0xffffffff false true,
  row1 0x2e10 1 1 .u32 .rwo 1000 0 0xffffffff false false,
  row1 0x2e10 2 2 .u16 .rwo 4 0 0xffff false false,
  row1 0x2e10 3 3 .u32 .ro 0 0 0xffffffff false true,
  row1 0x2e10 4 4 .u16 .ro 0 0 0xffff false false,
  row1 0x2e10 5 5 .u64 .ro 0 0 0xffffffffffffffff false true,
  row1 0x2e10 6 6 .u32 .ro 0 0 0xffffffff false true,
  row1 0x2e10 7 7 .u16 .ro 0 0 0xffff false true,
  row1 0x2e10 8 8 .u32 .ro 0 0 0xffffffff false false,
  row1 0x2e10 9 9 .u8 .rwo 0 0 1 false false,
  row1 0x2e10 10 10 .u16 .rwo 0 0 511 false false,
  row1 0x2e10 11 11 .bool .rwo 0 0 1 false false,
  row1 0x2e10 12 12 .u8 .ro 255 0 255 false false,
  row1 0x2e20 1 1 .u8 .const 24 0 255 false false,
  row1 0x2e20 2 2 .u8 .const 22 0 255 false false,
  row1 0x2e20 3 3 .u8 .ro 24 0 255 false false,
  row1 0x2e20 4 4 .u16 .ro 0 0 0xffff false true,
  row1 0x2e30 1 1 .bool .rwo 0 0 1 false false,
  row1 0x2e30 2 2 .u8 .ro 255 0 255 false false,
  row1 0x2e30 3 3 .u16 .ro 0 0 0xffff false false,
  row1 0x2e30 4 4 .u32 .ro 0 0 0xffffffff false true]

/-- Objects of indices 0x2F00 to 0x2FFF (chapter 17). -/
def rows2F : List ObjRow := [
  row1 0x2f00 1 1 .u8 .rwo 0 0 3 false false,
  row1 0x2f00 2 3 .u8 .ro 0 0 255 false false,
  row1 0x2f00 4 4 .u8 .ro 255 0 255 false false,
  row1 0x2f00 5 5 .u32 .ro 0 0 0xffffffff false true,
  row1 0x2f00 6 6 .bool .ro 0 0 1 false false,
  row1 0x2f01 1 1 .u8 .rwo 31 0 255 false false,
  row1 0x2f01 2 2 .u32 .rwo 0 0 0xffffffff false false,
  row1 0x2f02 1 1 .u8 .ro 0 0 255 false false,
  row1 0x2f02 2 2 .u16 .ro 0 0 0xffff false false,
  row1 0x2f02 3 3 .u8 .ro 0 0 255 false false,
  row1 0x2f02 4 4 .u64 .ro 0 0 0xffffffffffffffff false false,
  row1 0x2f02 5 5 .u32 .ro 0 0 0xffffffff false false,
  row1 0x2f02 6 7 .u32 .ro 0 0 0xffffffff false true,
  row1 0x2f03 1 1 .u16 .const 20 0 0xffff false false,
  row1 0x2f03 2 2 .u16 .const 6 0 0xffff false false,
  row1 0x2f03 3 3 .u16 .const 30 0 0xffff false false,
  row1 0x2f03 4 4 .u16 .const 10 0 0xffff false false,
  row1 0x2f03 5 5 .u16 .const 145 0 0xffff false false,
  row1 0x2f04 1 1 .u64 .ro 0 0 0xffffffffffffffff false true,
  row1 0x2f10 1 1 .u8 .const 16 0 255 false false,
  row1 0x2f10 2 2 .u8 .const 10 0 255 false false,
  row1 0x2f10 3 3 .u8 .const 16 0 255 false false,
  row1 0x2f10 4 4 .u16 .const 14 0 0xffff false false,
  row1 0x2f10 5 5 .u16 .const 1100 0 0xffff false false,
  row1 0x2f10 6 6 .u8 .const 0 0 255 false false,
  row1 0x2f20 1 1 .u32 .ro 0 0 0xffffffff false true,
  row1 0x2f20 2 4 .u16 .ro 0 0 0xffff false true,
  row1 0x2f20 5 6 .i32 .ro 0 0 0xffffffff false true,
  row1 0x2f20 7 7 .u16 .rwo 950 800 1000 false false,
  row1 0x2f20 8 8 .u16 .const 1100 0 0xffff false false,
  row1 0x2f20 9 9 .u32 .const 0xb5a4 0 0xffffffff false false,
  row1 0x2f20 10 10 .u32 .const 0xd8cc 0 0xffffffff false false,
  row1 0x2f30 1 4 .u32 .ro 0 0 0xffffffff false true]

/-- Objects of indices 0x3000 to 0x30FF (chapter 16). -/
def rows30 : List ObjRow := [
  row1 0x3000 1 3 .u8 .ro 0 0 255 false false,
  row1 0x3000 4 5 .u32 .ro 0 0 0xffffffff false true,
  row1 0x3000 6 6 .u64 .ro 0 0 0xffffffffffffffff false true,
  row1 0x3000 7 7 .u32 .rwo 100 10 0x2710 false false,
  row1 0x3001 1 1 .u64 .rwo 0 0 0xffffffffffffffff false false,
  row1 0x3001 2 2 .bool .rwo 0 0 1 false false,
  row1 0x3001 3 4 .u64 .ro 0 0 0xffffffffffffffff false true,
  row1 0x3002 1 4 .u64 .ro 0 0 0xffffffffffffffff false true,
  row1 0x3003 1 2 .bool .rwo 0 0 1 false false,
  row1 0x3010 1 2 .u8 .ro 0 0 255 false false,
  row1 0x3010 3 3 .u32 .ro 0 0 0xffffffff false false,
  row1 0x3020 1 1 .u64 .rwo 0 0 0xffffffffffffffff false false,
  row1 0x3020 2 2 .u32 .rwo 0 2049 0x1000800 false false,
  row1 0x3020 3 3 .bool .rwo 0 0 1 false false,
  row1 0x3020 4 4 .u8 .ro 255 0 255 false false,
  row1 0x3020 5 6 .u32 .ro 0 0 0xffffffff false false,
  row1 0x3030 1 1 .u8 .ro 0 0 255 false false,
  row1 0x3030 2 2 .u8 .rwo 0 0 255 true false,
  row1 0x3030 3 3 .bool .rwo 0 0 1 true false,
  row1 0x3030 4 4 .u8 .ro 255 0 255 false false,
  row1 0x3030 5 5 .u8 .ro 0 0 255 false false,
  row1 0x3040 1 1 .u8 .ro 0 0 255 false false,
  row1 0x3040 2 2 .dom .ro 0 0 0 false false,
  row1 0x3040 3 3 .u8 .ro 0 0 255 false true,
  row1 0x3040 4 4 .bool .wo 0 0 1 false false,
  row1 0x3040 5 5 .bool .wo 0 0 1 true false,
  row1 0x3040 6 6 .bool .ro 0 0 1 false false,
  row1 0x3040 7 7 .u8 .ro 0 0 255 false false,
  row1 0x3050 1 2 .u64 .ro 0 0 0xffffffffffffffff false true]

/-- Objects of indices 0x3100 to 0x31FF (chapter 14). -/
def rows31 : List ObjRow := [
  row1 0x3100 1 1 .u32 .rwo 1000 100 0xea60 false false,
  row1 0x3100 2 2 .u32 .rwo 50 10 1000 false false,
  row1 0x3100 3 3 .u32 .rwo 5000 100 0xea60 false false,
  row1 0x3100 4 4 .u8 .const 127 0 255 false false,
  row1 0x3101 1 1 .u8 .wo 0 1 255 false false,
  row1 0x3101 2 2 .bool .wo 0 0 1 false false,
  row1 0x3101 3 3 .u16 .rwo 0 0 0xffff false false,
  row1 0x3101 4 6 .bool .wo 0 0 1 false false,
  row1 0x3101 7 7 .u16 .ro 0 0 0xffff false false,
  row1 0x3101 8 8 .u32 .ro 0 0 0xffffffff false false,
  row1 0x3101 9 9 .u8 .ro 0 0 255 false false,
  row1 0x3101 10 10 .u16 .ro 0 0 0xffff false false,
  row1 0x3102 1 2 .u64 .rwo 0xffffffffffffffff 0 0xffffffffffffffff false false,
  row1 0x3110 1 2 .u8 .ro 0 0 255 false false,
  row1 0x3110 3 3 .u8 .rwo 0 0 127 false false,
  row1 0x3110 4 4 .u16 .rwo 5000 1000 5000 false false,
  row1 0x3110 5 5 .bool .wo 0 0 1 false false,
  row1 0x3110 6 6 .bool .rwo 0 0 1 false false,
  row1 0x3110 7 7 .u8 .ro 127 0 255 false false,
  row1 0x3111 1 1 .bool .rwo 1 0 1 false false,
  row1 0x3111 2 4 .u8 .ro 0 0 255 false false,
  row1 0x3111 5 5 .u32 .ro 0 0 0xffffffff false true,
  row1 0x3111 6 7 .u64 .ro 0 0 0xffffffffffffffff false true,
  row1 0x3111 8 8 .u8 .ro 0 0 255 false false,
  row1 0x3112 1 1 .bool .rwo 1 0 1 false false,
  row1 0x3112 2 4 .u8 .ro 0 0 255 false false,
  row1 0x3112 5 5 .u32 .ro 0 0 0xffffffff false true,
  row1 0x3112 6 7 .u64 .ro 0 0 0xffffffffffffffff false true,
  row1 0x3112 8 8 .u8 .ro 0 0 255 false false,
  row1 0x3120 1 1 .u32 .const 0x4000000 0 0xffffffff false false,
  row1 0x3120 2 2 .u32 .const 0x2800000 0 0xffffffff false false,
  row1 0x3130 1 4 .u64 .ro 0 0 0xffffffffffffffff false true,
  row1 0x3130 5 8 .u32 .ro 0 0 0xffffffff false true,
  row1 0x3130 9 11 .u64 .ro 0 0 0xffffffffffffffff false true]

/-- Objects of indices 0x4000 to 0x40FF (chapter 01). -/
def rows40 : List ObjRow := [
  rowN 0x4000 0x408f 1 2 .u8 .ro 0 0 255 false false,
  rowN 0x4000 0x408f 3 3 .u8 .const 0 0 255 false false,
  rowN 0x4000 0x408f 4 4 .u8 .ro 0 0 255 false false,
  rowN 0x4000 0x408f 5 7 .u64 .ro 0 0 0xffffffffffffffff false true,
  rowN 0x4000 0x408f 8 10 .u64 .ro 0 0 0xffffffffffffffff false false]

/-- Objects of indices 0x5000 to 0x50FF (chapter 01). -/
def rows50 : List ObjRow := [
  rowN 0x5000 0x50ff 1 1 .bool .rwo 0 0 1 false false,
  rowN 0x5000 0x50ff 2 2 .bool .ro 0 0 1 false false,
  rowN 0x5000 0x50ff 3 3 .u8 .rwo 0 0 255 false false,
  rowN 0x5000 0x50ff 4 4 .u8 .rwo 1 0 255 false false,
  rowN 0x5000 0x50ff 5 5 .u8 .rwo 0 0 255 false false,
  rowN 0x5000 0x50ff 6 6 .u32 .rwo 0 0 0xffffffff false false,
  rowN 0x5000 0x50ff 7 7 .u64 .ro 0 0 0xffffffffffffffff false false,
  rowN 0x5000 0x50ff 8 9 .u16 .ro 0 0 0xffff false false,
  rowN 0x5000 0x50ff 10 14 .u64 .ro 0 0 0xffffffffffffffff false true,
  rowN 0x5000 0x50ff 15 16 .u64 .ro 0 0 0xffffffffffffffff false false,
  rowN 0x5000 0x50ff 17 17 .u8 .ro 255 0 255 false false]

/-- Objects of indices 0x5100 to 0x51FF (chapter 13). -/
def rows51 : List ObjRow := [
  rowN 0x5100 0x513f 1 1 .u16 .rwo 100 1 1000 false false,
  rowN 0x5100 0x513f 2 4 .u64 .ro 0 0 0xffffffffffffffff false true,
  rowN 0x5100 0x513f 5 5 .u16 .ro 0 0 0xffff false false,
  rowN 0x5100 0x513f 6 7 .u64 .ro 0 0 0xffffffffffffffff false true]

/-- Objects of indices 0x5200 to 0x52FF (chapter 15). -/
def rows52 : List ObjRow := [
  rowN 0x5200 0x527f 1 3 .bool .ro 0 0 1 false false,
  rowN 0x5200 0x527f 4 4 .u64 .ro 0 0 0xffffffffffffffff false true,
  rowN 0x5200 0x527f 5 6 .u64 .ro 0 0 0xffffffffffffffff false false,
  rowN 0x5200 0x527f 7 7 .u8 .rwo 0 0 3 false false,
  rowN 0x5200 0x527f 8 8 .u8 .rwo 0 0 4 false false,
  rowN 0x5200 0x527f 9 9 .bool .rwo 0 0 1 false false,
  rowN 0x5200 0x527f 10 10 .u32 .rwo 0 0 0xea60 false false,
  rowN 0x5200 0x527f 11 11 .u32 .ro 0 0 0xffffffff false false,
  rowN 0x5200 0x527f 12 12 .u32 .ro 0 0 0xffffffff false true,
  rowN 0x5200 0x527f 13 13 .u8 .ro 255 0 255 false false,
  rowN 0x5200 0x527f 14 14 .u32 .ro 0 0 0xffffffff false true]

/-- Objects of indices 0x5300 to 0x53FF (chapter 12). -/
def rows53 : List ObjRow := [
  rowN 0x5300 0x5311 1 1 .u8 .ro 0 0 255 false false,
  rowN 0x5300 0x5311 2 2 .u16 .ro 255 0 0xffff false false,
  rowN 0x5300 0x5311 3 3 .u16 .ro 0xffff 0 0xffff false false,
  rowN 0x5300 0x5311 4 7 .u64 .ro 0 0 0xffffffffffffffff false true,
  rowN 0x5300 0x5311 8 8 .u32 .ro 0 0 0xffffffff false true,
  rowN 0x5300 0x5311 9 10 .u16 .ro 0 0 0xffff false true,
  rowN 0x5300 0x5311 11 12 .u64 .ro 0 0 0xffffffffffffffff false true,
  rowN 0x5300 0x5311 13 13 .bool .rwo 0 0 1 true false]

/-- The rows that can hold an index, by its high byte. -/
def rowsOf (index : Nat) : List ObjRow :=
  match index / 256 with
  | 0x10 => rows10
  | 0x18 => rows18
  | 0x1a => rows1A
  | 0x20 => rows20
  | 0x21 => rows21
  | 0x22 => rows22
  | 0x23 => rows23
  | 0x24 => rows24
  | 0x25 => rows25
  | 0x26 => rows26
  | 0x27 => rows27
  | 0x28 => rows28
  | 0x29 => rows29
  | 0x2a => rows2A
  | 0x2b => rows2B
  | 0x2c => rows2C
  | 0x2d => rows2D
  | 0x2e => rows2E
  | 0x2f => rows2F
  | 0x30 => rows30
  | 0x31 => rows31
  | 0x40 => rows40
  | 0x50 => rows50
  | 0x51 => rows51
  | 0x52 => rows52
  | 0x53 => rows53
  | _ => []

/-- The row of an object, if a chapter lists it. -/
def rowOf (index sub : Nat) : Option ObjRow :=
  (rowsOf index).find? fun r =>
    decide (r.ilo ≤ index) && decide (index ≤ r.ihi) && decide (r.slo ≤ sub) && decide (sub ≤ r.shi)

/-- The rows of an index. -/
def rowsAt (index : Nat) : List ObjRow :=
  (rowsOf index).filter fun r => decide (r.ilo ≤ index) && decide (index ≤ r.ihi)

/-- The key of an object: index × 256 + sub-index. -/
def key (index sub : Nat) : Nat := index * 256 + sub

/-- Service targets of the fault sources (15 Table FLT-1), by source. -/
def defaultTarget (i : Nat) : Nat :=
  if i ∈ [10, 13, 16, 19, 20, 21, 32, 33, 40, 41, 48, 51, 54, 59, 60, 62, 63, 66, 68, 69, 70, 71] then 1
  else if i ∈ [5, 12, 45, 46, 47] then 2
  else if i ∈ [64, 67] then 3
  else 0

/-- Setup reactions of the fault sources (15 Table FLT-1), by source. -/
def defaultReaction (i : Nat) : Nat :=
  if i ∈ [5, 12, 60] then 2 else if i ∈ [14, 15] then 3 else if i ∈ [64, 67] then 4 else 1

/-- The default of an object that has a numeric value in its table, with the rows whose default follows the
index or sub-index. Objects whose default is the grade's or the device's are read from their own homes. -/
def objDefault (k : Nat) : Nat :=
  let index := k / 256
  let sub := k % 256
  if index = 0x2310 then sub - 1
  else if index = 0x5000 ∧ sub = 1 then 1
  else if index = 0x5000 ∧ sub = 3 then 0xFF
  else if 0x5200 ≤ index ∧ index ≤ 0x527F ∧ sub = 7 then defaultTarget (index - 0x5200)
  else if 0x5200 ≤ index ∧ index ≤ 0x527F ∧ sub = 8 then defaultReaction (index - 0x5200)
  else if 0x5200 ≤ index ∧ index ≤ 0x527F ∧ sub = 9 then
    (if index = 0x5200 + 60 ∨ index = 0x5200 + 64 ∨ index = 0x5200 + 67 then 1 else 0)
  else if 0x1800 ≤ index ∧ index ≤ 0x1803 ∧ sub = 1 then 0x180 + (index - 0x1800) * 0x100
  else if index = 0x1014 ∧ sub = 0 then 0x80
  else
    match rowOf index sub with
    | some r => r.default
    | none => 0

end Sys2Proof.Machine
end

