-- ==== Sys2Proof/Machine/Parts.lean ====
section
/-! DEFINITION. The pieces of the block's state that belong to ponds, basins, the tick, command programs,
futures and memory (chapters 01, 02, 06, 07, 10). All of it is plain data; `State.lean` puts the pieces
together. -/

namespace Sys2Proof.Machine

/-! ## Ponds and grades (01) -/

/-- The two grades (00 R2, Table SCP-1). -/
inductive Grade where
  | a128
  | b96
  deriving DecidableEq, Repr

/-- Pond states (01 Table PND-2). -/
inductive PondState where
  | fused
  | spareIdle
  | spareLoading
  | active
  | retired
  deriving DecidableEq, Repr

/-- A replacement of a failed pond (01 R11 to R15), or a block-reset reload of a pond (15 R413): then
`spare` is the pond itself and `reload` is set. -/
structure Replacement where
  failed : Nat
  logical : Nat
  spare : Option Nat
  started : Nat
  copied : Bool
  reload : Bool
  deriving DecidableEq, Repr

/-- The pond map (01 R9, R10): states of the physical ponds (unlisted: active), the physical pond of each
logical number (unlisted: absent), the replacements in order of declaration, and the table numbers of each logical number
that hold a valid table (05 R131). -/
structure PondMap where
  states : NMap PondState
  toPhys : NMap Nat
  replacements : List Replacement
  tables : NMap (List Nat)
  deriving DecidableEq, Repr

/-! ## Command programs (06) -/

/-- A 32-byte command: words 0 to 3 (06 R150). -/
structure Cmd where
  w0 : W64
  w1 : W64
  w2 : W64
  w3 : W64
  deriving DecidableEq, Repr

/-- A checkpoint-table entry (06 R165). -/
structure Checkpoint where
  index : Nat
  prologue : Bool
  c0 : Nat
  c1 : Nat
  deriving DecidableEq, Repr

/-- A reload-table entry (06 R166). -/
structure Reload where
  first : Nat
  last : Nat
  offset : Nat
  length : Nat
  resume : Nat
  deriving DecidableEq, Repr

/-- The header of a program image (06 Table CMD-8) with its tables. -/
structure Image where
  number : Nat
  pondCount : Nat
  batch : Nat
  flags : Nat
  nCmd : Nat
  regLow : Nat
  regHigh : Nat
  cFix : Nat
  cStep : Nat
  aBg : Nat
  engines : Nat
  prologue : Nat
  step : Nat
  errorExit : Nat
  background : Nat
  tableMask : Nat
  crc : Nat
  regs : List Nat
  checkpoints : List Checkpoint
  reloads : List Reload
  deriving DecidableEq, Repr

/-- A program held in an instruction bank of one pond: its header and its rank's section. `damaged` lists
the slots with a double-bit error (06 R183). -/
structure Resident where
  image : Image
  code : List Cmd
  damaged : List Nat
  deriving DecidableEq, Repr

/-- A record of the program directory (06 Table CMD-10). -/
structure DirRecord where
  state : Nat
  pondCount : Nat
  batch : Nat
  cFix : Nat
  cStep : Nat
  aBg : Nat
  crc : Nat
  checkpoints : Nat
  imageUda : Nat
  holding : Nat
  deriving DecidableEq, Repr

/-- What a section of a program is (06 Table CMD-14, event RET). -/
inductive SectionKind where
  | step
  | prologue
  | error
  | background
  deriving DecidableEq, Repr

/-- A section in progress on one pond: program, next command index, kind, the futures of its group, the
tick of its epoch (07 R209), whether it runs a carried step or belongs to a background task, the index at which RESUME continues, and how far the
control command at its index has come (0 not fetched, 1 fetched, 2 started); `waiting` notes a wait of that command: its first instant, and the tier of a
re-fetch or the stream that it waits for (10 R301, 09 R260); `began` is the instant at which that command started, `started` the instant from which the
section's clk are still to be charged (13 R357). -/
structure Section where
  kind : SectionKind
  program : Nat
  pc : Nat
  group : List Nat
  epoch : Nat
  carried : Bool
  task : Bool
  resume : Nat
  started : Nat
  progress : Nat
  waiting : Option (Nat × Nat) := none
  began : Nat := 0
  deriving DecidableEq, Repr

/-- A command in an engine queue with the instant of its push and its number among the pushes of its pond; `waiting` as in
a section. -/
structure Queued where
  cmd : Cmd
  program : Nat
  pushed : Nat
  waiting : Option (Nat × Nat) := none
  number : Nat := 0
  deriving DecidableEq, Repr

/-- A started command that has not completed. `arrival` names what its completion adds beside its signal:
for an SSEND the consumer's pond and counter (06 R185). `waits` names what the command waits for itself, such as the
entry of a PFMARK (10 R295); `number` is the command's number among the pushes of its pond; `exempt` counts the clk in
which it waited for the link, up to the instant `exemptAt`, which the watchdog does not count (15 R417). -/
structure Running where
  id : Nat
  cmd : Cmd
  program : Nat
  started : Nat
  arrival : Option (Nat × Nat)
  epochReads : Option Nat
  waits : Nat
  number : Nat := 0
  exempt : Nat := 0
  exemptAt : Nat := 0
  deriving DecidableEq, Repr

/-- One stream end (06 R184). `credits` counts usable credits at a producer; `filled` counts filled slots at
a consumer; `next` is the producer's next slot in ring order; `waitSince` is the instant plus one since which
an SSEND waits for a credit. -/
structure StreamEnd where
  opened : Bool
  consumer : Bool
  peerRank : Nat
  peerStream : Nat
  counter : Nat
  slotBase : Nat
  slotSize : Nat
  slotCount : Nat
  credits : Nat
  filled : Nat
  next : Nat
  waitSince : Nat
  deriving DecidableEq, Repr

/-- A closed stream end: the value of an unlisted end (06 Table CMD-1). -/
def StreamEnd.closed : StreamEnd :=
  { opened := false, consumer := false, peerRank := 0, peerStream := 0, counter := 0, slotBase := 0,
    slotSize := 0, slotCount := 0, credits := 0, filled := 0, next := 0,
    waitSince := 0 }

/-- An error exit in progress: cause (06 Table CMD-11), and the tag of the failing command with its engine class in bits
[27:24]. -/
structure Exiting where
  cause : Nat
  tag : Nat
  deriving DecidableEq, Repr

/-- A SIGPEER addition on its way: counter, count, the instant at which it becomes visible,
the sending pond and the number of its next push when it was sent (06 R156). -/
structure PeerSignal where
  counter : Nat
  count : Nat
  visible : Nat
  sender : Nat
  after : Nat
  tag : Nat
  deriving DecidableEq, Repr

/-- The control core of a pond (06 Table CMD-1 and R174 to R183). `stopped` is the command index at which a rank of a
background task has stopped and `stopKind` how (13 R364: 0 cheap, 1 RET, 2 forced); `staged` the instant plus one at
which a register last took a staged value (06 R172). -/
structure Core where
  params : NMap W64
  loops : NMap Nat
  comps : NMap Bool
  sync : NMap Nat
  sect : Option Section
  stalled : Option (Queued × Nat)
  exiting : Option Exiting
  exited : Bool
  stopped : Option Nat
  activeBank : Nat
  signals : List PeerSignal
  creditsDue : List (Nat × Nat)
  ran : List Nat
  stopKind : Nat
  staged : NMap Nat
  deriving DecidableEq, Repr

/-! ## Engines' data -/

/-- A weight block (03 R70): rows of FP32 values as expanded, with the format it was loaded in;
`source` is word 1 of the command that loaded it (13 Table SHR-3). -/
structure WeightBlock where
  valid : Bool
  source : Nat
  format : Nat
  rows : Nat
  cols : Nat
  values : NMap F32
  scales : NMap F32
  deriving DecidableEq, Repr

/-- No block: what the registers hold before any load (03 Table MTX-9, Reuse). -/
def WeightBlock.none : WeightBlock :=
  { valid := false, source := 0, format := 0, rows := 0, cols := 0, values := [], scales := [] }

/-- An expander table (05 R128 to R130): the image bytes of a valid table. -/
structure Table where
  valid : Bool
  bytes : List Byte
  deriving DecidableEq, Repr

/-- An invalid table, the state after a reset of the pond (05 R130). -/
def Table.invalid : Table := { valid := false, bytes := [] }

/-- An armed tap (04 R108): the command that armed it, the rows expected and the rows captured; `regs` is its copy of the
vector registers (04 R91). -/
structure Tap where
  cmd : Cmd
  program : Nat
  id : Nat
  expected : Nat
  captured : List Nat
  regs : NMap F32
  deriving DecidableEq, Repr

/-- A running MMA whose results are on their way into the accumulators (03 R69, R73): its number among the running
commands, the instant of its first activation read (none while it waits for the activation expander), the instant at which
its weight block is loaded, its accumulator rows from `row` on with the clk of their reads since the first one, latest row
first, the clk of its whole stream, and what accumulator memory held before it. -/
structure Landing where
  id : Nat
  first : Option Nat
  ready : Nat
  promotes : Bool
  row : Nat
  reads : List Nat
  total : Nat
  before : NMap F32
  deriving DecidableEq, Repr

/-- One column of a tile-watch sample (11 R323): the column sum, the wide value, d, and whether it matches. -/
structure WatchColumn where
  col : Nat
  narrow : F32
  wide : F32
  d : F32
  good : Bool
  deriving DecidableEq, Repr

/-- A tile-watch sample on its way (11 R322, R323). -/
structure WatchSample where
  tag : Nat
  row : Nat
  cols : List WatchColumn
  deriving DecidableEq, Repr

/-- One physical pond: control core, queues, engines and their memories (01 Table PND-1). `expanders` holds at key 0
the running commands that wait for the activation expander, in order, and at key 1 the holder (its number plus 1, 0
once it has completed; then its class) (04 R96); `pushes` counts the pushes into its queues; `acc` holds what
every started MMA stores, and `landing` the MMAs whose results are not yet readable, latest first (03 R73); `streamEnd` is the instant at which
the array ends its last stream, `shadowFree` that of the last promotion, `loadEnd` that of the last weight load's end (03 R70); `haltedAt` is the instant at which a halted pond was halted (16 R454); `heldSince` is the instant plus one since which an MMA is held (04
R109); `busySince` the same for the activity of an engine class, at key 16 for any engine. -/
structure Pond where
  core : Core
  banks : NMap (List Resident)
  queues : NMap (List Queued)
  running : List Running
  nextId : Nat
  pushes : Nat
  streams : NMap StreamEnd
  buf : NMap Byte
  acc : NMap F32
  extents : NMap Nat
  vregs : NMap F32
  accWritten : Nat
  vregWritten : Nat
  tables : NMap Table
  activeW : WeightBlock
  shadowW : WeightBlock
  landing : List Landing
  streamEnd : Nat
  shadowFree : Nat
  loadEnd : Nat
  tap : Option Tap
  watch : Option WatchSample
  watchCount : Nat
  expanders : NMap (List Nat)
  traceBusy : List Nat
  halt : Option Nat
  haltedAt : Nat
  stepping : Bool
  powered : Bool
  gated : Bool
  unhalted : Nat
  heldSince : Nat
  busySince : NMap Nat
  deriving DecidableEq, Repr

/-- A core after the reset of its pond (06 Table CMD-1). -/
def Core.reset : Core :=
  { params := [], loops := [], comps := [], sync := [], sect := none, stalled := none, exiting := none,
    exited := false, stopped := none, activeBank := 0, signals := [], creditsDue := [], ran := [],
    stopKind := 0, staged := [] }

/-- A pond after its reset (06 Table CMD-1, 15 R413): memories read 0, tables invalid, streams closed. -/
def Pond.reset : Pond :=
  { core := Core.reset, banks := [], queues := [], running := [], nextId := 0, pushes := 0, streams := [], buf := [],
    acc := [], extents := [], vregs := [], accWritten := 0, vregWritten := 0, tables := [], activeW := WeightBlock.none,
    shadowW := WeightBlock.none, landing := [], streamEnd := 0, shadowFree := 0, loadEnd := 0, tap := none, watch := none, watchCount := 0, expanders := [],
    traceBusy := [], halt := none, haltedAt := 0, stepping := false, powered := false, gated := false, unhalted := 0,
    heldSince := 0, busySince := [] }

/-! ## The tick and gangs (02) -/

/-- One entry of the work list (02 Table TCK-7). `switched` marks a switch of the deadline monitor (R54);
`dropped` an entry that gets status 0x0B without running (06 R176, 10 R304, 02 R58). -/
structure WorkEntry where
  future : Nat
  program : Nat
  fallback : Bool
  first : Bool
  position : Nat
  planned : Nat
  charge : Nat
  switched : Bool
  dropped : Bool
  deriving DecidableEq, Repr

/-- What a gang carries over D_s (02 R57): the work-list index of the first entry of the carried group, the index of the
gang's first entry in that list, the bank, the tick of admission, the certified remaining cost, and the certified offset of
the last checkpoint. The entries stay in the gang's group, and in its list `late` those that were not yet fetched. -/
structure Carry where
  index : Nat
  first : Nat
  bank : Nat
  tick : Nat
  remaining : Nat
  base : Nat
  deriving DecidableEq, Repr

/-- A gang in the tick in progress, keyed by its rank-0 logical number (02 R49 to R57, 06 R174). `group` is the
fetched group whose step has not ended; `late` the entries of the tick before that it still has to fetch; `offset` the certified offset of its last checkpoint; `finish` the instant
at which the last step ended. -/
structure Gang where
  basin : Nat
  members : List Nat
  load : Nat
  cap : Nat
  aSw : Nat
  charged : List Nat
  entries : List WorkEntry
  firstIndex : Nat
  next : Nat
  group : List WorkEntry
  late : List WorkEntry
  sectionStart : Nat
  offset : Nat
  carry : Option Carry
  carryRunning : Bool
  dispatched : Bool
  dispatchAt : Nat
  failedPrologues : List Nat
  finish : Nat
  costFlagged : Bool
  deriving DecidableEq, Repr

/-- A gang with nothing dealt to it. -/
def Gang.empty : Gang :=
  { basin := 0, members := [], load := 0, cap := 0, aSw := 0, charged := [], entries := [],
    firstIndex := 0, next := 0, group := [], late := [], sectionStart := 0, offset := 0, carry := none,
    carryRunning := false, dispatched := false, dispatchAt := 0, failedPrologues := [], finish := 0,
    costFlagged := false }

/-- What the tick holds for one future: status of 02 Table TCK-5, the selector that produces the payload,
the client tag, whether the step is complete and its finish offset. -/
structure StepRec where
  status : Nat
  selector : Nat
  tag : Nat
  tick : Nat
  gang : Nat
  done : Bool
  carried : Bool
  contextHit : Bool
  finish : Nat
  deriving DecidableEq, Repr

/-- No step: not due (02 Table TCK-5, status 0x00). -/
def StepRec.notDue : StepRec :=
  { status := 0, selector := 0, tag := 0, tick := 0, gang := 0, done := false, carried := false,
    contextHit := false, finish := 0 }

/-- The tick (02 R32 to R38): whether edges run (16 R442), the instant of the last used edge, and which
phases of the tick in progress have passed; `repaired` tells that the tick has had its row repair (15 R421),
`staggered` that its array starts are being released (17 R470), `dropSource` that a source select of 0 waits for the
next used edge (02 R36). -/
structure Tick where
  running : Bool
  lastEdge : Nat
  anyEdge : Bool
  period : Nat
  latched : Bool
  committed : Bool
  origins : NMap Nat
  firstRecord : Bool
  lostSource : Bool
  haltSeen : Bool
  build : Nat
  repaired : Bool
  staggered : Bool
  dropSource : Bool
  deriving DecidableEq, Repr

/-! ## Futures and pages (07) -/

/-- A sequence-table entry (07 Table FUT-1). -/
structure Future where
  state : Nat
  carried : Bool
  fallbackEligible : Bool
  inputRequired : Bool
  priority : Nat
  basin : Nat
  model : Nat
  fallback : Nat
  pool : Nat
  readBank : Nat
  borrowed : Bool
  length : Nat
  pending : Nat
  window : Nat
  base : W64
  sharers0 : Nat
  sharers1 : Nat
  hasParent : Bool
  parent : Nat
  source : Nat
  steps : Nat
  user : W64
  stateRead : Nat
  stateWrite : Nat
  pages : List Nat
  deriving DecidableEq, Repr

/-- A free entry (07 Table FUT-2). -/
def Future.free : Future :=
  { state := 0, carried := false, fallbackEligible := false, inputRequired := false, priority := 0,
    basin := 0, model := 0, fallback := 0, pool := 0, readBank := 0, borrowed := false, length := 0,
    pending := 0, window := 0, base := 0, sharers0 := 0, sharers1 := 0, hasParent := false, parent := 0,
    source := 0, steps := 0, user := 0, stateRead := 0, stateWrite := 0, pages := [] }

/-- A page record (07 Table FUT-6); `freeTag` keeps the whole tick, of which the record shows the low 32 bits. -/
structure PageRec where
  count : Nat
  freeTag : Nat
  state : Nat
  deriving DecidableEq, Repr

/-- Futures, pages and their references (07 R191 to R211). `free` and `fresh` hold a pool's free list: the
returned pages, head first, then the never used ones from index `fresh` to the page count. -/
structure Seq where
  futures : NMap Future
  records : NMap PageRec
  free : NMap (List Nat)
  fresh : NMap Nat
  configured : NMap Nat
  published : Nat
  deriving DecidableEq, Repr

/-! ## Memory tiers (10) -/

/-- An extent-map entry (10 Table MEM-4); `tier` 3 is unmapped. -/
structure Extent where
  tier : Nat
  pinned : Bool
  readOnly : Bool
  poisoned : Bool
  migrating : Bool
  object : Nat
  frame : Nat
  deriving DecidableEq, Repr

/-- An unmapped extent. -/
def Extent.unmapped : Extent :=
  { tier := 3, pinned := false, readOnly := false, poisoned := false, migrating := false, object := 0,
    frame := 0 }

/-- An object record (10 Table MEM-5). -/
structure Obj where
  state : Nat
  tier : Nat
  pinned : Bool
  readOnly : Bool
  poisoned : Bool
  base : Nat
  count : Nat
  backup : Nat
  mask : Nat
  deriving DecidableEq, Repr

/-- A free object. -/
def Obj.free : Obj :=
  { state := 0, tier := 0, pinned := false, readOnly := false, poisoned := false, base := 0, count := 0,
    backup := 0, mask := 0 }

/-- A directive that has been started or completed (10 R283): its count in the ring, its fields, whether
its effect has been performed, its result once complete. -/
structure Directive where
  index : Nat
  op : Nat
  obj : Nat
  result : Nat
  performed : Bool
  complete : Bool
  deriving DecidableEq, Repr

/-- A migration asked for (10 R287): extent, target tier, its frame once the copy has started, the directive, or the
schedule and entry (its pass × 4,096 + number), or the evacuation it belongs to; the instant at which the copy began and the granules known
to be copied. -/
structure Migration where
  extent : Nat
  toTier : Nat
  toFrame : Option Nat
  directive : Option Nat
  schedule : Option (Nat × Nat)
  evacuate : Bool
  began : Nat := 0
  cursor : Nat := 0
  deriving DecidableEq, Repr

/-- A re-fetch in progress (10 R303): the extent, its new frame and the backup extent. -/
structure Refetch where
  extent : Nat
  toFrame : Nat
  backup : Nat
  deriving DecidableEq, Repr

/-- A read from outside that waits for a re-fetch (10 R302): by the host, or by a fabric peer with its message and
transfer. -/
structure WaitingRead where
  host : Bool
  uda : Nat
  len : Nat
  peer : Nat
  msg : Nat
  transfer : Nat
  waiting : Option (Nat × Nat)
  deriving DecidableEq, Repr

/-- An entry of a running prefetch schedule (10 R295): first extent, count, due mark, action, progress. -/
structure PfEntry where
  first : Nat
  count : Nat
  due : Nat
  action : Nat
  started : Bool
  ended : Bool
  deriving DecidableEq, Repr

/-- A prefetch schedule in progress: its pass, and the entries of earlier passes that still move extents. -/
structure Schedule where
  cursor : Nat
  depth : Nat
  entries : List PfEntry
  pass : Nat := 0
  old : List Nat := []
  deriving DecidableEq, Repr

/-- A memory member (10 R306 to R308, Table MEM-18): its state (0 in service), counts, last eye,
recalibrations, and the instants of the corrected errors of the last hour. -/
structure Member where
  state : Nat
  corrected : Nat
  uncorrectable : Nat
  eyeWidth : Nat
  eyeHeight : Nat
  recals : Nat
  recent : List Nat
  retraining : Bool
  deriving DecidableEq, Repr

/-- A member in service with no events. -/
def Member.fresh : Member :=
  { state := 0, corrected := 0, uncorrectable := 0, eyeWidth := 0, eyeHeight := 0, recals := 0,
    recent := [], retraining := false }

/-- The memory tiers (10). `used` marks frames that are allocated or withheld, keyed by tier × 2^32 +
frame; `rotor` is the set or package after that of the last allocation; `evacuating` lists tier and group, `rows`
the instants of a row's corrected errors of the last hour, `degraded` the members (tier × 1024 + number) for which
source 46 is active. -/
structure Tiers where
  extents : NMap Extent
  objects : NMap Obj
  directives : List Directive
  started : Nat
  migrations : List Migration
  refetches : List Refetch
  used : NMap Bool
  releasing : List (Nat × Nat)
  rotor : NMap Nat
  members : NMap Member
  evacuating : List (Nat × Nat)
  schedules : NMap Schedule
  rows : NMap (List Nat)
  repairs : List Nat
  spareRows : NMap Nat
  reads : List WaitingRead
  degraded : List Nat
  deriving DecidableEq, Repr

end Sys2Proof.Machine
end

