-- ==== Sys2Proof/Machine/Parts2.lean ====
section
/-! DEFINITION. The pieces of the block's state outside the ponds: dictionary transports and ownership (14),
the weir (15), frames (09), numerics (11), fabric (12), shares (13), host, boot and security (16), power and
pins (17). -/

namespace Sys2Proof.Machine

/-! ## Ownership and transports (14) -/

/-- Ownership (14 R393 to R399) beside the objects that show it: claims of the open election, the instants
at which lease, election and handover end, and the instant since which their clocks stand still (R399). -/
structure Ownership where
  claims : List (Nat × Nat)
  lease : Option Nat
  election : Option Nat
  handover : Option Nat
  frozen : Option Nat
  masters : List (Nat × Nat)
  deriving DecidableEq, Repr

/-- What the device takes from other objects when a request is written (06 R167, R169): program and basin of the load,
basins of the bank switch and of the clear, the rank-0 numbers of the gangs whose switch, and whose clear, is deferred,
the member (tier and set or package) of a retirement (15 R420), tier, member and mode of a margin measurement (10
R308), and the note of the loader's wait for a re-fetch (10 R301). -/
structure Requests where
  loadProgram : Nat
  loadBasin : Nat
  switchBasin : Nat
  clearBasin : Nat
  switchDeferred : List Nat
  clearDeferred : List Nat
  retire : Option (Nat × Nat)
  margin : Option (Nat × Nat × Nat)
  loadWaiting : Option (Nat × Nat) := none
  deriving DecidableEq, Repr

/-- A USDO session (14 R383): port, client node-ID, object, direction, announced length, bytes so far and
the instant of its last frame. -/
structure Session where
  port : Nat
  client : Nat
  index : Nat
  sub : Nat
  writing : Bool
  len : Nat
  data : List Byte
  last : Nat
  deriving DecidableEq, Repr

/-- An EMCY message (14 Table DIC-7) with the source it speaks for. -/
structure Emcy where
  source : Option Nat
  code : Nat
  register : Nat
  tick : Nat
  pond : Nat
  deriving DecidableEq, Repr

/-- The CAN ports (14 R380 to R388): sessions, waiting EMCY messages and the end of the inhibit time per
port, the instants of the last TPDOs, the TPDOs held back, the mapped values of the latest used edge, and the data rate in force
in kbit/s (R380, R381). -/
structure Can where
  sessions : List Session
  emcy : NMap (List Emcy)
  emcyFree : NMap Nat
  tpdoLast : NMap Nat
  tpdoHeld : NMap Bool
  tpdoSeen : NMap (List Nat)
  heartbeatAt : Nat
  rate : Nat
  deriving DecidableEq, Repr

/-- Mailbox and result cell (14 Table DIC-9); the mailbox is busy until the instant `busyUntil`. -/
structure Cells where
  index : Nat
  sub : Nat
  write : Bool
  length : Nat
  abort : Nat
  busyUntil : Nat
  data : List Byte
  cellAbort : Nat
  cellIndex : Nat
  cellSub : Nat
  cellCount : Nat
  deriving DecidableEq, Repr

/-! ## The weir (15) -/

/-- The weir (15 R402 to R411) beside the records of Table FLT-8: the expiry instant of each running timer
(plus one; 0 when none runs), sources that have escalated since they were set, the sources of an ERR_N
reaction or target, the sources that trapped, the basin-level bits per basin, and what a source last arose
from: pond, member or row. -/
structure Weir where
  timers : NMap Nat
  escalated : List Nat
  errN : List Nat
  trapped : List Nat
  trapEdge : Bool
  basins : NMap Nat
  firstPond : NMap Nat
  memberOf : NMap Nat
  rowOf : NMap Nat
  units : List (Nat × Nat)
  restarts : List Nat
  deriving DecidableEq, Repr

/-! ## Host, boot and security (16) -/

/-- What manufacture fixes in the device (01 R9, 14 Table DIC-13, 16 R457): grade, fused and spare
positions, identities; `spareMappings` counts since manufacture (0x2120.03). -/
structure Nvm where
  grade : Grade
  spares : List Nat
  fused : List Nat
  serial : Nat
  silicon : Nat
  rom : Nat
  spareMappings : Nat
  record : List Byte
  certificate : List Byte
  deriving DecidableEq, Repr

/-- What a USDO answer carries: data, an acknowledgement, or an abort code (14 R383, Table DIC-4). -/
inductive UsdoAnswer where
  | data (bytes : List Byte)
  | done
  | abort (code : Nat)
  deriving DecidableEq, Repr

/-- What the block sends out. -/
inductive Output where
  /-- An MSI-X message (16 R436). -/
  | msix (vector : Nat)
  /-- A frame on a CAN port, classical or CAN FD (14 Table DIC-5). -/
  | can (fd : Bool) (port id : Nat) (data : List Byte)
  /-- An EMCY message, a CAN FD frame: port, CAN-ID, and the content of 14 Table DIC-7. -/
  | emcy (port id code register tick pond : Nat)
  /-- A USDO response, a CAN FD frame: port, CAN-ID, the client it is for, and what it carries (14 R383, Table DIC-5). -/
  | usdo (port id client : Nat) (answer : UsdoAnswer)
  /-- Completion of a host CXL.mem read (16 R431). -/
  | hostData (poisoned : Bool) (data : List Byte)
  /-- Completion of a host CXL.mem write (16 R432). -/
  | hostWritten
  /-- A BISnpInv of a device line (16 R433). -/
  | snoopInv (line : Nat)
  /-- The completion mirror's full-line write (16 R435). -/
  | mirror (addr : Nat) (data : List Byte)
  /-- A pulse on TICK_OUT: the instants at which it rises and falls (02 R32). -/
  | tickOut (rise fall : Nat)
  /-- An SPDM response: its code and payload (16 R449). -/
  | spdm (code : Nat) (payload : List Byte)
  /-- Data captured by the TAP (16 R451). -/
  | tdo (value : Nat)
  /-- A flit on a brook: head word, payload, check word (12 R334). -/
  | flit (brook head : Nat) (payload : List Byte) (crc : Nat)
  deriving DecidableEq, Repr

/-- A flash slot of the service firmware as written since shipment (16 R441, R447); empty when it holds no bytes. -/
structure FlashSlot where
  image : List Byte
  deriving DecidableEq, Repr

/-- A write or an FP32 add of a device agent that waits (10 R297, R301, 16 R433, R438): its bytes, the instant since which it waits
for its present cause (0 the host's response for a line, 1 an earlier write to a granule of it, else as notes of waits number them), and the
pond and running command that it belongs to. -/
structure Parked where
  uda : Nat
  bytes : List Byte
  add : Bool
  since : Nat
  cause : Nat
  owner : Option (Nat × Nat)
  deriving DecidableEq, Repr

/-- The host link (16 R431 to R439) beside its objects: masked and pending vectors as bit masks, committed
HDM decoders, the instant since which the link is down, host-held lines (line number, exclusive), writes
that wait. -/
structure HostSide where
  msixMask : Nat
  msixPending : Nat
  decoders : Nat
  downSince : Option Nat
  lines : List (Nat × Bool)
  waiting : List Parked
  memoryActive : Bool
  deriving DecidableEq, Repr

/-- Boot (16 R440 to R442): the instant of the release of MODRST_N, whether tier contents were preserved,
whether boot stopped, the slots, the slot in
use, a staged image waiting for activation, and the verify and activation in progress. -/
structure Boot where
  begun : Option Nat
  preserved : Bool
  stopped : Bool
  slots : NMap FlashSlot
  active : Nat
  running : Nat
  staged : Bool
  verifying : Option (List Byte)
  activating : Option Nat
  deriving DecidableEq, Repr

/-- The trust state (16 R446, R448, R452, R453): debug level, the permanent disable fuse, the number of the
nonce in use, the token words shifted so far, failures since the chip reset, the token under verification,
anti-rollback fuses burned and revoked keys. -/
structure Secure where
  level : Nat
  disabled : Bool
  nonce : Nat
  words : List (BitVec 32)
  failures : Nat
  checking : Option (List Byte)
  antiRollback : Nat
  revoked : Nat
  deriving DecidableEq, Repr

/-- A breakpoint comparator (16 R455). -/
structure Breakpoint where
  enabled : Bool
  gang : Bool
  pond : Nat
  mask : Nat
  value : Nat
  hits : Nat
  deriving DecidableEq, Repr

/-- A disabled comparator. -/
def Breakpoint.off : Breakpoint :=
  { enabled := false, gang := false, pond := 0, mask := 0, value := 0, hits := 0 }

/-- The debug port (16 R451 to R456): the instruction selected, comparators with the one named last, the latest dictionary access
(14 Table DIC-10), the latest memory access, the address of a read that waits (R456), and the boundary register. -/
structure Debug where
  instruction : Nat
  brk : NMap Breakpoint
  brkSel : Nat
  dictIndex : Nat
  dictSub : Nat
  dictOp : Nat
  dictAbort : Nat
  dictValue : Nat
  memData : Nat
  memStatus : Nat
  memWait : Option Nat
  boundary : Nat
  pollPond : Nat
  deriving DecidableEq, Repr

/-! ## Power and pins (17) -/

/-- Power states and transitions (17 R459 to R468) beside their objects: a request that waits for an edge or
for the end of a transition with its master, the state an exit or entry goes to, the instant at which the
last entry ended, the wake being held or served (code, master, instant), the state to enter after the exit, the instant
at which the entry or exit in progress began, the instant of power-on, the instant plus one at which the latest interval
of powering ponds up began (R469), and whether the pads of the management connector and the interfaces of the compute dies
are latched (R468). -/
structure Power where
  request : Option (Nat × Nat)
  target : Nat
  entered : Option Nat
  wake : Option (Nat × Nat × Nat)
  thenState : Option Nat
  wakeStart : Nat
  poweredAt : Nat
  interval : Nat
  latched : Bool
  diesLatched : Bool
  deriving DecidableEq, Repr

/-- Pins and the conditions that the sensors watch (17 Table PWR-4, R474, R476). -/
structure Pins where
  pwrOk : Bool
  modrst : Bool
  perst : Bool
  straps : Nat
  tickOut : Nat
  tdi : Nat
  supplyOut : Bool
  supplyStopped : Bool
  stagesOff : Bool
  tempHigh : Bool
  tempCritical : Bool
  coolHold : Bool
  deriving DecidableEq, Repr

end Sys2Proof.Machine
end

