-- ==== Sys2Proof/Machine/Parts3.lean ====
section
/-! DEFINITION. The pieces of the block's state of frames (09), numerics (11), fabric (12) and shares
(13). -/

namespace Sys2Proof.Machine

/-! ## Shares (13) -/

/-- A background task on its gang (13 R362 to R370): its number, the instant since which its present charge runs, the
instant of its last entry or restore, the instant of a stop request, whether it is saving or restoring, the stop kind
of its gang, the largest B_live of its ranks, whether an end of R360 waits, the instant at which the transfer of its state
began, and whether that transfer has met a condition under which R366 fixes no rate. -/
structure TaskRun where
  task : Nat
  since : Nat
  entered : Nat
  stopAt : Option Nat
  saving : Bool
  restoring : Bool
  kind : Nat
  live : Nat
  ending : Bool
  moved : Nat := 0
  slow : Bool := false
  deriving DecidableEq, Repr

/-- Shares (13): the task running on each gang, by rank-0 logical number, and the instant plus one of each task's last
switch-out. -/
structure Shares where
  runs : NMap (Option TaskRun)
  outAt : NMap Nat
  deriving DecidableEq, Repr

/-! ## Frames (09) -/

/-- A decoded picture that waits for its output (09 R263): the coded video sequence it belongs to, its order count in it,
the number of its DECODE among the free values and the unit that coded it. -/
structure HeldPicture where
  epoch : Nat
  order : Nat
  index : Nat
  bytes : List Byte
  deriving DecidableEq, Repr

/-- An intake context (09 R262): codec, largest picture, the logical pond that owns it, the UDA of its reference area and its
size in units of 4,096 bytes, whether it awaits a random access point (R267), the coded video sequences met, the AV1 frames shown since the last
key frame, and the pictures that wait for output (R263). -/
structure IntakeCtx where
  opened : Bool
  codec : Nat
  wMax : Nat
  hMax : Nat
  owner : Nat
  area : Nat
  size : Nat
  awaiting : Bool
  epoch : Nat
  shown : Nat
  pics : List HeldPicture
  deriving DecidableEq, Repr

/-- A closed context. -/
def IntakeCtx.closed : IntakeCtx :=
  { opened := false, codec := 0, wMax := 0, hMax := 0, owner := 0, area := 0, size := 0, awaiting := false, epoch := 0,
    shown := 0, pics := [] }

/-- A unit of a chip-level class given to a pond (09 R272): for the head of its queue until that has started, then for
its running command. `context` is the intake context in use, `report` the UDA of the record whose duration the
completion writes, `bound` the bound of R266. -/
structure ChipUse where
  cls : Nat
  unit : Nat
  pond : Nat
  run : Option Nat
  context : Option Nat
  report : Nat
  bound : Nat
  deriving DecidableEq, Repr

/-- Frame intake and post-processing (09): contexts, and units in use. -/
structure Intake where
  contexts : NMap IntakeCtx
  uses : List ChipUse
  deriving DecidableEq, Repr

/-- No context open, every unit free. -/
def Intake.start : Intake := { contexts := [], uses := [] }

/-! ## Numerics (11) -/

/-- A record as the unit holds it (11 Table NUM-1). -/
structure NumRec where
  historyValid : Bool
  watch : Bool
  alarm : Bool
  isPartial : Bool
  window : Nat
  target : Int
  margin : Nat
  contributors : Nat
  sigma : Int
  fill : Nat
  ring : Nat
  step : Nat
  zeroRun : Nat
  threshold : Nat
  lastAmax : F32
  history : List F32
  deriving DecidableEq, Repr

/-- The numerics unit (11): the records in use, those whose fold is to be published at the next used edge, those among them that an
edge has found unfinished, and whether the unit is in reset (15 Table FLT-4). -/
structure Numerics where
  records : NMap (Option NumRec)
  folded : List Nat
  late : List Nat
  resetting : Bool
  deriving DecidableEq, Repr

/-- The unit off, with no record. -/
def Numerics.start : Numerics := { records := [], folded := [], late := [], resetting := false }

/-! ## Fabric (12) -/

/-- A flit kept for replay (12 R336): link sequence, kind, destination, count, payload. -/
structure Flit where
  seq : Nat
  kind : Nat
  dst : Nat
  count : Nat
  payload : List Byte
  deriving DecidableEq, Repr

/-- A brook (12 R334 to R337) beside its record: sequences, the replay buffer oldest first, messages and control flits
that wait (each the flits that it still has to send; the first one is under way when `mid` is set), replays in a row of
the sequence named last, naks in a row for a sequence that does not come, failed retrains in a row, failed data lanes, the lane that the spare
replaced, a handshake under way, whether its request has gone out and the brook carries no flits, a replay and a nak that the handshake holds back, the group of reduced width, the message being received (source and bytes so far). -/
structure Brook where
  txSeq : Nat
  rxNext : Nat
  replay : List Flit
  waiting : List (List Flit)
  mid : Bool
  replaySeq : Nat
  replayCount : Nat
  nakSeq : Nat
  nakCount : Nat
  retrains : Nat
  failed : List Nat
  spared : Option Nat
  asked : Option Nat
  holding : Bool
  owedReplay : Bool
  owedNak : Bool
  half : Option Nat
  bytes : List Byte
  source : Nat
  deriving DecidableEq, Repr

/-- A brook with nothing kept. -/
def Brook.down : Brook :=
  { txSeq := 0, rxNext := 0, replay := [], waiting := [], mid := false, replaySeq := 0, replayCount := 0,
    nakSeq := 0, nakCount := 0, retrains := 0, failed := [], spared := none, asked := none, holding := false,
    owedReplay := false, owedNak := false, half := none, bytes := [], source := 0 }

/-- An outgoing message not yet acknowledged end to end (12 R338), with the route entry that was in force when it was made (R341). -/
structure OutMsg where
  dst : Nat
  id : Nat
  op : Nat
  uda : Nat
  counter : Nat
  poisoned : Bool
  transfer : Nat
  extra : Nat
  data : List Byte
  sentAt : Nat
  brook : Option Nat
  route : Nat
  deriving DecidableEq, Repr

/-- A class 0x8 command in progress (12 R342): physical and logical pond, the number of its running record, its words,
the descriptor registers read at its start, group, group sequence and members, the routes in force at its start, the
messages (destination, ID) and the pieces that it still waits for, pieces received by number, stamps by member, blocks
in scratch by place (destination slot plus one), markers of a permute that wait for its acknowledgements, round, instant of its start, the last message of a signalled PUT, and
whether it is done. -/
structure FabCmd where
  pond : Nat
  logical : Nat
  run : Nat
  cmd : Cmd
  fields : List Nat
  group : Nat
  seq : Nat
  own : Nat
  members : List Nat
  routes : NMap Nat
  acks : List (Nat × Nat)
  pieces : List Nat
  parts : NMap (List Byte)
  stamps : NMap Nat
  scratch : NMap Nat
  torn : Bool
  markers : List Nat
  round : Nat
  started : Nat
  last : Option OutMsg
  done : Bool
  deriving DecidableEq, Repr

/-- A group in force (12 Table FAB-4). -/
structure FabGroup where
  own : Nat
  members : List Nat
  worst : Nat
  deriving DecidableEq, Repr

/-- A collective part that arrived before its command (12 R346). -/
structure EarlyPart where
  src : Nat
  group : Nat
  seq : Nat
  stamp : Nat
  part : Nat
  data : List Byte
  deriving DecidableEq, Repr

/-- The fabric (12): brooks, the route table and groups in force, flits that destinations have granted, flits granted to
and used by sources, message IDs acknowledged per source, outgoing messages, commands in progress, group sequence
numbers, fabric counters, the rotation over the brooks, the instants plus one since which sends to a destination wait for credit, and flits
to be granted to a source to which no brook leads. -/
structure Fabric where
  brooks : NMap Brook
  routes : NMap Nat
  groups : NMap (Option FabGroup)
  credit : NMap Nat
  granted : NMap Nat
  used : NMap Nat
  acked : NMap (List Nat)
  nextMsg : NMap Nat
  nextTransfer : Nat
  out : List OutMsg
  cmds : List FabCmd
  early : List EarlyPart
  seqs : NMap Nat
  counters : NMap Nat
  rotor : Nat
  creditSince : NMap Nat
  owedGrants : NMap Nat
  deriving DecidableEq, Repr

/-- The fabric after a reset of the I/O die (12 R345). -/
def Fabric.start : Fabric :=
  { brooks := [], routes := [], groups := [], credit := [], granted := [], used := [], acked := [],
    nextMsg := [], nextTransfer := 0, out := [], cmds := [], early := [], seqs := [], counters := [],
    rotor := 0, creditSince := [], owedGrants := [] }

end Sys2Proof.Machine
end

