-- ==== Sys2Proof/Machine/State.lean ====
section
/-! DEFINITION. The state of the block, its fault and refusal reasons, and the state right after power-up.

One value per place: objects of the dictionary that hold a plain value (settings, requests, results, counters)
live in `dict`; quantities that other structures hold are computed when their object is read. -/

namespace Sys2Proof.Machine

/-- Reasons to stop. -/
inductive Fault where
  /-- The command names a unit that the device does not have: a pond, gang, future, brook, port, vector, member or
  master outside its range, or a message of a length that no message has. Raised by onPond, writeObject, onPort,
  onMessage and the bounds of a few rows (log 53). Safe: the device has no such unit. -/
  | noSuchUnit
  deriving DecidableEq, Repr

/-- Reasons to refuse a command. -/
inductive Refusal where
  /-- The command has no meaning in the model. Raised by no arm once every command is modelled. Safe. -/
  | notModelled (mnemonic : String)
  deriving DecidableEq, Repr

/-- The state of the block. `fresh` numbers the free values (the model's own field); `inForce` holds the
settings taken at the last used edge (02 R36, 03 R68), `captured` the counters captured there (03 R87), `copies`
the private copies of rw objects (14 R377); `tree` is the basin tree in force (01 R28). Memory holds the bytes
of frames, keyed by `physKey`. -/
structure State where
  pending : List Instr
  now : Nat
  fresh : Nat
  nvm : Nvm
  dict : NMap Nat
  inForce : NMap Nat
  captured : NMap Nat
  copies : NMap Nat
  mem : List Host.Cell
  map : PondMap
  tree : NMap Nat
  tick : Tick
  gangs : NMap Gang
  steps : NMap StepRec
  ponds : NMap Pond
  programs : NMap DirRecord
  seq : Seq
  tiers : Tiers
  intake : Intake
  numerics : Numerics
  fabric : Fabric
  shares : Shares
  requests : Requests
  own : Ownership
  can : Can
  cells : Cells
  weir : Weir
  host : HostSide
  boot : Boot
  secure : Secure
  debugPort : Debug
  power : Power
  pins : Pins
  sent : List Output
  deriving DecidableEq, Repr

/-- An empty record of the program directory (06 Table CMD-10). -/
def DirRecord.empty : DirRecord :=
  { state := 0, pondCount := 0, batch := 0, cFix := 0, cStep := 0, aBg := 0, crc := 0, checkpoints := 0,
    imageUda := 0, holding := 0 }

/-- A page record of an unconfigured pool (07 R207). -/
def PageRec.unconfigured : PageRec := { count := 0, freeTag := 0, state := 3 }

/-- The futures and pages of a cold boot (07 R207). -/
def Seq.cold : Seq :=
  { futures := [], records := [], free := [], fresh := [], configured := [], published := 0 }

/-- The tiers of a cold boot: nothing mapped, everything in service (10 R285, R306). -/
def Tiers.cold : Tiers :=
  { extents := [], objects := [], directives := [], started := 0, migrations := [], refetches := [],
    used := [], releasing := [], rotor := [], members := [], evacuating := [], schedules := [], rows := [],
    repairs := [], spareRows := [], reads := [], degraded := [] }

/-- The tick before any edge (02 R32, 16 R442). -/
def Tick.start : Tick :=
  { running := false, lastEdge := 0, anyEdge := false, period := 0, latched := false, committed := false,
    origins := [], firstRecord := true, lostSource := false, haltSeen := false, build := 0,
    repaired := false, staggered := false, dropSource := false }

/-- The weir with no source set (15 R479). -/
def Weir.start : Weir :=
  { timers := [], escalated := [], errN := [], trapped := [], trapEdge := false, basins := [],
    firstPond := [], memberOf := [], rowOf := [], units := [], restarts := [] }

/-- No master owns the device (14 R393). -/
def Ownership.vacant : Ownership :=
  { claims := [], lease := none, election := none, handover := none, frozen := none, masters := [] }

/-- No load, bank switch or clear requested (06 R169). -/
def Requests.idle : Requests :=
  { loadProgram := 0, loadBasin := 0, switchBasin := 0, clearBasin := 0, switchDeferred := [],
    clearDeferred := [],
    retire := none, margin := none }

/-- CAN ports with nothing under way (14 R382). -/
def Can.start : Can :=
  { sessions := [], emcy := [], emcyFree := [], tpdoLast := [], tpdoHeld := [], tpdoSeen := [],
    heartbeatAt := 0, rate := 5000 }

/-- Mailbox and result cell at 0 (14 Table DIC-9). -/
def Cells.start : Cells :=
  { index := 0, sub := 0, write := false, length := 0, abort := 0, busyUntil := 0, data := [], cellAbort := 0,
    cellIndex := 0, cellSub := 0, cellCount := 0 }

/-- The host link before training (16 R438); every vector is masked after a reset of the MSI-X state (log 9). -/
def HostSide.start : HostSide :=
  { msixMask := 0xFF, msixPending := 0, decoders := 0, downSince := some 0, lines := [], waiting := [],
    memoryActive := false }

/-- The debug port after a TAP reset (16 R451). -/
def Debug.start : Debug :=
  { instruction := 2, brk := [], brkSel := 0, dictIndex := 0, dictSub := 0, dictOp := 0, dictAbort := 0, dictValue := 0,
    memData := 0, memStatus := 0, memWait := none, boundary := 0, pollPond := 0 }

/-- Active, with nothing requested (17 R459). -/
def Power.start : Power :=
  { request := none, target := 0, entered := none, wake := none, thenState := none, wakeStart := 0,
    poweredAt := 0, interval := 0,
    latched := false, diesLatched := false }

/-- Pond states of a device as shipped: spares and fused ponds at their fuse positions (01 R9). -/
def shippedStates (spares fused : List Nat) : NMap PondState :=
  (List.range 144).filterMap fun p =>
    if p ∈ fused then some (p, .fused) else if p ∈ spares then some (p, .spareIdle) else none

/-- Spare positions of the model's device, 8 on each die (01 R9; DESIGN CHOICE, log 5). -/
def sparePositions : List Nat :=
  [64, 65, 66, 67, 68, 69, 70, 71, 136, 137, 138, 139, 140, 141, 142, 143]

/-- What the manufacture fixes in the model's device (DESIGN CHOICE, log 5 and 6). -/
def Nvm.shipped : Nvm :=
  { grade := .a128, spares := sparePositions, fused := [], serial := 0, silicon := 0, rom := 0,
    spareMappings := 0, record := [], certificate := [] }

/-- The shares with no task (13 R358). -/
def Shares.start : Shares := { runs := [], outAt := [] }

/-- The state right after power-up: PWR_OK is high, MODRST_N and PERST_N are low, and boot has not begun (16 R440,
17 R473). Registers without a stated reset value hold the values that the assumption log names. -/
def State.reset : State :=
  { pending := [], now := 0, fresh := 0, nvm := Nvm.shipped, dict := [], inForce := [], captured := [],
    copies := [], mem := [],
    map := { states := shippedStates sparePositions [], toPhys := [], replacements := [], tables := [] },
    tree := [], tick := Tick.start, gangs := [], steps := [], ponds := [], programs := [], seq := Seq.cold,
    tiers := Tiers.cold, intake := Intake.start, numerics := Numerics.start,
    fabric := Fabric.start, shares := Shares.start, requests := Requests.idle, own := Ownership.vacant, can := Can.start,
    cells := Cells.start, weir := Weir.start, host := HostSide.start,
    boot := { begun := none, preserved := false, stopped := false, slots := [], active := 0,
              running := 0, staged := false, verifying := none, activating := none },
    secure := { level := 0, disabled := false, nonce := 0, words := [], failures := 0, checking := none,
                antiRollback := 0, revoked := 0 },
    debugPort := Debug.start, power := Power.start,
    pins := { pwrOk := true, modrst := false, perst := false, straps := 0x7F, tickOut := 0, tdi := 0,
              supplyOut := false, supplyStopped := false, stagesOff := false, tempHigh := false,
              tempCritical := false, coolHold := false },
    sent := [] }

end Sys2Proof.Machine
end

