-- ==== Sys2Proof/Machine/Ops.lean ====
section
/-! DEFINITION. The named operations over the state that every chapter uses: objects of the dictionary,
ponds by physical and logical number, counters, time, and the guards on the units a command names. -/

namespace Sys2Proof.Machine

/-- The outcome type of every meaning. -/
abbrev Out := Host.Outcome State Fault Refusal

/-! ## Objects -/

/-- The value held for an object. -/
def getObj (s : State) (k : Nat) : Nat := mapFind (objDefault k) s.dict k

/-- The state with an object's value replaced. -/
def setObj (s : State) (k v : Nat) : State := { s with dict := mapPut (objDefault k) s.dict k v }

/-- The state with a counter raised by `n`. A counter wraps at the width of its type when it is read. -/
def addObj (s : State) (k n : Nat) : State := setObj s k (getObj s k + n)

/-- The state with bit `b` of an object set. -/
def setObjBit (s : State) (k b : Nat) : State := setObj s k (withBit (getObj s k) b true)

/-- The value of a setting in force since the last used edge (02 R36, 03 R68). -/
def forceObj (s : State) (k : Nat) : Nat := mapFind (objDefault k) s.inForce k

/-- The tick number (0x2202.01). -/
def tickNumber (s : State) : Nat := getObj s (key 0x2202 1)

/-- One millisecond in clk (00: one clk is 0.8 ns). -/
def msClk : Nat := 1250000

/-- One microsecond in clk. -/
def usClk : Nat := 1250

/-- Time moved on to instant `t`; it never moves back (log 3). -/
def advanceTo (s : State) (t : Nat) : State := { s with now := max s.now t }

/-- Clk since the last used edge. -/
def sinceEdge (s : State) : Nat := s.now - s.tick.lastEdge

/-- The next free value of width `w` and the state that has used it (log 10). -/
def freeWord (s : State) : BitVec 64 × State :=
  (Config.freeWord s.fresh, { s with fresh := s.fresh + 1 })

/-- One more thing sent out, newest first. -/
def send (s : State) (o : Output) : State := { s with sent := o :: s.sent }

/-! ## Grade (00 Table SCP-1, 01 Table PND-4) -/

/-- Logical pond count (01 R10). -/
def logicalCount (s : State) : Nat :=
  match s.nvm.grade with
  | .a128 => 128
  | .b96 => 96

/-- Engine classes present (0x2080.05). -/
def enginesPresent (s : State) : Nat :=
  match s.nvm.grade with
  | .a128 => 0x0FFF
  | .b96 => 0x09FF

/-- Post-processing units (0x2080.06). -/
def postUnits (s : State) : Nat :=
  match s.nvm.grade with
  | .a128 => 4
  | .b96 => 0

/-- Intake decoders (0x2080.07). -/
def intakeUnits (s : State) : Nat :=
  match s.nvm.grade with
  | .a128 => 2
  | .b96 => 0

/-! ## Ponds -/

/-- State of a physical pond (01 R9). -/
def pondState (s : State) (ph : Nat) : PondState := mapFind .active s.map.states ph

/-- The state with a physical pond's state replaced. -/
def setPondState (s : State) (ph : Nat) (st : PondState) : State :=
  { s with map := { s.map with states := mapPut .active s.map.states ph st } }

/-- The physical pond of a logical number; 0xFF when it is absent (0x2101). -/
def physOf (s : State) (l : Nat) : Nat := mapFind 0xFF s.map.toPhys l

/-- The logical number of a physical pond, if it has one. -/
def logicalOf (s : State) (ph : Nat) : Option Nat :=
  (s.map.toPhys.find? fun e => decide (e.2 = ph)).map (·.1)

/-- The compute die of a physical pond (01 R8). -/
def dieOf (ph : Nat) : Nat := if ph < 72 then 0 else 1

/-- A physical pond's contents. -/
def pondOf (s : State) (ph : Nat) : Pond := mapFind Pond.reset s.ponds ph

/-- The state with a physical pond's contents replaced. -/
def setPond (s : State) (ph : Nat) (pd : Pond) : State :=
  { s with ponds := mapPut Pond.reset s.ponds ph pd }

/-- The state with a physical pond's contents passed through `f`. -/
def modPond (s : State) (ph : Nat) (f : Pond → Pond) : State := setPond s ph (f (pondOf s ph))

/-- The state with a pond's control core passed through `f`. -/
def modCore (s : State) (ph : Nat) (f : Core → Core) : State :=
  modPond s ph fun pd => { pd with core := f pd.core }

/-- A logical number is out of service while a replacement or a reload of its pond is under way (01 R13,
15 R413). -/
def outOfService (s : State) (l : Nat) : Bool :=
  s.map.replacements.any fun r => decide (r.logical = l)

/-- A logical number takes work: it is mapped to an active pond and is in service (01 R22, R23). -/
def pondUsable (s : State) (l : Nat) : Bool :=
  decide (l < logicalCount s) && decide (physOf s l ≠ 0xFF) && !outOfService s l

/-! ## Guards on the units a command names -/

/-- A command on logical pond `p`: a fault when no such number exists, nothing when the number is absent. -/
def onPond (p : Nat) (s : State) (f : Nat → State) : Out :=
  if p < logicalCount s then
    (if physOf s p = 0xFF then .next s else .next (f (physOf s p)))
  else .fault .noSuchUnit

/-! ## Parameter registers, counters and accumulators of a pond -/

/-- P[i]; P0 reads 0 (06 Table CMD-1). -/
def getParam (c : Core) (i : Nat) : W64 := if i = 0 then 0 else mapFind 0 c.params i

/-- The core with P[i] written; a write to P0 is ignored (06 Table CMD-1). -/
def setParam (c : Core) (i : Nat) (v : W64) : Core :=
  if i = 0 then c else { c with params := mapPut 0 c.params i v }

/-- Synchronisation counter C[i] (06 Table CMD-1). -/
def getSync (c : Core) (i : Nat) : Nat := mapFind 0 c.sync i

/-- The core with C[i] written. -/
def setSync (c : Core) (i v : Nat) : Core := { c with sync := mapPut 0 c.sync i v }

/-- The queue of an engine class (06 R152). -/
def queueOf (pd : Pond) (cls : Nat) : List Queued := mapFind [] pd.queues cls

/-- The pond with the queue of a class replaced. -/
def setQueue (pd : Pond) (cls : Nat) (q : List Queued) : Pond :=
  { pd with queues := mapPut [] pd.queues cls q }

/-- The programs of the active bank (06 Table CMD-1). -/
def activePrograms (pd : Pond) : List Resident := mapFind [] pd.banks pd.core.activeBank

/-- The programs of the inactive bank. -/
def inactivePrograms (pd : Pond) : List Resident := mapFind [] pd.banks (1 - pd.core.activeBank)

/-- A program of the active bank. -/
def residentOf (pd : Pond) (n : Nat) : Option Resident :=
  (activePrograms pd).find? fun r => decide (r.image.number = n)

/-- The record of a program in the program directory (06 R171). -/
def dirOf (s : State) (n : Nat) : DirRecord := mapFind DirRecord.empty s.programs n

/-- The state with a directory record replaced. -/
def setDir (s : State) (n : Nat) (r : DirRecord) : State :=
  { s with programs := mapPut DirRecord.empty s.programs n r }

/-- A program is available: resident somewhere and not marked unavailable (02 R49). -/
def available (s : State) (n : Nat) : Bool :=
  bitAt (dirOf s n).state 0 && !bitAt (dirOf s n).state 1

/-- The entry of a future (07 R191). -/
def futureOf (s : State) (f : Nat) : Future := mapFind Future.free s.seq.futures f

/-- The allocated futures (07 Table FUT-2: every state but free). -/
def allocatedFutures (s : State) : List Nat := (s.seq.futures.filter fun e => decide (e.2.state ≠ 0)).map (·.1)

/-- The state with a future's entry replaced. -/
def setFuture (s : State) (f : Nat) (e : Future) : State :=
  { s with seq := { s.seq with futures := mapPut Future.free s.seq.futures f e } }

/-- The gang of a rank-0 logical number. -/
def gangOf (s : State) (g : Nat) : Gang := mapFind Gang.empty s.gangs g

/-- The state with a gang replaced. -/
def setGang (s : State) (g : Nat) (v : Gang) : State :=
  { s with gangs := mapPut Gang.empty s.gangs g v }

/-- What the tick holds for a future. -/
def stepOf (s : State) (f : Nat) : StepRec := mapFind StepRec.notDue s.steps f

/-- The state with a future's step replaced. -/
def setStep (s : State) (f : Nat) (r : StepRec) : State :=
  { s with steps := mapPut StepRec.notDue s.steps f r }

/-- The module admits, starts and dispatches only while Active (17 R459). -/
def isActive (s : State) : Bool :=
  decide (getObj s (key 0x2F00 2) = 0) && decide (getObj s (key 0x2F00 3) = 0)

/-- The tiers are in self-refresh or on their way into it: directives and prefetch entries wait (17 R461). -/
def tiersAsleep (s : State) : Bool :=
  decide (2 ≤ getObj s (key 0x2F00 2)) || (decide (getObj s (key 0x2F00 3) = 1) && decide (2 ≤ s.power.target))

/-- The setup regime is in force (15 R408). -/
def inSetup (s : State) : Bool := decide (getObj s (key 0x2E00 1) = 1)

end Sys2Proof.Machine
end

