-- ==== Sys2Proof/Machine/Basin.lean ====
section
/-! DEFINITION. The basin tree in force, gangs and their members (01 R20 to R25), and the commit of a staged
tree (01 R28, Table PND-5). -/

namespace Sys2Proof.Machine

/-- A field of the tree in force, by the key of its staged object. -/
def treeObj (t : NMap Nat) (k : Nat) : Nat := mapFind (objDefault k) t k

/-- Enable of a basin; basin 0 is always enabled (01 R20). -/
def basinEnabled (t : NMap Nat) (b : Nat) : Bool := decide (treeObj t (key (0x5000 + b) 1) = 1)

/-- Parent of a basin. -/
def basinParent (t : NMap Nat) (b : Nat) : Nat := treeObj t (key (0x5000 + b) 3)

/-- Gang width of a basin. -/
def basinWidth (t : NMap Nat) (b : Nat) : Nat := treeObj t (key (0x5000 + b) 4)

/-- Share class of a basin. -/
def basinClass (t : NMap Nat) (b : Nat) : Nat := treeObj t (key (0x5000 + b) 5)

/-- Tick budget of a basin. -/
def basinBudget (t : NMap Nat) (b : Nat) : Nat := treeObj t (key (0x5000 + b) 6)

/-- Home basin of a logical number. -/
def homeBasin (t : NMap Nat) (l : Nat) : Nat := treeObj t (key 0x2102 (l + 1))

/-- The direct members of a basin among `n` logical numbers, ascending (01 R22, R24). -/
def directMembers (t : NMap Nat) (n b : Nat) : List Nat :=
  (List.range n).filter fun l => decide (homeBasin t l = b)

/-- A list cut into runs of `g`; a shorter rest makes no gang. -/
def cutGangs (g : Nat) : Nat → List Nat → List (List Nat)
  | 0, _ => []
  | fuel + 1, l =>
    if g = 0 ∨ l.length < g then [] else l.take g :: cutGangs g fuel (l.drop g)

/-- The gangs of a basin (01 R22). -/
def basinGangs (s : State) (b : Nat) : List (List Nat) :=
  cutGangs (basinWidth s.tree b) 128 (directMembers s.tree (logicalCount s) b)

/-- A gang is usable when every member takes work (01 R22, R23). -/
def gangUsable (s : State) (members : List Nat) : Bool := members.all (pondUsable s)

/-- The members of the gang that holds a logical number (01 R22). -/
def gangMembers (s : State) (l : Nat) : List Nat :=
  ((basinGangs s (homeBasin s.tree l)).find? fun m => decide (l ∈ m)).getD [l]

/-- Rank of a logical number in its gang (01 R22). -/
def rankIn (s : State) (l : Nat) : Nat := (gangMembers s l).idxOf l

/-- The rank-0 logical number of a pond's gang. -/
def rank0Of (s : State) (l : Nat) : Nat := (gangMembers s l).headD l

/-- A basin with its ancestors, up to basin 0 (01 R21); the fuel is the size of the table. -/
def ancestorsGo (t : NMap Nat) : Nat → Nat → List Nat
  | 0, _ => []
  | fuel + 1, b => if b = 0 ∨ 255 < b then [0] else b :: ancestorsGo t fuel (basinParent t b)

/-- A basin with its ancestors. -/
def ancestors (t : NMap Nat) (b : Nat) : List Nat := ancestorsGo t 256 b

/-- The basins that hold a basin in their subtree are its ancestors: `c` lies in the subtree of `b`. -/
def inSubtree (t : NMap Nat) (b c : Nat) : Bool := decide (b ∈ ancestors t c)

/-- Usable gangs of a basin's direct members. -/
def usableGangs (s : State) (b : Nat) : List (List Nat) := (basinGangs s b).filter (gangUsable s)

/-- Usable ponds in the subtree of a basin (0x50bb.09, 01 R25). -/
def usablePonds (s : State) (b : Nat) : Nat :=
  ((List.range 256).filter fun c => basinEnabled s.tree c && inSubtree s.tree b c).foldl
    (fun n c => n + (usableGangs s c).length * basinWidth s.tree c) 0

/-- The keys of the staged basin table (01 R28). -/
def isTreeKey (k : Nat) : Bool :=
  let index := k / 256
  let sub := k % 256
  (decide (index = 0x2102) && decide (1 ≤ sub) && decide (sub ≤ 0x80)) ||
    (decide (0x5000 ≤ index) && decide (index ≤ 0x50FF) && decide (sub ∈ [1, 3, 4, 5, 6]))

/-- The staged copy: the objects of the basin table as written (01 R28). -/
def stagedTree (s : State) : NMap Nat := s.dict.filter fun e => isTreeKey e.1

/-- The dictionary with the staged copy replaced by a tree in force (01 R30). -/
def restage (s : State) : State :=
  let rest := s.dict.filter fun e => !isTreeKey e.1
  { s with dict := rest.foldr (fun e m => mapInsert m e.1 e.2) s.tree }

/-- Following parents from `b` reaches basin 0 within the fuel (01 R21). -/
def reachesRoot (t : NMap Nat) : Nat → Nat → Bool
  | 0, _ => false
  | fuel + 1, b => if b = 0 then true else if 255 < b then false else reachesRoot t fuel (basinParent t b)

/-- The result code of a commit of tree `t` over `n` logical numbers (01 Table PND-5): the lowest code among
the rules violated. Rule 0x04 is judged for basins with a gang width of R22 only (DESIGN CHOICE, log 55). -/
def commitCode (t : NMap Nat) (n : Nat) : Nat :=
  let bs := List.range 256
  let on := bs.filter (basinEnabled t)
  let badParent := on.any fun b =>
    decide (b ≠ 0) && (decide (255 < basinParent t b) || !basinEnabled t (basinParent t b))
  let cycle := bs.any fun b => decide (b ≠ 0) && !reachesRoot t 257 b
  let badHome := (List.range n).any fun l =>
    decide (255 < homeBasin t l) || !basinEnabled t (homeBasin t l)
  let widths := [1, 2, 4, 8, 16, 32, 64, 128]
  let badCount := bs.any fun b =>
    decide (basinWidth t b ∈ widths) && decide ((directMembers t n b).length % basinWidth t b ≠ 0)
  let badWidth := bs.any fun b => decide (basinWidth t b ∉ widths)
  let badClass := bs.any fun b => decide (63 < basinClass t b)
  let badRoot := !basinEnabled t 0 || decide (basinParent t 0 ≠ 0xFF)
  if badParent then 1 else if cycle then 2 else if badHome then 3 else if badCount then 4
  else if badWidth then 5 else if badClass then 6 else if badRoot then 7 else 0

/-- A requested commit at a used edge (01 R28): the staged copy comes into force when every rule holds; the
result is reported either way and the request reads 0 again. -/
def basinCommit (s : State) : State :=
  if getObj s (key 0x2110 1) = 1 then
    let code := commitCode (stagedTree s) (logicalCount s)
    let s := setObj (setObj s (key 0x2110 1) 0) (key 0x2110 2) code
    if code = 0 then setObj { s with tree := stagedTree s } (key 0x2110 3) (tickNumber s) else s
  else s

end Sys2Proof.Machine
end

