-- ==== Sys2Proof/Machine/Flags.lean ====
section
/-! DEFINITION. The weir's record of a fault source (15 R402 to R411) without the reactions: summaries,
interrupts, EMCY, escalation timers, ERR_N; and the flags computed from them. -/

namespace Sys2Proof.Machine

/-- What a source arises from: a physical pond, the gang of a rank-0 logical number (whose home basin then
carries a basin-level source, 15 R403), a brook, a unit of a class, or the chip. -/
inductive Origin where
  | pond (ph : Nat)
  | gang (g : Nat)
  | brook (k : Nat)
  | unit (cls i : Nat)
  | chip
  deriving DecidableEq, Repr

/-- Indices that are never set (15 Table FLT-1). -/
def reservedSource (i : Nat) : Bool :=
  decide (24 ≤ i ∧ i ≤ 31) || decide (34 ≤ i ∧ i ≤ 39) || decide (72 ≤ i)

/-- The object of a source's record (15 Table FLT-8). -/
def srcKey (i sub : Nat) : Nat := key (0x5200 + i) sub

/-- A source's status bit is set. -/
def sourceSet (s : State) (i : Nat) : Bool := decide (getObj s (srcKey i 1) = 1)

/-- A source's cause is active. -/
def causeActive (s : State) (i : Nat) : Bool := decide (getObj s (srcKey i 2) = 1)

/-- Status bits of the sources `base … base + 63` (0x2E01.01, .02). -/
def chipSummary (s : State) (base : Nat) : Nat :=
  (List.range 64).foldl (fun w i => if sourceSet s (base + i) then w + 2 ^ i else w) 0

/-- Causes active (0x2E01.03, .04). -/
def causeSummary (s : State) (base : Nat) : Nat :=
  (List.range 64).foldl (fun w i => if causeActive s (base + i) then w + 2 ^ i else w) 0

/-! ## Interrupts (16 R436) -/

/-- The link is up (0x3000.01). -/
def linkUp (s : State) : Bool := decide (getObj s (key 0x3000 1) = 2)

/-- One cause of an MSI-X vector: a message, or the pending bit while the link is down or the vector masked
(16 R436). -/
def signalVector (v : Nat) (s : State) : State :=
  if linkUp s && !bitAt s.host.msixMask v then send s (.msix v)
  else { s with host := { s.host with msixPending := withBit s.host.msixPending v true } }

/-- The messages that follow when the link is up and vectors are unmasked (16 R436). -/
def releaseVectors (s : State) : State :=
  if linkUp s then
    forUpTo 8 (fun v s =>
      if bitAt s.host.msixPending v && !bitAt s.host.msixMask v then
        send { s with host := { s.host with msixPending := withBit s.host.msixPending v false } } (.msix v)
      else s) s
  else s

/-! ## EMCY (14 R386, R387) -/

/-- The node-ID in use; 0 while the ports are silent (14 R381, 0x3110.01). -/
def nodeId (s : State) : Nat := getObj s (key 0x3110 1)

/-- The error register 0x1001 (14 R387). -/
def errorRegister (s : State) : Nat :=
  let lo := chipSummary s 0
  let hi := chipSummary s 64
  (if lo = 0 ∧ hi = 0 then 0 else 1) +
    (if (lo &&& getObj s (key 0x3102 1)) = 0 ∧ (hi &&& getObj s (key 0x3102 2)) = 0 then 0 else 128)

/-- A port takes part in its bus: enabled and not bus-off (14 R384, 0x3111.01). -/
def portListens (s : State) (port : Nat) : Bool :=
  decide (getObj s (key (0x3111 + port) 1) = 1) && decide (getObj s (key (0x3111 + port) 2) ≠ 2)

/-- A port can send: it takes part in its bus and a node-ID is in use (14 R381). -/
def portOpen (s : State) (port : Nat) : Bool := portListens s port && decide (nodeId s ≠ 0)

/-- A frame counted as sent on a port (0x3111.06). -/
def sendCan (port : Nat) (o : Output) (s : State) : State :=
  addObj (send s o) (key (0x3111 + port) 6) 1

/-- A USDO response to a client (14 R383, Table DIC-5). -/
def sendUsdo (port client : Nat) (a : UsdoAnswer) (s : State) : State :=
  sendCan port (.usdo port (0x580 + nodeId s) client a) s

/-- One EMCY message on one port (14 R386): sent, or held while the inhibit time runs, at most 16, none for a
source whose message still waits. -/
def emcyOn (port : Nat) (e : Emcy) (s : State) : State :=
  let st := getObj s (key 0x3110 7)
  if !portOpen s port || decide (st ≠ 0x7F ∧ st ≠ 5) || bitAt (getObj s (key 0x1014 0)) 31 then s
  else
    let waiting := mapFind [] s.can.emcy port
    if s.now < mapFind 0 s.can.emcyFree port ∨ waiting ≠ [] then
      if waiting.any (fun w => decide (w.source = e.source) && e.source.isSome) then s
      else if 16 ≤ waiting.length then addObj s (key 0x3130 0xA) 1
      else { s with can := { s.can with emcy := mapPut [] s.can.emcy port (waiting ++ [e]) } }
    else
      sendCan port (.emcy port (getObj s (key 0x1014 0) % 2048) e.code e.register e.tick e.pond)
        { s with can := { s.can with
            emcyFree := mapPut 0 s.can.emcyFree port (s.now + getObj s (key 0x1015 0) * 125000) } }

/-- An EMCY message on both ports. -/
def emcyBoth (e : Emcy) (s : State) : State := emcyOn 1 e (emcyOn 0 e s)

/-- The EMCY mask bit of a source (0x3102). -/
def emcyMasked (s : State) (i : Nat) : Bool :=
  if i < 64 then bitAt (getObj s (key 0x3102 1)) i else bitAt (getObj s (key 0x3102 2)) (i - 64)

/-- The EMCY of a source that has just been set (14 R386). -/
def emcySet (i pond : Nat) (s : State) : State :=
  if emcyMasked s i then
    emcyBoth { source := some i, code := 0xFF00 + i, register := errorRegister s,
               tick := tickNumber s % 2 ^ 32, pond := pond } s
  else s

/-- The EMCY with error code 0 when the last masked source has cleared (14 R386). -/
def emcyAllClear (s : State) : State :=
  emcyBoth { source := none, code := 0, register := errorRegister s, tick := tickNumber s % 2 ^ 32,
             pond := 0xFF } s

/-! ## Setting a source (15 R404) -/

/-- The pond-level bit of a source set in a pond's summary (0x40pp.08, .09; 15 R403), with the first faulting
pond of every basin that holds it (0x50bb.11). -/
def markPond (i ph : Nat) (s : State) : State :=
  let s := setObjBit s (key (0x4000 + ph) (if i < 64 then 8 else 9)) (i % 64)
  match logicalOf s ph with
  | none => s
  | some l =>
    { s with weir := { s.weir with
        firstPond := (ancestors s.tree (homeBasin s.tree l)).foldl
          (fun m b => if mapFind 0xFF m b = 0xFF then mapPut 0xFF m b ph else m) s.weir.firstPond } }

/-- The position of a source marked: pond, basin or chip (15 R403). -/
def markOrigin (i : Nat) (o : Origin) (s : State) : State :=
  match o with
  | .pond ph => setObj (markPond i ph s) (srcKey i 0xD) ph
  | .gang g =>
    let b := homeBasin s.tree g
    { s with weir := { s.weir with
        basins := mapPut 0 s.weir.basins b (withBit (mapFind 0 s.weir.basins b) i true) } }
  | _ => s

/-- The physical pond of an origin; 0xFF otherwise (14 Table DIC-7). -/
def originPond : Origin → Nat
  | .pond ph => ph
  | _ => 0xFF

/-- The escalation time of a source in clk (15 R409). -/
def escalationTime (s : State) (i : Nat) : Nat :=
  let own := getObj s (srcKey i 0xA)
  (if own = 0 then getObj s (key 0x2E00 3) else own) * msClk

/-- A fresh escalation timer for a source in the service regime (15 R408, R409). -/
def startTimer (i : Nat) (s : State) : State :=
  if inSetup s then s
  else { s with weir := { s.weir with
    timers := mapPut 0 s.weir.timers i (s.now + escalationTime s i + 1) } }

/-- The timer of a source stopped. -/
def stopTimer (i : Nat) (s : State) : State :=
  { s with weir := { s.weir with timers := mapErase s.weir.timers i } }

/-- ERR_N driven low for a source (15 R411); a latched pad keeps its level (17 R468). -/
def driveErrN (i : Nat) (s : State) : State :=
  let s := { s with weir := { s.weir with errN := if i ∈ s.weir.errN then s.weir.errN else i :: s.weir.errN } }
  if s.power.latched then s else setObj s (key 0x2E00 6) 1

/-- An occurrence of a source, without the regime's reaction (15 R404). -/
def raise0 (i : Nat) (o : Origin) (s : State) : State :=
  if reservedSource i then s
  else
    let s1 := setObj (addObj (markOrigin i o s) (srcKey i 4) 1) (srcKey i 6) (tickNumber s)
    if sourceSet s i then s1
    else
      let s2 := setObj (setObj (setObj s1 (srcKey i 1) 1) (srcKey i 3) 0) (srcKey i 5) (tickNumber s)
      let s3 := { s2 with weir := { s2.weir with escalated := s2.weir.escalated.filter (· ≠ i) } }
      let s4 := if getObj s3 (key 0x2E00 5) = 1 then signalVector 1 s3 else s3
      emcySet i (originPond o) (startTimer i s4)

/-- The cause of a level source changed to inactive; the source stays set until it is cleared (15 R406). -/
def endCause (i : Nat) (s : State) : State := setObj s (srcKey i 2) 0

/-! ## Trace (06 R188, R189) -/

/-- Byte address of the trace ring of a logical pond (06 R188). -/
def traceBase (l : Nat) : Nat := 0xFF02AA000000 + 131072 * l

/-- Bytes of a trace record (06 Table CMD-13). -/
def traceBytes (s : State) (ph l code tag cls data : Nat) : List Byte :=
  leBytes (tickNumber s) 8 ++ leBytes (sinceEdge s) 4 ++ leBytes ph 1 ++ leBytes l 1 ++ leBytes code 2 ++
    leBytes tag 3 ++ leBytes cls 1 ++ leBytes data 8 ++ leBytes 0 4

end Sys2Proof.Machine
end

