-- ==== Sys2Proof/Machine/Float.lean ====
section
/-! DEFINITION. Exact values of floating-point patterns and their rounding: binary32, BF16 and the OCP MX element
formats (03 R62 to R67, 04 R98 to R101). Sums, products, quotients and roots are formed exactly (or with a sticky bit)
and rounded once. -/

namespace Sys2Proof.Machine

/-- The exact value of a pattern: NaN, an infinity, or (−1)^neg × m × 2^e. -/
inductive Fl where
  | nan
  | inf (neg : Bool)
  | num (neg : Bool) (m : Nat) (e : Int)
  deriving DecidableEq, Repr

/-- A binary format: mantissa bits, exponent bias, width, the largest finite magnitude pattern, the magnitude pattern
of infinity if it has one, and whether patterns above the largest finite one (and infinity) are NaN. -/
structure Fmt where
  p : Nat
  bias : Int
  w : Nat
  maxPat : Nat
  infPat : Option Nat
  hasNan : Bool

/-- The formats by vector format code (05 Table CMP-1, 03 Table MTX-1). -/
def fmtOf (code : Nat) : Fmt :=
  match code with
  | 0 => { p := 23, bias := 127, w := 32, maxPat := 0x7F7FFFFF, infPat := some 0x7F800000, hasNan := true }
  | 1 => { p := 7, bias := 127, w := 16, maxPat := 0x7F7F, infPat := some 0x7F80, hasNan := true }
  | 2 => { p := 3, bias := 7, w := 8, maxPat := 0x7E, infPat := none, hasNan := true }
  | 3 => { p := 2, bias := 15, w := 8, maxPat := 0x7B, infPat := some 0x7C, hasNan := true }
  | 4 => { p := 3, bias := 1, w := 6, maxPat := 0x1F, infPat := none, hasNan := false }
  | 5 => { p := 2, bias := 3, w := 6, maxPat := 0x1F, infPat := none, hasNan := false }
  | _ => { p := 1, bias := 1, w := 4, maxPat := 0x7, infPat := none, hasNan := false }

/-- The formats that carry MX scales (04 Table VEC-2). -/
def isMx (code : Nat) : Bool := decide (2 ≤ code)

/-- The value of a magnitude pattern with a sign. -/
def flOfPat (f : Fmt) (neg : Bool) (pat : Nat) : Fl :=
  if f.infPat = some pat then .inf neg
  else if f.hasNan ∧ f.maxPat < pat then .nan
  else
    let ef := pat / 2 ^ f.p
    let mant := pat % 2 ^ f.p
    if ef = 0 then .num neg mant (1 - f.bias - f.p)
    else .num neg (2 ^ f.p + mant) ((ef : Int) - f.bias - f.p)

/-- The value of an element pattern. -/
def flOf (f : Fmt) (x : Nat) : Fl :=
  flOfPat f (Nat.testBit x (f.w - 1)) (x % 2 ^ (f.w - 1))

/-- The value of an FP32 pattern. -/
def flOf32 (x : F32) : Fl := flOf (fmtOf 0) x.toNat

/-- How a result is rounded: to nearest even, or stochastically with 24 random bits (03 R67). -/
inductive Rm where
  | nearest
  | stochastic (x : Nat)
  deriving DecidableEq, Repr

/-- The magnitude pattern, without an upper bound, of m × 2^e in a format with `p` mantissa bits. -/
def roundPat (p : Nat) (bias : Int) (rm : Rm) (m : Nat) (e : Int) : Nat :=
  if m = 0 then 0
  else
    let u := max ((Nat.log2 m : Int) + e - p) (1 - bias - p)
    let q :=
      if u ≤ e then m * 2 ^ (e - u).toNat
      else
        let sh := (u - e).toNat
        let q := m / 2 ^ sh
        let rest := m % 2 ^ sh
        let up := match rm with
          | .nearest => decide (2 ^ sh < 2 * rest) || (decide (2 * rest = 2 ^ sh) && decide (q % 2 = 1))
          | .stochastic x => decide (x < rest * 2 ^ 24 / 2 ^ sh)
        if up then q + 1 else q
    ((u + bias + p - 1).toNat) * 2 ^ p + q

/-- A value rounded to FP32 (03 R65, R67); every NaN is 0x7FC0_0000 (04 R98). -/
def toF32 (rm : Rm) (x : Fl) : F32 :=
  let sign (neg : Bool) (pat : Nat) : F32 := BitVec.ofNat 32 (pat + if neg then 0x80000000 else 0)
  match x with
  | .nan => 0x7FC00000
  | .inf neg => sign neg 0x7F800000
  | .num neg m e => sign neg (min (roundPat 23 127 rm m e) 0x7F800000)

/-- The sign of a product or quotient. -/
def negOf : Fl → Bool
  | .nan => false
  | .inf n => n
  | .num n _ _ => n

/-- The exact product. -/
def flMul (a b : Fl) : Fl :=
  match a, b with
  | .nan, _ => .nan
  | _, .nan => .nan
  | .inf n, .num k m _ => if m = 0 then .nan else .inf (n != k)
  | .num k m _, .inf n => if m = 0 then .nan else .inf (n != k)
  | .inf n, .inf k => .inf (n != k)
  | .num n m e, .num k m' e' => .num (n != k) (m * m') (e + e')

/-- A value scaled by a power of two. -/
def flScale (a : Fl) (k : Int) : Fl :=
  match a with
  | .num n m e => .num n m (e + k)
  | x => x

/-- The signed integer significand of a number at exponent `e0`. -/
def alignTo (n : Bool) (m : Nat) (e e0 : Int) : Int :=
  let v : Int := (m * 2 ^ (e - e0).toNat : Nat)
  if n then -v else v

/-- The exact sum; a zero sum of opposite signs is +0, as under rounding to nearest even. -/
def flAdd (a b : Fl) : Fl :=
  match a, b with
  | .nan, _ => .nan
  | _, .nan => .nan
  | .inf n, .inf k => if n = k then .inf n else .nan
  | .inf n, _ => .inf n
  | _, .inf n => .inf n
  | .num n m e, .num k m' e' =>
    let e0 := min e e'
    let v := alignTo n m e e0 + alignTo k m' e' e0
    if v = 0 then .num (n && k && decide (m = 0) && decide (m' = 0)) 0 0
    else .num (decide (v < 0)) v.natAbs e0

/-- The negated value. -/
def flNeg : Fl → Fl
  | .nan => .nan
  | .inf n => .inf !n
  | .num n m e => .num (!n) m e

/-- The quotient, with 64 bits beyond the divisor's and a sticky bit below them. -/
def flDiv (a b : Fl) : Fl :=
  match a, b with
  | .nan, _ => .nan
  | _, .nan => .nan
  | .inf _, .inf _ => .nan
  | .inf n, .num k _ _ => .inf (n != k)
  | .num n _ _, .inf k => .num (n != k) 0 0
  | .num n m e, .num k m' e' =>
    if m' = 0 then (if m = 0 then .nan else .inf (n != k))
    else if m = 0 then .num (n != k) 0 0
    else
      let sh := 64 + Nat.log2 m'
      let q := m * 2 ^ sh / m'
      let sticky := if m * 2 ^ sh % m' = 0 then 0 else 1
      .num (n != k) (2 * q + sticky) (e - e' - sh - 1)

/-- The square root, with a sticky bit. -/
def flSqrt (a : Fl) : Fl :=
  match a with
  | .nan => .nan
  | .inf n => if n then .nan else .inf false
  | .num n m e =>
    if m = 0 then .num n 0 0
    else if n then .nan
    else
      let sh : Nat := if e % 2 = 0 then 64 else 65
      let v := m * 2 ^ sh
      let q := Nat.sqrt v
      let sticky := if q * q = v then 0 else 1
      .num false (2 * q + sticky) ((e - sh) / 2 - 1)

/-- The order of two values that are not NaN: −1, 0 or 1; zeros compare equal. -/
def flCompare (a b : Fl) : Int :=
  match a, b with
  | .inf n, .inf k => if n = k then 0 else if n then -1 else 1
  | .inf n, _ => if n then -1 else 1
  | _, .inf k => if k then 1 else -1
  | .num n m e, .num k m' e' =>
    let e0 := min e e'
    let v := alignTo n m e e0 - alignTo k m' e' e0
    if v < 0 then -1 else if v = 0 then 0 else 1
  | _, _ => 0

/-- A value is NaN. -/
def isNan : Fl → Bool
  | .nan => true
  | _ => false

/-- A value is finite. -/
def isFinite : Fl → Bool
  | .num _ _ _ => true
  | _ => false

/-- A value is zero. -/
def isZero : Fl → Bool
  | .num _ m _ => decide (m = 0)
  | _ => false

/-! ## FP32 arithmetic, rounded to nearest even (04 R98) -/

def add32 (a b : F32) : F32 := toF32 .nearest (flAdd (flOf32 a) (flOf32 b))
def sub32 (a b : F32) : F32 := toF32 .nearest (flAdd (flOf32 a) (flNeg (flOf32 b)))
def mul32 (a b : F32) : F32 := toF32 .nearest (flMul (flOf32 a) (flOf32 b))
def fma32 (a b c : F32) : F32 := toF32 .nearest (flAdd (flMul (flOf32 a) (flOf32 b)) (flOf32 c))
def div32 (a b : F32) : F32 := toF32 .nearest (flDiv (flOf32 a) (flOf32 b))
def sqrt32 (a : F32) : F32 := toF32 .nearest (flSqrt (flOf32 a))
def neg32 (a : F32) : F32 := toF32 .nearest (flNeg (flOf32 a))
def one32 : F32 := 0x3F800000

/-- The absolute value. -/
def abs32 (a : F32) : F32 :=
  toF32 .nearest (match flOf32 a with
    | .inf _ => .inf false
    | .num _ m e => .num false m e
    | .nan => .nan)

/-- IEEE 754-2019 minimum: NaN propagates, −0 is below +0. -/
def min32 (a b : F32) : F32 :=
  let x := flOf32 a
  let y := flOf32 b
  if isNan x || isNan y then 0x7FC00000
  else
    match flCompare x y with
    | 0 => if negOf x then a else b
    | c => if c < 0 then a else b

/-- IEEE 754-2019 maximum. -/
def max32 (a b : F32) : F32 :=
  let x := flOf32 a
  let y := flOf32 b
  if isNan x || isNan y then 0x7FC00000
  else
    match flCompare x y with
    | 0 => if negOf x then b else a
    | c => if c < 0 then b else a

/-- A natural number as FP32. -/
def ofNat32 (n : Nat) : F32 := toF32 .nearest (.num false n 0)

/-! ## Stochastic rounding (03 R67) -/

/-- The 24 random bits of a position (03 R67). -/
def randomBits (seed : Nat) (tag kb row col : Nat) : Nat :=
  let w (n : Nat) : W64 := BitVec.ofNat 64 n
  let v := tag * 2 ^ 36 + kb * 2 ^ 20 + row * 2 ^ 8 + col
  let z := w seed + w 0x9E3779B97F4A7C15 * w (v + 1)
  let z := (z ^^^ (z >>> 30)) * w 0xBF58476D1CE4E5B9
  let z := (z ^^^ (z >>> 27)) * w 0x94D049BB133111EB
  let z := z ^^^ (z >>> 31)
  (z >>> 40).toNat

/-! ## Elements with a scale (03 R62, R63; 04 R100) -/

/-- The value of an element under its group scale: NaN when the scale is 0xFF (03 R63). -/
def scaledElement (code x scale : Nat) : Fl :=
  if isMx code then
    (if scale = 0xFF then .nan else flScale (flOf (fmtOf code) x) ((scale : Int) - 127))
  else flOf (fmtOf code) x

/-- The exponent e_max of an MX format (04 R100). -/
def emaxOf (code : Nat) : Int :=
  match code with
  | 2 => 8
  | 3 => 15
  | 4 => 2
  | 5 => 4
  | _ => 2

/-- floor(log₂) of a non-zero magnitude. -/
def floorLog2 (m : Nat) (e : Int) : Int := (Nat.log2 m : Int) + e

/-- The scale of a group of valid values (04 R100): 0xFF for a non-finite value, 127 for zeros. -/
def groupScale (code : Nat) (xs : List Fl) : Nat :=
  if xs.any fun x => !isFinite x then 0xFF
  else
    let logs := xs.filterMap fun x => match x with
      | .num _ m e => if m = 0 then none else some (floorLog2 m e)
      | _ => none
    match logs with
    | [] => 127
    | l :: ls =>
      let top := ls.foldl max l
      (min (max (top - emaxOf code + 127) 0) 254).toNat

/-- An element of a format formed at a scale (04 R100): its pattern, and whether it saturated. -/
def formElement (code scale : Nat) (rm : Rm) (x : Fl) : Nat × Bool :=
  if scale = 0xFF then (0, false)
  else
    match x with
    | .num n m e =>
      let f := fmtOf code
      let pat := roundPat f.p f.bias rm m (e - ((scale : Int) - 127))
      let sign := if n then 2 ^ (f.w - 1) else 0
      if f.maxPat < pat then (sign + f.maxPat, true) else (sign + pat, false)
    | _ => (0, false)

/-- A value rounded to BF16 (04 R100). -/
def toBf16 (rm : Rm) (x : Fl) : Nat :=
  match x with
  | .nan => 0x7FC0
  | .inf n => 0x7F80 + if n then 0x8000 else 0
  | .num n m e => min (roundPat 7 127 rm m e) 0x7F80 + if n then 0x8000 else 0

end Sys2Proof.Machine
end

