-- ==== Sys2Proof/Machine/Mem.lean ====
section
/-! DEFINITION. The unified address range, the extent map, frames and the bytes behind them (10 R275 to
R286), with the views of the structures that the device itself keeps (06 R171, 07 R191, R207, 10 R281, R282). -/

namespace Sys2Proof.Machine

/-! ## Addresses -/

/-- Bytes of an extent (10 R275). -/
def extentSize : Nat := 2097152

/-- First address of the device region (10 Table MEM-2). -/
def deviceBase : Nat := 0xFF0000000000

/-- The extent that holds a UDA (10 R281); none outside the general range and the device region (R278). -/
def extentIndex (uda : Nat) : Option Nat :=
  if uda < 2 ^ 47 then some (uda / extentSize)
  else if deviceBase ≤ uda ∧ uda < 2 ^ 48 then some (67108864 + (uda - deviceBase) / extentSize)
  else none

/-- The first UDA of an extent. -/
def extentUda (e : Nat) : Nat :=
  if e < 67108864 then e * extentSize else deviceBase + (e - 67108864) * extentSize

/-- The map entry of an extent (10 R281). -/
def extentOf (s : State) (e : Nat) : Extent := mapFind Extent.unmapped s.tiers.extents e

/-- The state with a map entry replaced. -/
def setExtent (s : State) (e : Nat) (x : Extent) : State :=
  { s with tiers := { s.tiers with extents := mapPut Extent.unmapped s.tiers.extents e x } }

/-- The map entry of a UDA. -/
def extentAt (s : State) (uda : Nat) : Extent :=
  match extentIndex uda with
  | none => Extent.unmapped
  | some e => extentOf s e

/-- A UDA lies in a mapped extent (10 R280). -/
def mappedAt (s : State) (uda : Nat) : Bool := decide ((extentAt s uda).tier < 3)

/-- The cell of a byte of a frame: tier × 2^48 + frame × 2^21 + offset; a frame of tier 2 is the host's
memory at its host address (10 Table MEM-1). -/
def physKey (s : State) (tier frame off : Nat) : Nat :=
  if tier = 2 then 2 ^ 50 + getObj s (key 0x2A00 9) + frame * extentSize + off
  else tier * 2 ^ 48 + frame * extentSize + off

/-- The cell behind a UDA. -/
def cellOf (s : State) (uda : Nat) : Nat :=
  let x := extentAt s uda
  physKey s x.tier x.frame (uda % extentSize)

/-- What an unlisted byte reads as: frames are zero from step 6 of training and from DEFINE (10 R284, R306;
host memory and others DESIGN CHOICE, log 8). -/
def memDefault : Byte := 0

/-- The canonical form of memory. -/
def memWf (m : List Host.Cell) : Bool := mapWf memDefault m

/-! ## Views of the device's own structures -/

/-- Word 0 of a sequence-table entry and the seven others (07 Table FUT-1). -/
def futureWords (f : Future) : List Nat :=
  let b (x : Bool) (n : Nat) : Nat := if x then 2 ^ n else 0
  [ f.state * 2 ^ 61 + b f.carried 60 + b f.fallbackEligible 59 + b f.inputRequired 58 + f.priority * 2 ^ 56 +
      f.basin * 2 ^ 48 + f.model * 2 ^ 40 + f.fallback * 2 ^ 32 + f.pool * 2 ^ 30 + f.readBank * 2 ^ 29 +
      b f.borrowed 28,
    f.length * 2 ^ 45 + f.pending * 2 ^ 32 + f.pages.length * 2 ^ 19 + f.window * 2 ^ 6,
    f.base.toNat,
    f.sharers1 * 2 ^ 48 + f.sharers0 * 2 ^ 32 + b f.hasParent 31 + f.parent * 2 ^ 16 + f.source,
    f.steps % 2 ^ 64, f.user.toNat, f.stateRead, f.stateWrite ]

/-- A byte of a list of 64-bit words. -/
def wordsByte (ws : List Nat) (off : Nat) : Byte :=
  BitVec.ofNat 8 ((ws.getD (off / 8) 0) >>> (8 * (off % 8)))

/-- The 8 bytes of a page record (07 Table FUT-6). -/
def recordWord (r : PageRec) : Nat := r.count * 2 ^ 48 + r.freeTag % 2 ^ 32 * 2 ^ 16 + r.state

/-- A page-table entry (07 Table FUT-6). -/
def pageEntry (f : Future) (x : Nat) : Nat :=
  match f.pages[x]? with
  | some p => 2 ^ 31 + p
  | none => 0

/-- An extent-map entry (10 Table MEM-4). -/
def extentWord (x : Extent) : Nat :=
  let b (y : Bool) (n : Nat) : Nat := if y then 2 ^ n else 0
  x.tier * 2 ^ 62 + b x.pinned 61 + b x.readOnly 60 + b x.poisoned 59 + b x.migrating 58 +
    x.object * 2 ^ 44 + x.frame

/-- An object record (10 Table MEM-5). -/
def objWords (id : Nat) (o : Obj) : List Nat :=
  let b (y : Bool) (n : Nat) : Nat := if y then 2 ^ n else 0
  [ o.state * 2 ^ 56 + id * 2 ^ 44 + o.tier * 2 ^ 42 + b o.pinned 41 + b o.readOnly 40 + b o.poisoned 39,
    o.base, o.count, o.backup, o.mask % 2 ^ 64, o.mask / 2 ^ 64 % 2 ^ 64, o.mask / 2 ^ 128 % 2 ^ 64,
    o.mask / 2 ^ 192 ]

/-- A record of the program directory (06 Table CMD-10). -/
def dirWords (r : DirRecord) : List Nat :=
  [ r.state + r.pondCount * 2 ^ 8 + r.batch * 2 ^ 16 + r.cFix * 2 ^ 32, r.cStep + r.aBg * 2 ^ 32,
    r.crc + r.checkpoints * 2 ^ 32, r.imageUda, r.holding, 0, 0, 0 ]

/-- A directory record read back from its words. -/
def dirOfWords (ws : List Nat) : DirRecord :=
  let w (i : Nat) : Nat := ws.getD i 0
  { state := bits (w 0) 7 0, pondCount := bits (w 0) 15 8, batch := bits (w 0) 23 16, cFix := bits (w 0) 63 32,
    cStep := bits (w 1) 31 0, aBg := bits (w 1) 63 32, crc := bits (w 2) 31 0,
    checkpoints := bits (w 2) 47 32, imageUda := w 3, holding := bits (w 4) 31 0 }

/-- Areas of the device region (10 Table MEM-3). -/
def seqBase : Nat := 0xFF02AB000000
def pageTableBase : Nat := 0xFF0280000000
def pageRecordBase : Nat := 0xFF02A0000000
def extentMapBase : Nat := 0xFF0300000000
def objectBase : Nat := 0xFF0340000000
def directoryBase : Nat := 0xFF02AB440000

/-- The structures that the device alone writes, except the program directory: which counter a write from
outside raises (07 R191, R207: 0x2703.06; 10 R281, R282: 0x2A04.0D). -/
def protectedBy (uda : Nat) : Option Nat :=
  if seqBase ≤ uda ∧ uda < seqBase + 0x200000 then some (key 0x2703 6)
  else if pageTableBase ≤ uda ∧ uda < pageTableBase + 0x20000000 then some (key 0x2703 6)
  else if pageRecordBase ≤ uda ∧ uda < pageRecordBase + 0x8000000 then some (key 0x2703 6)
  else if extentMapBase ≤ uda ∧ uda < extentMapBase + 541065216 then some (key 0x2A04 0xD)
  else if objectBase ≤ uda ∧ uda < objectBase + 0x40000 then some (key 0x2A04 0xD)
  else none

/-- Pages of a pool while it is configured; 0 otherwise (07 R205). -/
def poolPages (s : State) (q : Nat) : Nat :=
  if getObj s (key (0x2710 + q) 2) = 0 then 0 else getObj s (key (0x2710 + q) 3)

/-- Pages of a pool as the last used edge found it configured: the records and the free list follow that edge (07 R207,
R211). -/
def listedPages (s : State) (q : Nat) : Nat := mapFind 0 s.seq.configured q

/-- The record of a page ID: state 0 for a page of a configured pool that was never used, state 3 outside a
configured pool (07 R207). -/
def pageRecord (s : State) (p : Nat) : PageRec :=
  if p % 2 ^ 22 < listedPages s (p / 2 ^ 22) then
    mapFind { PageRec.unconfigured with state := 0 } s.seq.records p
  else PageRec.unconfigured

/-- The byte of a structure that the device keeps, where a UDA lies in one. -/
def deviceByte (s : State) (uda : Nat) : Option Byte :=
  if seqBase ≤ uda ∧ uda < seqBase + 0x200000 then
    let o := uda - seqBase
    some (wordsByte (futureWords (futureOf s (o / 64))) (o % 64))
  else if pageTableBase ≤ uda ∧ uda < pageTableBase + 0x20000000 then
    let o := uda - pageTableBase
    some (BitVec.ofNat 8 ((pageEntry (futureOf s (o / 16384)) (o % 16384 / 4)) >>> (8 * (o % 4))))
  else if pageRecordBase ≤ uda ∧ uda < pageRecordBase + 0x8000000 then
    let o := uda - pageRecordBase
    some (wordsByte [recordWord (pageRecord s (o / 8))] (o % 8))
  else if extentMapBase ≤ uda ∧ uda < extentMapBase + 541065216 then
    let o := uda - extentMapBase
    some (wordsByte [extentWord (extentOf s (o / 8))] (o % 8))
  else if objectBase ≤ uda ∧ uda < objectBase + 0x40000 then
    let o := uda - objectBase
    let x := mapFind Obj.free s.tiers.objects (o / 64)
    let busy := s.tiers.directives.any fun d => decide (d.obj = o / 64) && !d.complete
    some (wordsByte (objWords (o / 64) { x with state := if busy then 2 else x.state }) (o % 64))
  else if directoryBase ≤ uda ∧ uda < directoryBase + 0x4000 then
    let o := uda - directoryBase
    some (wordsByte (dirWords (dirOf s (o / 64))) (o % 64))
  else none

/-! ## Bytes -/

/-- One byte at a mapped UDA. -/
def readByte (s : State) (uda : Nat) : Byte :=
  match deviceByte s uda with
  | some b => b
  | none => mapFind memDefault s.mem (cellOf s uda)

/-- `n` bytes from a UDA. -/
def readBytes (s : State) (uda n : Nat) : List Byte := (List.range n).map fun i => readByte s (uda + i)

/-- A little-endian value of `n` bytes at a UDA (00 R4). -/
def readLe (s : State) (uda n : Nat) : Nat := leValue (readBytes s uda n)

/-- One byte written at a mapped UDA; a byte of the program directory lands in its record. -/
def writeByte (s : State) (uda : Nat) (b : Byte) : State :=
  if directoryBase ≤ uda ∧ uda < directoryBase + 0x4000 then
    let o := uda - directoryBase
    let ws := dirWords (dirOf s (o / 64))
    let i := o % 64 / 8
    let w := ws.getD i 0
    let sh := 8 * (o % 8)
    let old := (w >>> sh) % 256
    setDir s (o / 64) (dirOfWords (ws.set i (w - old * 2 ^ sh + b.toNat * 2 ^ sh)))
  else { s with mem := mapPut memDefault s.mem (cellOf s uda) b }

/-- Bytes written from a UDA upward, in ascending order. -/
def writeBytes (s : State) (uda : Nat) : List Byte → State
  | [] => s
  | b :: bs => writeBytes (writeByte s uda b) (uda + 1) bs

/-- A little-endian value of `n` bytes written at a UDA. -/
def writeLe (s : State) (uda n v : Nat) : State := writeBytes s uda (leBytes v n)

/-! ## Transfer units (10 R280, R286) -/

/-- The extents that a run of `n` bytes touches; none when it leaves the ranges of Table MEM-2. -/
def extentsOf (uda n : Nat) : Option (List Nat) :=
  if n = 0 then some []
  else
    match extentIndex uda, extentIndex (uda + n - 1) with
    | some a, some b =>
      if (uda < 2 ^ 47 ∧ uda + n - 1 < 2 ^ 47) ∨ 2 ^ 47 ≤ uda then some ((List.range (b + 1 - a)).map (a + ·))
      else none
    | _, _ => none

/-- Granules that a copy has done: as known, or more, at most one for each 4 clk since it began (10 R287, R288). -/
def cursorNow (s : State) (m : Migration) : Nat :=
  max m.cursor (min (Config.copyCursor s.fresh) (min 8192 ((s.now - m.began) / 4)))

/-- A write of `n` bytes at a UDA meets the copy of an extent: its granules below the copy cursor are applied to both frames and counted
(0x2A03.04; 10 R287). The new frame gets every byte at the switch, with those that the copy carries. -/
def mirrorInto (uda n : Nat) (m : Migration) (s : State) : State :=
  let c := cursorNow s m
  let a := extentUda m.extent
  let lo := (max uda a - a) / 256
  let hi := (min (uda + n) (a + extentSize) - 1 - a) / 256 + 1
  addObj { s with fresh := s.fresh + 1, tiers := { s.tiers with
    migrations := s.tiers.migrations.map fun q => if q = m then { m with cursor := c } else q } } (key 0x2A03 4) (min hi c - lo)

/-- A write meets every copy under way of an extent that it touches. -/
def mirrorWrite (uda n : Nat) (s : State) : State :=
  forEach (s.tiers.migrations.filter fun m => m.toFrame.isSome && decide (m.extent ∈ (extentsOf uda n).getD []))
    (mirrorInto uda n) s

/-- Bytes that the device itself writes; bytes without a mapped extent are dropped. -/
def deviceWrite (s : State) (uda : Nat) (bs : List Byte) : State :=
  if bs = [] then s
  else if mappedAt s uda && mappedAt s (uda + bs.length - 1) then writeBytes (mirrorWrite uda bs.length s) uda bs else s

/-- Every byte of the runs lies in a mapped extent (10 R280). -/
def unitMapped (s : State) (runs : List (Nat × Nat)) : Bool :=
  runs.all fun r =>
    match extentsOf r.1 r.2 with
    | none => false
    | some es => es.all fun e => decide ((extentOf s e).tier < 3)

/-- The extents of the runs that satisfy a test. -/
def unitExtents (s : State) (runs : List (Nat × Nat)) (test : Extent → Bool) : List Nat :=
  (runs.flatMap fun r => (extentsOf r.1 r.2).getD []).filter fun e => test (extentOf s e)

/-- Some byte of the runs lies in a read-only extent (10 R286). -/
def unitReadOnly (s : State) (runs : List (Nat × Nat)) : Bool :=
  (unitExtents s runs fun x => x.readOnly) ≠ []

/-- Some byte of the runs lies in a poisoned extent (10 R302). -/
def unitPoisoned (s : State) (runs : List (Nat × Nat)) : Bool :=
  (unitExtents s runs fun x => x.poisoned) ≠ []

/-- Tier-2 requests of the runs wait while the link is down (16 R438). -/
def tier2Waits (s : State) (runs : List (Nat × Nat)) : Bool :=
  !linkUp s && decide (unitExtents s runs (fun x => decide (x.tier = 2) && !x.poisoned) ≠ [])

/-- A run of bytes: its first UDA and its length. -/
abbrev Run := Nat × Nat

/-- A poisoned extent of the runs has no re-fetch under way (10 R304). -/
def unservable (s : State) (runs : List Run) : Bool :=
  (unitExtents s runs fun x => x.poisoned).any fun e => !(s.tiers.refetches.any fun r => decide (r.extent = e))

/-- A member of a tier, a pseudo-channel or a shore channel (0x2A30). -/
def memberOf (s : State) (tier i : Nat) : Member := mapFind Member.fresh s.tiers.members (tier * 1024 + i)

/-- The state with a member replaced. -/
def setMember (s : State) (tier i : Nat) (m : Member) : State :=
  { s with tiers := { s.tiers with members := mapPut Member.fresh s.tiers.members (tier * 1024 + i) m } }

/-- The member that holds a byte of an extent (10 R275; numbering DEDUCED, log 11). -/
def memberOfByte (x : Extent) (off : Nat) : Nat :=
  if x.tier = 0 then off / 256 % 8 * 64 + x.frame % 64 else x.frame % 16 * 4 + off / 256 % 4

/-- A member retrains or is being measured, and accesses to it wait (10 R307, R308). -/
def memberBusy (s : State) (tier i : Nat) : Bool :=
  (memberOf s tier i).retraining ||
    (match s.requests.margin with
     | some (t, j, _) => decide (t = tier ∧ j = i)
     | none => false)

/-- Some member retrains or is being measured. -/
def anyBusy (s : State) : Bool := s.requests.margin.isSome || s.tiers.members.any fun e => e.2.retraining

/-- A run reaches, in an extent, a granule that a busy member holds. -/
def meetsBusy (s : State) (r : Run) (e : Nat) : Bool :=
  let x := extentOf s e
  let a := extentUda e
  let lo := (max r.1 a - a) / 256
  let hi := (min (r.1 + r.2) (a + extentSize) - 1 - a) / 256
  decide (x.tier < 2) &&
    (List.range (min 8 (hi + 1 - lo))).any fun g => memberBusy s x.tier (memberOfByte x (256 * (lo + g)))

/-- The tier of a channel out of service for recalibration or margining that the runs reach (10 R307, R308). -/
def channelWait (s : State) (runs : List Run) : Option Nat :=
  if !anyBusy s then none
  else
    runs.findSome? fun r =>
      (((extentsOf r.1 r.2).getD []).find? (meetsBusy s r)).map fun e => (extentOf s e).tier

/-- A read of the runs waits for a re-fetch (10 R302, R303), for the link (16 R438), or for a channel (10 R307, R308). -/
def waitsRefetch (s : State) (runs : List Run) : Bool :=
  (unitPoisoned s runs || tier2Waits s runs || (channelWait s runs).isSome) && !unservable s runs

/-- The cause of a wait of Table MEM-14, as its note has it: 0 to 2 a re-fetch in that tier, 3 the link, 4 and 5 a channel of tier 1 and
tier 0. -/
def waitCause (s : State) (runs : List Run) : Option Nat :=
  match (unitExtents s runs fun x => x.poisoned).head? with
  | some e => some (extentOf s e).tier
  | none =>
    if tier2Waits s runs then some 3
    else (channelWait s runs).map fun t => if t = 0 then 5 else 4

/-- The note of a wait of a requester: the instant at which it begins, and its cause (10 R301). -/
def waitNote (s : State) (runs : List Run) : Option (Nat × Nat) := (waitCause s runs).map fun n => (s.now, n)

/-- Statistics of a stream of a logical pond: kind 0 stall, kind 1 bytes sent (0x2631, 0x2632). -/
def streamStatKey (kind l st : Nat) : Nat := key (0x10000 + kind * 0x1000 + l) st

/-- The note of a wait on the arrival counter of stream end `st` of logical pond `l` (09 R260), beside those of tiers. -/
def haloNote (l st : Nat) : Nat := 8 + 32 * l + st

/-- The note of a wait for a unit of class 0x9 or 0xA (09 R272). -/
def unitNote (cls : Nat) : Nat := if cls = 0xA then 7 else 6

/-- The clocks of a wait that ends: of one for a unit at 0x2901.06 or 0x2902.07 (09 R272), of one on memory under its stall cause
of 10 Table MEM-14, of one on an arrival counter at 0x2903.01 and for the stream (09 R260). -/
def countWait (w : Option (Nat × Nat)) (s : State) : State :=
  match w with
  | some (since, n) =>
    if n < 3 then addObj s (key (0x2A10 + n) 2) (s.now - since)
    else if n = 3 then addObj s (key 0x2A12 5) (s.now - since)
    else if n < 6 then addObj s (key (0x2A15 - n) 4) (s.now - since)
    else if n = 6 then addObj s (key 0x2902 7) (s.now - since)
    else if n = 7 then addObj s (key 0x2901 6) (s.now - since)
    else
      addObj (addObj s (key 0x2903 1) (s.now - since)) (streamStatKey 0 ((n - 8) / 32) ((n - 8) % 32)) (s.now - since)
  | none => s

/-- The note of a wait with its cause as it now is: one of another cause has ended, and is counted. -/
def renewWait (w next : Option (Nat × Nat)) (s : State) : Option (Nat × Nat) × State :=
  match w, next with
  | some a, some b => if a.2 = b.2 then (w, s) else (next, countWait w s)
  | some _, none => (none, countWait w s)
  | none, _ => (next, s)

/-- The intake contexts of a logical pond closed (09 R262). -/
def closeContexts (l : Nat) (s : State) : State :=
  { s with intake := { s.intake with
    contexts := s.intake.contexts.filter fun e => decide (e.2.owner ≠ l) } }

/-- An access without a mapped extent: no transfer, counted (10 R280). -/
def unmappedAccess (s : State) : State := addObj s (key 0x2A04 0xB) 1

/-- The input bank that is latched, as a run of addresses, from the latch instant to the next used edge
(02 R42). -/
def latchedBank (s : State) : Option (Nat × Nat) :=
  if s.tick.latched then
    let size := 32768 * getObj s (key 0x2205 2)
    some (0xFF0080000000 + tickNumber s % 2 * size, size)
  else none

/-- The run touches the latched bank. -/
def touchesLatched (s : State) (uda n : Nat) : Bool :=
  match latchedBank s with
  | none => false
  | some (a, m) => decide (uda < a + m ∧ a < uda + n)

/-- A write by an agent that is not the device's own logic: bytes of protected structures are dropped and the
write counted once for each (07 R191, R207, 10 R281, R282); the other bytes land. -/
def agentWrite (s : State) (uda : Nat) (bs : List Byte) : State :=
  let cs := ((List.range bs.length).filterMap fun i => protectedBy (uda + i)).dedup
  let s := cs.foldl (fun s c => addObj s c 1) (mirrorWrite uda bs.length s)
  (List.range bs.length).foldl
    (fun s i => if (protectedBy (uda + i)).isSome then s else writeByte s (uda + i) (bs.getD i 0)) s

/-- The part of a run in an extent. -/
def runPart (r : Run) (e : Nat) : Nat :=
  min (r.1 + r.2) (extentUda e + extentSize) - max r.1 (extentUda e)

/-- Bytes moved, counted per tier (0x2A05); `write` selects the counter of bytes written. -/
def countBytes (write : Bool) (runs : List Run) (s : State) : State :=
  forEach runs (fun r s =>
    forEach ((extentsOf r.1 r.2).getD []) (fun e s =>
      let t := (extentOf s e).tier
      if t < 3 then addObj s (key 0x2A05 (2 * t + (if write then 2 else 1))) (runPart r e) else s) s) s

/-! ## Host-held lines (16 R433) -/

/-- The lines of 64 bytes that a run touches. -/
def linesOf (uda n : Nat) : List Nat :=
  if n = 0 then [] else (List.range ((uda + n - 1) / 64 + 1 - uda / 64)).map (uda / 64 + ·)

/-- Lines that the host holds exclusive or modified among those of a run. -/
def exclusiveLines (s : State) (uda n : Nat) : List Nat :=
  (linesOf uda n).filter fun l => decide ((l, true) ∈ s.host.lines)

/-- A BISnpInv for a line (16 R433, 0x3002.01). -/
def snoopLine (l : Nat) (s : State) : State := addObj (send s (.snoopInv l)) (key 0x3002 1) 1

/-- FP32 sums of two runs of bytes, value by value, rounded to nearest even with subnormals kept (10 R297). -/
def addBytes (old new : List Byte) : List Byte :=
  (List.range (new.length / 4)).flatMap fun i =>
    let word (l : List Byte) : F32 := BitVec.ofNat 32 (leValue ((l.drop (4 * i)).take 4))
    leBytes (add32 (word old) (word new)).toNat 4

/-- Two runs share a granule of 256 bytes. -/
def sharesGranule (a b : Run) : Bool :=
  decide (a.1 / 256 ≤ (b.1 + b.2 - 1) / 256 ∧ b.1 / 256 ≤ (a.1 + a.2 - 1) / 256)

/-- Why a write of a device agent waits behind the writes `ps`, which wait already: 1 an earlier write to one of its granules (10 R297),
0 a line that the host holds exclusive (16 R433), 3 the link, 4 and 5 a channel (10 Table MEM-14). -/
def parkCause (s : State) (ps : List Parked) (uda n : Nat) : Option Nat :=
  if ps.any fun p => sharesGranule (p.uda, p.bytes.length) (uda, n) then some 1
  else if exclusiveLines s uda n ≠ [] then some 0
  else if tier2Waits s [(uda, n)] then some 3
  else (channelWait s [(uda, n)]).map fun t => if t = 0 then 5 else 4

/-- The clk of a wait for the link, up to now, do not count toward the watchdog time of the command that waits (15 R417). -/
def exemptWait (p : Parked) (s : State) : State :=
  match p.owner with
  | none => s
  | some (ph, id) =>
    modPond s ph fun pd => { pd with running := pd.running.map fun r =>
      if r.id = id then { r with exempt := r.exempt + (s.now - max p.since r.exemptAt), exemptAt := s.now } else r }

/-- The clk since `t`, or since a write of the command has waited for the link, do not count toward the watchdog time of the
commands of a pond: a pond of its gang was halted (15 R417, 16 R454). -/
def exemptHalt (ph t : Nat) (s : State) : State :=
  modPond s ph fun pd => { pd with running := pd.running.map fun r =>
    let held := (s.host.waiting.filter fun p => decide (p.owner = some (ph, r.id)) && decide (p.cause = 3)).map (·.since)
    let since := max (held.foldl min t) (max r.started r.exemptAt)
    { r with exempt := r.exempt + (s.now - since), exemptAt := s.now } }

/-- The clk that a waiting write has waited for its cause: for the host's response at 0x3002.02 (16 R433), for an add behind
another write to its granule under stall cause 0x07, else as Table MEM-14 has it. -/
def countPark (p : Parked) (s : State) : State :=
  if p.cause = 0 then addObj s (key 0x3002 2) (s.now - p.since)
  else if p.cause = 1 then
    (if p.add then addObj s (key (0x2A10 + (extentAt s p.uda).tier) 7) (s.now - p.since) else s)
  else countWait (some (p.since, p.cause)) (if p.cause = 3 then exemptWait p s else s)

/-- A write lands; an add reads what its destination then holds (10 R297). -/
def landWrite (add : Bool) (uda : Nat) (bs : List Byte) (s : State) : State :=
  agentWrite s uda (if add then addBytes (readBytes s uda bs.length) bs else bs)

/-- A write that waits for a cause. -/
def parkWrite (add : Bool) (uda : Nat) (bs : List Byte) (cause : Nat) (s : State) : State :=
  { s with host := { s.host with waiting := s.host.waiting ++
    [{ uda := uda, bytes := bs, add := add, since := s.now, cause := cause, owner := none }] } }

/-- A write or an add by a device agent (16 R433): lines that the host holds shared are invalidated and the write goes on;
a write to a line that the host holds exclusive waits for the host's response, one to tier 2 waits while the link is down (16 R438), one to
a channel out of service waits (10 R307, R308), and so does one behind an earlier write that waits (10 R297). -/
def deviceAgentStore (add : Bool) (s : State) (uda : Nat) (bs : List Byte) : State :=
  let ls := linesOf uda bs.length
  let ex := exclusiveLines s uda bs.length
  let sh := ls.filter fun l => decide ((l, false) ∈ s.host.lines)
  let s := forEach (ex ++ sh) snoopLine s
  let s := { s with host := { s.host with
    lines := s.host.lines.filter fun e => decide (e.1 ∉ sh) || e.2 } }
  match parkCause s s.host.waiting uda bs.length with
  | none => landWrite add uda bs s
  | some c => parkWrite add uda bs c s

/-- A write by a device agent. -/
def deviceAgentWrite (s : State) (uda : Nat) (bs : List Byte) : State := deviceAgentStore false s uda bs

/-- One write that waited, at an instant at which its cause may have ended: it lands, or waits on behind those kept. -/
def flushOne (p : Parked) (s : State × List Parked) : State × List Parked :=
  match parkCause s.1 s.2 p.uda p.bytes.length with
  | none => (landWrite p.add p.uda p.bytes (countPark p s.1), s.2)
  | some c =>
    if c = p.cause then (s.1, s.2 ++ [p])
    else
      let t := countPark p s.1
      (t, s.2 ++ [{ p with cause := c, since := t.now }])

/-- Writes that no longer wait are performed, in order; the waits are counted (10 R301, 16 R433, R438). -/
def flushWrites (s : State) : State :=
  let r := forEach s.host.waiting flushOne ({ s with host := { s.host with waiting := [] } }, [])
  { r.1 with host := { r.1.host with waiting := r.2 } }

/-- The fabric area (0x2C01.01; 12 R341). -/
def fabricArea (s : State) : Nat := getObj s (key 0x2C01 1)

/-- Bytes in the fabric area that only the device writes: stamps and counters (12 R341). -/
def inFabricState (s : State) (uda : Nat) : Bool :=
  decide (fabricArea s ≠ 0) && decide (fabricArea s + 0x8000 ≤ uda ∧ uda < fabricArea s + 0x9000)

/-- A host or fabric write (10 R280, R286, 02 R42; 12 R341 for the stamps and counters): discarded whole when unmapped or read-only; a write to the
latched input bank is discarded and counted; one to tier 2 waits while the link is down (16 R438), one to a channel out of service waits (10
R307, R308). -/
def externalWrite (s : State) (uda : Nat) (bs : List Byte) : State :=
  if !unitMapped s [(uda, bs.length)] then unmappedAccess s
  else if unitReadOnly s [(uda, bs.length)] then addObj s (key 0x2A04 0xC) 1
  else if touchesLatched s uda bs.length then addObj s (key 0x2205 9) 1
  else if (List.range bs.length).any fun i => inFabricState s (uda + i) then
    (List.range bs.length).foldl (fun s i =>
      if inFabricState s (uda + i) then s else agentWrite s (uda + i) [bs.getD i 0]) s
  else if tier2Waits s [(uda, bs.length)] then parkWrite false uda bs 3 s
  else
    match channelWait s [(uda, bs.length)] with
    | some t => parkWrite false uda bs (if t = 0 then 5 else 4) s
    | none => agentWrite s uda bs

/-- A host or fabric write is performed. -/
def externalLands (s : State) (uda n : Nat) : Bool :=
  unitMapped s [(uda, n)] && !unitReadOnly s [(uda, n)] && !touchesLatched s uda n

/-! ## Frames (10 R275, R285) -/

/-- Sets of tier 0, packages of tier 1 (10 Table MEM-1). -/
def memberGroups (tier : Nat) : Nat := if tier = 0 then 64 else 16

/-- User frames of a tier (10 Table MEM-1, R277). -/
def userFrames (s : State) (tier : Nat) : Nat :=
  if tier = 0 then 244140 else if tier = 1 then 476837 else getObj s (key 0x2A00 0xA)

/-- All frames of a tier. -/
def allFrames (s : State) (tier : Nat) : Nat :=
  if tier = 0 then 246720 else if tier = 1 then 493440 else getObj s (key 0x2A00 0xA)

/-- The key of a frame in the table of frames in use. -/
def frameKey (tier frame : Nat) : Nat := tier * 2 ^ 32 + frame

/-- A frame is allocated or withheld. -/
def frameUsed (s : State) (tier frame : Nat) : Bool := mapFind false s.tiers.used (frameKey tier frame)

/-- The state with a frame marked used or free. -/
def markFrame (s : State) (tier frame : Nat) (u : Bool) : State :=
  { s with tiers := { s.tiers with used := mapPut false s.tiers.used (frameKey tier frame) u } }

/-- The members of a group: pseudo-channel k of each stack, or the four channels of a package
(10 Table MEM-1; numbering DEDUCED, log 11). -/
def groupMembers (tier g : Nat) : List Nat :=
  if tier = 0 then (List.range 8).map fun st => st * 64 + g else (List.range 4).map fun c => g * 4 + c

/-- The group of a member. -/
def groupOf (tier i : Nat) : Nat := if tier = 0 then i % 64 else i / 4

/-- A group takes allocations: every member is in service (10 R306, 15 R420). -/
def groupInService (s : State) (tier g : Nat) : Bool :=
  (groupMembers tier g).all fun i => decide ((memberOf s tier i).state = 0)

/-- The group in which a frame lies (10 Table MEM-1). -/
def frameGroup (tier frame : Nat) : Nat := frame % memberGroups tier

/-- The lowest free frame of a group from an index on, below a bound. -/
def lowestFree (s : State) (tier g bound : Nat) : Nat → Nat → Option Nat
  | 0, _ => none
  | fuel + 1, i =>
    let fr := i * memberGroups tier + g
    if bound ≤ fr then none
    else if frameUsed s tier fr then lowestFree s tier g bound fuel (i + 1) else some fr

/-- The lowest free user frame of a group. -/
def freeInGroup (s : State) (tier g : Nat) : Option Nat :=
  if groupInService s tier g then lowestFree s tier g (userFrames s tier) (s.tiers.used.length + 1) 0
  else none

/-- The lowest free reserve frame of a group. -/
def reserveInGroup (s : State) (tier g : Nat) : Option Nat :=
  let first := (userFrames s tier + memberGroups tier - 1 - g) / memberGroups tier
  if groupInService s tier g then lowestFree s tier g (allFrames s tier) (s.tiers.used.length + 1) first
  else none

/-- The first group with a frame, in rotation from the rotor (10 R285). -/
def rotate (s : State) (tier : Nat) (pick : Nat → Option Nat) : Option Nat :=
  let n := memberGroups tier
  let r := mapFind 0 s.tiers.rotor tier
  (List.range n).findSome? fun i => pick ((r + i) % n)

/-- The user frame that the next allocation of a tier takes (10 R285); tier 2 takes the lowest free frame of
the window. -/
def nextFrame (s : State) (tier : Nat) : Option Nat :=
  if tier = 2 then
    (List.range (s.tiers.used.length + 1)).find? fun fr =>
      decide (fr < userFrames s 2) && !frameUsed s 2 fr
  else rotate s tier (freeInGroup s tier)

/-- The frame taken: marked used, the rotor past its group (10 R285). -/
def takeFrame (s : State) (tier frame : Nat) : State :=
  let s := markFrame s tier frame true
  if tier = 2 then s
  else { s with tiers := { s.tiers with
    rotor := mapPut 0 s.tiers.rotor tier ((frameGroup tier frame + 1) % memberGroups tier) } }

/-- A group whose frames count at 0x2A02: no member failed training or is retired (10 R306, 15 R420). -/
def groupCounted (s : State) (tier g : Nat) : Bool :=
  (groupMembers tier g).all fun i => decide ((memberOf s tier i).state = 0 ∨ (memberOf s tier i).state = 3)

/-- User frames of a group. -/
def groupFrames (s : State) (tier g : Nat) : Nat :=
  (userFrames s tier + memberGroups tier - 1 - g) / memberGroups tier

/-- User frames of a tier in groups that satisfy a test; tier 2 has no groups. -/
def userFramesIn (s : State) (tier : Nat) (ok : Nat → Bool) : Nat :=
  if tier = 2 then userFrames s 2
  else ((List.range (memberGroups tier)).filter ok).foldl (fun n g => n + groupFrames s tier g) 0

/-- User frames of a tier in service (0x2A02.02, .06). -/
def userInService (s : State) (tier : Nat) : Nat := userFramesIn s tier (groupCounted s tier)

/-- User frames neither allocated nor withheld in groups that satisfy a test. -/
def freeFramesIn (s : State) (tier : Nat) (ok : Nat → Bool) : Nat :=
  userFramesIn s tier ok -
    (s.tiers.used.filter fun e =>
      decide (e.1 / 2 ^ 32 = tier) && decide (e.1 % 2 ^ 32 < userFrames s tier) &&
        (decide (tier = 2) || ok (frameGroup tier (e.1 % 2 ^ 32)))).length

/-- Free user frames of a tier (0x2A02.03, .07). -/
def freeFrames (s : State) (tier : Nat) : Nat := freeFramesIn s tier (groupCounted s tier)

/-- Free user frames that an allocation can take (10 R285, 15 R420). -/
def allocatable (s : State) (tier : Nat) : Nat := freeFramesIn s tier (groupInService s tier)

/-- The bytes of a frame set to zero (10 R284, R306). -/
def zeroFrame (s : State) (tier frame : Nat) : State :=
  let k := physKey s tier frame 0
  { s with mem := mapEraseRange s.mem k (k + extentSize) }

/-- The bytes of one frame copied to another (10 R287). -/
def copyFrame (s : State) (t1 f1 t2 f2 : Nat) : State :=
  let a := physKey s t1 f1 0
  let b := physKey s t2 f2 0
  let src := s.mem.filter fun e => decide (a ≤ e.1) && decide (e.1 < a + extentSize)
  let rest := mapEraseRange s.mem b (b + extentSize)
  { s with mem := src.foldl (fun m e => mapPut memDefault m (b + (e.1 - a)) e.2) rest }

/-! ## Trace records (06 R188, R189) -/

/-- A pond's waiting trace records at the present instant: each is written 64 clk after the one before. -/
def traceWaiting (s : State) (ph : Nat) : List Nat :=
  (pondOf s ph).traceBusy.filter fun t => decide (s.now < t)

/-- One trace record of a pond (06 R188, R189): written into the ring of its logical number and the write index
advanced; a record waits while the pond wrote one within 64 clk. A fault record that finds 16 waiting, and an
informational record that finds any waiting, is dropped and counted. -/
def trace (ph code tag cls data : Nat) (isFault : Bool) (s : State) : State :=
  match logicalOf s ph with
  | none => s
  | some l =>
    let busy := traceWaiting s ph
    if isFault && decide (16 < busy.length) then addObj s (key 0x2620 6) 1
    else if !isFault && decide (1 < busy.length) then addObj s (key 0x2620 5) 1
    else
      let at_ := busy.foldl max s.now + 64
      let i := getObj s (key 0x2621 (l + 1))
      let s := deviceWrite s (traceBase l + 32 * (i % 4096)) (traceBytes s ph l code tag cls data)
      let s := setObj s (key 0x2621 (l + 1)) ((i + 1) % 4096)
      modPond s ph fun pd => { pd with traceBusy := busy ++ [at_] }

/-- A fault trace record (06 R189). -/
def traceFault (ph code tag cls data : Nat) (s : State) : State := trace ph code tag cls data true s

/-- An informational trace record of a program: recorded when its enable bit is set and the program filter lets
it pass (06 R189). -/
def traceInfo (ph code enable tag cls data : Nat) (program : Option Nat) (s : State) : State :=
  let f := getObj s (key 0x2620 4)
  if !bitAt (getObj s (key 0x2620 3)) enable then s
  else if bitAt f 8 && (match program with | some p => decide (p ≠ f % 256) | none => false) then s
  else trace ph code tag cls data false s

end Sys2Proof.Machine
end

