-- ==== Sys2Proof/Machine/Gangs.lean ====
section
/-! DEFINITION. What befalls programs and gangs: error exits (06 R179 to R181), steps that receive status
0x0B (02 R57, R58), and background tasks whose pond is lost (13 R371). The function `raise` that sets a
source with its reaction is an argument here; `React.lean` ties the knot. -/

namespace Sys2Proof.Machine

/-- A function that sets a fault source. -/
abbrev Raise := Nat → Origin → State → State

/-- Bits [23:0] of word 0: the tag of a command (06 Table CMD-2). -/
def tagOf (c : Cmd) : Nat := c.w0.toNat % 2 ^ 24

/-- Engine class of a command (06 Table CMD-2). -/
def classOf (c : Cmd) : Nat := bits c.w0.toNat 55 52

/-- Opcode of a command. -/
def opcodeOf (c : Cmd) : Nat := bits c.w0.toNat 63 56

/-- A command's tag with its engine class in bits [27:24], as an error exit notes it. -/
def markOf (c : Cmd) : Nat := tagOf c + classOf c * 2 ^ 24

/-! ## Clocks of what is under way (01 R27, 06 R152, R185, 09 R260, 10 R301) -/

/-- The clk that a pond's stalled push has waited (0x2601.03). -/
def countStalled (ph : Nat) (s : State) : State :=
  match (pondOf s ph).core.stalled with
  | some x => addObj s (key 0x2601 3) (s.now - x.2)
  | none => s

/-- The clk that stream end `st` of logical pond `l` has waited for a credit since the instant `waited` less one (06 R185:
0x2631, 0x40pp.06). -/
def countStall (l ph st waited : Nat) (s : State) : State :=
  if waited = 0 then s
  else
    let n := s.now + 1 - waited
    addObj (addObj s (key (0x4000 + ph) 6) n) (streamStatKey 0 l st) n

/-- The clk that the stream ends of a pond have waited for credits. -/
def countStalls (ph : Nat) (s : State) : State :=
  match logicalOf s ph with
  | none => s
  | some l => forEach (pondOf s ph).streams (fun e => countStall l ph e.1 e.2.waitSince) s

/-- The counter of a busy class: the vector engine, the gate pipeline, any engine (0x2401.02, 0x2402.05, 0x40pp.05). -/
def busyCounter (ph k : Nat) : Option Nat :=
  if k = 2 then some (key 0x2401 2) else if k = 3 then some (key 0x2402 5)
  else if k = 16 then some (key (0x4000 + ph) 5) else none

/-- The clk that the engines of a pond have been busy. -/
def countBusyClk (ph : Nat) (s : State) : State :=
  forEach (pondOf s ph).busySince (fun e s =>
    match busyCounter ph e.1 with
    | some c => if e.2 = 0 then s else addObj s c (s.now + 1 - e.2)
    | none => s) s

/-- The clk that the heads of a pond's queues and its control command have waited. -/
def countWaits (ph : Nat) (s : State) : State :=
  forEach ((pondOf s ph).queues.flatMap (·.2)) (fun q => countWait q.waiting)
    (countWait ((pondOf s ph).core.sect.bind (·.waiting)) s)

/-- A pond whose waits and busy engines are counted up to `now`. -/
def restartClocks (now : Nat) (pd : Pond) : Pond :=
  let again (w : Option (Nat × Nat)) : Option (Nat × Nat) := w.map fun x => (now, x.2)
  { pd with
    core := { pd.core with stalled := pd.core.stalled.map fun x => (x.1, now),
                           sect := pd.core.sect.map fun x => { x with waiting := again x.waiting } },
    queues := mapAll [] (List.map fun q => { q with waiting := again q.waiting }) pd.queues,
    streams := mapAll StreamEnd.closed
      (fun e => if e.waitSince = 0 then e else { e with waitSince := now + 1 }) pd.streams,
    busySince := mapAll 0 (fun b => if b = 0 then 0 else now + 1) pd.busySince }

/-- Every clock of a pond counted up to now: what is under way goes on from here. -/
def settlePond (ph : Nat) (s : State) : State :=
  let t := countWaits ph (countBusyClk ph (countStalls ph (countStalled ph s)))
  modPond t ph (restartClocks t.now)

/-! ## Error exits -/

/-- The commands of a program that wait unstarted in a pond, by class (06 R179). -/
def unstartedCmds (pd : Pond) (program : Nat) : List Cmd :=
  pd.queues.flatMap fun e => (e.2.filter fun q => decide (q.program = program)).map (·.cmd)

/-- Their number. -/
def unstarted (pd : Pond) (program : Nat) : Nat := (unstartedCmds pd program).length

/-- The queues without the commands of a program (06 R179 step 2). -/
def dropProgram (pd : Pond) (program : Nat) : Pond :=
  let kept := pd.queues.map fun e => (e.1, e.2.filter fun q => decide (q.program ≠ program))
  { pd with queues := kept.filter fun e => decide (e.2 ≠ []) }

/-- The tag that the command in a slot of a program has (06 R150): it stands for the command that a fetch failed to
give (DEDUCED, log 43). -/
def slotTag (program index : Nat) : Nat := program % 256 * 2 ^ 16 + index % 2 ^ 16

/-- The trace records of commands that an exit discards (06 Table CMD-14). -/
def traceDiscards (ph cause : Nat) (cs : List Cmd) (s : State) : State :=
  forEach cs (fun c => traceFault ph 0x0010 (tagOf c) (classOf c) cause) s

/-- A program takes its error exit on a pond (06 R179 steps 1 and 2): it stops fetching and its unstarted
commands are discarded, each counted and traced. Inside an error-exit section the exit is counted here, and the section
ends when its started commands have completed (R181). A program that is already taking an exit is unchanged. -/
def startExit (ph cause tag : Nat) (s : State) : State :=
  match (pondOf s ph).core.sect with
  | none => s
  | some sec =>
    if (pondOf s ph).core.exiting.isSome || ((pondOf s ph).core.exited && decide (sec.kind ≠ .error)) then s
    else
      let cs := unstartedCmds (pondOf s ph) sec.program
      let s := traceDiscards ph cause cs (addObj (settlePond ph s) (key 0x2601 7) cs.length)
      let s := if sec.kind = .error then addObj s (key 0x2601 6) 1 else s
      modPond s ph fun pd =>
        let pd := dropProgram pd sec.program
        { pd with core := { pd.core with stalled := none, exiting := some { cause := cause, tag := tag } } }

/-- A future's step receives status 0x0B: counted once, with the step-aborted source of its gang's basin
(02 Table TCK-5, 15 source 33). -/
def giveAborted (raise : Raise) (g f : Nat) (s : State) : State :=
  let r := stepOf s f
  if r.status = 0x0B then s
  else
    raise 33 (.gang g)
      (addObj (setStep s f { r with status := 0x0B, done := true }) (key 0x2203 0xA) 1)

/-- Every listed future receives status 0x0B. -/
def giveAbortedAll (raise : Raise) (g : Nat) (fs : List Nat) (s : State) : State :=
  forEach fs (giveAborted raise g) s

/-- The futures whose step runs on a gang: the fetched group, carried or not (02 R58). -/
def runningFutures (gg : Gang) : List Nat := gg.group.map (·.future)

/-- The sluice stops what runs on a gang (02 R57, R58): every member with a section takes its error exit with
cause 0x09, and the futures that run receive status 0x0B. -/
def stopGang (raise : Raise) (g : Nat) (s : State) : State :=
  let gg := gangOf s g
  let fs := runningFutures gg
  let s := setGang s g { gg with group := [], carryRunning := false }
  let s := forEach (gangMembers s g) (fun l s => startExit (physOf s l) 0x09 0 s) s
  giveAbortedAll raise g fs s

/-- A halted pond is no longer halted (16 R454): the watchdogs of its gang, which stood still since then, go on. -/
def unhalt (l : Nat) (s : State) : State :=
  let pd := pondOf s (physOf s l)
  if pd.halt.isNone then s
  else
    let s := forEach (gangMembers s l) (fun m s => exemptHalt (physOf s m) pd.haltedAt s) s
    modPond s (physOf s l) fun pd => { pd with halt := none, stepping := false }

/-- The gang holds steps of the tick before: its group is a carried one, or it still has to fetch some (02 R57). -/
def holdsCarried (gg : Gang) : Bool := gg.carryRunning || decide (gg.late ≠ [])

/-- A pond of a gang is lost in the tick (02 R58): the running step and every entry not yet fetched receive
status 0x0B. -/
def abortGang (raise : Raise) (g : Nat) (s : State) : State :=
  let s := stopGang raise g s
  let gg := gangOf s g
  let rest := (gg.late ++ gg.entries.drop gg.next).map (·.future)
  giveAbortedAll raise g rest (setGang s g { gg with next := gg.entries.length, late := [] })

/-! ## Background tasks (13 R358, Table SHR-1) -/

/-- The share area (0x2D01.01). -/
def shareBase (s : State) : Nat := getObj s (key 0x2D01 1)

/-- The address of a task record (13 R358). -/
def taskAt (s : State) (t : Nat) : Nat := shareBase s + t * 128

/-- A field of a task record: byte offset and bytes. -/
def taskField (s : State) (t off n : Nat) : Nat := readLe s (taskAt s t + off) n

/-- The state with a field of a task record written by the device. -/
def setTaskField (s : State) (t off n v : Nat) : State := deviceWrite s (taskAt s t + off) (leBytes v n)

/-- State of a task (13 Table SHR-1): 0 free, 1 ready, 2 running, 3 switched out, 4 held, 5 faulted. -/
def taskState (s : State) (t : Nat) : Nat := taskField s t 0 1

/-- The state with a task's state replaced. -/
def setTaskState (s : State) (t v : Nat) : State := setTaskField s t 0 1 v

/-- The task running on a gang. -/
def runOf (s : State) (g : Nat) : Option TaskRun := mapFind none s.shares.runs g

/-- The state with the task running on a gang replaced. -/
def setRun (s : State) (g : Nat) (r : Option TaskRun) : State :=
  { s with shares := { s.shares with runs := mapPut none s.shares.runs g r } }

/-- Entry of a task into held (13 R361). -/
def holdTask (t : Nat) (s : State) : State := addObj (setTaskState s t 4) (key 0x2D03 7) 1

/-- Tasks are enabled: the share area is set and pinned in tier 0 (13 R358, 0x2D01.02). -/
def tasksEnabled (s : State) : Bool :=
  decide (shareBase s ≠ 0) && (extentAt s (shareBase s)).pinned && decide ((extentAt s (shareBase s)).tier = 0)

/-- A task is eligible: ready or switched out (13 R363). -/
def eligible (s : State) (t : Nat) : Bool := decide (taskState s t = 1) || decide (taskState s t = 3)

/-- The eligible tasks of the gang that holds a logical number become held when its pond goes out of service (13 R361,
01 R13, R23). -/
def holdBound (l : Nat) (s : State) : State :=
  if tasksEnabled s then
    forEach ((List.range 256).filter fun t => eligible s t && decide (l ∈ gangMembers s (taskField s t 4 1))) holdTask s
  else s

/-- The weight of a share class in force (13 Table SHR-6). -/
def classWeight (s : State) (c : Nat) : Nat := forceObj s (key (0x5100 + c) 1)

/-- A task charged for the clk since its charge last stood (13 R357, R363): background or switch time, of every pond of
its gang, in its record, its class and its pass. -/
def chargeTask (g : Nat) (switch : Bool) (s : State) : State :=
  match runOf s g with
  | none => s
  | some r =>
    let n := (gangMembers s g).length * (s.now - r.since)
    let cls := taskField s r.task 2 1
    let w := max (classWeight s cls) 1
    let off := if switch then 80 else 72
    let s := setTaskField s r.task off 8 (taskField s r.task off 8 + n)
    let s := setTaskField s r.task 56 8 (taskField s r.task 56 8 + ceilDiv (n * 1000) w)
    let s := addObj s (key (0x5100 + cls) (if switch then 4 else 3)) n
    setRun s g (some { r with since := s.now })

/-- The pond of a running task is lost (13 R371): the task becomes held, and loses its saved point when its kept
length is not 0. -/
def taskLost (g : Nat) (s : State) : State :=
  let s := chargeTask g (match runOf s g with
    | some r => r.saving || r.restoring
    | none => false) s
  match runOf s g with
  | none => s
  | some r =>
    let s := holdTask r.task (setRun s g none)
    if taskField s r.task 28 4 = 0 then s
    else addObj (setTaskField s r.task 6 1 0) (key 0x2D03 8) 1

end Sys2Proof.Machine
end

