-- ==== Sys2Proof/Machine/Repair.lean ====
section
/-! DEFINITION. Failed ponds and their replacement (01 R11 to R15, 15 R418), block resets of ponds and
gangs (15 R413), and the loss of a pond's work. -/

namespace Sys2Proof.Machine

/-- The spare that R11 of 01 chooses for a pond of a die: the lowest spare-idle pond of the die, else of the
other. -/
def chooseSpare (s : State) (die : Nat) : Option Nat :=
  let idle := (List.range 144).filter fun p => decide (pondState s p = .spareIdle)
  match idle.find? fun p => decide (dieOf p = die) with
  | some p => some p
  | none => idle.head?

/-- Ponds in state spare-idle (0x2120.02). -/
def sparesLeft (s : State) : Nat :=
  ((List.range 144).filter fun p => decide (pondState s p = .spareIdle)).length

/-- A level source whose condition now holds: its cause becomes active and, when it was not, the source occurs
(15 R404). -/
def raiseLevel (raise : Raise) (i : Nat) (o : Origin) (s : State) : State :=
  if causeActive s i then s else raise i o (setObj s (srcKey i 2) 1)

/-- Source 68 while no pond is spare-idle (15 Table FLT-1). -/
def checkSpares (raise : Raise) (s : State) : State :=
  if sparesLeft s = 0 then raiseLevel raise 68 .chip s else s

/-- A pond leaves service for good (01 Table PND-2), with its retire tick (0x40pp.0A). -/
def retirePond (ph : Nat) (s : State) : State :=
  setObj (setPondState s ph .retired) (key (0x4000 + ph) 0xA) (tickNumber s)

/-- The logical number becomes absent (01 R14). -/
def makeAbsent (l : Nat) (s : State) : State :=
  { s with map := { s.map with toPhys := mapPut 0xFF s.map.toPhys l 0xFF } }

/-- A spare chosen and moved to spare-loading for a failed pond; when none remains, the retirement waits for the next
edge as a replacement without a spare (01 R11, R12, R14, R29). -/
def startReplacement (raise : Raise) (ph l : Nat) (s : State) : State :=
  match chooseSpare s (dieOf ph) with
  | some sp =>
    let s := setPondState s sp .spareLoading
    checkSpares raise { s with map := { s.map with
      replacements := s.map.replacements ++
        [{ failed := ph, logical := l, spare := some sp, started := s.now, copied := false, reload := false }] } }
  | none =>
    checkSpares raise { s with map := { s.map with
      replacements := s.map.replacements ++
        [{ failed := ph, logical := l, spare := none, started := s.now, copied := true, reload := false }] } }

/-- The work on a pond is lost (01 R13, 02 R58, 13 R371), its gang takes no other (13 R361), and a halt of it ends. -/
def loseWork (raise : Raise) (l : Nat) (s : State) : State :=
  let g := rank0Of s l
  holdBound l (taskLost g (abortGang raise g (unhalt l s)))

/-- The last replacement takes the place `k` in the order of declaration (01 R15). -/
def moveLast (k : Nat) (s : State) : State :=
  let q := s.map.replacements
  { s with map := { s.map with
      replacements := q.dropLast.take k ++ q.drop (q.length - 1) ++ q.dropLast.drop k } }

/-- A pond in spare-loading fails (01 R15): it retires uncounted and its replacement starts again, in its place in the
order in which the ponds were declared failed. -/
def spareFailed (raise : Raise) (sp : Nat) (s : State) : State :=
  match s.map.replacements.find? fun r => decide (r.spare = some sp) && !r.reload with
  | none => s
  | some r =>
    let k := s.map.replacements.idxOf r
    let s := retirePond sp { s with map := { s.map with
      replacements := s.map.replacements.filter fun q => decide (q ≠ r) } }
    moveLast k (startReplacement raise r.failed r.logical s)

/-- A pond is declared failed (15 R418): its step is aborted and its replacement starts (01 R11 to R15). A pond
that is already being replaced is unchanged; a reload under way gives way to the replacement. -/
def failPond (raise : Raise) (ph : Nat) (s : State) : State :=
  if pondState s ph = .spareLoading then spareFailed raise ph s
  else
    match logicalOf s ph with
    | none => s
    | some l =>
      if s.map.replacements.any fun r => decide (r.failed = ph) && !r.reload then s
      else
        let s := loseWork raise l s
        startReplacement raise ph l { s with map := { s.map with
          replacements := s.map.replacements.filter fun r => decide (r.failed ≠ ph) } }

/-- A pond reset to the state of 06 Table CMD-1; the record of the programs that its reload brings back stays
(15 R413). -/
def resetPond (pd : Pond) : Pond :=
  { Pond.reset with banks := pd.banks, core := { Core.reset with activeBank := pd.core.activeBank } }

/-- A block reset of a pond (15 R413): its work is lost, and it is reloaded by the copy of 01 R12 with itself
as source number and target. -/
def blockResetPond (raise : Raise) (ph : Nat) (s : State) : State :=
  match logicalOf s ph with
  | none => s
  | some l =>
    if s.map.replacements.any fun r => decide (r.failed = ph) then s
    else
      let s := modPond (settlePond ph (loseWork raise l s)) ph resetPond
      addObj { s with map := { s.map with
        replacements := s.map.replacements ++
          [{ failed := ph, logical := l, spare := some ph, started := s.now, copied := false,
             reload := true }] } } (key 0x2E02 5) 1

/-- A block reset of every pond of a gang (15 R413). -/
def blockResetGang (raise : Raise) (g : Nat) (s : State) : State :=
  forEach (gangMembers s g) (fun l s => blockResetPond raise (physOf s l) s) s

end Sys2Proof.Machine
end

