-- ==== Sys2Proof/Machine/Reset.lean ====
section
/-! DEFINITION. The reset of the chip domain: what it keeps and what it loses (15 R412 to R416, R479;
01 R480, 14 R379, R393, 16 R452, R453). -/

namespace Sys2Proof.Machine

/-- Objects that a chip reset with preserved contents keeps (15 R415). -/
def keptKey (k : Nat) : Bool :=
  let index := k / 256
  let sub := k % 256
  decide (k ∈ [key 0x2702 2, key 0x2700 7, key 0x2A00 9, key 0x2A00 0xA, key 0x2A01 6, key 0x2B01 1]) ||
    (decide (0x2710 ≤ index ∧ index ≤ 0x2713) && decide (sub ∈ [1, 2, 3, 6])) ||
    decide (index = 0x2621)

/-- Values that describe the module itself and count since power-on or manufacture: resets (0x2E02.04), the working
phases, of which a failed one stays off (15 R423), and the retire ticks of 01. -/
def lifeKey (k : Nat) : Bool :=
  decide (k = key 0x2E02 4) || decide (k = key 0x2E20 3) ||
    (decide (0x4000 ≤ k / 256 ∧ k / 256 ≤ 0x408F) && decide (k % 256 = 0xA))

/-- Futures as a preserving chip reset leaves them: carried flag and pending count clear (15 R415). -/
def settleFutures (q : Seq) : Seq :=
  { q with futures := q.futures.map fun e => (e.1, { e.2 with carried := false, pending := 0 }) }

/-- Frames that copies and transactions under way held: none does after a chip reset. -/
def heldFrames (t : Tiers) : List Nat :=
  (t.migrations.filterMap fun m => m.toFrame.map (frameOf m.toTier)) ++
    t.releasing.map (fun r => frameOf r.1 r.2) ++ t.refetches.map fun r =>
      frameOf (mapFind Extent.unmapped t.extents r.extent).tier r.toFrame
where
  frameOf (tier frame : Nat) : Nat := tier * 2 ^ 32 + frame

/-- The tiers as a preserving chip reset leaves them: copies and re-fetches end, and a directive that had started is
completed after the reset, with the moves that it still asks for (15 R415). -/
def settleTiers (t : Tiers) : Tiers :=
  { Tiers.cold with extents := t.extents.map fun e => (e.1, { e.2 with migrating := false }),
                    objects := t.objects, directives := t.directives, started := t.started,
                    used := (heldFrames t).foldl mapErase t.used,
                    migrations := (t.migrations.filter fun m => m.directive.isSome).map fun m => { m with toFrame := none },
                    rotor := t.rotor, spareRows := t.spareRows }

/-- The bytes of host memory, which no reset of the device touches. -/
def hostBytes (m : List Host.Cell) : List Host.Cell := m.filter fun e => decide (2 ^ 50 ≤ e.1)

/-- The tier contents survive a chip reset when the tiers were in use, or still hold what an earlier reset preserved (15
R414). -/
def contentsKept (s : State) : Bool := s.host.memoryActive || s.boot.preserved

/-- The chip domain reset, with the tier contents kept or not (15 R412, R414, R415, 16 R452, R453). What remains is the
non-volatile state, pins, the host link's training, a CAN port's bus-off (R479) and the TAP. -/
def resetChip (keep : Bool) (s : State) : State :=
  let kept := s.dict.filter fun e => lifeKey e.1 || (keep && keptKey e.1)
  let r : State := { State.reset with
    pending := s.pending, now := s.now, fresh := s.fresh, nvm := s.nvm, dict := kept,
    mem := if keep then s.mem else hostBytes s.mem,
    map := { s.map with replacements := s.map.replacements.filter fun r => !r.reload, tables := [] },
    seq := if keep then settleFutures s.seq else Seq.cold,
    tiers := if keep then settleTiers s.tiers else Tiers.cold,
    host := { HostSide.start with downSince := s.host.downSince },
    boot := { s.boot with begun := none, preserved := keep, stopped := false, staged := false, verifying := none,
                          activating := none },
    secure := { s.secure with level := 0, failures := 0, words := [], checking := none,
                              nonce := s.secure.nonce + 1 },
    debugPort := { s.debugPort with brk := [] },
    power := { Power.start with poweredAt := s.power.poweredAt },
    pins := s.pins, sent := s.sent }
  let r := (List.range 3).foldl (fun a i => setObj a (key 0x3000 (i + 1)) (getObj s (key 0x3000 (i + 1)))) r
  forUpTo 2 (fun p r => if getObj s (key (0x3111 + p) 2) = 2 then setObj r (key (0x3111 + p) 2) 2 else r) r

/-! ## The start of boot (15 R479, 16 R440) -/

/-- A level source whose condition holds when the weir starts: its records stand at their defaults, so that the reaction of
the setup regime is the interrupt (15 R410, Table FLT-1). -/
def raiseAtStart (i : Nat) (s : State) : State :=
  if causeActive s i then s
  else
    let s := raise0 i .chip (setObj s (srcKey i 2) 1)
    if getObj s (key 0x2E00 5) = 1 then s else signalVector 1 s

/-- The conditions of level sources that hold outside the weir when it starts: a lost CAN bus, the link degraded or down,
too few working phases, no spare-idle pond (15 R479). -/
def conditionHolds (s : State) (i : Nat) : Bool :=
  match i with
  | 56 => decide (getObj s (key 0x3111 2) = 2) && decide (getObj s (key 0x3112 2) = 2)
  | 58 => linkUp s && decide (getObj s (key 0x3000 2) < 16 ∨ getObj s (key 0x3000 3) < 64)
  | 59 => !linkUp s
  | 62 => decide (getObj s (key 0x2E20 3) < 22)
  | 68 => decide (sparesLeft s = 0)
  | _ => false

/-- The weir starts: every level source whose condition holds is set as a new occurrence (15 R479). -/
def weirStart (s : State) : State :=
  forEach [56, 58, 59, 62, 68] (fun i s => if conditionHolds s i then raiseAtStart i s else s) s

/-- Boot begins at stage B1, in the setup regime (15 R408, 16 R440). -/
def startBoot (s : State) : State :=
  weirStart (setObj (setObj { s with boot := { s.boot with begun := some s.now } } (key 0x3010 1) 1) (key 0x2E00 1) 1)

/-- A reset of the chip domain with its cause code and source index (15 R414 to R416, Table FLT-7). Boot starts anew when
`boots` is set; after the reset of source 64 the dies wait at B3 for the module to cool down (17 R476). -/
def chipReset (cause src : Nat) (boots : Bool) (s : State) : State :=
  let keep := contentsKept s
  let r := resetChip keep s
  let r := { r with pins := { r.pins with coolHold := r.pins.coolHold || decide (src = 64) } }
  let r := setObj (setObj r (key 0x2E02 1) cause) (key 0x2E02 2) src
  let r := addObj (setObj r (key 0x2E02 3) (if keep then 1 else 0)) (key 0x2E02 4) 1
  if boots then startBoot r else r

end Sys2Proof.Machine
end

