-- ==== Sys2Proof/Machine/React.lean ====
section
/-! DEFINITION. Setting a fault source with the reaction of the regime (15 R410) and the inherent action of the
sources that declare a pond failed (15 R418). -/

namespace Sys2Proof.Machine

/-- A brook retrained (12 R336, 15 Table FLT-4): it carries no flits and keeps its replay buffer. -/
def retrainBrook (k : Nat) (s : State) : State :=
  addObj (setObj s (key (0x5300 + k) 1) 1) (key (0x5300 + k) 8) 1

/-- The service core stops serving accesses: the clocks of ownership stand still (14 R399). -/
def pauseService (s : State) : State :=
  { s with own := { s.own with frozen := some (s.own.frozen.getD s.now) } }

/-- The controllers of the CAN ports reset (15 Table FLT-4): error active, with their error counts at 0, so that source 56 has
no cause. -/
def resetPorts (s : State) : State :=
  let s := forUpTo 2 (fun p s => forUpTo 3 (fun i s => setObj s (key (0x3111 + p) (2 + i)) 0) s) s
  if causeActive s 56 then endCause 56 s else s

/-- The domain of Table FLT-4 that a block reset of a source resets (15 R410, R412, R413): a restart of the service core is
counted (0x2E02.06) and serves no access meanwhile (14 R399). -/
def blockReset (raise : Raise) (i : Nat) (o : Origin) (s : State) : State :=
  match o with
  | .pond ph => if i = 14 ∨ i = 15 then s else blockResetPond raise ph s
  | .gang g => blockResetGang raise g s
  | .brook k => raise 53 (.brook k) (retrainBrook k s)
  | .unit cls u => { s with weir := { s.weir with units := s.weir.units.filter fun x => decide (x ≠ (cls, u)) } }
  | .chip =>
    if i = 49 then { s with numerics := { Numerics.start with resetting := true } }
    else if i = 65 ∨ i = 66 then addObj (pauseService s) (key 0x2E02 6) 1
    else if i = 56 then resetPorts s
    else s

/-- The setup reaction of a source that has just become set (15 R410, Table FLT-3), and ERR_N when 0x52ii.09 is
set. -/
def setupReaction (raise : Raise) (i : Nat) (o : Origin) (s : State) : State :=
  let s := if getObj s (srcKey i 9) = 1 then driveErrN i s else s
  match getObj s (srcKey i 8) with
  | 1 => if getObj s (key 0x2E00 5) = 1 then s else signalVector 1 s
  | 2 =>
    signalVector 2 { s with weir := { s.weir with
      trapped := if i ∈ s.weir.trapped then s.weir.trapped else i :: s.weir.trapped } }
  | 3 => blockReset raise i o s
  | 4 => chipReset 0x03 i true s
  | _ => s

/-- An occurrence of a source with its inherent action and reaction, for nested sources up to a depth: a set
source 14 or 15 declares its pond failed (15 R418); a source that becomes set in the setup regime gets its
reaction (15 R410). -/
def raiseN : Nat → Raise
  | 0, i, o, s => raise0 i o s
  | n + 1, i, o, s =>
    let was := sourceSet s i
    let s1 := raise0 i o s
    let s2 :=
      match o with
      | .pond ph => if i = 14 ∨ i = 15 then failPond (raiseN n) ph s1 else s1
      | _ => s1
    if !was && inSetup s && !reservedSource i then setupReaction (raiseN n) i o s2 else s2

/-- An occurrence of a fault source (15 R404, R410, R418). Reactions that set further sources are followed
four deep, which no chain of Table FLT-1 exceeds (log 12). -/
def raise (i : Nat) (o : Origin) (s : State) : State := raiseN 4 i o s

/-- The cause of a level source becomes active; an occurrence when it was not (15 R404). -/
def raiseCause (i : Nat) (o : Origin) (s : State) : State := raiseLevel raise i o s

/-- A read by the host or from the fabric at an address without a mapped extent: counted, with source 43 set (10 R280). -/
def unmappedRead (s : State) : State := raise 43 .chip (unmappedAccess s)

/-- The cause of a level source follows its condition (15 R402, R406). -/
def followCause (i : Nat) (c : Bool) (s : State) : State :=
  if c then raiseCause i .chip s else if causeActive s i then endCause i s else s

/-- Source 41 follows the unavailable bits of the directory (10 R304, Table FLT-1). -/
def followUnavailable (s : State) : State :=
  followCause 41 (s.programs.any fun e => bitAt e.2.state 1) s

end Sys2Proof.Machine
end

