-- ==== Sys2Proof/Machine/Futures.lean ====
section
/-! DEFINITION. Future operations (07 R193 to R199, R482), the borrows and lends of state banks (07 R203,
R204), and the page unit's counts and free lists (07 R205 to R211). -/

namespace Sys2Proof.Machine

/-! ## Page pools (07 R205 to R211) -/

/-- Bytes of a page of a pool. -/
def poolPageBytes (s : State) (q : Nat) : Nat := getObj s (key (0x2710 + q) 2) * 4096

/-- Address of a page ID (07 R205). -/
def pageUda (s : State) (p : Nat) : Nat :=
  getObj s (key (0x2710 + p / 2 ^ 22) 1) + p % 2 ^ 22 * poolPageBytes s (p / 2 ^ 22)

/-- The state with the record of a page replaced. -/
def setPageRecord (s : State) (p : Nat) (r : PageRec) : State :=
  { s with seq := { s.seq with
      records := mapPut { PageRec.unconfigured with state := 0 } s.seq.records p r } }

/-- Returned pages of a pool, head first (07 R211). -/
def freeListOf (s : State) (q : Nat) : List Nat := mapFind [] s.seq.free q

/-- The state with the returned pages of a pool replaced. -/
def setFreeList (s : State) (q : Nat) (l : List Nat) : State :=
  { s with seq := { s.seq with free := mapPut [] s.seq.free q l } }

/-- Pages on a pool's free list (0x271q.04). -/
def poolFree (s : State) (q : Nat) : Nat :=
  (freeListOf s q).length + (listedPages s q - mapFind 0 s.seq.fresh q)

/-- Pages of a pool in a page state (0x271q.05 counts limbo). -/
def poolInState (s : State) (q st : Nat) : Nat :=
  (s.seq.records.filter fun e => decide (e.1 / 2 ^ 22 = q) && decide (e.2.state = st)).length

/-- A pool has a page in use or in limbo (07 R205). -/
def poolBusy (s : State) (q : Nat) : Bool := decide (poolInState s q 1 + poolInState s q 2 ≠ 0)

/-- The page at the head of a pool's free list, taken into use with count 1 (07 R211). -/
def takePage (q : Nat) (s : State) : Option (Nat × State) :=
  let used (p : Nat) (s : State) : State :=
    addObj (setPageRecord s p { pageRecord s p with count := 1, state := 1 }) (key (0x2710 + q) 7) 1
  match freeListOf s q with
  | p :: rest => some (p, used p (setFreeList s q rest))
  | [] =>
    let i := mapFind 0 s.seq.fresh q
    if i < listedPages s q then
      some (q * 2 ^ 22 + i,
        used (q * 2 ^ 22 + i) { s with seq := { s.seq with fresh := mapPut 0 s.seq.fresh q (i + 1) } })
    else none

/-- A reference taken on a page (07 R208). -/
def refPage (p : Nat) (s : State) : State :=
  let r := pageRecord s p
  setPageRecord s p { r with count := r.count + 1 }

/-- A reference dropped; a page whose count reaches 0 enters limbo with the current tick as its tag
(07 R210). -/
def dropPage (p : Nat) (s : State) : State :=
  let r := pageRecord s p
  if r.count ≤ 1 then
    setPageRecord s p { count := 0, freeTag := tickNumber s, state := 2 }
  else setPageRecord s p { r with count := r.count - 1 }

/-- References dropped on every page of a list. -/
def dropPages (ps : List Nat) (s : State) : State := forEach ps dropPage s

/-- The epochs of the outstanding reads of pages (07 R209): one for each running command that reads pages. -/
def outstandingReads (s : State) : List Nat := s.ponds.flatMap fun e => e.2.running.filterMap (·.epochReads)

/-- Some read of an epoch at or below a tag is outstanding (07 R210). -/
def readsUpTo (s : State) (tag : Nat) : Bool := (outstandingReads s).any fun e => decide (e ≤ tag)

/-- The pages in limbo that return at the edge that begins a tick, in ascending page ID (07 R210); all of them at the
first used edge after a reset (15 R415). -/
def returningPages (s : State) (tick : Nat) : List Nat :=
  (s.seq.records.filter fun e =>
    decide (e.2.state = 2) && decide (e.2.freeTag < tick ∨ tick = 1) && !readsUpTo s e.2.freeTag).map (·.1)

/-- PAGE_RETURN: the returning pages go to the heads of their free lists in descending page ID (07 R210,
R211). -/
def returnPages (tick : Nat) (s : State) : State :=
  forEach (returningPages s tick).reverse
    (fun p s =>
      let q := p / 2 ^ 22
      let s := setPageRecord s p { pageRecord s p with state := 0 }
      addObj (setFreeList s q (p :: freeListOf s q)) (key 0x2720 6) 1) s

/-- The records and the free list of a pool at an edge: a pool that has become configured lists all its pages in
ascending order and its records read free; one that is no longer configured has neither (07 R207, R211). -/
def settlePool (q : Nat) (s : State) : State :=
  let n := poolPages s q
  let was := mapFind 0 s.seq.configured q
  if n = was then s
  else if was = 0 ∨ n = 0 then
    { s with seq := { s.seq with
        records := s.seq.records.filter fun e => decide (e.1 / 2 ^ 22 ≠ q),
        free := mapPut [] s.seq.free q [], fresh := mapPut 0 s.seq.fresh q 0,
        configured := mapPut 0 s.seq.configured q n } }
  else
    { s with seq := { s.seq with
        free := mapPut [] s.seq.free q ((freeListOf s q).filter fun p => decide (p % 2 ^ 22 < n)),
        fresh := mapPut 0 s.seq.fresh q (min (mapFind 0 s.seq.fresh q) n),
        configured := mapPut 0 s.seq.configured q n } }

/-- The page-pool-low source follows the watermarks at an edge (07 R214). -/
def checkWatermarks (s : State) : State :=
  followCause 42 ((List.range 4).any fun q => decide (poolFree s q < getObj s (key (0x2710 + q) 6))) s

/-! ## State banks (07 R198, R199) -/

/-- The stride S_st. -/
def stateStride (s : State) : Nat := getObj s (key 0x2702 2)

/-- First address of the state area (10 Table MEM-3). -/
def stateArea : Nat := 0xFF1000000000

/-- Address of bank `k` of future `f`. -/
def bankUda (s : State) (f k : Nat) : Nat := stateArea + (2 * f + k) * stateStride s

/-- Both banks of a future lie within the state area (07 R199). -/
def banksFit (s : State) (f : Nat) : Bool := decide (f < 1030792151040 / (2 * stateStride s))

/-- The bank of its own area that a future's next step writes. -/
def writeBank (s : State) (f : Nat) (e : Future) : Nat := if e.stateWrite = bankUda s f 1 then 1 else 0

/-- Sharers of a bank of a future. -/
def sharersOf (e : Future) (bank : Nat) : Nat := if bank = 0 then e.sharers0 else e.sharers1

/-- The entry with the sharers of a bank replaced. -/
def withSharers (e : Future) (bank n : Nat) : Future :=
  if bank = 0 then { e with sharers0 := n } else { e with sharers1 := n }

/-- A future moved between runnable and lent as the sharers of its write bank say (07 R204). -/
def settleLent (f : Nat) (s : State) : State :=
  let e := futureOf s f
  if e.state = 1 ∨ e.state = 4 then
    setFuture s f { e with state := if sharersOf e (writeBank s f e) = 0 then 1 else 4 }
  else s

/-- A borrow released (07 R203): the source's sharers of the bank decrease, and the source may run again
(R204). -/
def releaseBorrow (f : Nat) (s : State) : State :=
  let e := futureOf s f
  if e.borrowed then
    let src := futureOf s e.source
    let bank := e.readBank
    let s := setFuture s e.source (withSharers src bank (sharersOf src bank - 1))
    let s := setFuture s f { futureOf s f with borrowed := false }
    settleLent e.source s
  else s

/-! ## Operations (07 R195 to R197, R482) -/

/-- An entry of the operation ring (07 Table FUT-3). -/
structure FutureOp where
  op : Nat
  f : Nat
  c : Nat
  a : Nat
  b : Nat
  resv : Bool
  deriving DecidableEq, Repr

/-- An entry decoded from its words. -/
def futureOpOf (w0 a b : Nat) : FutureOp :=
  { op := bits w0 63 56, f := bits w0 47 33, c := bits w0 31 17, a := a, b := b,
    resv := decide (bits w0 55 48 ≠ 0) || bitAt w0 32 || decide (bits w0 16 0 ≠ 0) ||
      (decide (bits w0 63 56 ≠ 2) && decide (bits w0 31 17 ≠ 0)) }

/-- Word 0 of an entry. -/
def futureOpWord (o : FutureOp) : Nat := o.op * 2 ^ 56 + o.f * 2 ^ 33 + o.c * 2 ^ 17

/-- A future is allocated (07 Table FUT-2). -/
def allocated (e : Future) : Bool := decide (e.state ≠ 0)

/-- Check 2 of R482: resv bits set or arguments out of range. -/
def opOutOfRange (s : State) (o : FutureOp) : Bool :=
  let e := futureOf s o.f
  o.resv ||
    match o.op with
    | 1 => bitAt o.a 31 || decide (bits o.a 63 45 ≠ 0) || decide (4096 < bits o.a 44 32) ||
        decide (poolPages s (bits o.a 29 28) = 0) || !banksFit s o.f
    | 2 => decide (1 < o.a) || decide (o.b ≠ 0) || !banksFit s o.c
    | 3 | 4 | 5 => decide (o.a ≠ 0) || decide (o.b ≠ 0)
    | 6 => decide (bits o.a 31 28 ≠ 0) || decide (bits o.a 63 45 ≠ 0) || decide (31 < o.b) ||
        (bitAt o.b 4 && decide (4096 < bits o.a 44 32))
    | 7 => decide (o.b ≠ 0) || decide (e.length < o.a)
    | 8 => decide (o.b ≠ 0) || decide (o.a = 0) || decide (e.length / 64 < o.a)
    | _ => decide (o.b ≠ 0)

/-- Check 4 of R482: a state of f or c that does not accept the operation (07 Table FUT-4). -/
def opWrongState (s : State) (o : FutureOp) : Bool :=
  let st := (futureOf s o.f).state
  match o.op with
  | 1 => decide (st ≠ 0)
  | 2 => decide (st ∉ [1, 2, 4]) || allocated (futureOf s o.c)
  | 3 => decide (st ∉ [1, 4])
  | 4 => decide (st ∉ [2, 3])
  | _ => decide (st = 0)

/-- Check 5 of R482: non-zero sharer counts of a free ID. -/
def opSharersHeld (s : State) (o : FutureOp) : Bool :=
  let held (e : Future) : Bool := decide (e.sharers0 ≠ 0) || decide (e.sharers1 ≠ 0)
  match o.op with
  | 1 => held (futureOf s o.f)
  | 2 => held (futureOf s o.c)
  | _ => false

/-- Check 6 of R482: a reference or sharer count that would pass 65,535. -/
def opCountsFull (s : State) (o : FutureOp) : Bool :=
  match o.op with
  | 2 =>
    let e := futureOf s o.f
    let shared := e.pages.take (ceilDiv e.length 64)
    decide (65535 ≤ sharersOf (futureOf s e.source) e.readBank) ||
      shared.any fun p => decide (65535 ≤ (pageRecord s p).count)
  | _ => false

/-- The result code of an operation (07 R482, Table FUT-5). -/
def opResult (s : State) (o : FutureOp) : Nat :=
  if o.op = 0 ∨ 9 < o.op then 6
  else if opOutOfRange s o then 2
  else if (futureOf s o.f).carried ∨ (o.op = 2 ∧ (futureOf s o.c).carried = true) then 5
  else if opWrongState s o then 1
  else if opSharersHeld s o then 5
  else if opCountsFull s o then 4
  else 0

/-- Page-reference work of an accepted operation (07 Table FUT-4). -/
def opReferences (s : State) (o : FutureOp) : Nat :=
  let e := futureOf s o.f
  match o.op with
  | 2 => ceilDiv e.length 64
  | 5 => e.pages.length
  | 7 => e.pages.length - ceilDiv o.a 64
  | 8 => o.a
  | _ => 0

/-- CREATE (07 Table FUT-4). The user word stays what it was: only SETUSER sets it. -/
def opCreate (o : FutureOp) (s : State) : State :=
  setFuture s o.f
    { Future.free with
      state := if bitAt o.a 30 then 2 else 1, basin := bits o.a 7 0, model := bits o.a 15 8,
      fallback := bits o.a 23 16, fallbackEligible := bitAt o.a 24, inputRequired := bitAt o.a 25,
      priority := bits o.a 27 26, pool := bits o.a 29 28, window := bits o.a 44 32, base := BitVec.ofNat 64 o.b,
      source := o.f, user := (futureOf s o.f).user, stateRead := bankUda s o.f 0,
      stateWrite := bankUda s o.f 1 }

/-- FORK (07 R197). -/
def opFork (o : FutureOp) (s : State) : State :=
  let e := futureOf s o.f
  let shared := e.pages.take (ceilDiv e.length 64)
  let bank := e.readBank
  let s := forEach shared refPage s
  let s := setFuture s o.c
    { e with state := if bitAt o.a 0 then 2 else 1, pending := 0, steps := 0, user := 0, hasParent := true,
             parent := o.f, pages := shared, borrowed := true, sharers0 := 0, sharers1 := 0,
             stateWrite := bankUda s o.c 0 }
  let src := futureOf s e.source
  let s := setFuture s e.source (withSharers src bank (sharersOf src bank + 1))
  settleLent e.source s

/-- RETIRE (07 Table FUT-4): pages and borrow released, state free. -/
def opRetire (o : FutureOp) (s : State) : State :=
  let s := dropPages (futureOf s o.f).pages s
  let s := releaseBorrow o.f s
  setFuture s o.f { futureOf s o.f with state := 0, pages := [] }

/-- SET: the fields that the mask selects (07 Table FUT-4). -/
def opSet (o : FutureOp) (s : State) : State :=
  let e := futureOf s o.f
  let e := if bitAt o.b 0 then { e with basin := bits o.a 7 0 } else e
  let e := if bitAt o.b 1 then { e with model := bits o.a 15 8, fallback := bits o.a 23 16 } else e
  let e := if bitAt o.b 2 then { e with fallbackEligible := bitAt o.a 24, inputRequired := bitAt o.a 25 } else e
  let e := if bitAt o.b 3 then { e with priority := bits o.a 27 26 } else e
  let e := if bitAt o.b 4 then { e with window := bits o.a 44 32 } else e
  setFuture s o.f e

/-- TRUNCATE (07 Table FUT-4). -/
def opTruncate (o : FutureOp) (s : State) : State :=
  let e := futureOf s o.f
  let n := ceilDiv o.a 64
  setFuture (dropPages (e.pages.drop n) s) o.f { e with length := o.a, pending := 0, pages := e.pages.take n }

/-- The first `n` entries of a page table released and the rest moved down (07 Table FUT-4, SHIFT; R201). -/
def shiftPages (f n : Nat) (s : State) : State :=
  let e := futureOf s f
  setFuture (dropPages (e.pages.take n) s) f
    { e with length := e.length - 64 * n, pages := e.pages.drop n, base := e.base + BitVec.ofNat 64 (64 * n) }

/-- The effect of an accepted operation (07 Table FUT-4). -/
def opEffect (o : FutureOp) (s : State) : State :=
  let e := futureOf s o.f
  match o.op with
  | 1 => opCreate o s
  | 2 => opFork o s
  | 3 => setFuture s o.f { e with state := 2 }
  | 4 => settleLent o.f (setFuture s o.f { e with state := 1 })
  | 5 => opRetire o s
  | 6 => opSet o s
  | 7 => opTruncate o s
  | 8 => shiftPages o.f o.a s
  | _ => setFuture s o.f { e with user := BitVec.ofNat 64 o.a }

/-- The counter of a result code (0x2703.01 to .03). -/
def opCounter (code : Nat) : Nat := if code = 0 then key 0x2703 1 else if code = 5 then key 0x2703 3 else key 0x2703 2

/-- One operation applied (07 R195, R196): its effect when accepted, its count, and its result with the tick in
bytes 24 to 31 of its slot. -/
def applyOp (slot : Nat) (o : FutureOp) (s : State) : State :=
  let code := opResult s o
  let s := if code = 0 then opEffect o s else s
  let s := addObj s (opCounter code) 1
  deviceWrite s (slot + 24) (leBytes (code * 2 ^ 56 + tickNumber s % 2 ^ 56) 8)

/-- Slot 0 of the operation ring and the publish location (10 Table MEM-3). -/
def opRing : Nat := 0xFF02AB410000
def opPublish : Nat := 0xFF02AB430000

/-- The slot of an entry of the count (07 R193). -/
def opSlot (i : Nat) : Nat := opRing + i % 4096 * 32

/-- Entries consumed (0x2700.07). -/
def opConsumed (s : State) : Nat := getObj s (key 0x2700 7)

/-- The ring applied from the consumed count to `published` (07 R194): at most `fuel` entries and 65,536
references, of which `refs` are taken. -/
def applyRing (published : Nat) : Nat → Nat → State → Nat × State
  | 0, refs, s => (refs, s)
  | fuel + 1, refs, s =>
    let i := opConsumed s
    if published ≤ i then (refs, s)
    else
      let w (k : Nat) : Nat := readLe s (opSlot i + 8 * k) 8
      let o := futureOpOf (w 0) (w 1) (w 2)
      let n := if opResult s o = 0 then opReferences s o else 0
      if 65536 < refs + n then (refs, s)
      else applyRing published fuel (refs + n) (setObj (applyOp (opSlot i) o s) (key 0x2700 7) (i + 1))

/-- OPERATION_RING_APPLY at the latch (07 R193, R194). -/
def applyOperations (s : State) : State :=
  let published := if mappedAt s opPublish then readLe s opPublish 8 else opConsumed s
  let s := if opConsumed s + 4096 < published ∧ s.seq.published ≠ published
    then addObj s (key 0x2703 5) 1 else s
  let s := { s with seq := { s.seq with published := published } }
  let (refs, s) := applyRing published 1024 0 s
  addObj (setObj s (key 0x2703 7) refs) (key 0x2703 4) (published - opConsumed s)

/-- One future operation as a command of its own: it takes the slot at the consumed count, published with it, and
is applied. -/
def oneOp (o : FutureOp) (s : State) : Out :=
  if o.f < 32768 ∧ o.c < 32768 then
    let i := opConsumed s
    let s := deviceWrite s (opSlot i) (leBytes (futureOpWord o) 8 ++ leBytes o.a 8 ++ leBytes o.b 8)
    let s := if mappedAt s opPublish && decide (readLe s opPublish 8 ≤ i)
      then deviceWrite s opPublish (leBytes (i + 1) 8) else s
    .next (setObj (applyOp (opSlot i) o s) (key 0x2700 7) (i + 1))
  else .fault .noSuchUnit

/-- An operation with opcode, future and arguments. -/
def opOf (op f : Nat) (a b : W64) : FutureOp :=
  { op := op, f := f, c := 0, a := a.toNat, b := b.toNat, resv := false }

/-- CREATE (07 R196). -/
def execCreate (f : Nat) (a b : W64) (s : State) : Out := oneOp (opOf 1 f a b) s

/-- FORK (07 R197). -/
def execFork (f c : Nat) (a b : W64) (s : State) : Out := oneOp { opOf 2 f a b with c := c } s

/-- PARK. -/
def execPark (f : Nat) (a b : W64) (s : State) : Out := oneOp (opOf 3 f a b) s

/-- UNPARK. -/
def execUnpark (f : Nat) (a b : W64) (s : State) : Out := oneOp (opOf 4 f a b) s

/-- RETIRE. -/
def execRetire (f : Nat) (a b : W64) (s : State) : Out := oneOp (opOf 5 f a b) s

/-- SET of a future's fields. -/
def execSetFuture (f : Nat) (a b : W64) (s : State) : Out := oneOp (opOf 6 f a b) s

/-- TRUNCATE. -/
def execTruncate (f : Nat) (a b : W64) (s : State) : Out := oneOp (opOf 7 f a b) s

/-- SHIFT. -/
def execShift (f : Nat) (a b : W64) (s : State) : Out := oneOp (opOf 8 f a b) s

/-- SETUSER. -/
def execSetuser (f : Nat) (a b : W64) (s : State) : Out := oneOp (opOf 9 f a b) s

/-! ## Commit (07 R200 to R202) -/

/-- A committed step that advances its future (07 R200, R201, R203, R204). -/
def advanceFuture (f : Nat) (s : State) : State :=
  let e := futureOf s f
  let wb := writeBank s f e
  let s := releaseBorrow f s
  let e := futureOf s f
  let s := setFuture s f
    { e with length := e.length + e.pending, pending := 0, steps := e.steps + 1, stateRead := e.stateWrite,
             stateWrite := bankUda s f (1 - wb), readBank := wb, source := f, borrowed := false }
  let e := futureOf s f
  let s := if e.window ≠ 0 ∧ e.window < e.pages.length then shiftPages f (e.pages.length - e.window) s else s
  settleLent f s

/-- A step committed without advancing (07 R202): prepared tokens are dropped. -/
def dropPending (f : Nat) (s : State) : State := setFuture s f { futureOf s f with pending := 0 }

end Sys2Proof.Machine
end

