-- ==== Sys2Proof/Machine/Bound.lean ====
section
/-! DEFINITION. Values of the elementary functions in fixed point, far finer than FP32, and the bound of a result in
units in the last place (04 R97, Tables VEC-4 and VEC-6; 09 R269). -/

namespace Sys2Proof.Machine

/-! ## Fixed-point values -/

/-- Bits after the point. -/
def expBits : Nat := 320

/-- One in fixed point. -/
def fixOne : Nat := 2 ^ expBits

/-- 1 + x(1 + x/2(1 + x/3(…))) in fixed point, from term `n` on. -/
def expTaylor (x : Nat) : Nat → Nat → Nat
  | 0, _ => 2 ^ expBits
  | fuel + 1, n => 2 ^ expBits + x * expTaylor x fuel (n + 1) / (n * 2 ^ expBits)

/-- The value squared `k` times in fixed point. -/
def expSquare : Nat → Nat → Nat
  | 0, v => v
  | k + 1, v => expSquare k (v * v / 2 ^ expBits)

/-- e^(m × 2^e) in fixed point, for an argument below 128: reduced by 2^16, summed, and squared back. The error lies
far below the distance of any FP32 argument's exponential from a rounding boundary. -/
def expFixed (m : Nat) (e : Int) : Nat :=
  let x : Nat := if 0 ≤ e + expBits - 16 then m * 2 ^ (e + expBits - 16).toNat else m / 2 ^ (16 - expBits - e).toNat
  expSquare 16 (expTaylor x 60 1)

/-- e^x; arguments beyond ±512 are taken at ±512, where every FP32 result is 0 or an infinity. -/
def fixExp (x : Int) : Nat :=
  let a := min x.natAbs (512 * fixOne)
  let v := expSquare 16 (expTaylor (a / 2 ^ 16) 60 1)
  if 0 ≤ x then v else fixOne * fixOne / v

/-- 1/n + z(1/(n + 2) + z(…)), for the series of atanh in z = the square of its argument. -/
def atanhTail (z : Nat) : Nat → Nat → Nat
  | 0, _ => 0
  | fuel + 1, n => fixOne / n + z * atanhTail z fuel (n + 2) / fixOne

/-- ln y for y from 1 to 2, as 2 atanh((y − 1) / (y + 1)). -/
def fixLnUnit (y : Nat) : Nat :=
  let t := (y - fixOne) * fixOne / (y + fixOne)
  2 * (t * atanhTail (t * t / fixOne) 110 1 / fixOne)

/-- ln 2. -/
def fixLn2 : Nat := fixLnUnit (2 * fixOne)

/-- ln x of a positive value. -/
def fixLn (x : Nat) : Int :=
  let k : Int := (Nat.log2 x : Int) - expBits
  let y := if 0 ≤ k then x / 2 ^ k.toNat else x * 2 ^ (-k).toNat
  (fixLnUnit y : Int) + k * fixLn2

/-- A magnitude with a sign. -/
def fixSigned (neg : Bool) (n : Nat) : Int := if neg then -(n : Int) else n

/-- 1 / (1 + e^−x). -/
def fixSigmoid (x : Int) : Nat := fixOne * fixOne / (fixOne + fixExp (-x))

/-- A product of a signed value with a value. -/
def fixMul (x : Int) (y : Nat) : Int := fixSigned (decide (x < 0)) (x.natAbs * y / fixOne)

/-- tanh x. -/
def fixTanh (x : Int) : Int :=
  let v := fixExp (2 * x.natAbs : Nat)
  fixSigned (decide (x < 0)) ((v - fixOne) * fixOne / (v + fixOne))

/-- 0.5x(1 + tanh(0.797 884 56 (x + 0.044 715 x³))), with 0.5(1 + tanh u) = 1 / (1 + e^−2u). -/
def fixGelu (x : Int) : Int :=
  let a := x.natAbs
  let cube := a * a / fixOne * a / fixOne
  let u := (a + cube * 44715 / 1000000) * 79788456 / 100000000
  fixMul x (fixSigmoid (fixSigned (decide (x < 0)) (2 * u)))

/-- ln(1 + e^x). -/
def fixSoftplus (x : Int) : Int := if 512 * (fixOne : Int) < x then x else fixLn (fixOne + fixExp x)

/-- A finite FP32 value; none for NaN and infinities. -/
def fixOf32 (a : F32) : Option Int :=
  match flOf32 a with
  | .num n m e => some (fixSigned n (m * 2 ^ (e + expBits).toNat))
  | _ => none

/-- The exact value of a vector function of Table VEC-4 by its opcode: none where it is not defined. -/
def vectorExact (op : Nat) (x : Int) : Option Int :=
  match op with
  | 0x11 => if x = 0 then none else some (fixSigned (decide (x < 0)) (fixOne * fixOne / x.natAbs))
  | 0x13 => if x ≤ 0 then none else some (Nat.sqrt (fixOne * fixOne * fixOne / x.natAbs) : Nat)
  | 0x14 => some (fixExp (fixMul (max (-512 * (fixOne : Int)) (min x (512 * fixOne))) fixLn2))
  | 0x15 => if x ≤ 0 then none else some (fixLn x.toNat * fixOne / fixLn2)
  | 0x16 => some (fixExp x)
  | 0x17 => if x ≤ 0 then none else some (fixLn x.toNat)
  | 0x18 => some (fixTanh x)
  | 0x19 => some (fixSigmoid x)
  | 0x1A => some (fixMul x (fixSigmoid x))
  | 0x1B => some (fixGelu x)
  | 0x1C => some (fixSoftplus x)
  | _ => none

/-- The accuracy column of Table VEC-4, in units in the last place. -/
def vectorUlps (op : Nat) : Nat :=
  match op with
  | 0x11 | 0x13 => 1
  | 0x14 | 0x15 => 2
  | 0x16 | 0x17 | 0x18 | 0x19 => 3
  | _ => 4

/-- The exact value of a gate function of Table VEC-6 by its code. -/
def gateExact (code : Nat) (x : Int) : Option Int :=
  match code with
  | 1 => some (fixSigmoid x)
  | 2 => some (fixTanh x)
  | 3 => some (fixMul x (fixSigmoid x))
  | 4 => some (fixSoftplus x)
  | 5 => some (fixSigmoid (-x))
  | 6 => some (fixExp (-x))
  | 8 => some (fixGelu x)
  | _ => none

/-! ## Results within a bound -/

/-- More than the error of any fixed-point value here, and far less than a unit in the last place of its FP32 result. -/
def fixSlack (v : Nat) : Nat := v / 2 ^ 100 + 2 ^ 120

/-- The unit in the last place of a magnitude: 2^−149 below the FP32 normal range (04 R97). -/
def fixUlp (v : Nat) : Nat := 2 ^ ((max ((Nat.log2 v : Int) - expBits) (-126) - 23 + expBits).toNat)

/-- `y` lies within `n` units in the last place of `v`; an infinity counts as the first value beyond the range. -/
def withinUlps (n : Nat) (v : Int) (y : F32) : Bool :=
  let room := n * fixUlp (v.natAbs + fixSlack v.natAbs) + fixSlack v.natAbs
  match flOf32 y with
  | .nan => false
  | .inf neg => decide (neg = decide (v < 0)) && decide (2 ^ 128 * fixOne ≤ v.natAbs + room)
  | .num neg m e => decide ((fixSigned neg (m * 2 ^ (e + expBits).toNat) - v).natAbs ≤ room)

/-- A result that the manual bounds: the free value `y` where it lies within `n` units in the last place of the exact
value, else that value rounded; a free value where there is no exact value. -/
def boundedResult (n : Nat) (v : Option Int) (y : F32) : F32 :=
  match v with
  | none => y
  | some v => if withinUlps n v y then y else toF32 .nearest (.num (decide (v < 0)) v.natAbs (-(expBits : Int)))

end Sys2Proof.Machine
end

