-- ==== Sys2Proof/Machine/Codec.lean ====
section
/-! DEFINITION. Fixed-rate coded tensors (05): block and scale addresses, tables, the expander and the encoder, as
functions of bytes. -/

namespace Sys2Proof.Machine

/-! ## Budgets and addresses (05 R121, R122) -/

/-- Bytes E of an element block for a format at a rate (05 Table CMP-1). -/
def blockBytes (code rate : Nat) : Nat := (fmtOf code).w * ([24, 16, 12, 8].getD rate 0)

/-- Bytes S of a scale block (05 Table CMP-1); none for BF16 and FP32. -/
def scaleBytes (code rate : Nat) : Nat := if isMx code then [192, 128, 96, 64].getD rate 0 else 0

/-- Bytes C of a chunk (05 R122). -/
def chunkBytes (code rate : Nat) : Nat := 32 * blockBytes code rate + scaleBytes code rate

/-- Bytes of a tensor of `n` element blocks (05 R122). -/
def tensorBytes (code rate n : Nat) : Nat := ceilDiv n 32 * chunkBytes code rate

/-- Offset of element block `j` and of its scale block from the tensor's base (05 R122). -/
def blockAt (code rate j : Nat) : Nat := j / 32 * chunkBytes code rate + j % 32 * blockBytes code rate
def scaleBlockAt (code rate j : Nat) : Nat := j / 32 * chunkBytes code rate + 32 * blockBytes code rate

/-! ## Tables (05 R128, R129) -/

/-- An entry of a table: its number (64 for the escape), code length, and what it stands for. -/
structure TabEntry where
  index : Nat
  len : Nat
  run : Nat
  neg : Bool
  pat : Nat
  code : Nat
  deriving DecidableEq, Repr

/-- A table read from its image: format, loss alarm, entries with canonical codes. -/
structure Tab where
  fmt : Nat
  alarm : Bool
  entries : List TabEntry
  deriving DecidableEq, Repr

/-- A 64-bit word of an image. -/
def imgWord (bs : List Byte) (off : Nat) : Nat := leValue ((bs.drop off).take 8)

/-- Entry `i` of an image; `none` when it is unused. -/
def entryAt (bs : List Byte) (i : Nat) : Option TabEntry :=
  let w := imgWord bs (8 + 8 * i)
  let len := bits w 63 59
  if len = 0 then none
  else some { index := i, len := len, run := if bitAt w 58 then bits w 40 32 else 0, neg := bitAt w 31,
              pat := bits w 30 0, code := 0 }

/-- Used entries of an image, the escape as entry 64, in canonical order: by length, then by number (05 R128). -/
def usedEntries (bs : List Byte) : List TabEntry :=
  let es := (List.range 64).filterMap (entryAt bs)
  let esc := bits (imgWord bs 520) 63 59
  let es := if esc = 0 then es
    else es ++ [{ index := 64, len := esc, run := 0, neg := false, pat := 0, code := 0 }]
  (List.range 31).flatMap fun l => es.filter fun e => decide (e.len = l + 1)

/-- Canonical codes along a sorted list (05 R128). -/
def assignCodes : Nat → Nat → List TabEntry → List TabEntry
  | _, _, [] => []
  | next, len, e :: es =>
    let c := next * 2 ^ (e.len - len)
    { e with code := c } :: assignCodes (c + 1) e.len es

/-- An image is invalid in a case of 05 R129. -/
def imageInvalid (bs : List Byte) : Bool :=
  let w0 := imgWord bs 0
  let code := bits w0 2 0
  let word (i : Nat) : Nat := imgWord bs (8 + 8 * i)
  let used := usedEntries bs
  let sum : Nat := used.foldl (fun (n : Nat) e => n + 2 ^ (32 - e.len)) 0
  let badEntry (i : Nat) : Bool :=
    let w := word i
    if bits w 63 59 = 0 then decide (w ≠ 0)
    else
      decide (16 < bits w 63 59) || decide (bits w 57 41 ≠ 0) ||
        (if bitAt w 58 then decide (bits w 40 32 < 2 ∨ 256 < bits w 40 32) || decide (bits w 31 0 ≠ 0)
         else decide (bits w 40 32 ≠ 0) || decide (2 ^ ((fmtOf code).w - 1) ≤ bits w 30 0))
  decide (code = 7) || decide (bits w0 63 9 ≠ 0) || decide (bits w0 7 3 ≠ 0) || decide (2 ^ 32 < sum) ||
    (List.range 64).any badEntry || decide (bits (imgWord bs 520) 58 0 ≠ 0) ||
    decide (16 < bits (imgWord bs 520) 63 59) || decide (used = []) ||
    ((bs.drop 528).take 496).any fun b => decide (b ≠ 0)

/-- The table of an image. -/
def tabOf (bs : List Byte) : Tab :=
  { fmt := bits (imgWord bs 0) 2 0, alarm := bitAt (imgWord bs 0) 8,
    entries := match usedEntries bs with
      | [] => []
      | e :: es => assignCodes 0 e.len (e :: es) }

/-- The table allows escapes (05 R128). -/
def allowsEscapes (t : Tab) : Bool := t.entries.any fun e => decide (e.index = 64)

/-! ## The expander (05 R124 to R127, R133, R143) -/

/-- The payload as one number of `p` bits, stream bit 0 the most significant (05 R125). -/
def streamNat (bs : List Byte) : Nat := bs.foldl (fun n b => n * 256 + b.toNat) 0

/-- `n` stream bits from `pos` of a stream of `p` bits; bits past the end read 0. -/
def streamBits (st p pos n : Nat) : Nat :=
  if pos + n ≤ p then (st >>> (p - pos - n)) % 2 ^ n
  else (st * 2 ^ (pos + n - p)) % 2 ^ n

/-- A literal of `w − s` bits as an element pattern (05 R127). -/
def literalOf (f : Fmt) (s x : Nat) : Nat :=
  if s = 0 then x
  else
    let qBits := f.w - 1 - s
    (if 2 ^ qBits ≤ x then 2 ^ (f.w - 1) else 0) + min (x % 2 ^ qBits * 2 ^ s) f.maxPat

/-- A decoded block: patterns, scales of its groups, its malformed case of 05 Table CMP-7, and whether it left the fast
path (R141). -/
structure Decoded where
  values : List Nat
  scales : List Nat
  bad : Option Nat
  slow : Bool
  deriving DecidableEq, Repr

/-- The loop of 05 R126: output so far (reversed), escapes so far. -/
def tableLoop (f : Fmt) (t : Tab) (s st p : Nat) : Nat → Nat → List Nat → Nat → Except Nat (List Nat × Nat)
  | 0, _, _, _ => .error 1
  | fuel + 1, pos, out, escs =>
    if 256 ≤ out.length then
      (if p < pos then .error 1
       else if streamBits st p pos (p - pos) = 0 then .ok (out.reverse, escs) else .error 2)
    else
      match t.entries.find? fun e => decide (streamBits st p pos e.len = e.code) with
      | none => .error 4
      | some e =>
        let pos := pos + e.len
        if e.index = 64 then
          let x := literalOf f s (streamBits st p pos (f.w - s))
          if p < pos + (f.w - s) then .error 1
          else tableLoop f t s st p fuel (pos + (f.w - s)) (x :: out) (escs + 1)
        else if e.run ≠ 0 ∧ 256 < out.length + e.run then .error 3
        else if p < pos then .error 1
        else if e.run ≠ 0 then tableLoop f t s st p fuel pos (List.replicate e.run 0 ++ out) escs
        else tableLoop f t s st p fuel pos ((e.pat + if e.neg then 2 ^ (f.w - 1) else 0) :: out) escs

/-- The values of an element block (05 R124 to R127): the patterns and the escape count, or the malformed case. -/
def expandBlock (code : Nat) (tabs : Nat → Option Tab) (bs : List Byte) : Except Nat (List Nat × Nat) :=
  let f := fmtOf code
  let h := leValue (bs.take 2)
  let p := 8 * bs.length - 16
  let st := streamNat (bs.drop 2)
  let t := bits h 15 8
  let s := bits h 7 3
  let l := bitAt h 2
  let z := bitAt h 1
  let n := bitAt h 0
  let modes := (if l then 1 else 0) + (if z then 1 else 0) + (if n then 1 else 0)
  if 1 < modes ∨ (modes ≠ 0 ∧ t ≠ 0) ∨ ((z ∨ n) ∧ s ≠ 0) ∨ (n ∧ isMx code) ∨ f.w ≤ s then .error 5
  else if z ∨ n then
    (if st ≠ 0 then .error 2
     else if z then .ok (List.replicate 256 0, 0)
     else .ok (List.replicate 256 (if code = 1 then 0x7FC0 else 0x7FC00000), 0))
  else if l then
    let k := f.w - s
    if p < 256 * k then .error 1
    else if streamBits st p (256 * k) (p - 256 * k) ≠ 0 then .error 2
    else .ok ((List.range 256).map fun i => literalOf f s (streamBits st p (i * k) k), 0)
  else
    match tabs t with
    | none => .error 6
    | some tab => if tab.fmt ≠ code then .error 6 else tableLoop f tab s st p 258 0 [] 0

/-- The width k of a δ field (05 Table CMP-5). -/
def deltaBits (rate : Nat) : Nat := [5, 3, 2, 1].getD rate 1

/-- The scales of the groups of entry `j` of a scale block (05 R133); `none` when a finite scale is below 0. -/
def scalesOf (rate : Nat) (bs : List Byte) (j : Nat) : Option (List Nat) :=
  let k := deltaBits rate
  let w := 8 + 8 * k
  let entry := (leValue bs >>> (w * j)) % 2 ^ w
  let b := entry % 256
  let d (g : Nat) : Nat := bits entry (8 + k * (g + 1) - 1) (8 + k * g)
  if b = 0xFF then some (List.replicate 8 0xFF)
  else if (List.range 8).any fun g => decide (d g ≠ 2 ^ k - 1 ∧ b < d g) then none
  else some ((List.range 8).map fun g => if d g = 2 ^ k - 1 then 0xFF else b - d g)

/-- Block `j` of a coded tensor whose bytes `rd` reads by offset (05 R126, R133, R143). -/
def decodeBlock (code rate : Nat) (tabs : Nat → Option Tab) (rd : Nat → Nat → List Byte) (j : Nat) : Decoded :=
  let zeros (case : Nat) : Decoded :=
    { values := List.replicate 256 0, scales := List.replicate 8 127, bad := some case, slow := false }
  let scales := if isMx code
    then scalesOf rate (rd (scaleBlockAt code rate j) (scaleBytes code rate)) (j % 32)
    else some (List.replicate 8 127)
  match expandBlock code tabs (rd (blockAt code rate j) (blockBytes code rate)), scales with
  | .error case, _ => zeros case
  | .ok _, none => zeros 7
  | .ok (vs, escs), some sc => { values := vs, scales := sc, bad := none, slow := decide (32 < escs) }

/-- The exact values of a decoded block. -/
def decodedValues (code : Nat) (d : Decoded) : List Fl :=
  (List.range 256).map fun i => scaledElement code (d.values.getD i 0) (d.scales.getD (i / 32) 127)

/-! ## The encoder (05 R135 to R140) -/

/-- The run entry that the encoder takes for a run of `r` zeros (05 R136). -/
def bestRun (t : Tab) (r : Nat) : Option TabEntry :=
  (t.entries.filter fun e => decide (e.index < 64) && decide (2 ≤ e.run) && decide (e.run ≤ r)).foldl
    (fun b e => match b with
      | none => some e
      | some b => if b.run < e.run ∨ (b.run = e.run ∧ e.index < b.index) then some e else some b) none

/-- The distance of two patterns. -/
def patDist (a b : Nat) : Nat := (a - b) + (b - a)

/-- The value entry that the encoder takes for a sign and pattern at step shift `s` (05 R136). -/
def bestValue (t : Tab) (s : Nat) (neg : Bool) (pat : Nat) : Option TabEntry :=
  let near := if s = 0 then 0 else 2 ^ (s - 1)
  (t.entries.filter fun e =>
    decide (e.index < 64) && decide (e.run = 0) && (e.neg == neg) && decide (patDist e.pat pat ≤ near)).foldl
    (fun b e => match b with
      | none => some e
      | some b =>
        if patDist e.pat pat < patDist b.pat pat ∨ (patDist e.pat pat = patDist b.pat pat ∧ e.index < b.index)
        then some e else some b) none

/-- An element is in the zero class at step shift `s` (05 R136). -/
def zeroClass (f : Fmt) (s x : Nat) : Bool :=
  if s = 0 then decide (x = 0) else decide (x % 2 ^ (f.w - 1) < 2 ^ (s - 1))

/-- Length of the leading run of the zero class. -/
def zeroRun (f : Fmt) (s : Nat) : List Nat → Nat
  | [] => 0
  | x :: xs => if zeroClass f s x then 1 + zeroRun f s xs else 0

/-- A literal's bits for an element at step shift `s` (05 R136). -/
def literalBits (f : Fmt) (s x : Nat) : Nat :=
  if s = 0 then x
  else if zeroClass f s x then 0
  else
    let m := x % 2 ^ (f.w - 1)
    let q := min ((m + 2 ^ (s - 1)) / 2 ^ s) (2 ^ (f.w - 1 - s) - 1)
    (if 2 ^ (f.w - 1) ≤ x then 2 ^ (f.w - 1 - s) else 0) + q

/-- The codes and literals of table mode, each with its length (05 R136); `none` when the block is unfit. -/
def tableCodes (f : Fmt) (t : Tab) (s : Nat) : Nat → List Nat → Option (List (Nat × Nat))
  | 0, _ => some []
  | _ + 1, [] => some []
  | fuel + 1, x :: xs =>
    let z := zeroClass f s x
    let run := if z then bestRun t (zeroRun f s (x :: xs)) else none
    match run with
    | some e => (tableCodes f t s fuel ((x :: xs).drop e.run)).map ((e.code, e.len) :: ·)
    | none =>
      let neg := !z && decide (2 ^ (f.w - 1) ≤ x)
      let pat := if z then 0 else x % 2 ^ (f.w - 1)
      match bestValue t s neg pat with
      | some e => (tableCodes f t s fuel xs).map ((e.code, e.len) :: ·)
      | none =>
        match t.entries.find? fun e => decide (e.index = 64) with
        | some e => (tableCodes f t s fuel xs).map fun r => (e.code, e.len) :: (literalBits f s x, f.w - s) :: r
        | none => none

/-- The length of a list of codes. -/
def codesLen (cs : List (Nat × Nat)) : Nat := (cs.map (·.2)).foldl (· + ·) 0

/-- Bytes of a block: header, codes, padding (05 R124, R125). -/
def packBlock (e h : Nat) (cs : List (Nat × Nat)) : List Byte :=
  let p := 8 * e - 16
  let v := cs.foldl (fun n c => n * 2 ^ c.2 + c.1 % 2 ^ c.2) 0 * 2 ^ (p - codesLen cs)
  leBytes h 2 ++ (leBytes v (e - 2)).reverse

/-- An encoded block with what the counters see (05 R137): step shift, last-resort Z block, N block. -/
structure Encoded where
  bytes : List Byte
  shift : Nat
  lastZ : Bool
  nanBlock : Bool
  deriving DecidableEq, Repr

/-- The values at step shift `s` of the encoder's loop, and on (05 R136); the fuel is the element's width. -/
def encodeFrom (code rate t : Nat) (tab : Option Tab) (xs : List Nat) : Nat → Nat → Encoded
  | 0, _ => { bytes := packBlock (blockBytes code rate) 2 [], shift := 0, lastZ := true, nanBlock := false }
  | fuel + 1, s =>
    let f := fmtOf code
    let e := blockBytes code rate
    let p := 8 * e - 16
    let odd := xs.any fun x => !isFinite (flOf f x)
    let last : Encoded :=
      if odd then { bytes := packBlock e 1 [], shift := 0, lastZ := false, nanBlock := true }
      else { bytes := packBlock e 2 [], shift := 0, lastZ := true, nanBlock := false }
    if 0 < s ∧ odd then last
    else
      let codes := match tab with
        | some tb => tableCodes f tb s 257 xs
        | none => none
      let bl := 256 * (f.w - s)
      match codes with
      | some cs =>
        if codesLen cs ≤ bl ∧ codesLen cs ≤ p then
          { bytes := packBlock e (t * 256 + s * 8) cs, shift := s, lastZ := false, nanBlock := false }
        else if bl ≤ p then
          { bytes := packBlock e (s * 8 + 4) (xs.map fun x => (literalBits f s x, f.w - s)), shift := s,
            lastZ := false, nanBlock := false }
        else if s + 1 < f.w then encodeFrom code rate t tab xs fuel (s + 1) else last
      | none =>
        if bl ≤ p then
          { bytes := packBlock e (s * 8 + 4) (xs.map fun x => (literalBits f s x, f.w - s)), shift := s,
            lastZ := false, nanBlock := false }
        else if s + 1 < f.w then encodeFrom code rate t tab xs fuel (s + 1) else last

/-- An element block coded with a table (05 R136); `tab` is none when the table is invalid or of another format
(R140). -/
def encodeBlock (code rate t : Nat) (tab : Option Tab) (xs : List Nat) : Encoded :=
  if xs.all (· == 0) then
    { bytes := packBlock (blockBytes code rate) 2 [], shift := 0, lastZ := false, nanBlock := false }
  else encodeFrom code rate t tab xs (fmtOf code).w 0

/-- The scale entry of a row and the decoded scales of its groups (05 R135): `gs` gives each group's scale of 04 R100,
`none` for a group whose valid values are all zero. The count is of raised groups. -/
def formScales (rate : Nat) (gs : List (Option Nat)) : Nat × List Nat × Nat :=
  let k := deltaBits rate
  let finite := gs.filterMap fun g => match g with
    | some e => if e = 0xFF then none else some e
    | none => none
  let b := match finite with
    | [] => 127
    | e :: es => es.foldl max e
  let d (g : Option Nat) : Nat :=
    match g with
    | none => 0
    | some e => if e = 0xFF then 2 ^ k - 1 else min (b - e) (2 ^ k - 2)
  let raised (g : Option Nat) : Bool :=
    match g with
    | none => false
    | some e => decide (e ≠ 0xFF) && decide (2 ^ k - 2 < b - e)
  let entry := (List.range 8).foldl (fun w g => w + d (gs.getD g none) * 2 ^ (8 + k * g)) b
  (entry, gs.map (fun g => if d g = 2 ^ k - 1 then 0xFF else b - d g), (gs.filter raised).length)

end Sys2Proof.Machine
end

