-- ==== Sys2Proof/Machine/Monitor.lean ====
section
/-! DEFINITION. Certified costs under the derate factor and the deadline monitor (02 R49, R53 to R55, 15
R419, 06 R165). -/

namespace Sys2Proof.Machine

/-- The derate factor in force (0x2E00.07). -/
def derate (s : State) : Nat := getObj s (key 0x2E00 7)

/-- A certified figure as the sluice uses it: ceil(figure × D / 65,536) (15 R419). -/
def scaled (s : State) (x : Nat) : Nat := ceilDiv (x * derate s) 65536

/-- D of R419 for `r` sets out of service and `p` working phases. -/
def derateOf (r p : Nat) : Nat :=
  if 64 ≤ r ∨ p = 0 then 0xFFFFFFFF else ceilDiv (65536 * 64 * 22) ((64 - r) * min p 22)

/-- Tick phase instants in clk from the used edge (02 R37): T is held since the edge. -/
def serveStart : Nat := 17500

/-- Guard band of a period (02 R37). -/
def guardOf (t g : Nat) : Nat := max (t * g / 1000) 12500

/-- Serving end D_s of the tick in progress (02 R37, 0x2201.06). -/
def servingEndAt (s : State) : Nat := getObj s (key 0x2201 6)

/-- The gang's deadline bound b[m] − A_sw (02 R53). -/
def boundOf (gg : Gang) : Nat := gg.cap

/-- Actual clk since S + A_sw (02 R53), which is negative before it. -/
def actualOf (s : State) (gg : Gang) : Int :=
  (s.now : Int) - (s.tick.lastEdge + serveStart + gg.aSw : Nat)

/-- The certified offset c of a checkpoint (06 R165) for a group of `b` entries, with each figure passed through
`f`; `fixed` is C_fix where the group's first entry paid it. -/
def checkpointOffset (f : Nat → Nat) (c : Checkpoint) (b fixed : Nat) : Nat :=
  f c.c0 + f c.c1 * b + (if c.prologue then 0 else f fixed)

/-- The planned offset of a checkpoint on a gang (02 R53): the entry's planned start plus c; for a carried step the
certified clk since its last checkpoint of the tick before, from its place in what was carried (log 13). -/
def plannedAt (s : State) (gg : Gang) (c : Checkpoint) (fixed : Nat) : Nat :=
  (match gg.group with
    | e :: _ => e.planned
    | [] => 0) +
  (match gg.carryRunning, gg.carry with
    | true, some k => scaled s (checkpointOffset id c gg.group.length fixed - k.base)
    | _, _ => checkpointOffset (scaled s) c gg.group.length fixed)

/-- The end of the gang's last entry: its planned start plus its charge (02 R53); with only a carried step on the
gang, that step's remaining cost (log 13). -/
def plannedEnd (s : State) (gg : Gang) : Nat :=
  match gg.entries.getLast? with
  | some e => e.planned + e.charge
  | none =>
    match gg.carry with
    | some k => scaled s k.remaining
    | none => 0

/-- The fallback program of a future can take over an entry on a gang (02 R54). -/
def canSwitch (s : State) (gg : Gang) (e : WorkEntry) : Bool :=
  let f := futureOf s e.future
  let q := dirOf s f.fallback
  !e.fallback && !e.dropped && f.fallbackEligible && available s f.fallback &&
    decide (q.pondCount = gg.members.length) && decide (q.cStep < (dirOf s e.program).cStep)

/-- An entry switched to its future's fallback program, with what it pays for that program's fixed cost: beside the flag
of R54 its program number, first flag and charge follow the program that it now runs (DESIGN CHOICE, log 56). -/
def switchEntry (s : State) (gg : Gang) (e : WorkEntry) : WorkEntry :=
  let q := (futureOf s e.future).fallback
  let fix := if q ∈ gg.charged then 0 else scaled s (dirOf s q).cFix
  { e with program := q, fallback := true, switched := true, first := decide (q ∉ gg.charged),
           charge := scaled s (dirOf s q).cStep + fix }

/-- Entries with their planned starts laid end to end from a start (DESIGN CHOICE, log 56). -/
def replan (start : Nat) : List WorkEntry → List WorkEntry
  | [] => []
  | e :: es => { e with planned := start } :: replan (start + e.charge) es

/-- The switching of R54 over the entries from index `i − 1` down to `low`, while the projected finish `f` exceeds
the bound: the gang, the projected finish and the futures switched. -/
def switchDown (s : State) (low : Nat) : Nat → Gang → Int → List Nat → Gang × Int × List Nat
  | 0, gg, f, n => (gg, f, n)
  | i + 1, gg, f, n =>
    if f ≤ (boundOf gg : Int) ∨ i < low then (gg, f, n)
    else
      match gg.entries[i]? with
      | none => switchDown s low i gg f n
      | some e =>
        if canSwitch s gg e then
          let e' := switchEntry s gg e
          let drop : Int := (scaled s (dirOf s e.program).cStep : Int) - (scaled s (dirOf s e'.program).cStep : Int)
          let fix : Int := if e'.program ∈ gg.charged then 0 else (scaled s (dirOf s e'.program).cFix : Int)
          let gg' := { gg with entries := gg.entries.set i e',
                               charged := if e'.program ∈ gg.charged then gg.charged
                                          else e'.program :: gg.charged }
          switchDown s low i gg' (f - drop + fix) (n ++ [e.future])
        else switchDown s low i gg f n

/-! ## The work list in memory (02 R52) -/

/-- First entry of a work-list bank. -/
def workEntries (tick : Nat) : Nat := 0xFF02AB200000 + tick % 2 * 540672 + 16384

/-- The words of a work-list entry (02 Table TCK-7). -/
def workWords (g : Nat) (e : WorkEntry) : List Byte :=
  let b (x : Bool) (n : Nat) : Nat := if x then 2 ^ n else 0
  leBytes (e.position * 2 ^ 40 + g * 2 ^ 32 + b e.first 25 + b e.fallback 24 + e.program * 2 ^ 16 + e.future) 8 ++
    leBytes (e.planned % 2 ^ 32 * 2 ^ 32 + e.charge % 2 ^ 32) 8

/-- A gang's entries written into the bank of the tick in progress. -/
def writeEntries (g : Nat) (s : State) : State :=
  let gg := gangOf s g
  deviceWrite s (workEntries (tickNumber s) + 16 * gg.firstIndex) (gg.entries.flatMap (workWords g))

/-- A step counted at the basin to which its future is bound and at every ancestor (01 R27). -/
def countStep (f sub : Nat) (s : State) : State :=
  forEach (ancestors s.tree (futureOf s f).basin) (fun b s => addObj s (key (0x5000 + b) sub) 1) s

/-- Switch events counted (02 R55: 0x2204.02, 0x50bb.0B). -/
def countSwitches (fs : List Nat) (s : State) : State :=
  forEach fs (fun f s => countStep f 0xB s) (addObj s (key 0x2204 2) fs.length)

/-! ## Checkpoints -/

/-- The monitor acts from S until D_s (02 Table TCK-2). -/
def monitorActive (s : State) : Bool :=
  s.tick.latched && !s.tick.committed && decide (s.tick.lastEdge + serveStart ≤ s.now) &&
    decide (s.now < s.tick.lastEdge + servingEndAt s)

/-- A checkpoint of rank 0 at command `cmd`, index `idx` of its section (02 R53, R54, 06 R177). Switched entries are laid
end to end again behind the fetched ones. -/
def checkpointAt (g ph idx : Nat) (cmd : Cmd) (s : State) : State :=
  let gg := gangOf s g
  let pd := pondOf s ph
  match pd.core.sect with
  | none => s
  | some sec =>
    if sec.kind = .background ∨ sec.kind = .error then s
    else
      match residentOf pd sec.program with
      | none => s
      | some r =>
        match r.image.checkpoints.find? fun c =>
            decide (c.index = idx) && decide (c.prologue = decide (sec.kind = .prologue)) with
        | none => s
        | some c =>
          let fixed := match gg.group with
            | e :: _ => if e.first then r.image.cFix else 0
            | [] => 0
          let gg := { gg with offset := checkpointOffset id c gg.group.length fixed }
          let s := setGang s g gg
          if !monitorActive s then s
          else
            let planned := plannedAt s gg c fixed
            let a := actualOf s gg
            let f : Int := a + ((plannedEnd s gg : Int) - planned)
            let late : Int := a - planned
            let s := addObj s (key 0x2204 1) 1
            let s := if signedOf 32 (getObj s (key 0x2204 3)) < late
              then setObj s (key 0x2204 3) (fieldOf 32 late) else s
            let s := traceInfo ph 0x0003 1 (tagOf cmd) (classOf cmd) (fieldOf 32 a + planned % 2 ^ 32 * 2 ^ 32) (some sec.program) s
            if f ≤ (boundOf gg : Int) then s
            else
              let (gg', f', fs) := switchDown s gg.next gg.entries.length gg f []
              let start := match gg'.entries with
                | e :: _ => e.planned
                | [] => 0
              let s := writeEntries g (setGang s g { gg' with entries := replan start gg'.entries })
              let s := countSwitches fs s
              if (boundOf gg' : Int) < f' then addObj s (key 0x2204 4) 1 else s

end Sys2Proof.Machine
end

