-- ==== Sys2Proof/Machine/Control.lean ====
section
/-! DEFINITION. The control core (06 R149 to R162, R177, R182, R183, R481): fetch, patching, the push into an
engine queue, and the control commands. -/

namespace Sys2Proof.Machine

/-! ## Fields of a control command (06 Table CMD-6) -/

def fieldD (c : Cmd) : Nat := bits c.w1.toNat 63 56
def fieldA (c : Cmd) : Nat := bits c.w1.toNat 55 48
def fieldB (c : Cmd) : Nat := bits c.w1.toNat 47 40
def fieldImm (c : Cmd) : Bool := bitAt c.w1.toNat 39
def fieldFunc (c : Cmd) : Nat := bits c.w1.toNat 38 32
def fieldN (c : Cmd) : Nat := bits c.w1.toNat 30 28
def fieldLoop (c : Cmd) : Nat := bits c.w1.toNat 27 24
def fieldTarget (c : Cmd) : Nat := bits c.w1.toNat 15 0

/-- Y: P[b], or word 2 when the command selects it (06 R160). -/
def operandY (k : Core) (c : Cmd) : W64 := if fieldImm c then c.w2 else getParam k (fieldB c)

/-! ## Fetch -/

/-- The breakpoint comparators that match a tag on a logical pond (16 R455). -/
def hitBreakpoints (s : State) (l tag : Nat) : List Nat :=
  (List.range 8).filter fun i =>
    let b := mapFind Breakpoint.off s.debugPort.brk i
    b.enabled && (decide (b.pond = 0xFF) || decide (b.pond = l)) && decide ((tag &&& b.mask) = (b.value &&& b.mask))

/-- A pond halts before its next command (16 R454): it is halting (1) until its pushed commands have completed (2). -/
def haltPond (ph : Nat) (s : State) : State :=
  let s := modPond s ph fun pd => { pd with halt := some (pd.halt.getD 1), haltedAt := if pd.halt.isSome then pd.haltedAt else s.now }
  { s with tick := { s.tick with haltSeen := true } }

/-- Every member of a gang halts (16 R454, R455). -/
def haltGang (l : Nat) (s : State) : State :=
  forEach (gangMembers s l) (fun m s => if physOf s m = 0xFF then s else haltPond (physOf s m) s) s

/-- The core may fetch: a section is in progress, no exit, stall, halt or stop holds it (06 R152, R179, 13 R364,
16 R454). -/
def canFetch (pd : Pond) : Bool :=
  pd.core.sect.isSome && pd.core.exiting.isNone && pd.core.stalled.isNone && pd.core.stopped.isNone &&
    (pd.halt.isNone || pd.stepping)

/-- The command at the core's fetch point, with its section and program. -/
def fetchPoint (pd : Pond) : Option (Section × Resident × Cmd) :=
  match pd.core.sect with
  | none => none
  | some sec =>
    match residentOf pd sec.program with
    | none => none
    | some r =>
      match r.code[sec.pc]? with
      | none => none
      | some c => some (sec, r, c)

/-- The pond with its section at another command index. -/
def setPc (pc : Nat) (pd : Pond) : Pond :=
  { pd with core := { pd.core with sect := pd.core.sect.map fun x => { x with pc := pc, progress := 0, waiting := none } }, stepping := false }

/-- What a fetch yields beside a command: the fetch stops here. -/
def isCheap (c : Cmd) : Bool := bitAt c.w0.toNat 50

/-- A rank stops at a cheap point (13 R364). -/
def cheapStops (s : State) (l : Nat) (sec : Section) (c : Cmd) : Bool :=
  isCheap c && decide (sec.kind = .background) &&
    (match runOf s (rank0Of s l) with
     | some r => r.stopAt.isSome
     | none => false)

/-- The core goes on with a control command that had started when a forced stop came: it ends before the save (13 R364). -/
def endsStarted (pd : Pond) : Bool :=
  pd.core.stopped.isSome && decide (pd.core.stopKind = 2) && pd.core.exiting.isNone &&
    (match pd.core.sect with
     | some sec => decide (2 ≤ sec.progress)
     | none => false)

/-- The marks that a fetch leaves before its command executes (06 R177, R183, 16 R455, 13 R364): `none` when the
command may go on, else the state in which the fetch ended. `ecc` says what the fetch met: 0 no error, 1 a
single-bit error, 2 a double-bit error. -/
def fetchEnds (l ph ecc : Nat) (sec : Section) (c : Cmd) (s : State) : Option State :=
  let pd := pondOf s ph
  let hits := hitBreakpoints s l (tagOf c)
  if hits ≠ [] ∧ pd.unhalted ≠ sec.pc + 1 then
    let bump (m : NMap Breakpoint) (i : Nat) : NMap Breakpoint :=
      mapModify Breakpoint.off m i fun b => { b with hits := b.hits + 1 }
    let s := { s with debugPort := { s.debugPort with brk := hits.foldl bump s.debugPort.brk } }
    let gang := hits.any fun i => (mapFind Breakpoint.off s.debugPort.brk i).gang
    some (if gang then haltGang l s else haltPond ph s)
  else if cheapStops s l sec c then
    some (modPond s ph fun pd => { pd with core := { pd.core with stopped := some sec.pc, stopKind := 0 } })
  else if ecc = 2 then
    let s := modPond s ph fun pd =>
      let mark (r : Resident) : Resident :=
        if r.image.number = sec.program then { r with damaged := sec.pc :: r.damaged } else r
      { pd with banks := mapPut [] pd.banks pd.core.activeBank ((activePrograms pd).map mark) }
    let s := traceFault ph 0x0014 (tagOf c) (classOf c) (sec.pc % 1024 * 2 ^ 16) (addObj s (key 0x2601 0xC) 1)
    some (startExit ph 0x07 (markOf c) s)
  else none

/-- The effects of a fetch that goes on: a corrected error counted (06 R183), a checkpoint of rank 0 evaluated
(06 R177). -/
def fetchMarks (l ph ecc : Nat) (sec : Section) (c : Cmd) (s : State) : State :=
  let s := if ecc = 1
    then traceFault ph 0x0014 (tagOf c) (classOf c) (1 + sec.pc % 1024 * 2 ^ 16) (addObj s (key 0x2601 0xB) 1) else s
  let s := if bitAt c.w0.toNat 51 && decide (rankIn s l = 0)
    then checkpointAt l ph sec.pc c s else s
  modPond s ph fun pd => { pd with unhalted := 0 }

/-! ## The wait and signal fields (06 Table CMD-2, R153) -/

def waits (c : Cmd) : Bool := bitAt c.w0.toNat 49
def waitCounter (c : Cmd) : Nat := bits c.w0.toNat 47 43
def waitCount (c : Cmd) : Nat := bits c.w0.toNat 42 40 + 1
def signals (c : Cmd) : Bool := bitAt c.w0.toNat 48
def signalCounterOf (c : Cmd) : Nat := bits c.w0.toNat 39 35
def signalCount (c : Cmd) : Nat := bits c.w0.toNat 34 32 + 1

/-- A command's wait is satisfied (06 R153). -/
def waitMet (pd : Pond) (c : Cmd) : Bool :=
  !waits c || decide (waitCount c ≤ getSync pd.core (waitCounter c))

/-- The wait count subtracted as the command starts (06 R153). -/
def takeWait (pd : Pond) (c : Cmd) : Pond :=
  if waits c then
    { pd with core := setSync pd.core (waitCounter c) (getSync pd.core (waitCounter c) - waitCount c) }
  else pd

/-- A counter raised by a signal: at most 65,535; the flag says that the signal overflowed (06 R154). -/
def signalCounter (k : Core) (c n : Nat) : Core × Bool :=
  let v := getSync k c + n
  if 65535 < v then (setSync k c 65535, true) else (setSync k c v, false)

/-- The wait of a pond's section with the command at its fetch point, if one is on. -/
def sectionWait (s : State) (ph : Nat) : Option (Nat × Nat) := (pondOf s ph).core.sect.bind (·.waiting)

/-- A wait on an arrival counter, as `haloNote` notes it (09 R260). -/
def isHaloWait (w : Option (Nat × Nat)) : Bool :=
  match w with
  | some (_, n) => decide (8 ≤ n)
  | none => false

/-- The queue whose waits on arrival counters that are now satisfied have ended (09 R260). -/
def freeHeads (pd : Pond) (q : List Queued) : List Queued :=
  q.map fun x => if isHaloWait x.waiting && waitMet pd x.cmd then { x with waiting := none } else x

/-- The clk of the waits on arrival counters that a signal to a pond has satisfied are counted, and the waits end (09
R260). -/
def endMetWaits (ph : Nat) (s : State) : State :=
  let pd := pondOf s ph
  let met := (pd.queues.flatMap (·.2)).filter fun q => isHaloWait q.waiting && waitMet pd q.cmd
  let own := match fetchPoint pd with
    | some (sec, _, c) => isHaloWait sec.waiting && waitMet pd c
    | none => false
  if met = [] ∧ !own then s
  else
    let s := forEach met (fun q => countWait q.waiting) s
    let s := if own then countWait (sectionWait s ph) s else s
    modPond s ph fun pd =>
      { pd with queues := mapAll [] (freeHeads pd) pd.queues,
                core := if own then { pd.core with sect := pd.core.sect.map fun x => { x with waiting := none } }
                        else pd.core }

/-- The program that a tag names (06 Table CMD-2). -/
def tagProgram (tag : Nat) : Nat := tag / 2 ^ 16 % 256

/-- A pond runs the program that a tag names. -/
def runsProgram (s : State) (ph tag : Nat) : Bool :=
  match (pondOf s ph).core.sect with
  | some sec => decide (sec.program = tagProgram tag)
  | none => false

/-- A signal of command `cmd` of pond `sender` reaches counter `c` of a pond; an overflow takes the signalling program out
with cause 0x03, unless it has ended (06 R154). -/
def signalPond (ph c n sender mark : Nat) (s : State) : State :=
  let (k, big) := signalCounter (pondOf s ph).core c n
  let s := endMetWaits ph (modPond s ph fun pd => { pd with core := k })
  if big then
    let s := addObj s (key 0x2601 9) 1
    if runsProgram s sender mark then startExit sender 0x03 mark s else s
  else s

/-- A completed command signals its counter (06 R153). -/
def signalDone (ph : Nat) (c : Cmd) (s : State) : State :=
  if signals c then signalPond ph (signalCounterOf c) (signalCount c) ph (markOf c) s else s

/-- The section of a pond has come to `n` with the command at its fetch point: 1 fetched, 2 started. No wait of the
command is on. -/
def setProgress (ph n : Nat) (s : State) : State :=
  modCore s ph fun k => { k with sect := k.sect.map fun x => { x with progress := n, waiting := none, began := s.now } }

/-- The section of a pond begins a wait, unless one is on. -/
def waitSection (ph : Nat) (w : Option (Nat × Nat)) (s : State) : State :=
  let r := renewWait (sectionWait s ph) w s
  modCore r.2 ph fun k => { k with sect := k.sect.map fun x => { x with waiting := r.1 } }

/-- The stream whose arrival counter a command waits on, at an open consumer end of the pond (09 R260). -/
def haloStream (pd : Pond) (c : Cmd) : Option Nat :=
  if waits c then
    (pd.streams.find? fun e => e.2.opened && e.2.consumer && decide (e.2.counter = waitCounter c)).map (·.1)
  else none

/-- A control command that waits on an arrival counter has its wait noted (09 R260). -/
def noteControlHalo (l ph : Nat) (c : Cmd) (s : State) : State :=
  match haloStream (pondOf s ph) c with
  | none => s
  | some st => waitSection ph (some (s.now, haloNote l st)) s

/-- The fetch of a control command, once for each command: the state, and whether the command may go on. -/
def fetchControl (l ph ecc : Nat) (sec : Section) (c : Cmd) (s : State) : State × Bool :=
  if 1 ≤ sec.progress then (s, true)
  else
    match fetchEnds l ph ecc sec c s with
    | some s' => (s', false)
    | none => (setProgress ph 1 (fetchMarks l ph ecc sec c s), true)

/-- A control command starts: its wait, counted, is subtracted, and the start is counted and traced (06 R153, R189). -/
def startControl (ph : Nat) (sec : Section) (c : Cmd) (s : State) : State :=
  let s := modPond (countWait (sectionWait s ph) s) ph fun pd => takeWait pd c
  traceInfo ph 0x0004 2 (tagOf c) 0 0 (some sec.program) (addObj (setProgress ph 2 s) (key 0x2601 2) 1)

/-- The completion of a control command that has executed: traced, with its signal (06 R151, R153, R189). -/
def endControl (ph : Nat) (sec : Section) (c : Cmd) (s : State) : State :=
  let began := if 2 ≤ sec.progress then sec.began else s.now
  signalDone ph c (traceInfo ph 0x0005 2 (tagOf c) 0 ((s.now - began) % 2 ^ 32) (some sec.program) s)

/-- A control command at the fetch point with the given opcode: its fetch, its wait (06 R153), and `f` for its
execution, which gets the section, the command and the state; nothing when another command stands there. -/
def controlAt (p opcode : Nat) (s : State) (f : Nat → Section → Cmd → State → State) : Out :=
  onPond p s fun ph =>
    let pd := pondOf s ph
    if canFetch pd || endsStarted pd then
      match fetchPoint pd with
      | none => s
      | some (sec, _, c) =>
        if classOf c = 0 ∧ opcodeOf c = opcode then
          match fetchControl p ph 0 sec c s with
          | (s1, false) => s1
          | (s1, true) =>
            if 2 ≤ sec.progress then f ph sec c s1
            else if waitMet (pondOf s1 ph) c then f ph sec c (startControl ph sec c s1)
            else noteControlHalo p ph c s1
        else s
    else s

/-- A control command whose `f` also says whether it has completed; a completed command signals (06 R153). -/
def onControl (p opcode : Nat) (s : State) (f : Nat → Section → Cmd → State → State × Bool) : Out :=
  controlAt p opcode s fun ph sec c s =>
    match f ph sec c s with
    | (s', false) => s'
    | (s', true) => endControl ph sec c s'

/-- The core of a pond passed through `f`, with the section at index `pc`: the command has completed. -/
def retire (ph pc : Nat) (f : Core → Core) (s : State) : State × Bool :=
  (modPond s ph fun pd => setPc pc { pd with core := f pd.core }, true)

/-- A control command that ends its program with a cause (06 R179). -/
def exits (ph cause : Nat) (c : Cmd) (s : State) : State × Bool := (startExit ph cause (markOf c) s, false)

/-! ## Control commands (06 R160) -/

/-- SET: P[d] = word 2. -/
def execSet (p : Nat) (s : State) : Out :=
  onControl p 0x01 s fun ph sec c s => retire ph (sec.pc + 1) (fun k => setParam k (fieldD c) c.w2) s

/-- The ALU operations (06 Table CMD-5). -/
def aluResult (func : Nat) (a y : W64) : W64 :=
  match func with
  | 0 => a + y
  | 1 => a - y
  | 2 => a * y
  | 3 => a &&& y
  | 4 => a ||| y
  | 5 => a ^^^ y
  | 6 => a <<< (y.toNat % 64)
  | 7 => a >>> (y.toNat % 64)
  | 8 => if a.toNat ≤ y.toNat then a else y
  | _ => if a.toNat ≤ y.toNat then y else a

/-- ALU: P[d] = P[a] op Y. -/
def execAlu (p : Nat) (s : State) : Out :=
  onControl p 0x02 s fun ph sec c s =>
    retire ph (sec.pc + 1)
      (fun k => setParam k (fieldD c) (aluResult (fieldFunc c) (getParam k (fieldA c)) (operandY k c))) s

/-- The address of a LOAD or STORE: P[a] + word 2, modulo 2^64. -/
def accessAddr (k : Core) (c : Cmd) : Nat := (getParam k (fieldA c) + c.w2).toNat

/-- A LOAD or STORE address is a multiple of 8 within the mapped range (06 R162). -/
def accessOk (s : State) (addr : Nat) : Bool :=
  decide (addr % 8 = 0) && decide (addr < 2 ^ 48) && unitMapped s [(addr, 8)]

/-- A LOAD or STORE that performs no access ends its program with cause 0x0C (06 R162); an aligned one is an access
without a mapped extent, which is counted (10 R280; DEDUCED, log 41). -/
def noAccess (ph addr : Nat) (c : Cmd) (s : State) : State × Bool :=
  exits ph 0x0C c (if addr % 8 = 0 then unmappedAccess s else s)

/-- LOAD: P[d] = the 8 bytes at P[a] + word 2 (06 R162; 10 R302, R304 for poisoned extents). -/
def execLoad (p : Nat) (s : State) : Out :=
  onControl p 0x03 s fun ph sec c s1 =>
    let a := accessAddr (pondOf s1 ph).core c
    if !accessOk s1 a then noAccess ph a c s1
    else if unservable s1 [(a, 8)] then exits ph 0x0B c s1
    else if waitsRefetch s1 [(a, 8)] then (waitSection ph (waitNote s1 [(a, 8)]) s1, false)
    else
      retire ph (sec.pc + 1) (fun k => setParam k (fieldD c) (BitVec.ofNat 64 (readLe s1 a 8)))
        (countBytes false [(a, 8)] (countWait (sectionWait s1 ph) s1))

/-- STORE: P[b] to the 8 bytes at P[a] + word 2 (06 R162; 10 R286 for read-only extents). -/
def execStore (p : Nat) (s : State) : Out :=
  onControl p 0x04 s fun ph sec c s =>
    let a := accessAddr (pondOf s ph).core c
    if !accessOk s a then noAccess ph a c s
    else
      let v := (getParam (pondOf s ph).core (fieldB c)).toNat
      let s := if unitReadOnly s [(a, 8)] then addObj s (key 0x2A04 0xC) 1
               else deviceAgentWrite (countBytes true [(a, 8)] s) a (leBytes v 8)
      retire ph (sec.pc + 1) id s

/-- LOOP: L[n] = the low 32 bits of Y; branch when 0. -/
def execLoop (p : Nat) (s : State) : Out :=
  onControl p 0x05 s fun ph sec c s =>
    let v := (operandY (pondOf s ph).core c).toNat % 2 ^ 32
    retire ph (if v = 0 then fieldTarget c else sec.pc + 1)
      (fun k => { k with loops := mapPut 0 k.loops (fieldLoop c) v }) s

/-- ENDLOOP: L[n] = L[n] − 1; branch when it is not 0. The counter is 32 bits wide. -/
def execEndloop (p : Nat) (s : State) : Out :=
  onControl p 0x06 s fun ph sec c s =>
    let v := (mapFind 0 (pondOf s ph).core.loops (fieldLoop c) + 2 ^ 32 - 1) % 2 ^ 32
    retire ph (if v = 0 then sec.pc + 1 else fieldTarget c)
      (fun k => { k with loops := mapPut 0 k.loops (fieldLoop c) v }) s

/-- The relations of CMP (06 Table CMD-5). -/
def cmpResult (func : Nat) (a y : W64) : Bool :=
  match func with
  | 0 => a == y
  | 1 => a != y
  | 2 => decide (a.toNat < y.toNat)
  | 3 => decide (a.toNat ≤ y.toNat)
  | 4 => decide (a.toInt < y.toInt)
  | _ => decide (a.toInt ≤ y.toInt)

/-- CMP: K[n] = 1 when P[a] relates to Y. -/
def execCmp (p : Nat) (s : State) : Out :=
  onControl p 0x07 s fun ph sec c s =>
    let r (k : Core) : Bool := cmpResult (fieldFunc c) (getParam k (fieldA c)) (operandY k c)
    retire ph (sec.pc + 1) (fun k => { k with comps := mapPut false k.comps (fieldN c) (r k) }) s

/-- BR: branch always, when K[n] = 1, or when K[n] = 0. -/
def execBr (p : Nat) (s : State) : Out :=
  onControl p 0x08 s fun ph sec c s =>
    let k := mapFind false (pondOf s ph).core.comps (fieldN c)
    let taken := match fieldFunc c with
      | 0 => true
      | 1 => k
      | _ => !k
    retire ph (if taken then fieldTarget c else sec.pc + 1) id s

/-- Halo counter latency (01 Table PND-3). -/
def haloLatency (a b : Nat) : Nat := if dieOf a = dieOf b then 56 else 120

/-- SIGPEER (06 R156): counter d of the member of rank Y gets func + 1, visible after the halo counter latency; a
rank at or above the gang width signals nothing and ends the program with cause 0x01. -/
def execSigpeer (p : Nat) (s : State) : Out :=
  onControl p 0x09 s fun ph sec c s =>
    let y := (operandY (pondOf s ph).core c).toNat
    match (gangMembers s p)[y]? with
    | none => exits ph 0x01 c s
    | some l =>
      let q := physOf s l
      let sig : PeerSignal := { counter := fieldD c, count := fieldFunc c + 1, visible := s.now + haloLatency ph q,
                                sender := ph, after := (pondOf s ph).pushes, tag := tagOf c }
      let s := if q = 0xFF then s
        else modPond s q fun pd => { pd with core := { pd.core with signals := pd.core.signals ++ [sig] } }
      retire ph (sec.pc + 1) id s

/-- The pond into whose buffer an SSEND of a pond sends, by its stream's end (06 R184, R185). -/
def ssendTarget (s : State) (ph : Nat) (c : Cmd) : Option Nat :=
  let e := mapFind StreamEnd.closed (pondOf s ph).streams (bits c.w1.toNat 63 59)
  if e.opened && !e.consumer then
    (logicalOf s ph).bind fun l => ((gangMembers s l)[e.peerRank]?).map (physOf s)
  else none

/-- The peer counter that a signal raises waits for a write: an SSEND into the pond's buffer that its sender had pushed
before the signal has not landed (06 R156). -/
def writeUnderWay (s : State) (ph : Nat) (sig : PeerSignal) : Bool :=
  let pd := pondOf s sig.sender
  let into (c : Cmd) : Bool :=
    decide (classOf c = 0xB) && decide (opcodeOf c = 0x02) && decide (ssendTarget s sig.sender c = some ph)
  (pd.running.any fun r => decide (r.number < sig.after) &&
      (match r.arrival with
       | some a => decide (a.1 = ph)
       | none => false)) ||
    (queueOf pd 0xB).any fun q => decide (q.number < sig.after) && into q.cmd

/-- The next SIGPEER addition to a pond: among those that wait for no write, and for no earlier one of their sender, the
first to become visible (06 R156). -/
def nextSignal (s : State) (ph : Nat) : Option PeerSignal :=
  let sigs := (pondOf s ph).core.signals
  let first := sigs.filter fun g => (sigs.find? fun x => decide (x.sender = g.sender)) == some g
  minBy (fun g => g.visible) (first.filter fun g => !writeUnderWay s ph g)

/-- A SIGPEER addition on its way to a pond becomes visible (06 R156). -/
def execPeerSignalArrival (p : Nat) (s : State) : Out :=
  onPond p s fun ph =>
    match nextSignal s ph with
    | none => s
    | some sig =>
      let s := advanceTo s sig.visible
      let s := modCore s ph fun k => { k with signals := k.signals.erase sig }
      signalPond ph sig.counter sig.count sig.sender sig.tag s

/-- Every command that a program pushed from a pond has completed (06 R160, FENCE). -/
def fenced (pd : Pond) (program : Nat) : Bool :=
  pd.core.stalled.isNone && decide (unstarted pd program = 0) &&
    pd.running.all fun r => decide (r.program ≠ program)

/-- FENCE: waits until every command that the program pushed from the pond has completed. -/
def execFence (p : Nat) (s : State) : Out :=
  onControl p 0x0A s fun ph sec _ s1 =>
    if fenced (pondOf s1 ph) sec.program then retire ph (sec.pc + 1) id s1 else (s1, false)

/-- ERR: the error exit with cause 0x80 + func mod 128. -/
def execErr (p : Nat) (s : State) : Out :=
  onControl p 0x0C s fun ph _ c s => exits ph (0x80 + fieldFunc c % 128) c s

/-- NOP. -/
def execNop (p : Nat) (s : State) : Out :=
  onControl p 0x0D s fun ph sec _ s => retire ph (sec.pc + 1) id s

/-- RESUME: continues at the command at which the program was switched out (06 R178). -/
def execResume (p : Nat) (s : State) : Out :=
  onControl p 0x0E s fun ph sec _ s => retire ph sec.resume id s

/-! ## The push (06 R152, R157, R182) -/

/-- The patch base of a command (06 Table CMD-2). -/
def patchBase (c : Cmd) : Nat := bits c.w0.toNat 31 24

/-- A command as it is pushed: words 1 to 3 plus the parameter registers from the patch base (06 R157). -/
def patched (k : Core) (c : Cmd) : Cmd :=
  let b := patchBase c
  if b = 0 then c
  else { c with w1 := c.w1 + getParam k b, w2 := c.w2 + getParam k (b + 1), w3 := c.w3 + getParam k (b + 2) }

/-- Units of a chip-level class out of service after a repair action (15 R418). -/
def unitsOut (s : State) (cls : Nat) : Nat := (s.weir.units.filter fun u => decide (u.1 = cls)).length

/-- Units of a chip-level class; the fabric engine's lanes are counted as its brooks. -/
def unitsOf (s : State) (cls : Nat) : Nat :=
  if cls = 0x9 then postUnits s else if cls = 0xA then intakeUnits s else 18

/-- A class has no engine at push time (06 R182). -/
def engineAbsent (s : State) (cls : Nat) : Bool :=
  !bitAt (enginesPresent s) cls || (decide (8 ≤ cls ∧ cls ≤ 0xA) && decide (unitsOf s cls ≤ unitsOut s cls))

/-- A command enters the queue of its class, or the core stalls while the queue holds 64 (06 R152). -/
def pushCommand (ph pc : Nat) (q : Queued) (s : State) : State :=
  let pd := pondOf s ph
  let cls := classOf q.cmd
  let pd := setPc pc pd
  let q := { q with number := pd.pushes }
  let pd := { pd with pushes := pd.pushes + 1 }
  if (queueOf pd cls).length < 64 then
    addObj (setPond s ph (setQueue pd cls (queueOf pd cls ++ [q]))) (key 0x2601 1) 1
  else setPond s ph { pd with core := { pd.core with stalled := some (q, s.now) } }

/-- COMMAND_PUSH: the core fetches a non-control command, patches it and pushes it (06 R152, R157); a fetch past
the section ends the program (R481), and a command for an absent engine is discarded (R182). -/
def execCommandPush (p t ecc : Nat) (s : State) : Out :=
  onPond p s fun ph =>
    let s := advanceTo s t
    let pd := pondOf s ph
    if !canFetch pd then s
    else
      match pd.core.sect, fetchPoint pd with
      | some sec, none =>
        (match residentOf pd sec.program with
         | some _ => startExit ph 0x0D (slotTag sec.program sec.pc) s
         | none => s)
      | some sec, some (_, _, c) =>
        if classOf c = 0 then (if ecc = 0 then s else (fetchControl p ph ecc sec c s).1)
        else
          match fetchEnds p ph ecc sec c s with
          | some s' => s'
          | none =>
            let s := fetchMarks p ph ecc sec c s
            if engineAbsent s (classOf c) then
              startExit ph 0x02 (markOf c)
                (traceFault ph 0x0010 (tagOf c) (classOf c) 0x02 (addObj s (key 0x2601 5) 1))
            else
              pushCommand ph (sec.pc + 1)
                { cmd := patched (pondOf s ph).core c, program := sec.program, pushed := s.now } s
      | none, _ => s

/-- QUEUE_SLOT_FREED: a stalled push completes once its queue has room; the stalled clk are counted
(06 R152, 0x2601.03). -/
def execQueueSlotFreed (p t : Nat) (s : State) : Out :=
  onPond p s fun ph =>
    let pd := pondOf s ph
    match pd.core.stalled with
    | none => s
    | some (q, since) =>
      let cls := classOf q.cmd
      if (queueOf pd cls).length < 64 then
        let s := advanceTo s t
        let pd := { pd with core := { pd.core with stalled := none } }
        addObj (addObj (setPond s ph (setQueue pd cls (queueOf pd cls ++ [{ q with pushed := s.now }])))
          (key 0x2601 1) 1) (key 0x2601 3) (s.now - since)
      else s

end Sys2Proof.Machine
end

