-- ==== Sys2Proof/Machine/Dispatcher.lean ====
section
/-! DEFINITION. How an engine starts and completes the commands of its queue (06 R151 to R154, R158, R179), and
the stream engine (06 R184 to R187). -/

namespace Sys2Proof.Machine

/-- A command discarded as invalid (06 R158), counted at 0x2601.04: its program takes its error exit with cause
0x01. -/
def discardBare (ph : Nat) (c : Cmd) (s : State) : State :=
  startExit ph 0x01 (markOf c) (traceFault ph 0x0010 (tagOf c) (classOf c) 0x01 (addObj s (key 0x2601 4) 1))

/-- A command discarded as invalid (06 R158): it leaves its queue, is counted at 0x2601.04 and at its engine's own
count `own`, if it has one (0: none), and its program takes its error exit with cause 0x01. -/
def discard (ph own : Nat) (c : Cmd) (s : State) : State :=
  discardBare ph c (if own = 0 then s else addObj s own 1)

/-- What the start of a command does: the state after its effect, the cause of an error exit that it takes
instead of running, what its completion brings a consumer, the epoch of its page reads, and a wait of its own. -/
structure Started where
  state : State
  cause : Option Nat
  arrival : Option (Nat × Nat)
  epochReads : Option Nat
  waits : Nat
  expander : Bool := false

/-- A start that runs to completion with nothing beside its effect. -/
def ran (s : State) : Started := { state := s, cause := none, arrival := none, epochReads := none, waits := 0 }

/-- A start that ends in an error exit. -/
def ended (cause : Nat) (s : State) : Started :=
  { state := s, cause := some cause, arrival := none, epochReads := none, waits := 0 }

/-- Nobody holds the activation expander of a pond or waits for it (04 R96). -/
def expanderFree (pd : Pond) : Bool :=
  decide (mapFind [] pd.expanders 1 = []) ||
    (decide ((mapFind [] pd.expanders 1).headD 0 = 0) && decide (mapFind [] pd.expanders 0 = []))

/-- A command that has started asks for the activation expander (04 R96): it gets it at once when nobody holds it. -/
def requestExpander (id cls : Nat) (pd : Pond) : Pond :=
  if expanderFree pd then
    { pd with expanders := mapPut [] pd.expanders 1 [id + 1, cls] }
  else { pd with expanders := mapPut [] pd.expanders 0 (mapFind [] pd.expanders 0 ++ [id]) }

/-- The activity of an engine class, or at key 16 of any engine, begins unless it is on (0x2401.02, 0x2402.05,
0x40pp.05). -/
def noteBusy (now k : Nat) (pd : Pond) : Pond :=
  { pd with busySince := if mapFind 0 pd.busySince k = 0 then mapPut 0 pd.busySince k (now + 1) else pd.busySince }

/-- A started command waits for the activation expander: it has issued no row (04 R96). -/
def awaitsExpander (pd : Pond) (id : Nat) : Bool := decide (id ∈ mapFind [] pd.expanders 0)

/-- The pond becomes busy with a started command, and its class unless the command waits for the expander (04 R120). -/
def markBusy (now cls id : Nat) (pd : Pond) : Pond :=
  let pd := noteBusy now 16 pd
  if awaitsExpander pd id then pd else noteBusy now cls pd

/-- The writes that wait from place `n` on belong to a running command. -/
def ownWrites (ph id n : Nat) (s : State) : State :=
  if s.host.waiting.length ≤ n then s
  else
    let own := (s.host.waiting.drop n).map fun p => { p with owner := some (ph, id) }
    { s with host := { s.host with waiting := s.host.waiting.take n ++ own } }

/-- A queued command of a pond starts: out of its queue, its wait subtracted, its effect, and its record among the
running commands (06 R152, R153, R179). -/
def startQueued (ph : Nat) (q : Queued) (rest : List Queued)
    (effect : Nat → Queued → State → Started) (s : State) : State :=
  let cls := classOf q.cmd
  let s := modPond s ph fun pd => takeWait (setQueue pd cls rest) q.cmd
  let s := traceInfo ph 0x0004 2 (tagOf q.cmd) cls ((s.now - q.pushed) % 2 ^ 32) (some q.program) s
  let r := effect ph q s
  match r.cause with
  | some cause => startExit ph cause (markOf q.cmd) r.state
  | none =>
    modPond (ownWrites ph (pondOf r.state ph).nextId s.host.waiting.length r.state) ph fun pd =>
      let pd := markBusy s.now cls pd.nextId (if r.expander then requestExpander pd.nextId cls pd else pd)
      { pd with
        nextId := pd.nextId + 1,
        running := pd.running ++
          [{ id := pd.nextId, cmd := q.cmd, program := q.program, started := s.now, arrival := r.arrival,
             epochReads := r.epochReads, waits := r.waits, number := q.number }] }

/-- No running command of a class (06 R152: classes 0x5 and 0x6 run one command at a time). -/
def classIdle (pd : Pond) (cls : Nat) : Bool := pd.running.all fun r => decide (classOf r.cmd ≠ cls)

/-- No command of a class that runs has got past the activation expander: the engine is idle (04 R120). -/
def engineIdle (pd : Pond) (cls : Nat) : Bool :=
  pd.running.all fun r => decide (classOf r.cmd ≠ cls) || awaitsExpander pd r.id

/-- The clk of an activity that has ended are counted at `counter`. -/
def countBusy (ph k counter : Nat) (idle : Bool) (s : State) : State :=
  let b := mapFind 0 (pondOf s ph).busySince k
  if !idle || decide (b = 0) then s
  else
    addObj (modPond s ph fun pd => { pd with busySince := mapPut 0 pd.busySince k 0 }) counter (s.now + 1 - b)

/-- The busy counters once a command of class `cls` has left the running ones (0x2401.02, 0x2402.05, 0x40pp.05). -/
def countIdle (ph cls : Nat) (s : State) : State :=
  let pd := pondOf s ph
  let s := if cls = 0x2 then countBusy ph 2 (key 0x2401 2) (engineIdle pd 2) s else s
  let s := if cls = 0x3 then countBusy ph 3 (key 0x2402 5) (engineIdle pd 3) s else s
  countBusy ph 16 (key (0x4000 + ph) 5) (decide (pd.running = [])) s

/-- An attention command runs on a pond (07 R221). -/
def attending (pd : Pond) : Bool :=
  pd.running.any fun r => decide (classOf r.cmd = 0x6) && decide (3 ≤ opcodeOf r.cmd)

/-- The engines of a pond may start commands: it is powered, not held gated (17 R470), no attention command holds the
matrix, vector and gate engines (07 R221), and no forced stop holds the program (13 R364). -/
def mayStart (pd : Pond) (q : Queued) (cls : Nat) : Bool :=
  pd.powered && !(attending pd && decide (1 ≤ cls ∧ cls ≤ 3)) && !(pd.gated && decide (1 ≤ cls ∧ cls ≤ 3)) &&
    !(pd.core.stopped.isSome && decide (pd.core.stopKind = 2) &&
      (match pd.core.sect with
       | some sec => decide (sec.program = q.program)
       | none => false))

/-- What the head of a class's queue would take from counter `k` if it started now: 0 when it cannot start. Of the engines'
own conditions those count that the state of the pond and its units show: the one command of classes 0x5 and 0x6, an
armed tap, a unit of a chip-level class (06 R152, 04 R108, 09 R272). -/
def headClaim (s : State) (ph k cls : Nat) : Nat :=
  let pd := pondOf s ph
  match queueOf pd cls with
  | [] => 0
  | q :: _ =>
    if waits q.cmd && decide (waitCounter q.cmd = k) && waitMet pd q.cmd && mayStart pd q cls &&
        (decide (cls ≠ 5 ∧ cls ≠ 6) || classIdle pd cls) && (decide (cls ≠ 3) || pd.tap.isNone) &&
        (decide (cls ≠ 9 ∧ cls ≠ 0xA) ||
          s.intake.uses.any fun u => decide (u.cls = cls ∧ u.pond = ph) && u.run.isNone)
    then waitCount q.cmd else 0

/-- What the control command at a pond's fetch point would take from counter `k`. -/
def controlClaim (pd : Pond) (k : Nat) : Nat :=
  if canFetch pd then
    match fetchPoint pd with
    | some (sec, _, c) =>
      if decide (classOf c = 0) && decide (sec.progress = 1) && waits c && decide (waitCounter c = k) && waitMet pd c
      then waitCount c else 0
    | none => 0
  else 0

/-- A command of class `cls` is granted its wait: its counter satisfies it beside every wait of a lower class that is
satisfiable now (06 R153). -/
def granted (s : State) (ph cls : Nat) (c : Cmd) : Bool :=
  let pd := pondOf s ph
  let k := waitCounter c
  !waits c ||
    decide (controlClaim pd k + ((List.range cls).map (headClaim s ph k)).foldl (· + ·) 0 + waitCount c ≤
      getSync pd.core k)

/-- The opcodes of the engine classes 0x1 to 0xB (03 Table MTX-4, 04 Table VEC-4, R105, R113, 05 R146, 06 Table
CMD-12, 07 Table FUT-10, 08, 09 R272, 10 Table MEM-12, 12 Table FAB-5). -/
def legalOpcodes (cls : Nat) : List Nat :=
  match cls with
  | 0x1 => [1, 2]
  | 0x2 => List.range' 1 11 ++ List.range' 0x10 13 ++ [0x20, 0x21]
  | 0x3 => [1, 0x10, 0x11, 0x12]
  | 0x4 => [1, 2]
  | 0x5 => [1]
  | 0x6 => [1, 2, 3, 4]
  | 0x7 => [1]
  | 0x8 => [1, 2, 3, 4, 5, 6]
  | 0x9 => [1]
  | 0xA => [1, 2, 3]
  | _ => [1, 2, 3]

/-- A command concerns the row of opcode `op` of its class: it has that opcode, or a reserved one, which any row of the
class discards; in the gate queue the scan commands take the reserved opcodes 0x10 to 0x1F, and GATE the others (04 R112,
08 R251). -/
def takesOp (op : Nat) (c : Cmd) : Bool :=
  let o := opcodeOf c
  decide (o = op) ||
    (decide (o ∉ legalOpcodes (classOf c)) &&
      (decide (classOf c ≠ 0x3) || (decide (op = 1) != decide (0x10 ≤ o ∧ o ≤ 0x1F))))

/-- A command at the head of its queue that waits on the arrival counter of an open consumer stream end has its wait
noted (09 R260). -/
def noteHalo (p ph cls : Nat) (q : Queued) (rest : List Queued) (s : State) : State :=
  match haloStream (pondOf s ph) q.cmd with
  | none => s
  | some st =>
    if q.waiting.isSome then s
    else setPond s ph (setQueue (pondOf s ph) cls ({ q with waiting := some (s.now, haloNote p st) } :: rest))

/-- A command at the head of its queue that waits for memory has that wait noted, under its cause (10 R301). -/
def noteRefetch (ph cls : Nat) (q : Queued) (rest : List Queued) (runs : List Run) (s : State) : State :=
  let w := renewWait q.waiting (waitNote s runs) s
  setPond w.2 ph (setQueue (pondOf w.2 ph) cls ({ q with waiting := w.1 } :: rest))

/-- The head of a pond's queue of class `cls`, when `mine` says that it is this row's: nothing while its wait is not
satisfied; discarded when invalid (06 R158), counted at `own`; else started with its effect once its wait is granted
(R153). `ready` is the engine's own condition; while one of its `reads` waits for a re-fetch, the command stays at the head and its wait is noted. -/
def onHeadIf (p cls own : Nat) (mine : State → Nat → Queued → Bool) (s : State) (ready : State → Nat → Queued → Bool)
    (valid : State → Nat → Queued → Bool) (effect : Nat → Queued → State → Started)
    (reads : State → Nat → Queued → List Run := fun _ _ _ => []) : Out :=
  onPond p s fun ph =>
    let pd := pondOf s ph
    match queueOf pd cls with
    | [] => s
    | q :: rest =>
      if !mine s ph q then s
      else if !waitMet pd q.cmd then noteHalo p ph cls q rest s
      else if !mayStart pd q cls || !ready s ph q then s
      else if waitsRefetch s (reads s ph q) then noteRefetch ph cls q rest (reads s ph q) s
      else if decide (opcodeOf q.cmd ∈ legalOpcodes cls) && valid s ph q then
        (if granted s ph cls q.cmd then startQueued ph q rest effect (countWait q.waiting s) else s)
      else discard ph own q.cmd (setPond (countWait q.waiting s) ph (setQueue pd cls rest))

/-- `onHeadIf` for the row of one opcode. -/
def onHead (p cls op own : Nat) (s : State) (ready : State → Nat → Queued → Bool)
    (valid : State → Nat → Queued → Bool) (effect : Nat → Queued → State → Started)
    (reads : State → Nat → Queued → List Run := fun _ _ _ => []) : Out :=
  onHeadIf p cls own (fun _ _ q => takesOp op q.cmd) s ready valid effect reads

/-- The engine has no condition of its own. -/
def always (_ : State) (_ : Nat) (_ : Queued) : Bool := true

/-! ## Completion (06 R151, R153, R154) -/

/-- An SSEND's completion at its consumer: the arrival counter gains 1 and the slot is filled (06 R185). `dst` is
the consumer's pond with stream × 32 + counter. -/
def arriveAt (ph : Nat) (c : Cmd) (dst : Option (Nat × Nat)) (s : State) : State :=
  match dst with
  | none => s
  | some (q, sc) =>
    let st := sc / 32
    let s := modPond s q fun pd =>
      { pd with streams := mapModify StreamEnd.closed pd.streams st fun e => { e with filled := e.filled + 1 } }
    signalPond q (sc % 32) 1 ph (markOf c) s

/-! ## Streams (06 Table CMD-12) -/

def sconfStream (c : Cmd) : Nat := bits c.w1.toNat 63 59
def sconfRank (c : Cmd) : Nat := bits c.w1.toNat 58 52
def sconfPeerStream (c : Cmd) : Nat := bits c.w1.toNat 51 47
def sconfConsumer (c : Cmd) : Bool := bitAt c.w1.toNat 46
def sconfCounter (c : Cmd) : Nat := bits c.w1.toNat 45 41
def ssendSource (c : Cmd) : Nat := bits c.w1.toNat 58 41
def ssendLength (c : Cmd) : Nat := bits c.w1.toNat 40 23
def sfreeCount (c : Cmd) : Nat := bits c.w1.toNat 58 53 + 1

/-- A stream end of a pond. -/
def streamOf (pd : Pond) (st : Nat) : StreamEnd := mapFind StreamEnd.closed pd.streams st

/-- The pond with a stream end replaced. -/
def setStream (pd : Pond) (st : Nat) (e : StreamEnd) : Pond :=
  { pd with streams := mapPut StreamEnd.closed pd.streams st e }

/-- Size of a pond buffer in bytes (01 Table PND-1). -/
def bufSize : Nat := 10485760

/-- Checks of a stream command in a gang of width `g` (06 Table CMD-12): reserved fields zero, ranges as stated, buffer
extents. -/
def streamValid (g : Nat) (c : Cmd) : Bool :=
  match opcodeOf c with
  | 0x01 =>
    decide (c.w3 = 0) && decide (bits c.w1.toNat 40 0 = 0) && decide (sconfRank c < g) &&
      (if sconfConsumer c then decide (sconfCounter c < 24) && decide (c.w2 = 0)
       else decide (sconfCounter c = 0) && decide (bits c.w2.toNat 15 0 = 0) &&
         decide (bits c.w2.toNat 63 40 % 64 = 0) && decide (1 ≤ bits c.w2.toNat 39 22) &&
         decide (bits c.w2.toNat 63 40 + bits c.w2.toNat 39 22 * 64 * (bits c.w2.toNat 21 16 + 1) ≤ bufSize))
  | 0x02 =>
    decide (c.w2 = 0) && decide (c.w3 = 0) && decide (bits c.w1.toNat 22 0 = 0) &&
      decide (1 ≤ ssendLength c) && decide ((ssendSource c + ssendLength c) * 64 ≤ bufSize)
  | 0x03 => decide (c.w2 = 0) && decide (c.w3 = 0) && decide (bits c.w1.toNat 52 0 = 0)
  | _ => false

/-- The peer pond and end of a stream end; none when the ranks or ends do not name each other (06 R187). -/
def peerEnd (s : State) (l st : Nat) : Option (Nat × StreamEnd) :=
  let e := streamOf (pondOf s (physOf s l)) st
  match (gangMembers s l)[e.peerRank]? with
  | none => none
  | some q =>
    let ph := physOf s q
    let e' := streamOf (pondOf s ph) e.peerStream
    if ph ≠ 0xFF ∧ e'.opened ∧ e'.peerRank = rankIn s l ∧ e'.peerStream = st ∧ e'.consumer ≠ e.consumer
    then some (ph, e') else none

/-- A stream command faults (06 R187): a closed end, ends that do not name each other, a length above the slot, or
more slots freed than are filled. -/
def streamFaults (s : State) (l : Nat) (c : Cmd) : Bool :=
  let st := sconfStream c
  let e := streamOf (pondOf s (physOf s l)) st
  match opcodeOf c with
  | 0x02 => !e.opened || e.consumer || (peerEnd s l st).isNone || decide (e.slotSize < ssendLength c)
  | 0x03 => !e.opened || !e.consumer || (peerEnd s l st).isNone || decide (e.filled < sfreeCount c)
  | _ => false

/-- The streams of the SSENDs running on a pond (06 R186). -/
def sendingStreams (pd : Pond) : List Nat :=
  (pd.running.filter fun r => decide (classOf r.cmd = 0xB) && decide (opcodeOf r.cmd = 0x02)).map
    fun r => sconfStream r.cmd

/-- A stream command is startable on its own account (06 R186): its wait is satisfied and, for an SSEND, it holds a
credit, its stream sends nothing, and fewer than four SSENDs run. A command that meets a stream fault does not wait for a
credit, which a closed end does not have. -/
def streamReady (s : State) (l : Nat) (q : Queued) : Bool :=
  let pd := pondOf s (physOf s l)
  waitMet pd q.cmd && mayStart pd q 0xB &&
    (decide (opcodeOf q.cmd ≠ 0x02) || streamFaults s l q.cmd ||
      (decide (0 < (streamOf pd (sconfStream q.cmd)).credits) &&
        decide (sconfStream q.cmd ∉ sendingStreams pd) && decide ((sendingStreams pd).length < 4)))

/-- The oldest startable command of the stream queue, with the queue without it; commands of one stream keep their
order (06 R186). -/
def pickStream (s : State) (l : Nat) : List Nat → List Queued → List Queued → Option (Queued × List Queued)
  | _, _, [] => none
  | blocked, before, q :: rest =>
    let st := sconfStream q.cmd
    if st ∉ blocked ∧ streamReady s l q = true then some (q, before ++ rest)
    else pickStream s l (st :: blocked) (before ++ [q]) rest

/-- The oldest startable stream command of pond `p` with opcode `op`: discarded when invalid, ended with cause
0x05 when it faults (06 R187), else started. -/
def onStream (p op : Nat) (s : State) (effect : Nat → Queued → State → Started) : Out :=
  onPond p s fun ph =>
    match pickStream s p [] [] (queueOf (pondOf s ph) 0xB) with
    | none =>
      match queueOf (pondOf s ph) 0xB with
      | q :: rest => if takesOp op q.cmd && !waitMet (pondOf s ph) q.cmd then noteHalo p ph 0xB q rest s else s
      | [] => s
    | some (q, rest) =>
      if !takesOp op q.cmd then s
      else if !streamValid (gangMembers s p).length q.cmd then
        discardBare ph q.cmd (setPond (countWait q.waiting s) ph (setQueue (pondOf s ph) 0xB rest))
      else if streamFaults s p q.cmd then
        startExit ph 0x05 (markOf q.cmd)
          (traceFault ph 0x0013 (tagOf q.cmd) 0xB (sconfStream q.cmd)
            (setPond (countWait q.waiting s) ph (setQueue (pondOf s ph) 0xB rest)))
      else if granted s ph 0xB q.cmd then startQueued ph q rest effect (countWait q.waiting s)
      else s

/-- A pond without the credits on their way to one of its stream ends (06 R184). -/
def dropCredits (st : Nat) (pd : Pond) : Pond :=
  { pd with core := { pd.core with creditsDue := pd.core.creditsDue.filter fun e => decide (e.1 ≠ st) } }

/-- SCONF opens a stream end (06 R184): a producer with one credit per slot, a consumer with no filled slot; credits of
the end that it reopens are gone. -/
def execSconf (p : Nat) (s : State) : Out :=
  onStream p 0x01 s fun ph q s =>
    let c := q.cmd
    let e : StreamEnd :=
      if sconfConsumer c then
        { StreamEnd.closed with opened := true, consumer := true, peerRank := sconfRank c,
                                peerStream := sconfPeerStream c, counter := sconfCounter c }
      else
        { StreamEnd.closed with opened := true, consumer := false, peerRank := sconfRank c,
                                peerStream := sconfPeerStream c, slotBase := bits c.w2.toNat 63 40,
                                slotSize := bits c.w2.toNat 39 22, slotCount := bits c.w2.toNat 21 16 + 1,
                                credits := bits c.w2.toNat 21 16 + 1 }
    let old := streamOf (pondOf s ph) (sconfStream c)
    ran (modPond (countStall p ph (sconfStream c) old.waitSince s) ph fun pd =>
      setStream (dropCredits (sconfStream c) pd) (sconfStream c) e)

/-- Bytes of a pond buffer. -/
def bufRead (pd : Pond) (off n : Nat) : List Byte := mapRead 0 pd.buf off n

/-- The pond with bytes of its buffer written. -/
def bufWrite (pd : Pond) (off : Nat) (bs : List Byte) : Pond := { pd with buf := mapWrite 0 pd.buf off bs }

/-- The commands of the stream queue that stand first in their streams (06 R186). -/
def streamHeads : List Nat → List Queued → List Queued
  | _, [] => []
  | seen, q :: rest =>
    let st := sconfStream q.cmd
    if st ∈ seen then streamHeads seen rest else q :: streamHeads (st :: seen) rest

/-- The SSEND that stands first in its stream and finds no credit begins to wait (06 R185). -/
def noteCreditWait (now : Nat) (pd : Pond) (q : Queued) : Pond :=
  let st := sconfStream q.cmd
  let e := streamOf pd st
  if opcodeOf q.cmd = 0x02 ∧ waitMet pd q.cmd = true ∧ e.opened = true ∧ e.consumer = false ∧ e.credits = 0 ∧
      e.waitSince = 0 then setStream pd st { e with waitSince := now + 1 }
  else pd

/-- Every SSEND of a pond that finds no credit begins to wait (06 R185). -/
def noteCreditWaits (ph : Nat) (s : State) : State :=
  modPond s ph fun pd => (streamHeads [] (queueOf pd 0xB)).foldl (noteCreditWait s.now) pd

/-- SSEND (06 R185): takes one credit and copies its source into the stream's next slot in ring order; its
completion tells the consumer. -/
def execSsend (p : Nat) (s : State) : Out :=
  let go := onStream p 0x02 s fun ph q s =>
    let c := q.cmd
    let st := sconfStream c
    match peerEnd s p st with
    | none => ended 0x05 s
    | some (peer, pe) =>
      let e := streamOf (pondOf s ph) st
      let bs := bufRead (pondOf s ph) (ssendSource c * 64) (ssendLength c * 64)
      let s := countStall p ph st e.waitSince s
      let s := modPond s ph fun pd =>
        setStream pd st { e with credits := e.credits - 1, next := (e.next + 1) % e.slotCount, waitSince := 0 }
      let s := modPond s peer fun pd => bufWrite pd (e.slotBase + e.next * e.slotSize * 64) bs
      let s := addObj s (streamStatKey 1 p st) (ssendLength c * 64)
      { ran s with arrival := some (peer, e.peerStream * 32 + pe.counter) }
  match go with
  | .next s' => if physOf s p = 0xFF then .next s' else .next (noteCreditWaits (physOf s p) s')
  | o => o

/-- Credit-return latency (01 Table PND-3). -/
def creditLatency (a b : Nat) : Nat := if dieOf a = dieOf b then 40 else 104

/-- SFREE (06 R185): frees filled slots and returns their credits, usable after the credit-return latency. -/
def execSfree (p : Nat) (s : State) : Out :=
  onStream p 0x03 s fun ph q s =>
    let c := q.cmd
    let st := sconfStream c
    match peerEnd s p st with
    | none => ended 0x05 s
    | some (peer, _) =>
      let e := streamOf (pondOf s ph) st
      let s := modPond s ph fun pd => setStream pd st { e with filled := e.filled - sfreeCount c }
      let due := s.now + creditLatency ph peer
      ran (modPond s peer fun pd => { pd with core := { pd.core with
        creditsDue := pd.core.creditsDue ++ List.replicate (sfreeCount c) (e.peerStream, due) } })

/-- CREDIT_RETURN: the oldest credit on its way to stream end `st` of producer pond `p` becomes usable, which ends a wait
for it (06 R185). -/
def execCreditReturn (p st : Nat) (s : State) : Out :=
  onPond p s fun ph =>
    match (pondOf s ph).core.creditsDue.find? fun e => decide (e.1 = st) with
    | none => s
    | some (_, due) =>
      let s := advanceTo s due
      let s := countStall p ph st (streamOf (pondOf s ph) st).waitSince s
      modPond s ph fun pd =>
        let e := streamOf pd st
        let pd := { pd with core := { pd.core with creditsDue := pd.core.creditsDue.erase (st, due) } }
        if e.opened && !e.consumer then setStream pd st { e with credits := e.credits + 1, waitSince := 0 } else pd

end Sys2Proof.Machine
end

