-- ==== Sys2Proof/Machine/Operands.lean ====
section
/-! DEFINITION. Operands of the vector engine, the gate pipeline and the window reducer (04 R92 to R95, R100, R101):
descriptors, rows read, rows written; and the counters of expanders and encoders (05 R137 to R143). -/

namespace Sys2Proof.Machine

/-! ## Descriptors (04 Table VEC-2) -/

/-- An operand: selector, format, address, stride field and padding code. -/
structure Opnd where
  sel : Nat
  fmt : Nat
  addr : Nat
  stride : Nat
  pad : Nat
  resv : Nat
  deriving DecidableEq, Repr

/-- A long descriptor of 40 bits. -/
def longOf (w : Nat) : Opnd :=
  { sel := bits w 39 37, fmt := bits w 36 34, addr := bits w 33 16, stride := bits w 15 4, pad := bits w 3 2,
    resv := bits w 1 0 }

/-- A short descriptor of 22 bits. -/
def shortOf (w : Nat) : Opnd :=
  { sel := bits w 21 19, fmt := if bitAt w 18 then 1 else 0, addr := bits w 17 0, stride := 0, pad := 0,
    resv := if bits w 21 19 = 2 then 0 else bits w 18 18 }

/-- Rate and table of a coded operand. -/
def opRate (o : Opnd) : Nat := bits o.stride 11 10
def opTable (o : Opnd) : Nat := bits o.stride 9 2

/-- The dense size of a raw row (04 Table VEC-3). -/
def denseRow (fmt : Nat) : Nat := [1024, 512, 320, 320, 256, 256, 192].getD fmt 0

/-- Bytes from one raw row to the next. -/
def rowPitch (o : Opnd) : Nat := if o.stride = 0 then denseRow o.fmt else o.stride * 64

/-- The table function of a pond (05 R132). -/
def tabFn (pd : Pond) (t : Nat) : Option Tab :=
  let x := mapFind Table.invalid pd.tables t
  if x.valid then some (tabOf x.bytes) else none

/-- The padding value of a code. -/
def padValue (pad : Nat) : F32 := if pad = 1 then 0xFF800000 else if pad = 2 then 0x7F800000 else 0

/-- The extent register of an accumulator slot (03 R79): valid rows and valid columns. -/
def extentRows (pd : Pond) (slot : Nat) : Nat := mapFind 0 pd.extents slot / 1024
def extentCols (pd : Pond) (slot : Nat) : Nat := mapFind 0 pd.extents slot % 1024

/-- Valid columns of an accumulator row: 0 outside the rows of its slot's extent. -/
def accValid (pd : Pond) (row : Nat) : Nat :=
  if row % 256 < extentRows pd (row / 256) then extentCols pd (row / 256) else 0

/-- What a running MMA stores at a row and column is readable at instant `t`: 270 clk after the read of its activation row,
and one later per column (03 R69); rows of no concern to it are. -/
def landed (o : Landing) (t row n : Nat) : Bool :=
  decide (row < o.row ∨ o.row + o.reads.length ≤ row) ||
    match o.first with
    | none => false
    | some f => decide (f + o.reads.getD (o.reads.length - 1 - (row - o.row)) 0 + 270 + n ≤ t)

/-- The value that a read at instant `t` finds in an accumulator element (03 R73): what it held before the first MMA, in
the order of their starts, that has not yet stored its result there. -/
def accAt (pd : Pond) (t row n : Nat) : F32 :=
  match pd.landing.reverse.find? fun o => !landed o t row n with
  | some o => mapFind 0 o.before (row * 256 + n)
  | none => mapFind 0 pd.acc (row * 256 + n)

/-- The 256 values of an accumulator row, as a read at instant `t` finds them. -/
def accRow (pd : Pond) (t row : Nat) : List F32 :=
  if pd.landing = [] then mapRead 0 pd.acc (row * 256) 256 else (List.range 256).map (accAt pd t row)

/-- The 256 lanes of a vector register (04 R89). -/
def vreg (pd : Pond) (n : Nat) : List F32 := mapRead 0 pd.vregs (n * 256) 256

/-- A raw element's pattern and its group's scale within a row's bytes (04 Table VEC-3). -/
def rawElement (fmt : Nat) (bs : List Byte) (n : Nat) : Nat × Nat :=
  let b (i : Nat) : Nat := (bs.getD i 0).toNat
  match fmt with
  | 0 => (leValue ((bs.drop (4 * n)).take 4), 0)
  | 1 => (leValue ((bs.drop (2 * n)).take 2), 0)
  | 2 | 3 => (b n, b (256 + n / 32))
  | 4 | 5 => ((leValue ((bs.drop (6 * n / 8)).take 2) >>> (6 * n % 8)) % 64, b (192 + n / 32))
  | _ => ((b (n / 2) >>> (4 * (n % 2))) % 16, b (128 + n / 32))

/-- An element's value as FP32. -/
def element32 (fmt x scale : Nat) : F32 :=
  if fmt = 0 then (if isNan (flOf32 (BitVec.ofNat 32 x)) then 0x7FC00000 else BitVec.ofNat 32 x)
  else toF32 .nearest (scaledElement fmt x scale)

/-- Values with the padding value at and beyond a column. -/
def padFrom (n : Nat) (pad : F32) (xs : List F32) : List F32 :=
  (List.range 256).map fun i => if i < n then xs.getD i 0 else pad

/-- Row `j` of a source with `nv` valid columns, read at instant `t` (04 R92, R95, 03 R73), and the block it decoded if it
is coded. -/
def readRow (pd : Pond) (t : Nat) (o : Opnd) (nv j : Nat) : List F32 × Option Decoded :=
  match o.sel with
  | 1 =>
    let r := o.addr % 2048 + j
    (padFrom (accValid pd r) (padValue o.pad) (accRow pd t r), none)
  | 2 =>
    let bs := bufRead pd (o.addr * 64 + j * rowPitch o) (denseRow o.fmt)
    let xs := (List.range 256).map fun n => let e := rawElement o.fmt bs n; element32 o.fmt e.1 e.2
    (padFrom nv (padValue o.pad) xs, none)
  | 3 =>
    let d := decodeBlock o.fmt (opRate o) (tabFn pd) (fun a n => bufRead pd (o.addr * 64 + a) n) j
    let xs := (decodedValues o.fmt d).map (toF32 .nearest)
    (padFrom nv (padValue o.pad) xs, some d)
  | 4 => (vreg pd (o.addr % 32), none)
  | 5 => (List.replicate 256 ((vreg pd (o.addr % 32 + j / 256)).getD (j % 256) 0), none)
  | 6 => (List.replicate 256 (BitVec.ofNat 32 (getParam pd.core (o.addr % 256)).toNat), none)
  | _ => (List.replicate 256 Config.noOperand, none)

/-! ## Counters of the expanders (05 R141, R143) -/

/-- Blocks that a command of a pond decoded: counted, a malformed one with its fault, trace record and tag. -/
def noteDecoded (ph : Nat) (c : Cmd) (ds : List Decoded) (s : State) : State :=
  let s := addObj s (key 0x2501 1) ds.length
  let s := addObj s (key 0x2501 2) (ds.filter (·.slow)).length
  forEach ds (fun d s =>
    match d.bad with
    | none => s
    | some case =>
      let s := addObj (addObj s (key 0x2501 3) 1) (key 0x2502 case) 1
      let s := setObj s (key 0x2501 4) (ph * 2 ^ 24 + tagOf c)
      raise 6 (.pond ph) (traceFault ph (Config.traceCode 0 % 65536) (tagOf c) (classOf c) case s)) s

/-! ## Rows written (04 R95, R100, R101) -/

/-- How a command rounds at a position (04 R101): its round field, tag, seed and the kb value. -/
structure Rounding where
  stochastic : Bool
  seed : Nat
  tag : Nat
  kb : Nat

/-- The rounding at a row and column. -/
def roundAt (r : Rounding) (row col : Nat) : Rm :=
  if r.stochastic then .stochastic (randomBits r.seed r.tag r.kb row col) else .nearest

/-- The seed of a pond's logical number in force (03 R67, R68). -/
def seedOf (s : State) (l : Nat) : Nat := forceObj s (key 0x2310 (l + 1))

/-- The groups of a row and their valid columns. -/
def groupCols (nv g : Nat) : List Nat := (List.range 32).filterMap fun i => if 32 * g + i < nv then some (32 * g + i) else none

/-- The group scales e_g of a row (04 R100): `none` for a group without a valid position. -/
def rowScales (code nv : Nat) (xs : List F32) : List (Option Nat) :=
  (List.range 8).map fun g =>
    match groupCols nv g with
    | [] => none
    | cs => some (groupScale code (cs.map fun i => flOf32 (xs.getD i 0)))

/-- A group holds only zeros. -/
def zeroGroup (nv : Nat) (xs : List F32) (g : Nat) : Bool :=
  (groupCols nv g).all fun i => isZero (flOf32 (xs.getD i 0))

/-- The elements of a row at given group scales, with the count of saturated ones. -/
def formRow (code nv row : Nat) (r : Rounding) (scales : List Nat) (xs : List F32) : List Nat × Nat :=
  let es := (List.range 256).map fun i =>
    if i < nv then formElement code (scales.getD (i / 32) 127) (roundAt r row i) (flOf32 (xs.getD i 0)) else (0, false)
  (es.map (·.1), (es.filter (·.2)).length)

/-- The patterns of a row in a format without scales. -/
def plainRow (code nv row : Nat) (r : Rounding) (xs : List F32) : List Nat :=
  (List.range 256).map fun i =>
    if i < nv then
      (if code = 0 then (xs.getD i 0).toNat else toBf16 (roundAt r row i) (flOf32 (xs.getD i 0)))
    else 0

/-- The bytes of a raw row after `nv` valid elements are written over what it held (04 Table VEC-3, R95). -/
def rawRowBytes (fmt nv : Nat) (old : List Byte) (es scales : List Nat) : List Byte :=
  let groups := ceilDiv nv 32
  let scaleAt (i base : Nat) : Option Byte :=
    if base ≤ i ∧ i < base + groups then some (BitVec.ofNat 8 (scales.getD (i - base) 0)) else none
  let keep (i : Nat) : Byte := old.getD i 0
  match fmt with
  | 0 => (List.range 1024).map fun i => if i < 4 * nv then (leBytes (es.getD (i / 4) 0) 4).getD (i % 4) 0 else keep i
  | 1 => (List.range 512).map fun i => if i < 2 * nv then (leBytes (es.getD (i / 2) 0) 2).getD (i % 2) 0 else keep i
  | 2 | 3 => (List.range 320).map fun i =>
      if i < nv then BitVec.ofNat 8 (es.getD i 0)
      else if 264 ≤ i then 0 else (scaleAt i 256).getD (keep i)
  | 4 | 5 =>
    let low := 2 ^ (6 * nv)
    let new := (List.range nv).foldl (fun w n => w + es.getD n 0 * 2 ^ (6 * n)) 0
    let body := leBytes (leValue (old.take 192) / low * low + new) 192
    (List.range 256).map fun i =>
      if i < 192 then body.getD i 0 else if 200 ≤ i then 0 else (scaleAt i 192).getD (keep i)
  | _ => (List.range 192).map fun i =>
      if i < ceilDiv nv 2 then
        BitVec.ofNat 8 (es.getD (2 * i) 0 + (if 2 * i + 1 < nv then es.getD (2 * i + 1) 0 * 16 else 0))
      else if 136 ≤ i then 0 else (scaleAt i 128).getD (keep i)

/-- The counters of a row's conversion (0x2401.05, .06). -/
def noteConverted (sat : Nat) (scales : List (Option Nat)) (s : State) : State :=
  addObj (addObj s (key 0x2401 5) sat) (key 0x2401 6) (scales.filter (· == some 0xFF)).length

/-- What an encoder counts for a block, and the coding-loss source of 05 R139. -/
def noteEncoded (ph : Nat) (c : Cmd) (tab : Option Tab) (raised : Nat) (e : Encoded) (s : State) : State :=
  let s := addObj (addObj s (key 0x2501 5) 1) (key 0x2501 9) raised
  let s := if e.shift = 0 then s else addObj s (key 0x2501 6) 1
  let s := if e.lastZ then addObj s (key 0x2501 7) 1 else s
  let s := if e.nanBlock then addObj s (key 0x2501 8) 1 else s
  let s := if tab.isNone then addObj s (key 0x2501 0xC) 1 else s
  let lossy := decide (e.shift ≠ 0) || e.lastZ || e.nanBlock || decide (raised ≠ 0)
  let alarm := match tab with
    | some t => t.alarm
    | none => false
  if (lossy && alarm) || e.lastZ then
    raise 7 (.pond ph) (traceFault ph (Config.traceCode 1 % 65536) (tagOf c) (classOf c) 0 s)
  else s

/-- One row of 256 values coded as block `j` of a coded tensor at a byte offset (05 R135, R136): the bytes to write,
with their offsets, and what is counted. -/
def codedRow (code rate t nv row : Nat) (r : Rounding) (tab : Option Tab) (entryOld : List Byte) (xs : List F32) :
    Encoded × List Byte × Nat × Nat × List (Option Nat) :=
  if isMx code then
    let gs := rowScales code nv xs
    let part := (List.range 8).map fun g => if zeroGroup nv xs g then none else gs.getD g none
    let (entry, scales, raised) := formScales rate part
    let (es, sat) := formRow code nv row r scales xs
    let w := 1 + deltaBits rate
    let j := row % 32
    let old := leValue entryOld
    let sh := 8 * w * j
    let new := old - (old >>> sh) % 2 ^ (8 * w) * 2 ^ sh + entry * 2 ^ sh
    (encodeBlock code rate t tab es, leBytes new entryOld.length, raised, sat, gs)
  else (encodeBlock code rate t tab (plainRow code nv row r xs), [], 0, 0, [])

/-- Row `j` of a sweep written to a destination, `nv` columns of it valid (04 R95, R100). -/
def writeRow (ph : Nat) (c : Cmd) (o : Opnd) (r : Rounding) (j nv : Nat) (xs : List F32) (s : State) : State :=
  if nv = 0 then s
  else
    match o.sel with
    | 2 =>
      let off := o.addr * 64 + j * rowPitch o
      let old := bufRead (pondOf s ph) off (denseRow o.fmt)
      if isMx o.fmt then
        let gs := rowScales o.fmt nv xs
        let scales := gs.map fun g => g.getD 127
        let (es, sat) := formRow o.fmt nv j r scales xs
        noteConverted sat gs (modPond s ph fun pd => bufWrite pd off (rawRowBytes o.fmt nv old es scales))
      else
        modPond s ph fun pd => bufWrite pd off (rawRowBytes o.fmt nv old (plainRow o.fmt nv j r xs) [])
    | 3 =>
      let base := o.addr * 64
      let rate := opRate o
      let tab := match tabFn (pondOf s ph) (opTable o) with
        | some t => if t.fmt = o.fmt then some t else none
        | none => none
      let at_ := base + scaleBlockAt o.fmt rate j
      let (e, scaleBlock, raised, sat, gs) :=
        codedRow o.fmt rate (opTable o) nv j r tab (bufRead (pondOf s ph) at_ (scaleBytes o.fmt rate)) xs
      let s := modPond s ph fun pd => bufWrite (bufWrite pd (base + blockAt o.fmt rate j) e.bytes) at_ scaleBlock
      noteConverted sat gs (noteEncoded ph c tab raised e s)
    | 4 =>
      modPond s ph fun pd =>
        { pd with vregs := mapWrite 0 pd.vregs (o.addr % 32 * 256) (xs.take nv),
                  vregWritten := pd.vregWritten ||| 2 ^ (o.addr % 32) }
    | 5 =>
      modPond s ph fun pd =>
        let n := o.addr % 32 + j / 256
        { pd with vregs := mapPut 0 pd.vregs (n * 256 + j % 256) (xs.getD 0 0),
                  vregWritten := pd.vregWritten ||| 2 ^ n }
    | _ => s

/-! ## Row periods (04 R102, R111) -/

/-- Pond-buffer bytes that one row of a source takes. -/
def sourceRowBytes (o : Opnd) : Nat := if o.sel = 2 then denseRow o.fmt else 0

/-- Bytes that one row of a destination takes (04 R102). -/
def destRowBytes (o : Opnd) : Nat :=
  if o.sel = 2 then denseRow o.fmt else if o.sel = 3 then blockBytes o.fmt (opRate o) else 0

/-- An accumulator operand counts in n_acc. -/
def accOperand (o : Opnd) : Nat := if o.sel = 1 then 1 else 0

/-! ## Checks (04 Table VEC-10) -/

/-- Bytes that `rows` rows of an operand span in the pond buffer. -/
def opSpan (o : Opnd) (rows : Nat) : Nat :=
  if o.sel = 2 then o.addr * 64 + (rows - 1) * rowPitch o + denseRow o.fmt
  else if o.sel = 3 then o.addr * 64 + tensorBytes o.fmt (opRate o) rows
  else 0

/-- A descriptor is legal for a sweep of `rows` rows: reserved fields and codes, every row in range (04 Tables VEC-1,
VEC-2, VEC-10). `dest` says whether it is a destination, in which the padding field is reserved. -/
def opLegal (o : Opnd) (rows : Nat) (dest : Bool) : Bool :=
  decide (o.resv = 0) && decide (o.fmt ≠ 7) && (if dest then decide (o.pad = 0) else decide (o.pad ≠ 3)) &&
    match o.sel with
    | 0 => decide (o.addr = 0 ∧ o.stride = 0)
    | 1 => decide (o.addr + rows ≤ 2048) && decide (o.stride = 0) && !dest
    | 2 => decide (opSpan o rows ≤ bufSize)
    | 3 => decide (opSpan o rows ≤ bufSize) && decide (o.stride % 4 = 0) && (dest || decide (opTable o = 0))
    | 4 => decide (o.addr < 32 ∧ o.stride = 0)
    | 5 => decide (o.addr + (rows - 1) / 256 < 32) && decide (o.stride = 0)
    | 6 => decide (o.addr < 256 ∧ o.stride = 0)
    | _ => false

end Sys2Proof.Machine
end

