-- ==== Sys2Proof/Machine/Vector.lean ====
section
/-! DEFINITION. The vector engine (04 R97 to R104, R116, R119): element-wise operations, reductions, and the checks of
its commands. -/

namespace Sys2Proof.Machine

/-! ## Command words (04 Table VEC-7) -/

def vecDst (c : Cmd) : Opnd := longOf (bits c.w1.toNat 63 24)
def vecRows (c : Cmd) : Nat := bits c.w1.toNat 23 13 + 1
def vecFunc (c : Cmd) : Nat := bits c.w1.toNat 12 5
def vecRound (c : Cmd) : Nat := bits c.w1.toNat 4 3
def vecA (c : Cmd) : Opnd := longOf (bits c.w2.toNat 63 24)
def vecValidCols (c : Cmd) : Nat := bits c.w2.toNat 23 15
def vecB (c : Cmd) : Opnd := longOf (bits c.w3.toNat 63 24)
def vecC (c : Cmd) : Opnd := shortOf (bits c.w3.toNat 23 2)

/-- The relation or reduction codes that an opcode admits (04 Table VEC-4). -/
def funcLegal (op func : Nat) : Bool :=
  match op with
  | 0x0A => decide (func ≤ 4)
  | 0x20 => decide (func ≤ 4)
  | 0x21 => decide (func % 128 ≤ 4)
  | _ => decide (func = 0)

/-- A destination that an opcode admits (04 Table VEC-10). -/
def dstLegal (op : Nat) (o : Opnd) (rows : Nat) : Bool :=
  match op with
  | 0x20 => decide (o.sel = 5) && opLegal o rows true
  | 0x21 => decide (o.sel = 4) && opLegal o 1 true
  | _ => decide (o.sel ∉ [1, 5, 6]) && decide (o.sel = 4 → rows = 1) && opLegal o rows true

/-- A short descriptor is legal as a source (04 Tables VEC-2, VEC-10). -/
def shortLegal (o : Opnd) (rows : Nat) : Bool := decide (o.sel ≠ 3) && opLegal o rows false

/-- The checks of 04 Table VEC-10 on a vector command. -/
def vecLegal (c : Cmd) : Bool :=
  let op := opcodeOf c
  let rows := vecRows c
  funcLegal op (vecFunc c) && decide (vecRound c ≤ 1) && decide (bits c.w1.toNat 2 0 = 0) &&
    decide (bits c.w2.toNat 14 0 = 0) && decide (bits c.w3.toNat 1 0 = 0) &&
    decide (1 ≤ vecValidCols c ∧ vecValidCols c ≤ 256) && dstLegal op (vecDst c) rows &&
    opLegal (vecA c) rows false && opLegal (vecB c) rows false &&
    decide (¬(vecA c).sel = 3 ∨ ¬(vecB c).sel = 3) &&
    shortLegal (vecC c) rows

/-- Valid columns of row `j`: the extent of source A's slot when it is an accumulator source, else the command's
(04 R95). -/
def vecCols (pd : Pond) (c : Cmd) (j : Nat) : Nat :=
  if (vecA c).sel = 1 then accValid pd ((vecA c).addr % 2048 + j) else vecValidCols c

/-- The rounding of a command's conversions (04 R101). -/
def vecRounding (s : State) (l : Nat) (c : Cmd) (kb : Nat) : Rounding :=
  { stochastic := decide (vecRound c = 1), seed := seedOf s l, tag := tagOf c, kb := kb }

/-- The row period p_op of an opcode (04 Table VEC-4). -/
def vecOpPeriod (op : Nat) : Nat := if op = 0x10 then 5 else if 0x11 ≤ op ∧ op ≤ 0x1C then 4 else 1

/-- A coded source of a format takes 2 clk per row when a table of the pond that it may use allows escapes (04 R102). -/
def expanderPeriod (pd : Pond) (o : Opnd) : Nat :=
  if o.sel ≠ 3 then 0
  else if pd.tables.any fun e => e.2.valid && decide ((tabOf e.2.bytes).fmt = o.fmt) && allowsEscapes (tabOf e.2.bytes)
  then 2 else 1

/-- The row period p of a vector command (04 R102). -/
def vecPeriod (pd : Pond) (c : Cmd) : Nat :=
  let src := [vecA c, vecB c, vecC c]
  let sum (f : Opnd → Nat) : Nat := (src.map f).foldl (· + ·) 0
  max (max (vecOpPeriod (opcodeOf c)) (sum accOperand))
    (max (max (ceilDiv (sum sourceRowBytes) 2048) (ceilDiv (destRowBytes (vecDst c)) 1024))
      (max (expanderPeriod pd (vecA c)) (expanderPeriod pd (vecB c))))

/-- The instant at which row `j` of a vector command that starts now is issued. -/
def vecInstant (s : State) (ph : Nat) (c : Cmd) (j : Nat) : Nat := s.now + j * vecPeriod (pondOf s ph) c

/-- Every NaN result is 0x7FC0_0000 (04 R98). -/
def canon32 (x : F32) : F32 := if isNan (flOf32 x) then 0x7FC00000 else x

/-! ## Element-wise operations (04 Table VEC-4) -/

/-- Row `j` of one element-wise command: sources read, the operation, the destination written. -/
def vecRow (l ph : Nat) (c : Cmd) (f : F32 → F32 → F32 → F32) (j : Nat) (s : State) : State :=
  let pd := pondOf s ph
  let nv := vecCols pd c j
  let t := vecInstant s ph c j
  let (xs, da) := readRow pd t (vecA c) nv j
  let (ys, db) := readRow pd t (vecB c) nv j
  let (zs, _) := readRow pd t (vecC c) nv j
  let s := noteDecoded ph c (da.toList ++ db.toList) s
  let out := (List.range 256).map fun i => canon32 (f (xs.getD i 0) (ys.getD i 0) (zs.getD i 0))
  writeRow ph c (vecDst c) (vecRounding s l c 0xFFFF) j nv out s

/-- A vector command executed (04 R97): counted at 0x2401.01, with a request for the expander when a source is
coded. -/
def vecStart (c : Cmd) (s : State) : Started :=
  { ran (addObj s (key 0x2401 1) 1) with expander := decide ((vecA c).sel = 3) || decide ((vecB c).sel = 3) }

/-- One element-wise operation over a sweep. -/
def vectorOp (p op : Nat) (f : Nat → F32 → F32 → F32 → F32) (s : State) : Out :=
  onHead p 0x2 op (key 0x2401 7) s always (fun _ _ q => vecLegal q.cmd) fun ph q s =>
    vecStart q.cmd (forUpTo (vecRows q.cmd) (vecRow p ph q.cmd (f (vecFunc q.cmd))) s)

/-- The relations of CMP. -/
def relation (func : Nat) (a b : F32) : Bool :=
  let x := flOf32 a
  let y := flOf32 b
  let un := isNan x || isNan y
  match func with
  | 0 => !un && decide (flCompare x y = 0)
  | 1 => un || decide (flCompare x y ≠ 0)
  | 2 => !un && decide (flCompare x y < 0)
  | 3 => !un && decide (flCompare x y ≤ 0)
  | _ => un

def execAdd (p : Nat) (s : State) : Out := vectorOp p 0x01 (fun _ a b _ => add32 a b) s
def execSub (p : Nat) (s : State) : Out := vectorOp p 0x02 (fun _ a b _ => sub32 a b) s
def execMul (p : Nat) (s : State) : Out := vectorOp p 0x03 (fun _ a b _ => mul32 a b) s
def execFma (p : Nat) (s : State) : Out := vectorOp p 0x04 (fun _ a b c => fma32 a b c) s
def execMin (p : Nat) (s : State) : Out := vectorOp p 0x05 (fun _ a b _ => min32 a b) s
def execMax (p : Nat) (s : State) : Out := vectorOp p 0x06 (fun _ a b _ => max32 a b) s
def execAbs (p : Nat) (s : State) : Out := vectorOp p 0x07 (fun _ a _ _ => abs32 a) s
def execNeg (p : Nat) (s : State) : Out := vectorOp p 0x08 (fun _ a _ _ => neg32 a) s
def execSel (p : Nat) (s : State) : Out :=
  vectorOp p 0x09 (fun _ a b c => if isZero (flOf32 c) then b else a) s
def execVectorCmp (p : Nat) (s : State) : Out :=
  vectorOp p 0x0A (fun func a b _ => if relation func a b then one32 else 0) s
def execCvt (p : Nat) (s : State) : Out := vectorOp p 0x0B (fun _ a _ _ => a) s
def execDiv (p : Nat) (s : State) : Out := vectorOp p 0x10 (fun _ a b _ => div32 a b) s
def execSqrt (p : Nat) (s : State) : Out := vectorOp p 0x12 (fun _ a _ _ => sqrt32 a) s

/-! ## Functions (04 R98) -/

/-- What a function does at the infinities and at zero, and where it is not defined; `none` where its result is only
bounded. -/
structure FnEdges where
  atPosInf : F32
  atNegInf : F32
  atZero : F32 → Option F32
  negative : Bool

/-- A function with its exact limits: NaN for NaN and for negative arguments outside the domain; elsewhere `inside`. -/
def edgeFn (inside : F32 → F32) (e : FnEdges) (a : F32) : F32 :=
  match flOf32 a with
  | .nan => 0x7FC00000
  | .inf n => if n then e.atNegInf else e.atPosInf
  | .num n m _ =>
    if m = 0 then (e.atZero a).getD (inside a)
    else if n && e.negative then 0x7FC00000
    else inside a

/-- A vector function: its limits, and elsewhere a free value within the accuracy of Table VEC-4 (04 R97, R98). -/
def vecFn (op : Nat) (e : FnEdges) (a : F32) : F32 :=
  edgeFn (fun x => boundedResult (vectorUlps op) ((fixOf32 x).bind (vectorExact op)) (Config.vectorFn op x)) e a

def posInf32 : F32 := 0x7F800000
def negInf32 : F32 := 0xFF800000

/-- The limit at zero of a function whose value there has the sign of its argument. -/
def sameZero (a : F32) : Option F32 := some a

/-- A limit at +0 only; at −0 the manual states no value. -/
def atPlusZero (v : F32) (a : F32) : Option F32 := if a = 0 then some v else none

/-- RCP: 1 / a. -/
def execRcp (p : Nat) (s : State) : Out :=
  vectorOp p 0x11 (fun _ a _ _ => vecFn 0x11
    { atPosInf := 0, atNegInf := 0x80000000, atZero := fun z => some (if z = 0 then posInf32 else negInf32),
      negative := false } a) s

/-- RSQRT: 1 / √a. -/
def execRsqrt (p : Nat) (s : State) : Out :=
  vectorOp p 0x13 (fun _ a _ _ => vecFn 0x13
    { atPosInf := 0, atNegInf := 0x7FC00000, atZero := atPlusZero posInf32, negative := true } a) s

/-- EXP2: 2^a. -/
def execExp2 (p : Nat) (s : State) : Out :=
  vectorOp p 0x14 (fun _ a _ _ => vecFn 0x14
    { atPosInf := posInf32, atNegInf := 0, atZero := fun _ => some one32, negative := false } a) s

/-- LOG2. -/
def execLog2 (p : Nat) (s : State) : Out :=
  vectorOp p 0x15 (fun _ a _ _ => vecFn 0x15
    { atPosInf := posInf32, atNegInf := 0x7FC00000, atZero := atPlusZero negInf32, negative := true } a) s

/-- EXP: e^a. -/
def execExp (p : Nat) (s : State) : Out :=
  vectorOp p 0x16 (fun _ a _ _ => vecFn 0x16
    { atPosInf := posInf32, atNegInf := 0, atZero := fun _ => some one32, negative := false } a) s

/-- LOG: ln a. -/
def execLog (p : Nat) (s : State) : Out :=
  vectorOp p 0x17 (fun _ a _ _ => vecFn 0x17
    { atPosInf := posInf32, atNegInf := 0x7FC00000, atZero := atPlusZero negInf32, negative := true } a) s

/-- TANH. -/
def execTanh (p : Nat) (s : State) : Out :=
  vectorOp p 0x18 (fun _ a _ _ => vecFn 0x18
    { atPosInf := one32, atNegInf := 0xBF800000, atZero := sameZero, negative := false } a) s

/-- SIGMOID. -/
def execSigmoid (p : Nat) (s : State) : Out :=
  vectorOp p 0x19 (fun _ a _ _ => vecFn 0x19
    { atPosInf := one32, atNegInf := 0, atZero := fun _ => some 0x3F000000, negative := false } a) s

/-- SILU. -/
def execSilu (p : Nat) (s : State) : Out :=
  vectorOp p 0x1A (fun _ a _ _ => vecFn 0x1A
    { atPosInf := posInf32, atNegInf := 0x80000000, atZero := sameZero, negative := false } a) s

/-- GELU. -/
def execGelu (p : Nat) (s : State) : Out :=
  vectorOp p 0x1B (fun _ a _ _ => vecFn 0x1B
    { atPosInf := posInf32, atNegInf := 0x80000000, atZero := sameZero, negative := false } a) s

/-- SOFTPLUS. -/
def execSoftplus (p : Nat) (s : State) : Out :=
  vectorOp p 0x1C (fun _ a _ _ => vecFn 0x1C
    { atPosInf := posInf32, atNegInf := 0, atZero := fun _ => none, negative := false } a) s

/-! ## Reductions (04 R99) -/

/-- What a reduction takes from each element: the element, its magnitude, or its rounded square. -/
def reduceItem (func : Nat) (x : F32) : F32 :=
  match func with
  | 3 => abs32 x
  | 4 => mul32 x x
  | _ => x

/-- One step of a reduction, a sum rounded as given. -/
def reduceStep (func : Nat) (rm : Rm) (a b : F32) : F32 :=
  match func with
  | 1 => max32 a b
  | 2 => min32 a b
  | 3 => max32 a b
  | _ => toF32 rm (flAdd (flOf32 a) (flOf32 b))

/-- Adjacent pairs combined. -/
def pairUp (f : F32 → F32 → F32) : List F32 → List F32
  | a :: b :: rest => f a b :: pairUp f rest
  | l => l

/-- The fixed pairwise tree over 256 lanes. -/
def pairTree (f : F32 → F32 → F32) (xs : List F32) : F32 := ((List.range 8).foldl (fun l _ => pairUp f l) xs).headD 0

/-- Row `j` of RROW. -/
def rrowRow (l ph : Nat) (c : Cmd) (j : Nat) (s : State) : State :=
  let pd := pondOf s ph
  let nv := vecCols pd c j
  let (xs, d) := readRow pd (vecInstant s ph c j) (vecA c) nv j
  let s := noteDecoded ph c d.toList s
  let v := canon32 (pairTree (reduceStep (vecFunc c) .nearest) (xs.map (reduceItem (vecFunc c))))
  writeRow ph c (vecDst c) (vecRounding s l c 0xFFFF) j nv (List.replicate 256 v) s

/-- RROW: each row reduced across its columns into a lane of the column destination. -/
def execRrow (p : Nat) (s : State) : Out :=
  onHead p 0x2 0x20 (key 0x2401 7) s always (fun _ _ q => vecLegal q.cmd) fun ph q s =>
    vecStart q.cmd (forUpTo (vecRows q.cmd) (rrowRow p ph q.cmd) s)

/-- The running row of RCOL after row `j`: none before the first row. -/
def rcolStep (r : Rounding) (func : Nat) (j : Nat) (acc : Option (List F32)) (xs : List F32) : List F32 :=
  let items := xs.map (reduceItem func)
  match acc with
  | none => items
  | some ys => (List.range 256).map fun i =>
      reduceStep func (roundAt r j i) (ys.getD i 0) (items.getD i 0)

/-- RCOL: each column reduced across the sweep's rows in ascending order into a register; func bit 7 starts from its
previous contents. -/
def execRcol (p : Nat) (s : State) : Out :=
  onHead p 0x2 0x21 (key 0x2401 7) s always (fun _ _ q => vecLegal q.cmd) fun ph q s =>
    let c := q.cmd
    let pd := pondOf s ph
    let func := vecFunc c % 128
    let r := vecRounding s p c 0xFFFE
    let start := if bitAt (vecFunc c) 7 then some (vreg pd ((vecDst c).addr % 32)) else none
    let (acc, ds) := (List.range (vecRows c)).foldl
      (fun (a : Option (List F32) × List Decoded) j =>
        let (xs, d) := readRow pd (vecInstant s ph c j) (vecA c) (vecCols pd c j) j
        (some (rcolStep r func j a.1 xs), a.2 ++ d.toList)) (start, [])
    let nv := (List.range (vecRows c)).foldl (fun n j => max n (vecCols pd c j)) 0
    let s := noteDecoded ph c ds s
    let out := (acc.getD []).map canon32
    vecStart c (writeRow ph c (vecDst c) (vecRounding s p c 0xFFFF) 0 nv out s)

end Sys2Proof.Machine
end

