-- ==== Sys2Proof/Machine/Gate.lean ====
section
/-! DEFINITION. The gate pipeline's GATE command and the window reducer (04 R105 to R119). -/

namespace Sys2Proof.Machine

/-! ## Gate functions (04 Table VEC-6) -/

/-- The gate function of a code: its exact values, and elsewhere a free value within 4 units in the last place (04
R106). The expression of gelu tends to +∞ at +∞, from which no finite value is within the bound, and to zero at −∞; its
zero at −0 has the sign of the free value (log 28). -/
def gateFn (code : Nat) (x : F32) : F32 :=
  let fn (e : FnEdges) : F32 := canon32 (edgeFn (fun y =>
    boundedResult 4 ((fixOf32 y).bind (gateExact code)) (Config.gateFn code y)) e x)
  let half : F32 := 0x3F000000
  match code with
  | 0 => canon32 x
  | 1 => fn { atPosInf := one32, atNegInf := 0, atZero := fun _ => some half, negative := false }
  | 2 => fn { atPosInf := one32, atNegInf := 0xBF800000, atZero := sameZero, negative := false }
  | 3 => fn { atPosInf := posInf32, atNegInf := 0x80000000, atZero := sameZero, negative := false }
  | 4 => fn { atPosInf := posInf32, atNegInf := 0, atZero := fun _ => none, negative := false }
  | 5 => fn { atPosInf := 0, atNegInf := one32, atZero := fun _ => some half, negative := false }
  | 6 => fn { atPosInf := 0, atNegInf := posInf32, atZero := fun _ => some one32, negative := false }
  | 7 => max32 x 0
  | _ => fn { atPosInf := posInf32, atNegInf := boundedResult 4 (some 0) (Config.gateFn code negInf32),
              atZero := fun z => some (if z = 0 then 0 else Config.gateFn code z &&& 0x80000000), negative := false }

/-! ## Updates of a state row (08 R233, R245) -/

/-- The plain update h = fma(a, h_prev, b). -/
def plainUpdate (a h b : F32) : F32 := fma32 a h b

/-- The compensated update of a channel (08 R245): the new state and its compensation word. -/
def compensatedUpdate (a h c b : F32) : F32 × F32 :=
  let p := mul32 a h
  let e1 := fma32 a h (neg32 p)
  let s := add32 p b
  let e2 := toF32 .nearest (flAdd (flAdd (flOf32 p) (flOf32 b)) (flNeg (flOf32 s)))
  let t := fma32 a c (add32 e1 e2)
  let h' := add32 s t
  (h', toF32 .nearest (flAdd (flAdd (flOf32 s) (flOf32 t)) (flNeg (flOf32 h'))))

/-- 256 FP32 values of a raw row at a byte offset of the pond buffer. -/
def rowAt (pd : Pond) (off : Nat) : List F32 :=
  let bs := bufRead pd off 1024
  (List.range 256).map fun i => BitVec.ofNat 32 (leValue ((bs.drop (4 * i)).take 4))

/-- The first `nv` values of a row written as FP32 at a byte offset. -/
def putRow (off nv : Nat) (xs : List F32) (pd : Pond) : Pond :=
  bufWrite pd off ((xs.take nv).flatMap fun x => leBytes x.toNat 4)

/-- A reset bitmap marks row `j` (04 R107). -/
def markedRow (pd : Pond) (bitmap j : Nat) : Bool :=
  bitAt (mapFind 0 pd.buf (bitmap + j / 8)).toNat (j % 8)

/-! ## GATE (04 Table VEC-8, R105 to R111) -/

def gateDst (c : Cmd) : Opnd := longOf (bits c.w1.toNat 63 24)
def gateRows (c : Cmd) : Nat := bits c.w1.toNat 23 13 + 1
def gateFunc (c : Cmd) : Nat := bits c.w1.toNat 12 9
def gateCombine (c : Cmd) : Nat := bits c.w1.toNat 8 7
def gateMode (c : Cmd) : Nat := bits c.w1.toNat 6 5
def gateTap (c : Cmd) : Bool := bitAt c.w1.toNat 4
def gateReset (c : Cmd) : Bool := bitAt c.w1.toNat 3
def gateBias (c : Cmd) : Bool := bitAt c.w1.toNat 2
def gateX (c : Cmd) : Opnd := shortOf (bits c.w2.toNat 63 42)
def gateY (c : Cmd) : Opnd := shortOf (bits c.w2.toNat 41 20)
def gateTapped (c : Cmd) : Nat := bits c.w2.toNat 15 0
def gateZ (c : Cmd) : Opnd := shortOf (bits c.w3.toNat 63 42)
def gateState (c : Cmd) : Nat := bits c.w3.toNat 41 24 * 64
def gateBitmap (c : Cmd) : Nat := bits c.w3.toNat 23 6 * 64
def gateBiasReg (c : Cmd) : Nat := bits c.w3.toNat 5 1

/-- The row period p_g of 04 R111. -/
def gatePeriod (c : Cmd) : Nat :=
  let useY := decide (gateCombine c ≠ 0)
  let useZ := decide (gateMode c ≠ 0)
  let st := if gateMode c = 1 then 1024 else if gateMode c = 2 then 2048 else 0
  let on (b : Bool) (n : Nat) : Nat := if b then n else 0
  let acc := on (!gateTap c) (accOperand (gateX c)) + on useY (accOperand (gateY c)) + on useZ (accOperand (gateZ c))
  let rd := sourceRowBytes (gateX c) + on useY (sourceRowBytes (gateY c)) + on useZ (sourceRowBytes (gateZ c)) + st
  let wr := st + destRowBytes (gateDst c)
  max (max 1 acc) (max (ceilDiv rd 4096) (ceilDiv wr 2048))

/-- The tag's command index (06 Table CMD-2). -/
def indexOf (c : Cmd) : Nat := tagOf c % 65536

/-- A destination of a GATE: none, rows of the pond buffer, or one row of a register (04 Tables VEC-8, VEC-10; log 58). -/
def gateDstLegal (o : Opnd) (rows : Nat) : Bool :=
  decide (o.sel ∈ [0, 2, 3, 4]) && (decide (o.sel ≠ 4) || decide (rows = 1)) && opLegal o rows true

/-- The checks of 04 Table VEC-10 on a GATE command. -/
def gateLegal (c : Cmd) : Bool :=
  let rows := gateRows c
  decide (gateFunc c ≤ 8) && decide (gateCombine c ≤ 2) && decide (gateMode c ≤ 2) &&
    decide (bits c.w1.toNat 1 0 = 0) && decide (bits c.w2.toNat 19 16 = 0) && decide (bits c.w3.toNat 0 0 = 0) &&
    gateDstLegal (gateDst c) rows && shortLegal (gateX c) rows && shortLegal (gateY c) rows &&
    shortLegal (gateZ c) rows &&
    (gateMode c = 0 || decide (gateState c + (if gateMode c = 2 then 2 else 1) * rows * 1024 ≤ bufSize)) &&
    (!gateReset c || decide (gateBitmap c + ceilDiv rows 8 ≤ bufSize)) &&
    (if gateTap c then decide (gatePeriod c = 1) && decide ((gateX c).sel = 1) && decide (indexOf c < gateTapped c)
     else decide (gateTapped c = 0))

/-- Rounding of the gate pipeline's conversions: to nearest even. -/
def gateRounding : Rounding := { stochastic := false, seed := 0, tag := 0, kb := 0 }

/-- Valid columns of a row whose source A is `o` (04 R95). -/
def sourceCols (pd : Pond) (o : Opnd) (j : Nat) : Nat := if o.sel = 1 then accValid pd (o.addr % 2048 + j) else 256

/-- The bias lanes of a command. -/
def biasLanes (pd : Pond) (on : Bool) (reg : Nat) : List F32 := if on then vreg pd reg else List.replicate 256 0

/-- The pond as a gate command sees it that has taken its copy of the vector registers (04 R91). -/
def withCopy (regs : NMap F32) (pd : Pond) : Pond := { pd with vregs := regs }

/-- Where the gate pipeline writes: it writes no register (04 R89), so that a register destination, which Tables VEC-8 and
VEC-10 let pass, is written by nothing (log 58). -/
def gateOut (o : Opnd) : Opnd := if o.sel = 4 then { o with sel := 0 } else o

/-- Stages 2 and 3 on one lane (04 Table VEC-5). -/
def gateCombined (func combine : Nat) (x y : F32) : F32 :=
  let g := gateFn func x
  match combine with
  | 0 => g
  | 1 => mul32 g y
  | _ => mul32 (sub32 one32 g) y

/-- Row `j` of a GATE command with its copy of the registers and its input row, at instant `t` (04 Table VEC-5, R107);
without a bias, x = X + 0. -/
def gateRow (ph : Nat) (c : Cmd) (regs : NMap F32) (t j : Nat) (xs : List F32) (s : State) : State :=
  let pd := withCopy regs (pondOf s ph)
  let nv := sourceCols pd (gateX c) j
  let bias := biasLanes pd (gateBias c) (gateBiasReg c)
  let (ys, _) := readRow pd t (gateY c) 256 j
  let (zs, _) := readRow pd t (gateZ c) 256 j
  let o := (List.range 256).map fun i =>
    gateCombined (gateFunc c) (gateCombine c) (add32 (xs.getD i 0) (bias.getD i 0)) (ys.getD i 0)
  if gateMode c = 0 then writeRow ph c (gateOut (gateDst c)) gateRounding j nv o s
  else
    let marked := gateReset c && markedRow pd (gateBitmap c) j
    let at_ := gateState c + j * 1024
    let hs := rowAt pd at_
    let rows := gateRows c
    let cat_ := gateState c + (rows + j) * 1024
    let cs := rowAt pd cat_
    let z (i : Nat) : F32 := canon32 (zs.getD i 0)
    let hc := (List.range 256).map fun i =>
      if marked then (z i, (0 : F32))
      else if gateMode c = 1 then (plainUpdate (o.getD i 0) (hs.getD i 0) (zs.getD i 0), 0)
      else compensatedUpdate (o.getD i 0) (hs.getD i 0) (cs.getD i 0) (zs.getD i 0)
    let h := hc.map (·.1)
    let s := if marked then addObj s (key 0x2402 4) 1 else s
    let s := modPond s ph (putRow at_ nv h)
    let s := if gateMode c = 2 then modPond s ph (putRow cat_ nv (hc.map (·.2))) else s
    writeRow ph c (gateOut (gateDst c)) gateRounding j nv h s

/-- The gate pipeline starts no command while a tap is armed (04 R88, R108). -/
def gateReady (s : State) (ph : Nat) (_ : Queued) : Bool := (pondOf s ph).tap.isNone

/-- A tap armed by a queued command for `rows` rows (04 R108). -/
def armTap (ph : Nat) (q : Queued) (rows : Nat) (s : State) : State :=
  modPond s ph fun pd =>
    { pd with tap := some { cmd := q.cmd, program := q.program, id := pd.nextId, expected := rows, captured := [], regs := pd.vregs } }

/-- GATE (04 R105): arms its tap, or processes every row. -/
def execGate (p : Nat) (s : State) : Out :=
  onHead p 0x3 0x01 (key 0x2401 7) s gateReady (fun _ _ q => gateLegal q.cmd) fun ph q s =>
    let c := q.cmd
    let s := addObj s (key 0x2402 1) 1
    if gateTap c then ran (armTap ph q (gateRows c) s)
    else
      let regs := (pondOf s ph).vregs
      ran (forUpTo (gateRows c) (fun j s =>
        let t := s.now + j * gatePeriod c
        gateRow ph c regs t j (readRow (withCopy regs (pondOf s ph)) t (gateX c) 256 j).1 s) s)

/-! ## The window reducer (04 R113, Table VEC-9) -/

def poolDst (c : Cmd) : Opnd := longOf (bits c.w1.toNat 63 24)
def poolHo (c : Cmd) : Nat := bits c.w1.toNat 23 12
def poolWo (c : Cmd) : Nat := bits c.w1.toNat 11 0
def poolSrc (c : Cmd) : Opnd := longOf (bits c.w2.toNat 63 24)
def poolH (c : Cmd) : Nat := bits c.w2.toNat 23 12
def poolW (c : Cmd) : Nat := bits c.w2.toNat 11 0
def poolKh (c : Cmd) : Nat := bits c.w3.toNat 63 61 + 1
def poolKw (c : Cmd) : Nat := bits c.w3.toNat 60 58 + 1
def poolSh (c : Cmd) : Nat := bits c.w3.toNat 57 55 + 1
def poolSw (c : Cmd) : Nat := bits c.w3.toNat 54 52 + 1
def poolPt (c : Cmd) : Nat := bits c.w3.toNat 51 49
def poolPl (c : Cmd) : Nat := bits c.w3.toNat 48 46
def poolOp (c : Cmd) : Nat := bits c.w3.toNat 45 44
def poolCols (c : Cmd) : Nat := bits c.w3.toNat 43 35

/-- The checks of 04 Table VEC-10 on a POOL command. -/
def poolLegal (c : Cmd) : Bool :=
  decide (bits c.w3.toNat 34 0 = 0) && decide (1 ≤ poolHo c ∧ 1 ≤ poolWo c ∧ 1 ≤ poolH c ∧ 1 ≤ poolW c) &&
    decide (1 ≤ poolCols c ∧ poolCols c ≤ 256) && decide (poolPt c < poolKh c ∧ poolPl c < poolKw c) &&
    decide ((poolHo c - 1) * poolSh c < poolH c + poolPt c ∧ (poolWo c - 1) * poolSw c < poolW c + poolPl c) &&
    decide ((poolDst c).sel = 2 ∨ (poolDst c).sel = 3) && decide ((poolSrc c).sel = 2 ∨ (poolSrc c).sel = 3) &&
    opLegal (poolDst c) (poolHo c * poolWo c) true && opLegal (poolSrc c) (poolH c * poolW c) false

/-- The input rows of the window of an output position, in order: `none` outside the map. -/
def poolWindow (c : Cmd) (y x : Nat) : List (Option Nat) :=
  (List.range (poolKh c)).flatMap fun i => (List.range (poolKw c)).map fun k =>
    let r := y * poolSh c + i
    let q := x * poolSw c + k
    if poolPt c ≤ r ∧ r - poolPt c < poolH c ∧ poolPl c ≤ q ∧ q - poolPl c < poolW c
    then some ((r - poolPt c) * poolW c + (q - poolPl c)) else none

/-- One channel of a window reduced: the values, `none` outside the map (04 R113). -/
def poolReduce (op : Nat) (vs : List (Option F32)) : F32 :=
  let sum : F32 := match vs.map (·.getD 0) with
    | [] => 0
    | v :: rest => rest.foldl add32 v
  match op with
  | 0 => vs.foldl (fun a v => max32 a (v.getD negInf32)) negInf32
  | 1 => canon32 sum
  | 2 => div32 sum (ofNat32 vs.length)
  | _ => div32 sum (ofNat32 (vs.filter (·.isSome)).length)

/-- One output position of POOL. -/
def poolPosition (ph : Nat) (c : Cmd) (n : Nat) (s : State) : State :=
  let pd := pondOf s ph
  let rows := (poolWindow c (n / poolWo c) (n % poolWo c)).map fun w =>
    w.map fun j => readRow pd s.now (poolSrc c) (poolCols c) j
  let s := noteDecoded ph c (rows.filterMap fun r => r.bind (·.2)) s
  let out := (List.range 256).map fun i => poolReduce (poolOp c) (rows.map fun r => r.map fun x => x.1.getD i 0)
  addObj (writeRow ph c (poolDst c) gateRounding n (poolCols c) out s) (key 0x2403 2) 1

/-- POOL (04 R113): every output position reduced over its window. -/
def execPool (p : Nat) (s : State) : Out :=
  onHead p 0x7 0x01 (key 0x2401 7) s always (fun _ _ q => poolLegal q.cmd) fun ph q s =>
    let c := q.cmd
    let s := forUpTo (poolHo c * poolWo c) (poolPosition ph c) (addObj s (key 0x2403 1) 1)
    { ran s with expander := decide ((poolSrc c).sel = 3) }

end Sys2Proof.Machine
end

