-- ==== Sys2Proof/Machine/Recur.lean ====
section
/-! DEFINITION. Recurrent state layers (08): SSTEP, SCAN and SFIX on the gate pipeline, and the rows that an armed tap
feeds it (04 R108, 08 R239). -/

namespace Sys2Proof.Machine

/-! ## Command words (08 Tables REC-5, REC-6) -/

def scanDst (c : Cmd) : Opnd := longOf (bits c.w1.toNat 63 24)
def sstepRows (c : Cmd) : Nat := bits c.w1.toNat 23 13 + 1
def scanT (c : Cmd) : Nat := bits c.w1.toNat 23 12 + 1
def scanR (c : Cmd) : Nat := bits c.w1.toNat 11 0 + 1
def scanA (c : Cmd) : Opnd := shortOf (bits c.w2.toNat 63 42)
def scanV (c : Cmd) : Opnd := shortOf (bits c.w2.toNat 41 20)
def scanTapped (c : Cmd) : Nat := bits c.w2.toNat 19 10
def scanFunc (c : Cmd) : Nat := bits c.w2.toNat 9 6
def scanForm (c : Cmd) : Nat := bits c.w2.toNat 5 4
def scanComp (c : Cmd) : Bool := bitAt c.w2.toNat 3
def scanReset (c : Cmd) : Bool := bitAt c.w2.toNat 2
def scanBias (c : Cmd) : Bool := bitAt c.w2.toNat 1
def scanTap (c : Cmd) : Bool := bitAt c.w2.toNat 0
def scanState (c : Cmd) : Nat := bits c.w3.toNat 63 46 * 64
def scanBitmap (c : Cmd) : Nat := bits c.w3.toNat 45 28 * 64
def scanP (c : Cmd) : Nat := bits c.w3.toNat 27 10 * 64
def scanBiasReg (c : Cmd) : Nat := bits c.w3.toNat 9 5
def scanLocal (c : Cmd) : Bool := bitAt c.w3.toNat 4
def scanInit (c : Cmd) : Bool := bitAt c.w3.toNat 3
def scanReverse (c : Cmd) : Bool := bitAt c.w3.toNat 2
def sfixLocal (c : Cmd) : Nat := bits c.w2.toNat 63 46 * 64
def sfixP (c : Cmd) : Nat := bits c.w2.toNat 45 28 * 64
def sfixCarry (c : Cmd) : Nat := bits c.w2.toNat 27 10 * 64
def sfixUpdate (c : Cmd) : Bool := bitAt c.w2.toNat 9

/-- Operand rows of an SSTEP or SCAN. -/
def scanRows (c : Cmd) : Nat := if opcodeOf c = 0x10 then sstepRows c else scanT c * scanR c

/-- State rows that an SSTEP or SCAN addresses (08 R236). -/
def scanStateRows (c : Cmd) : Nat := if opcodeOf c = 0x10 then sstepRows c else scanR c

/-- The row period p_s (08 R238, Table REC-3). -/
def scanPeriod (c : Cmd) : Nat :=
  let st := if opcodeOf c = 0x10 then (if scanComp c then 2048 else 1024) else 0
  let acc := (if scanTap c then 0 else accOperand (scanA c)) + accOperand (scanV c)
  let rd := sourceRowBytes (scanA c) + sourceRowBytes (scanV c) + st
  let wr := st + destRowBytes (scanDst c) + (if opcodeOf c = 0x11 && scanLocal c then 1024 else 0)
  max (max 1 acc) (max (ceilDiv rd 4096) (ceilDiv wr 2048))

/-- The feedback latency λ (08 R238). -/
def scanLambda (c : Cmd) : Nat := if scanComp c then 8 else 4

/-- A source of a scan command: accumulator rows, or dense FP32 rows (08 Table REC-7). -/
def scanSource (o : Opnd) (rows : Nat) : Bool := decide (o.sel = 1 ∨ o.sel = 2) && decide (o.fmt = 0) && opLegal o rows false

/-- A destination of a scan command: Table REC-7 turns selectors 1, 5 and 6 away; a register that it lets pass is written
by nothing (04 R89, log 58). -/
def scanDstLegal (o : Opnd) (rows : Nat) : Bool := decide (o.sel ∈ [0, 2, 3, 4]) && opLegal o rows true

/-- The checks of 08 Table REC-7 on an SSTEP or SCAN. -/
def scanLegal (c : Cmd) : Bool :=
  let rows := scanRows c
  let sstep := decide (opcodeOf c = 0x10)
  decide (scanForm c ≤ 1) && decide (scanFunc c ≤ 8) && decide (bits c.w3.toNat 1 0 = 0) &&
    (!sstep || decide (bits c.w1.toNat 12 0 = 0 ∧ bits c.w3.toNat 27 10 = 0 ∧ bits c.w3.toNat 4 2 = 0)) &&
    scanSource (scanA c) rows && scanSource (scanV c) rows && scanDstLegal (scanDst c) rows &&
    (!scanLocal c || (!scanComp c && scanInit c && decide ((scanDst c).sel = 2 ∧ (scanDst c).fmt = 0))) &&
    (if scanTap c then
       decide (scanPeriod c = 1) && decide ((scanA c).sel = 1) && decide (indexOf c < scanTapped c) &&
         (sstep || decide (scanLambda c ≤ scanR c))
     else decide (scanTapped c = 0)) &&
    (scanLocal c ||
      decide (scanState c + (if scanComp c then 2 else 1) * scanStateRows c * 1024 ≤ bufSize)) &&
    (!scanReset c || decide (scanBitmap c + ceilDiv rows 8 ≤ bufSize)) &&
    (!scanLocal c || decide (scanP c + rows * 1024 ≤ bufSize))

/-- The checks of 08 Table REC-7 on an SFIX. -/
def sfixLegal (c : Cmd) : Bool :=
  let rows := scanT c * scanR c
  decide (bits c.w2.toNat 8 0 = 0) && decide (c.w3 = 0) && decide ((scanDst c).sel ≠ 0) &&
    scanDstLegal (scanDst c) rows && decide (sfixLocal c + rows * 1024 ≤ bufSize) &&
    decide (sfixP c + rows * 1024 ≤ bufSize) && decide (sfixCarry c + scanR c * 1024 ≤ bufSize)

/-! ## One row (08 R233, R234) -/

/-- The coefficients of a row: a = f(A + bias), the bias +0 when it is off. -/
def coefficients (pd : Pond) (c : Cmd) (as : List F32) : List F32 :=
  let bias := biasLanes pd (scanBias c) (scanBiasReg c)
  (List.range 256).map fun i => gateFn (scanFunc c) (add32 (as.getD i 0) (bias.getD i 0))

/-- The term b of a form (08 Table REC-1). -/
def formTerm (form : Nat) (a v : F32) : F32 := if form = 0 then v else mul32 (sub32 one32 a) v

/-- The update of one row: new state and compensation rows from the previous ones; a marked row is set exactly. -/
def updateRow (comp : Bool) (form : Nat) (marked : Bool) (as vs hs cs : List F32) : List F32 × List F32 :=
  let hc := (List.range 256).map fun i =>
    let v := canon32 (vs.getD i 0)
    if marked then (v, (0 : F32))
    else
      let b := formTerm form (as.getD i 0) (vs.getD i 0)
      if comp then compensatedUpdate (as.getD i 0) (hs.getD i 0) (cs.getD i 0) b
      else (plainUpdate (as.getD i 0) (hs.getD i 0) b, 0)
  (hc.map (·.1), hc.map (·.2))

/-- A row's coefficients reach beyond 1 or are NaN (08 R234, 0x2801.07). -/
def aboveOne (as : List F32) : Bool :=
  as.any fun a => isNan (flOf32 a) || decide (flCompare (flOf32 (abs32 a)) (flOf32 one32) = 1)

/-- What every row of a scan command counts (0x2801.04 to .07). -/
def countRow (c : Cmd) (marked : Bool) (as : List F32) (s : State) : State :=
  let s := addObj s (key 0x2801 4) 1
  let s := if scanComp c then addObj s (key 0x2801 5) 1 else s
  if marked then addObj s (key 0x2801 6) 1
  else if aboveOne as then addObj s (key 0x2801 7) 1 else s

/-! ## SSTEP (08 R237) -/

/-- Row `j` of an SSTEP with its copy of the registers and its coefficient input, at instant `t`. -/
def sstepRow (ph : Nat) (c : Cmd) (regs : NMap F32) (t j : Nat) (xs : List F32) (s : State) : State :=
  let pd := withCopy regs (pondOf s ph)
  let nv := sourceCols pd (scanA c) j
  let marked := scanReset c && markedRow pd (scanBitmap c) j
  let as := coefficients pd c xs
  let (vs, _) := readRow pd t (scanV c) 256 j
  let at_ := scanState c + j * 1024
  let cat_ := scanState c + (sstepRows c + j) * 1024
  let (h, cw) := updateRow (scanComp c) (scanForm c) marked as vs (rowAt pd at_) (rowAt pd cat_)
  let s := modPond s ph (putRow at_ nv h)
  let s := if scanComp c then modPond s ph (putRow cat_ nv cw) else s
  writeRow ph c (gateOut (scanDst c)) gateRounding j nv h (countRow c marked as s)

/-- SSTEP: one update of every state row. -/
def execSstep (p : Nat) (s : State) : Out :=
  onHead p 0x3 0x10 (key 0x2801 0xA) s gateReady (fun _ _ q => scanLegal q.cmd) fun ph q s =>
    let c := q.cmd
    let s := addObj s (key 0x2801 1) 1
    if scanTap c then ran (armTap ph q (sstepRows c) s)
    else
      let regs := (pondOf s ph).vregs
      ran (forUpTo (sstepRows c) (fun j s =>
        let t := s.now + j * scanPeriod c
        sstepRow ph c regs t j (readRow (pondOf s ph) t (scanA c) 256 j).1 s) s)

/-! ## SCAN (08 R240 to R242, R244) -/

/-- What a SCAN carries along a lane: state, compensation word, running product. -/
structure Lane where
  h : List F32
  c : List F32
  p : List F32
  deriving DecidableEq

/-- A row of zeros. -/
def zeroRow : List F32 := List.replicate 256 0

/-- Lane `j` before its first step (08 R240, R241). -/
def startLane (pd : Pond) (c : Cmd) (j : Nat) : Lane :=
  let fromState := !scanLocal c && !scanInit c
  { h := if fromState then rowAt pd (scanState c + j * 1024) else zeroRow,
    c := if fromState && scanComp c then rowAt pd (scanState c + (scanR c + j) * 1024) else zeroRow,
    p := List.replicate 256 one32 }

/-- Row `i` of a SCAN with its copy of the registers and its coefficient input, at instant `t`: the lanes and the state
after it. -/
def scanRow (ph : Nat) (c : Cmd) (regs : NMap F32) (t i : Nat) (xs : List F32) (a : List Lane × State) :
    List Lane × State :=
  let (lanes, s) := a
  let j := i % scanR c
  let ln := lanes.getD j { h := zeroRow, c := zeroRow, p := zeroRow }
  let pd := withCopy regs (pondOf s ph)
  let nv := sourceCols pd (scanA c) i
  let marked := scanReset c && markedRow pd (scanBitmap c) i
  let as := coefficients pd c xs
  let (vs, _) := readRow pd t (scanV c) 256 i
  let (h, cw) := updateRow (scanComp c) (scanForm c) marked as vs ln.h ln.c
  let pr := if marked then zeroRow else (List.range 256).map fun n => mul32 (as.getD n 0) (ln.p.getD n 0)
  let s := if scanLocal c then modPond s ph (putRow (scanP c + i * 1024) nv pr) else s
  let s := writeRow ph c (gateOut (scanDst c)) gateRounding i nv h (countRow c marked as s)
  (lanes.set j { h := h, c := cw, p := pr }, s)

/-- Each lane's final result written to its state row (08 R240). -/
def finishScan (ph : Nat) (c : Cmd) (a : List Lane × State) : State :=
  if scanLocal c then a.2
  else
    forUpTo (scanR c) (fun j s =>
      let ln := a.1.getD j { h := zeroRow, c := zeroRow, p := zeroRow }
      let nv := sourceCols (pondOf s ph) (scanA c) j
      let s := modPond s ph (putRow (scanState c + j * 1024) nv ln.h)
      if scanComp c then modPond s ph (putRow (scanState c + (scanR c + j) * 1024) nv ln.c) else s) a.2

/-- The order in which the rows of a SCAN issue (08 R242). -/
def scanOrder (c : Cmd) : List Nat :=
  let is := List.range (scanT c * scanR c)
  if scanReverse c then is.reverse else is

/-- The lanes of a SCAN before its first row. -/
def startLanes (pd : Pond) (c : Cmd) : List Lane := (List.range (scanR c)).map (startLane pd c)

/-- The instant of the row that issues `k`-th in a SCAN that starts now (08 R238, Table REC-3): after the state rows have
been read, R rows a step, and no step before λ has passed since the one before. -/
def scanInstant (now : Nat) (c : Cmd) (k : Nat) : Nat :=
  let st := if scanLocal c then 0 else if scanComp c then 2048 else 1024
  now + ceilDiv (scanR c * st) 4096 + k / scanR c * max (scanR c * scanPeriod c) (scanLambda c) + k % scanR c * scanPeriod c

/-- The stall that λ imposes between steps (08 R238, 0x2801.08). -/
def scanStall (c : Cmd) : Nat := (scanT c - 1) * (scanLambda c - scanR c * scanPeriod c)

/-- SCAN: the update over T steps for R lanes. -/
def execScan (p : Nat) (s : State) : Out :=
  onHead p 0x3 0x11 (key 0x2801 0xA) s gateReady (fun _ _ q => scanLegal q.cmd) fun ph q s =>
    let c := q.cmd
    let s := addObj (addObj s (key 0x2801 2) 1) (key 0x2801 8) (scanStall c)
    if scanTap c then ran (armTap ph q (scanT c * scanR c) s)
    else
      let regs := (pondOf s ph).vregs
      let step (a : List Lane × State) (i : Nat) : List Lane × State :=
        let t := scanInstant s.now c (if scanReverse c then scanT c * scanR c - 1 - i else i)
        scanRow ph c regs t i (readRow (pondOf a.2 ph) t (scanA c) 256 i).1 a
      ran (finishScan ph c ((scanOrder c).foldl step (startLanes (pondOf s ph) c, s)))

/-! ## SFIX (08 R243) -/

/-- The P row of an SFIX row, and the state that it joins with the carry of its lane. -/
def sfixState (pd : Pond) (c : Cmd) (carries : List (List F32)) (i : Nat) : List F32 × List F32 :=
  let ps := rowAt pd (sfixP c + i * 1024)
  let hl := rowAt pd (sfixLocal c + i * 1024)
  let cs := carries.getD (i % scanR c) zeroRow
  (ps, (List.range 256).map fun n =>
    if isZero (flOf32 (ps.getD n 0)) then canon32 (hl.getD n 0)
    else fma32 (ps.getD n 0) (cs.getD n 0) (hl.getD n 0))

/-- Row `i` of an SFIX with the carries: the carries of the next chunk and the state. -/
def sfixRow (ph : Nat) (c : Cmd) (carries : List (List F32)) (i : Nat) (a : List (List F32) × State) :
    List (List F32) × State :=
  let (last, s) := a
  let (ps, h) := sfixState (pondOf s ph) c carries i
  let s := addObj s (key 0x2801 4) 1
  let s := if ps.all fun x => isZero (flOf32 x) then addObj s (key 0x2801 9) 1 else s
  (last.set (i % scanR c) h, writeRow ph c (gateOut (scanDst c)) gateRounding i 256 h s)

/-- After the last row, an SFIX that updates its carries writes the last step's rows to them (08 R243). -/
def finishSfix (ph : Nat) (c : Cmd) (a : List (List F32) × State) : State :=
  if sfixUpdate c then
    forUpTo (scanR c) (fun j s => modPond s ph (putRow (sfixCarry c + j * 1024) 256 (a.1.getD j zeroRow))) a.2
  else a.2

/-- SFIX: a local scan joined with the carry rows. -/
def execSfix (p : Nat) (s : State) : Out :=
  onHead p 0x3 0x12 (key 0x2801 0xA) s gateReady (fun _ _ q => sfixLegal q.cmd) fun ph q s =>
    let c := q.cmd
    let carries := (List.range (scanR c)).map fun j => rowAt (pondOf s ph) (sfixCarry c + j * 1024)
    ran (finishSfix ph c ((List.range (scanT c * scanR c)).foldl (fun a i => sfixRow ph c carries i a)
      (carries, addObj s (key 0x2801 3) 1)))

/-! ## Tap mode (04 R108, 08 R239) -/

/-- The accumulator row at which a tap's range begins, and the index of the MMA that it names. -/
def tapFirst (c : Cmd) : Nat := (if opcodeOf c = 0x01 then (gateX c).addr else (scanA c).addr) % 2048
def tapIndex (c : Cmd) : Nat := if opcodeOf c = 0x01 then gateTapped c else scanTapped c
def isTap (c : Cmd) : Bool := if opcodeOf c = 0x01 then gateTap c else decide (opcodeOf c ≠ 0x12) && scanTap c

/-- The values that the accumulator write path stores in a row pass the mask of the row's extent. -/
def tapValue (pd : Pond) (r : Nat) : List F32 := padFrom (accValid pd r) 0 (mapRead 0 pd.acc (r * 256) 256)

/-- The instant at which the latest MMA's row `r` enters a tap: in the clk after its last column is stored (04 R108). -/
def tapInstant (now : Nat) (pd : Pond) (r : Nat) : Nat :=
  match pd.landing with
  | [] => now
  | o :: _ => o.first.getD now + o.reads.getD (o.reads.length - 1 - (r - o.row)) 0 + 526

/-- The rows `lo … hi − 1` of accumulator memory stored by the tapped MMA enter stage 1 of the armed command
(04 R108). -/
def feedTap (ph lo hi : Nat) (t : Tap) (s : State) : State :=
  let c := t.cmd
  let first := tapFirst c
  let js := (List.range t.expected).filter fun j => decide (lo ≤ first + j ∧ first + j < hi)
  let s := addObj s (key 0x2402 2) js.length
  let row (j : Nat) (s : State) : List F32 := tapValue (pondOf s ph) (first + j)
  let at_ (j : Nat) : Nat := tapInstant s.now (pondOf s ph) (first + j)
  let s :=
    match opcodeOf c with
    | 0x01 => forEach js (fun j s => gateRow ph c t.regs (at_ j) j (row j s) s) s
    | 0x10 => forEach js (fun j s => sstepRow ph c t.regs (at_ j) j (row j s) s) s
    | _ =>
      let order := (scanOrder c).filter fun j => decide (j ∈ js)
      let a := order.foldl (fun a i => scanRow ph c t.regs (at_ i) i (row i a.2) a) (startLanes (pondOf s ph) c, s)
      if js.length = t.expected then finishScan ph c a else a.2
  modPond s ph fun pd => { pd with tap := some { t with captured := js } }

/-- The gate queue holds an unarmed tap of a program that names an MMA's command index (04 R109). -/
def tapWaits (pd : Pond) (program index : Nat) : Bool :=
  (queueOf pd 0x3).any fun q => decide (q.program = program) && isTap q.cmd && decide (tapIndex q.cmd = index)

end Sys2Proof.Machine
end

