-- ==== Sys2Proof/Machine/Matrix.lean ====
section
/-! DEFINITION. The matrix array (03): MMA, WLOAD, weight blocks, products and sums, DK3 emulation (11 R330), and the
tile watch (11 R322 to R326). -/

namespace Sys2Proof.Machine

/-! ## Command words (03 Tables MTX-5 to MTX-7) -/

def mmaWfmt (c : Cmd) : Nat := bits c.w1.toNat 63 60
def mmaAfmt (c : Cmd) : Nat := bits c.w1.toNat 59 56
def mmaWrate (c : Cmd) : Nat := bits c.w1.toNat 55 54
def mmaArate (c : Cmd) : Nat := bits c.w1.toNat 53 52
def mmaWload (c : Cmd) : Nat := bits c.w1.toNat 51 50
def mmaMode (c : Cmd) : Nat := bits c.w1.toNat 49 48
def mmaWoff (c : Cmd) : Nat := bits c.w1.toNat 47 24
def mmaAoff (c : Cmd) : Nat := bits c.w1.toNat 23 0
def mmaStride (c : Cmd) : Nat := bits c.w2.toNat 63 46 * 64
def mmaB (c : Cmd) : Nat := bits c.w2.toNat 45 43 + 1
def mmaM (c : Cmd) : Nat := 256 * 2 ^ bits c.w2.toNat 42 41
def mmaMvalid (c : Cmd) : Nat := bits c.w2.toNat 40 29
def mmaKvalid (c : Cmd) : Nat := bits c.w2.toNat 28 19
def mmaNvalid (c : Cmd) : Nat := bits c.w2.toNat 18 10
def mmaBase (c : Cmd) : Nat := bits c.w2.toNat 9 6
def mmaAccum (c : Cmd) : Nat := bits c.w2.toNat 5 4
def mmaRound (c : Cmd) : Nat := bits c.w2.toNat 3 2
def mmaKtotal (c : Cmd) : Nat := bits c.w3.toNat 63 40
def mmaKb (c : Cmd) : Nat := bits c.w3.toNat 39 24

/-- Accumulator slots of the extent (03 R75). -/
def mmaSlots (c : Cmd) : Nat := mmaB c * (mmaM c / 256)

/-- The vector format code of a matrix format code (03 Table MTX-1, 05 Table CMP-1); none when it is reserved. -/
def matFmt (code : Nat) : Option Nat :=
  match code with
  | 0x0 => some 2
  | 0x1 => some 3
  | 0x2 => some 4
  | 0x3 => some 5
  | 0x4 => some 6
  | 0x8 => some 1
  | _ => none

/-- Block depth K_b by weight format (03 Table MTX-2). -/
def depthOf (wfmt : Nat) : Nat := if wfmt = 4 then 512 else 256

/-- The legal pairings (03 Table MTX-2). -/
def pairingLegal (wfmt afmt : Nat) : Bool :=
  if wfmt = 4 then decide (afmt ∈ [0, 1, 4])
  else if wfmt ≤ 3 then decide (afmt ≤ 4)
  else decide (wfmt = 8 ∧ afmt = 8)

/-- Bytes of an activation tile of `rows` rows, and of a weight block (05 R122, R123). -/
def tileBytes (fmt rate kb rows : Nat) : Nat := tensorBytes fmt rate (rows * (kb / 256))

/-- The checks of 03 Table MTX-9 that both opcodes share: word 1, the weight load, K and N; nvalid lies in 1 to 256 (Table
MTX-6; Table MTX-9 names only 0, log 57). -/
def weightLegal (pd : Pond) (c : Cmd) : Bool :=
  let kb := depthOf (mmaWfmt c)
  decide (mmaWload c ≠ 3) && decide (mmaMode c ≤ 1) && (matFmt (mmaWfmt c)).isSome &&
    decide (1 ≤ mmaKvalid c ∧ mmaKvalid c ≤ kb ∧ 1 ≤ mmaNvalid c ∧ mmaNvalid c ≤ 256) &&
    decide (mmaWoff c % 64 = 0) && decide (mmaMode c = 1 → mmaWfmt c ∈ [0, 1, 8]) &&
    (if mmaWload c = 2 then pd.activeW.valid || pd.shadowW.valid
     else decide (mmaWoff c + tensorBytes ((matFmt (mmaWfmt c)).getD 0) (mmaWrate c) kb ≤ bufSize))

/-- A legal WLOAD (03 Tables MTX-4, MTX-9); its activation offset, which it does not use, is not judged (log 57). -/
def wloadLegal (pd : Pond) (c : Cmd) : Bool :=
  weightLegal pd c && decide (bits c.w2.toNat 63 29 = 0) && decide (bits c.w2.toNat 9 0 = 0) && decide (c.w3 = 0)

/-- A legal MMA (03 Table MTX-9). -/
def mmaLegal (pd : Pond) (c : Cmd) : Bool :=
  let kb := depthOf (mmaWfmt c)
  weightLegal pd c && pairingLegal (mmaWfmt c) (mmaAfmt c) && decide (mmaMode c = 1 → mmaAfmt c = mmaWfmt c) &&
    decide (mmaBase c + mmaSlots c ≤ 8) && decide (1 ≤ mmaMvalid c ∧ mmaMvalid c ≤ mmaM c) &&
    decide (mmaAoff c % 64 = 0) &&
    decide (mmaAoff c + (mmaB c - 1) * mmaStride c +
      tileBytes ((matFmt (mmaAfmt c)).getD 0) (mmaArate c) kb (mmaM c) ≤ bufSize) &&
    decide (mmaAccum c ≤ 1) && decide (mmaRound c ≤ 2) && decide (bits c.w2.toNat 1 0 = 0) &&
    decide (bits c.w3.toNat 23 0 = 0)

/-! ## Weight blocks (03 R70, R71, 05 R123) -/

/-- An element as FP32, which holds every format of 03 Table MTX-1 exactly. -/
def elementAs32 (fmt x : Nat) : F32 := toF32 .nearest (flOf (fmtOf fmt) x)

/-- The blocks of a weight load that hold a valid position. -/
def weightBlocks (c : Cmd) : List Nat :=
  let per := depthOf (mmaWfmt c) / 256
  if mmaWload c = 1 then List.range (mmaKvalid c)
  else (List.range (mmaNvalid c)).flatMap fun n =>
    (List.range (ceilDiv (mmaKvalid c) 256)).map fun i => n * per + i

/-- The cell of element `i` of block `j`: K position and column (05 Table CMP-2). -/
def weightCell (c : Cmd) (j i : Nat) : Nat × Nat :=
  let per := depthOf (mmaWfmt c) / 256
  if mmaWload c = 1 then (j, i) else (256 * (j % per) + i, j / per)

/-- The weight block that a command loads, with the blocks decoded. -/
def loadBlock (pd : Pond) (c : Cmd) : WeightBlock × List Decoded :=
  let fmt := (matFmt (mmaWfmt c)).getD 0
  let js := weightBlocks c
  let ds := js.map fun j => decodeBlock fmt (mmaWrate c) (tabFn pd) (fun a n => bufRead pd (mmaWoff c + a) n) j
  let cells : List (Nat × F32 × F32) := (js.zip ds).flatMap fun jd =>
    (List.range 256).filterMap fun i =>
      let (k, n) := weightCell c jd.1 i
      if k < mmaKvalid c ∧ n < mmaNvalid c then
        some (k * 256 + n, elementAs32 fmt (jd.2.values.getD i 0), BitVec.ofNat 32 (jd.2.scales.getD (i / 32) 127))
      else none
  ({ valid := true, source := c.w1.toNat, format := mmaWfmt c, rows := mmaKvalid c, cols := mmaNvalid c,
     values := cells.foldl (fun m e => mapPut 0 m e.1 e.2.1) [],
     scales := cells.foldl (fun m e => mapPut 127 m e.1 e.2.2) [] }, ds)

/-- The weight of cell (k, n) with its scale (03 R62, R63). -/
def weightValue (b : WeightBlock) (k n : Nat) : Fl :=
  let e := (mapFind 127 b.scales (k * 256 + n)).toNat
  if e = 0xFF then .nan else flScale (flOf32 (mapFind 0 b.values (k * 256 + n))) ((e : Int) - 127)

/-- Clk of a weight load (03 R70, R71, 05 R141): 256, and 512 for a transposed FP4 block; port values off the fast path come
at half the rate. -/
def loadTime (c : Cmd) (slow : Nat) : Nat :=
  if mmaWfmt c = 4 then (if mmaWload c = 1 then 512 + slow else 256 + ceilDiv slow 2) else 256 + slow

/-- The instant at which the load of a command that starts now ends: it begins when the shadow registers and the weight
expander are free, and for an MMA without a wait flag as early as its push (03 R70, R84; log 27). -/
def loadEndOf (now : Nat) (q : Queued) (promote : Bool) (slow : Nat) (pd : Pond) : Nat :=
  max (if promote && !waits q.cmd then q.pushed else now) (max pd.shadowFree pd.loadEnd) + loadTime q.cmd slow

/-- What the weight expander brings to the pond that starts a command (03 R70, R81): a load goes to the shadow
registers, and an MMA promotes them. A WLOAD with wload 10 brings nothing (log 57). -/
def bringWeights (ph : Nat) (q : Queued) (promote : Bool) (s : State) : State :=
  let c := q.cmd
  let pd := pondOf s ph
  let (shadow, ds) := if mmaWload c = 2 then (pd.shadowW, []) else loadBlock pd c
  let s := noteDecoded ph c ds s
  modPond s ph fun pd =>
    let pd := if mmaWload c = 2 then pd
      else { pd with loadEnd := loadEndOf s.now q promote (ds.filter (·.slow)).length pd }
    if !promote then { pd with shadowW := shadow }
    else if shadow.valid then { pd with activeW := shadow, shadowW := WeightBlock.none }
    else pd

/-! ## Sums (03 R65 to R67) -/

/-- A value stored by the array; its NaN patterns are left open by IEEE 754. -/
def toAcc (rm : Rm) (x : Fl) : F32 :=
  match x with
  | .nan => 0x7FC00000 ||| (Config.nanBits &&& 0x803FFFFF)
  | _ => toF32 rm x

/-- The products of a row and a column over valid K positions, exactly; a reused block keeps its own format and extents
(log 57). -/
def productsOf (as : List Fl) (b : WeightBlock) (n : Nat) : List Fl :=
  if b.cols ≤ n then []
  else (List.range (min as.length b.rows)).map fun k => flMul (as.getD k (.num false 0 0)) (weightValue b k n)

/-- The column sum of 03 R65: every scaled product and every addition rounded to FP32, in ascending K. -/
def columnSum (ps : List Fl) : F32 :=
  ps.foldl (fun (c : F32) p => toAcc .nearest (flAdd (flOf32 c) (flOf32 (toAcc .nearest p)))) 0

/-- A flushed value (11 R330). -/
def flush32 (x : F32) : F32 := if x.toNat / 2 ^ 23 % 256 = 0 then x &&& 0x80000000 else x

/-- A BF16 operand whose exponent field is zero is taken as zero (11 R330). -/
def flushOperand (bf : Bool) (x : Fl) : Fl :=
  match x with
  | .num n m e => if bf && decide (floorLog2 m e < -126) then .num n 0 0 else x
  | y => y

/-- A run sum rounded toward zero, flushed (11 R330). -/
def runSum (x : Fl) : F32 :=
  match x with
  | .nan => 0x7FC00000
  | .inf n => if n then negInf32 else posInf32
  | .num n m e =>
    flush32 (BitVec.ofNat 32 (min (roundPat 23 127 (.stochastic (2 ^ 24)) m e) 0x7F7FFFFF + if n then 0x80000000 else 0))

/-- The column sum of 11 R330 over the K block's products, injected zeros among them. -/
def dk3Sum (ps : List Fl) : F32 :=
  let run (g : Nat) : F32 :=
    let xs := (List.range 16).map fun i => ps.getD (16 * g + i) (.num false 0 0)
    runSum (match xs with
      | [] => .num false 0 0
      | x :: rest => rest.foldl flAdd x)
  (List.range 15).foldl (fun c g => flush32 (toF32 .nearest (flAdd (flOf32 c) (flOf32 (run (g + 1)))))) (run 0)

/-- The accumulate addition rounds stochastically (03 R67). -/
def mmaStochastic (s : State) (c : Cmd) : Bool :=
  decide (mmaMode c = 0) && decide (mmaAccum c = 1) &&
    (decide (mmaRound c = 2) || (decide (mmaRound c = 0) && decide (forceObj s (key 0x2300 1) < 256 * mmaKtotal c)))

/-- The value stored for a column sum (03 R66, 11 R330). -/
def combine (c : Cmd) (rm : Rm) (old sum : F32) : F32 :=
  if mmaAccum c = 0 then sum
  else if mmaMode c = 1 then flush32 (toF32 .nearest (flAdd (flOf32 old) (flOf32 sum)))
  else toAcc rm (flAdd (flOf32 old) (flOf32 sum))

/-! ## Passes (03 R61, R78) -/

/-- Row `m` of a pass tile: its valid K positions, and the blocks decoded. -/
def tileRow (pd : Pond) (c : Cmd) (base m : Nat) : List Fl × List Decoded :=
  let fmt := (matFmt (mmaAfmt c)).getD 0
  let per := depthOf (mmaWfmt c) / 256
  let ds := (List.range (ceilDiv (mmaKvalid c) 256)).map fun i =>
    decodeBlock fmt (mmaArate c) (tabFn pd) (fun a n => bufRead pd (base + a) n) (m * per + i)
  ((ds.flatMap (decodedValues fmt)).take (mmaKvalid c), ds)

/-- The products of a row and column as a command forms them. -/
def rowProducts (c : Cmd) (as : List Fl) (b : WeightBlock) (n : Nat) : List Fl :=
  if mmaMode c = 1 then
    let bf := decide (mmaWfmt c = 8)
    if b.cols ≤ n then []
    else (List.range (min as.length b.rows)).map fun k =>
      flMul (flushOperand bf (as.getD k (.num false 0 0))) (flushOperand bf (weightValue b k n))
  else productsOf as b n

/-- The row period ρ (03 Table MTX-2, R86). -/
def mmaPeriod (c : Cmd) : Nat :=
  (if mmaWfmt c = 8 then 4 else 1) * if mmaMode c = 1 then 16 else 1

/-- The latest MMA reads its next activation row, which takes `n` clk. -/
def readRows (n : Nat) (pd : Pond) : Pond :=
  match pd.landing with
  | [] => pd
  | o :: rest => { pd with landing := { o with reads := o.total :: o.reads, total := o.total + n } :: rest }

/-- One row of a pass stored in the accumulators; a padding row has no valid K position. At a row period of 1 the array waits
for the port values of a block off the fast path (05 R141). -/
def passRow (ph : Nat) (c : Cmd) (b : WeightBlock) (stoch : Bool) (seed i m : Nat) (s : State) : State :=
  let pd := pondOf s ph
  let (as, ds) := if m < mmaMvalid c then tileRow pd c (mmaAoff c + i * mmaStride c) m else ([], [])
  let s := noteDecoded ph c ds s
  let late := if mmaPeriod c = 1 ∧ ds.any (·.slow) = true then 1 else 0
  let s := addObj s (key (0x4000 + ph) 7) late
  let row := i * mmaM c + m
  let at_ := (mmaBase c * 256 + row) * 256
  let old := mapRead 0 pd.acc at_ 256
  let out := (List.range 256).map fun n =>
    let ps := rowProducts c as b n
    let sum := if mmaMode c = 1 then dk3Sum ps else columnSum ps
    let rm := if stoch then Rm.stochastic (randomBits seed (tagOf c) (mmaKb c) row n) else .nearest
    combine c rm (old.getD n 0) sum
  modPond s ph fun pd => readRows (mmaPeriod c + late) { pd with acc := mapWrite 0 pd.acc at_ out }

/-- The extent registers and the written mask of the slots of an extent (03 R79, 13 R365). -/
def recordExtents (c : Cmd) (pd : Pond) : Pond :=
  (List.range (mmaSlots c)).foldl (fun pd t =>
    let per := mmaM c / 256
    let rows := min (mmaMvalid c - 256 * (t % per)) 256
    let slot := mmaBase c + t
    { pd with extents := mapPut 0 pd.extents slot (rows * 1024 + mmaNvalid c),
              accWritten := pd.accWritten ||| 2 ^ slot }) pd

/-! ## The tile watch (11 R322, R323) -/

/-- One column of a sample judged: the column sum against the exact sum of its products. -/
def judgeColumn (limit : Nat) (fp4 : Bool) (ps : List Fl) (n : Nat) : WatchColumn :=
  let c := columnSum ps
  let wide := ps.foldl flAdd (.num false 0 0)
  let w := toF32 .nearest wide
  let mags := ps.foldl (fun a p => flAdd a (match p with
    | .num _ m e => .num false m e
    | .inf _ => .inf false
    | .nan => .nan)) (.num false 0 0)
  let floor : Fl := .num false (if fp4 then 512 else 256) (-149)
  let den := flAdd (flScale mags (-24)) floor
  let dif := match flAdd (flOf32 c) (flNeg (flOf32 w)) with
    | .num _ m e => Fl.num false m e
    | .inf _ => .inf false
    | .nan => .nan
  let good :=
    if isNan (flOf32 w) then isNan (flOf32 c)
    else if !isFinite (flOf32 w) then decide (c = w)
    else if !isFinite (flOf32 c) then false
    else decide (flCompare dif (flMul (.num false limit 0) den) ≤ 0)
  { col := n, narrow := c, wide := w, d := toF32 .nearest (flDiv dif den), good := good }

/-- The sample that the watch takes of a command (11 R322): one row of one pass and up to 8 columns. -/
def takeSample (s : State) (ph : Nat) (c : Cmd) (b : WeightBlock) (seed : Nat) : WatchSample :=
  let x := randomBits seed (tagOf c) 0xFFFD 0 0
  let pass := x % mmaB c
  let row := (x >>> 3) % mmaMvalid c
  let c0 := (x >>> 14) % 32
  let as := (tileRow (pondOf s ph) c (mmaAoff c + pass * mmaStride c) row).1
  let cols := (List.range 8).filterMap fun j => if c0 + 32 * j < mmaNvalid c then some (c0 + 32 * j) else none
  { tag := tagOf c, row := row,
    cols := cols.map fun n => judgeColumn (getObj s (key 0x2B10 2)) (decide (mmaWfmt c = 4)) (productsOf as b n) n }

/-- An MMA of mode 00 that starts is counted by the watch, and sampled at the period (11 R322, R326). -/
def watchCommand (l ph : Nat) (c : Cmd) (b : WeightBlock) (s : State) : State :=
  let n := getObj s (key 0x2B10 1)
  if mmaMode c ≠ 0 then s
  else
    let k := (pondOf s ph).watchCount + 1
    if n = 0 ∨ k < n then modPond s ph fun pd => { pd with watchCount := k }
    else if (pondOf s ph).watch.isSome then
      addObj (modPond s ph fun pd => { pd with watchCount := 0 }) (key 0x2B11 2) 1
    else
      let w := takeSample s ph c b (seedOf s l)
      modPond s ph fun pd => { pd with watchCount := 0, watch := some w }

/-- WATCH_SAMPLE_DONE (11 R324 to R326): the sample completes; a mismatch is recorded, counted and set as source 11, a
run of mismatches as source 12. -/
def execWatchSampleDone (p : Nat) (s : State) : Out :=
  onPond p s fun ph =>
    match (pondOf s ph).watch with
    | none => s
    | some w =>
      let s := addObj (modPond s ph fun pd => { pd with watch := none }) (key 0x2B11 1) 1
      let top := w.cols.foldl (fun (m : Nat) c =>
        if flCompare (flOf32 (BitVec.ofNat 32 m)) (flOf32 c.d) = -1 then c.d.toNat else m) (getObj s (key 0x2B11 4))
      let s := setObj s (key 0x2B11 4) top
      match w.cols.find? fun c => !c.good with
      | none => setObj s (key 0x2B13 (p + 1)) 0
      | some c =>
        let s := addObj (addObj s (key 0x2B11 3) 1) (key 0x2B12 (p + 1)) 1
        let s := setObj (setObj s (key 0x2B11 5) (ph * 2 ^ 24 + w.tag)) (key 0x2B11 6) (w.row * 2 ^ 16 + c.col)
        let s := setObj (setObj s (key 0x2B11 7) c.narrow.toNat) (key 0x2B11 8) c.wide.toNat
        let s := setObj s (key 0x2B11 9) (tickNumber s)
        let s := traceFault ph 0x0200 w.tag 0x1 (c.d.toNat + w.row * 2 ^ 32 + c.col * 2 ^ 43) s
        let s := raise 11 (.pond ph) s
        let s := addObj s (key 0x2B13 (p + 1)) 1
        if getObj s (key 0x2B13 (p + 1)) = getObj s (key 0x2B10 3)
        then raise 12 (.pond ph) (addObj s (key 0x2B11 0xA) 1) else s

/-! ## MMA and WLOAD -/

/-- The rows of an MMA's extent. -/
def mmaRowsOf (c : Cmd) : Nat := mmaB c * mmaM c

/-- The MMA that starts, before it reads its first row: its block is loaded at `ready`, and it promotes the shadow registers
unless it uses the active block again (03 R69, R70). -/
def openLanding (c : Cmd) (promotes : Bool) (pd : Pond) : Pond :=
  let o : Landing :=
    { id := pd.nextId, first := none, ready := if promotes then pd.loadEnd else 0, promotes := promotes,
      row := mmaBase c * 256, reads := [], total := 0, before := pd.acc }
  { pd with landing := o :: pd.landing }

/-- The array begins to stream the MMA `id`: after its last stream, and once the block is loaded, which it waits for
(0x2301.03; 03 R70, R85). -/
def beginStream (ph id : Nat) (s : State) : State :=
  let pd := pondOf s ph
  match pd.landing.find? fun o => decide (o.id = id) with
  | none => s
  | some o =>
    let due := max s.now pd.streamEnd
    let first := max due o.ready
    addObj (setPond s ph { pd with
      landing := pd.landing.map fun x => if x.id = id then { x with first := some first } else x,
      streamEnd := first + o.total,
      shadowFree := if o.promotes then first else pd.shadowFree }) (key 0x2301 3) (first - due)

/-- The effect of an MMA (03 R61): weights, every pass, extents, the watch, and the rows that an armed tap of its
program and index captures; it streams once it has the activation expander (04 R96). -/
def runMma (l ph : Nat) (q : Queued) (s : State) : State :=
  let c := q.cmd
  let promotes := decide (mmaWload c ≠ 2) || (pondOf s ph).shadowW.valid
  let s := modPond (bringWeights ph q true s) ph (openLanding c promotes)
  let b := (pondOf s ph).activeW
  let s := watchCommand l ph c b s
  let stoch := mmaStochastic s c
  let seed := seedOf s l
  let s := forUpTo (mmaB c) (fun i s => forUpTo (mmaM c) (passRow ph c b stoch seed i) s) s
  let s := modPond s ph (recordExtents c)
  let s := if expanderFree (pondOf s ph) then beginStream ph (pondOf s ph).nextId s else s
  let s := addObj (addObj s (key 0x2301 1) 1) (key 0x2301 2) (mmaB c)
  let s := if stoch then addObj s (key 0x2301 5) (mmaB c) else s
  match (pondOf s ph).tap with
  | some t =>
    if t.program = q.program ∧ tapIndex t.cmd = indexOf c ∧ t.captured = [] then
      feedTap ph (mmaBase c * 256) (mmaBase c * 256 + mmaRowsOf c) t s
    else s
  | none => s

/-- The matrix engine holds an MMA at its start while an unarmed tap that names it waits in the gate queue (04 R109). -/
def mmaReady (s : State) (ph : Nat) (q : Queued) : Bool := !tapWaits (pondOf s ph) q.program (indexOf q.cmd)

/-- The hold of 04 R109 counted as an MMA starts (0x2402.03). -/
def countHold (ph : Nat) (s : State) : State :=
  let h := (pondOf s ph).heldSince
  if h = 0 then s
  else addObj (modPond s ph fun pd => { pd with heldSince := 0 }) (key 0x2402 3) (s.now + 1 - h)

/-- The instant from which the MMA at the queue head is held by a tap. -/
def noteHold (ph : Nat) (s : State) : State :=
  let pd := pondOf s ph
  match queueOf pd 0x1 with
  | q :: _ =>
    if opcodeOf q.cmd = 1 && waitMet pd q.cmd && mayStart pd q 0x1 && !mmaReady s ph q && decide (pd.heldSince = 0)
    then setPond s ph { pd with heldSince := s.now + 1 } else s
  | [] => s

/-- MMA (03 R61). -/
def execMma (p : Nat) (s : State) : Out :=
  onHead p 0x1 0x01 (key 0x2301 4) (noteHold (physOf s p) s) mmaReady
    (fun s ph q => mmaLegal (pondOf s ph) q.cmd) fun ph q s =>
      { ran (runMma p ph q (countHold ph s)) with expander := true }

/-- WLOAD (03 R80): a weight block loaded into the shadow registers. -/
def execWload (p : Nat) (s : State) : Out :=
  onHead p 0x1 0x02 (key 0x2301 4) s always (fun s ph q => wloadLegal (pondOf s ph) q.cmd) fun ph q s =>
    ran (bringWeights ph q false s)

/-! ## The activation expander (04 R96) -/

/-- EXPANDER_GRANT: the oldest waiting command gets the activation expander and issues its first row; its wait is counted
at 0x2401.04 for an MMA behind a vector or pooling command, at 0x2401.03 for those. -/
def execExpanderGrant (p : Nat) (s : State) : Out :=
  onPond p s fun ph =>
    let pd := pondOf s ph
    match mapFind [] pd.expanders 0 with
    | [] => s
    | id :: rest =>
      match pd.running.find? fun r => decide (r.id = id) with
      | none => setPond s ph { pd with expanders := mapPut [] pd.expanders 0 rest }
      | some r =>
        let cls := classOf r.cmd
        let before := (mapFind [] pd.expanders 1).getD 1 0
        let m := mapPut [] (mapPut [] pd.expanders 0 rest) 1 [id + 1, cls]
        let s := setPond s ph (noteBusy s.now cls { pd with expanders := m })
        let s := if cls = 1 then beginStream ph id s else s
        if cls ≠ 1 then addObj s (key 0x2401 3) (s.now - r.started)
        else if before ≠ 1 then addObj s (key 0x2401 4) (s.now - r.started) else s

end Sys2Proof.Machine
end

