-- ==== Sys2Proof/Machine/Shares.lean ====
section
/-! DEFINITION. Sections and dispatch registers (06 R155, R159), and background tasks: requests, decisions, stops,
switch-outs and restores (13). -/

namespace Sys2Proof.Machine

/-! ## Sections (06 R155, R159) -/

/-- What the dispatch registers of a section are written from (06 Table CMD-4). -/
structure DispatchInfo where
  group : List Nat
  flags : Nat
  index : Nat
  cause : Nat
  tag : Nat

/-- UDA of the latched input bank and of the output bank being filled (02 R40, R43). -/
def inputBank (s : State) : Nat := 0xFF0080000000 + tickNumber s % 2 * (32768 * getObj s (key 0x2205 2))
def outputBank (s : State) : Nat := 0xFF0180000000 + tickNumber s % 2 * (32768 * getObj s (key 0x2205 4))

/-- The values of P1 to P23 (06 Table CMD-4). -/
def dispatchRegs (s : State) (l : Nat) (d : DispatchInfo) : List Nat :=
  (List.range 8).map (fun i => d.group.getD i 0xFFFFFFFFFFFFFFFF) ++
    [d.group.length, tickNumber s, d.flags, rankIn s l, d.index, inputBank s, outputBank s, d.cause, d.tag,
     getObj s (key 0x2205 2), getObj s (key 0x2205 4), l, homeBasin s.tree (rank0Of s l), 0, 0]

/-- The core with P1 to P23 written (06 R159), and C0 to C23 zero but at a background entry (06 R155). -/
def dispatchCore (kind : SectionKind) (regs : List Nat) (k : Core) : Core :=
  let k := (List.range 23).foldl (fun k i => setParam k (i + 1) (BitVec.ofNat 64 (regs.getD i 0))) k
  if kind = .background then k else { k with sync := k.sync.filter fun e => decide (24 ≤ e.1) }

/-- The entry point of a section kind in a program image (06 Table CMD-8). -/
def entryOf (i : Image) : SectionKind → Nat
  | .step => i.step
  | .prologue => i.prologue
  | .error => i.errorExit
  | .background => i.background

/-- The image of a program as a pond of the gang holds it. -/
def imageOn (s : State) (ph program : Nat) : Option Image := (residentOf (pondOf s ph) program).map (·.image)

/-- A section starts on a pond (06 R155, R159) at its entry point. A program that is not in the active bank, or whose
slots wait for repair, ends at once with cause 0x06 or 0x07 (06 R175, R183). -/
def startSection (l ph : Nat) (kind : SectionKind) (program epoch : Nat) (carried : Bool) (d : DispatchInfo)
    (s : State) : State :=
  let r := residentOf (pondOf s ph) program
  let pc := match r with
    | some r => entryOf r.image kind
    | none => 0
  let sec : Section := { kind := kind, program := program, pc := pc, group := d.group, epoch := epoch,
                         carried := carried, task := bitAt d.flags 4, resume := pc, started := s.now, progress := 0 }
  let regs := dispatchRegs s l d
  let s := modPond s ph fun pd =>
    { pd with core := { dispatchCore kind regs pd.core with
        sect := some sec, exiting := none, exited := decide (kind = .error), stopped := none, stopKind := 0 } }
  match r with
  | none => startExit ph 0x06 (slotTag program pc) s
  | some r => if r.damaged ≠ [] ∧ kind ≠ .error then startExit ph 0x07 (slotTag program pc) s else s

/-- Zero the peer counters C24 to C31 of every member of a gang (06 R155). -/
def zeroPeers (g : Nat) (s : State) : State :=
  forEach (gangMembers s g) (fun l s =>
    if physOf s l = 0xFF then s
    else modCore s (physOf s l) fun k => { k with sync := k.sync.filter fun e => decide (e.1 < 24) }) s

/-- No section is in progress on any member of a gang. -/
def gangQuiet (s : State) (g : Nat) : Bool :=
  (gangMembers s g).all fun l => decide (physOf s l = 0xFF) || (pondOf s (physOf s l)).core.sect.isNone

/-- A gang is serving when a program with the serving flag is in the active bank of its rank-0 pond (13). -/
def servingGang (s : State) (g : Nat) : Bool :=
  (activePrograms (pondOf s (physOf s g))).any fun r => bitAt r.image.flags 0

/-! ## Tasks (13 R358 to R361) -/

/-- A task's program is in the active bank of every pond of its gang. -/
def programOnGang (s : State) (g program : Nat) : Bool :=
  (gangMembers s g).all fun l => (residentOf (pondOf s (physOf s l)) program).isSome

/-- The width that a task's program needs (06 Table CMD-10). -/
def programWidth (s : State) (program : Nat) : Nat := (dirOf s program).pondCount

/-- A task of 13 is held (R361), or held by a trap (15 Table FLT-3). -/
def mustHold (s : State) (t : Nat) : Bool :=
  let g := taskField s t 4 1
  let p := taskField s t 1 1
  !gangUsable s (gangMembers s g) || decide ((gangMembers s g).length ≠ programWidth s p) ||
    !programOnGang s g p || (s.weir.trapEdge && decide (s.weir.trapped ≠ []))

/-- The tasks bound to a gang, ascending. -/
def tasksOf (s : State) (g : Nat) : List Nat :=
  if tasksEnabled s then
    (List.range 256).filter fun t => decide (taskState s t ≠ 0) && decide (taskField s t 4 1 = g)
  else []

/-- The pass of a task. -/
def passOf (s : State) (t : Nat) : Nat := taskField s t 56 8

/-- Bytes of a save slot (13 Table SHR-3). -/
def slotSize (s : State) (t : Nat) : Nat := 2195456 + taskField s t 36 4

/-- The checks of a task start in code order (13 Table SHR-2). Without a share area there is no record to check, so code 7
comes first there; an area that is set but not pinned in tier 0 fails last (DESIGN CHOICE, log 52). -/
def startCheck (s : State) (t : Nat) : Nat :=
  let g := taskField s t 4 1
  let p := taskField s t 1 1
  let b := taskField s t 3 1
  let kept := (taskField s t 24 4, taskField s t 28 4)
  let spill := (taskField s t 32 4, taskField s t 36 4)
  let n := taskField s t 5 1
  let fut (i : Nat) : Nat := taskField s t (8 + 2 * i) 2 % 32768
  let members := gangMembers s g
  let save := taskField s t 48 8
  let saveLen := members.length * slotSize s t
  if shareBase s = 0 then 7
  else if taskState s t ≠ 0 then 1
  else if !bitAt (dirOf s p).state 3 ∨ !programOnGang s g p then 2
  else if !gangUsable s members ∨ members.headD 256 ≠ g ∨ homeBasin s.tree g ≠ b ∨
      members.length ≠ programWidth s p then 3
  else if bufSize < kept.1 + kept.2 ∨ bufSize < spill.1 + spill.2 ∨ kept.1 % 64 ≠ 0 ∨ kept.2 % 64 ≠ 0 ∨
      spill.1 % 64 ≠ 0 ∨ spill.2 % 64 ≠ 0 ∨
      (kept.1 < spill.1 + spill.2 ∧ spill.1 < kept.1 + kept.2 ∧ kept.2 ≠ 0 ∧ spill.2 ≠ 0) then 4
  else if save % 4096 ≠ 0 ∨ 2 ^ 48 ≤ save ∨ !unitMapped s [(save, saveLen)] ∨
      (unitExtents s [(save, saveLen)] fun x => !x.pinned || decide (x.tier ≠ 0)) ≠ [] then 5
  else if 63 < taskField s t 2 1 ∨ n = 0 ∨ 8 < n ∨
      (List.range n).any (fun i => decide ((futureOf s (fut i)).state ≠ 2)) then 6
  else if !tasksEnabled s then 7
  else 0

/-- The task becomes free and its saved state is discarded. -/
def freeTask (t : Nat) (s : State) : State := setTaskState (setTaskField s t 6 1 0) t 0

/-- The end of a task that has been asked for (13 R360): its code, and the state. -/
def endTask (t : Nat) (s : State) : Nat × State :=
  if shareBase s = 0 then (7, s)
  else if taskState s t = 0 then (1, s)
  else if !tasksEnabled s then (7, s)
  else
    match runOf s (taskField s t 4 1) with
    | some r =>
      if r.task = t then (0, setRun s (taskField s t 4 1) (some { r with ending := true })) else (0, freeTask t s)
    | none => (0, freeTask t s)

/-- TASK_REQUEST_APPLY at a used edge (13 R360). A request whose action was never written is neither start nor end and is
not accepted (DESIGN CHOICE, log 52). -/
def applyTaskRequest (s : State) : State :=
  if getObj s (key 0x2D02 3) = 0 then s
  else
    let t := getObj s (key 0x2D02 1)
    let report (code : Nat) (s : State) : State :=
      setObj (setObj (setObj s (key 0x2D02 3) 0) (key 0x2D02 4) code) (key 0x2D02 5) (tickNumber s)
    if getObj s (key 0x2D02 2) = 1 then
      let code := startCheck s t
      if code ≠ 0 then report code s
      else
        let others := (tasksOf s (taskField s t 4 1)).filter (· ≠ t)
        let pass := (minBy id (others.map (passOf s))).getD 0
        report 0 (setTaskState (setTaskField (setTaskField s t 6 1 0) t 56 8 pass) t 1)
    else if getObj s (key 0x2D02 2) = 2 then report (endTask t s).1 (endTask t s).2
    else report 1 s

/-- TASK_HOLD_UPDATE at a used edge (13 R361). A running task is switched out at its next switch point first. -/
def updateHolds (s : State) : State :=
  if !tasksEnabled s then s
  else
    forUpTo 256 (fun t s =>
      match taskState s t with
      | 1 | 3 => if mustHold s t then holdTask t s else s
      | 4 =>
        if mustHold s t then s else setTaskState s t (if bitAt (taskField s t 6 1) 0 then 3 else 1)
      | _ => s) s

/-! ## Entry and stop (13 R362 to R364) -/

/-- Background time runs on a gang (13 R362): a gang that does not serve always has it; a serving gang from the end of
its entries, carried ones among them, to the next used edge. -/
def backgroundTime (s : State) (g : Nat) : Bool :=
  let gg := gangOf s g
  !servingGang s g ||
    (gg.dispatched && decide (gg.group = []) && decide (gg.late = []) && decide (gg.entries.length ≤ gg.next))

/-- The dispatch registers of a background entry (06 Table CMD-4, 13 Table SHR-1). -/
def taskInfo (s : State) (t : Nat) : DispatchInfo :=
  { group := (List.range (taskField s t 5 1)).map fun i => taskField s t (8 + 2 * i) 2 % 32768,
    flags := 16, index := 0, cause := 0, tag := 0 }

/-- The masks of accumulator slots and vector registers written start anew (13 R365). -/
def clearWritten (pd : Pond) : Pond := { pd with accWritten := 0, vregWritten := 0 }

/-- At the entry of a program no weight block counts as loaded (03 Table MTX-9, Reuse). -/
def forgetWeights (pd : Pond) : Pond :=
  { pd with activeW := { pd.activeW with valid := false }, shadowW := { pd.shadowW with valid := false } }

/-- A task enters its background section on every rank (13 R369, RET or no saved point). -/
def enterTask (g t : Nat) (s : State) : State :=
  let p := taskField s t 1 1
  let s := setTaskState s t 2
  let s := forEach (gangMembers s g) (fun l s =>
    startSection l (physOf s l) .background p (tickNumber s) false (taskInfo s t)
      (modPond s (physOf s l) fun pd => forgetWeights (clearWritten pd))) s
  match runOf s g with
  | some r => setRun s g (some { r with task := t, since := s.now, entered := s.now, restoring := false })
  | none => setRun s g (some { task := t, since := s.now, entered := s.now, stopAt := none, saving := false,
                               restoring := false, kind := 0, live := 0, ending := false })

/-- Every rank of a gang has stopped or returned (13 R364). -/
def allStopped (s : State) (g : Nat) : Bool :=
  (gangMembers s g).all fun l => (pondOf s (physOf s l)).core.stopped.isSome

/-- A stop is requested of the task on a gang (13 R362, R363). -/
def requestStop (g : Nat) (s : State) : State :=
  match runOf s g with
  | none => s
  | some r => if r.stopAt.isSome || r.saving then s else setRun s g (some { r with stopAt := some s.now })

/-- BACKGROUND_STOP_REQUEST at a used edge (13 R362): every serving gang stops its task. -/
def stopServingTasks (s : State) : State :=
  forEach (mapKeys s.shares.runs) (fun g s => if servingGang s g then requestStop g s else s) s

/-- The task that a decision chooses on a gang (13 R363): the smallest pass, the lowest number among equals; the task
that stands at its own RET takes part unless it ends. None that must be held is chosen (R361). -/
def chooseTask (s : State) (g : Nat) : Option Nat :=
  let current := match runOf s g with
    | some r => if r.ending then none else some r.task
    | none => none
  minBy (passOf s) ((tasksOf s g).filter fun t => (eligible s t || decide (current = some t)) && !mustHold s t)

/-- A trace record of a task on every rank (13 Table SHR-4). -/
def traceTask (g code data program : Nat) (s : State) : State :=
  forEach (gangMembers s g) (fun l s => traceInfo (physOf s l) code 4 0 0 data (some program) s) s

/-- SLICE_EXPIRY (13 R363): the running task has run for more than the slice length and another task is eligible. The
record names the task with the smallest pass once the running one is charged, which may be that one again. -/
def execSliceExpiry (g : Nat) (s : State) : Out :=
  if g < logicalCount s then
    .next (match runOf s g with
      | none => s
      | some r =>
        let others := (tasksOf s g).filter fun t => eligible s t && decide (t ≠ r.task)
        if r.stopAt.isSome || r.saving || r.restoring || decide (others = []) then s
        else
          let s := advanceTo s (r.entered + getObj s (key 0x2D00 7) + 1)
          let next := (minBy (passOf (chargeTask g false s)) (r.task :: others)).getD 0
          traceTask g 0x0303 (r.task + next * 256) (taskField s r.task 1 1)
            (addObj (requestStop g s) (key 0x2D03 0xA) 1))
  else .fault .noSuchUnit

/-- What a core had fetched and not begun is fetched again after the restore (13 R364, R369): a push that is stalled, and a
control command that waits. A FENCE or RET in progress waits for commands that no longer start: it gives its wait back and
counts as not executed (DESIGN CHOICE, log 52). -/
def unfetch (ph : Nat) (s : State) : State :=
  match fetchPoint (pondOf s ph), (pondOf s ph).core.sect, (pondOf s ph).core.stalled with
  | _, some sec, some _ =>
    modCore s ph fun k => { k with stalled := none, sect := some { sec with pc := sec.pc - 1 } }
  | some (sec, _, c), _, none =>
    if classOf c ≠ 0 ∨ sec.progress < 2 then modCore s ph fun k => { k with sect := some { sec with progress := 0, waiting := none } }
    else if opcodeOf c = 0x03 then s
    else
      let n := getSync (pondOf s ph).core (waitCounter c) + (if waits c then waitCount c else 0)
      setObj (modCore s ph fun k =>
          { setSync k (waitCounter c) n with sect := some { sec with progress := 0, waiting := none } })
        (key 0x2601 2) (getObj s (key 0x2601 2) - 1)
  | _, _, _ => s

/-- FORCED_STOP (13 R364): F clk have passed since the stop request and the rank has not stopped; on a halted pond the request
takes effect only after the resume (16 R454). -/
def execForcedStop (p : Nat) (s : State) : Out :=
  onPond p s fun ph =>
    match runOf s (rank0Of s p), (pondOf s ph).core.sect with
    | some r, some sec =>
      (match r.stopAt with
       | some t0 =>
         if sec.kind ≠ .background ∨ (pondOf s ph).core.stopped.isSome ∨ (pondOf s ph).core.exiting.isSome ∨
             r.restoring ∨ (pondOf s ph).halt.isSome then s
         else
           let s := unfetch ph (settlePond ph (advanceTo s (t0 + taskField s r.task 40 4)))
           modCore s ph fun k => { k with stopped := some sec.pc, stopKind := 2 }
       | none => s)
    | _, _ => s

/-- A rank that has stopped is ready to save (13 R364): a cheap or RET stop once everything pushed has completed, a
forced stop once everything started has, a control command among it. -/
def readyToSave (pd : Pond) (program : Nat) : Bool :=
  pd.core.stopped.isSome && pd.core.exiting.isNone &&
    (if pd.core.stopKind = 2 then !endsStarted pd && pd.running.all fun r => decide (r.program ≠ program)
     else fenced pd program)

/-- The stop kind of a gang (13 R364): forced when any rank was forced, RET when every rank returned, else cheap. -/
def gangStopKind (s : State) (g : Nat) : Nat :=
  let kinds := (gangMembers s g).map fun l => (pondOf s (physOf s l)).core.stopKind
  if 2 ∈ kinds then 2 else if kinds.all (· == 1) then 1 else 0

/-! ## The save slot (13 Table SHR-3) -/

/-- The 64 bytes of a stream end: the manual gives their content, not their places (DESIGN CHOICE, log 14). A wait for a
credit has been counted when the state is saved. -/
def streamBytes (e : StreamEnd) : List Byte :=
  let b (x : Bool) : Nat := if x then 1 else 0
  leBytes (b e.opened) 1 ++ leBytes (b e.consumer) 1 ++ leBytes e.peerRank 2 ++ leBytes e.peerStream 2 ++
    leBytes e.counter 2 ++ leBytes e.slotBase 8 ++ leBytes e.slotSize 8 ++ leBytes e.slotCount 8 ++
    leBytes e.credits 8 ++ leBytes e.filled 8 ++ leBytes e.next 8 ++ leBytes 0 8

/-- A stream end read back from its 64 bytes. -/
def streamOfBytes (bs : List Byte) : StreamEnd :=
  let f (o n : Nat) : Nat := leValue ((bs.drop o).take n)
  { opened := decide (f 0 1 = 1), consumer := decide (f 1 1 = 1), peerRank := f 2 2, peerStream := f 4 2,
    counter := f 6 2, slotBase := f 8 8, slotSize := f 16 8, slotCount := f 24 8, credits := f 32 8,
    filled := f 40 8, next := f 48 8, waitSince := 0 }

/-- The 32 bytes of a command. -/
def cmdBytes (c : Cmd) : List Byte :=
  leBytes c.w0.toNat 8 ++ leBytes c.w1.toNat 8 ++ leBytes c.w2.toNat 8 ++ leBytes c.w3.toNat 8

/-- A command from 32 bytes. -/
def cmdOfBytes (bs : List Byte) : Cmd :=
  let f (o : Nat) : W64 := BitVec.ofNat 64 (leValue ((bs.drop o).take 8))
  { w0 := f 0, w1 := f 8, w2 := f 16, w3 := f 24 }

/-- FP32 values as bytes. -/
def wordsBytes (ws : List F32) : List Byte := ws.flatMap fun w => leBytes w.toNat 4

/-- Commands of a program that wait in the queue of a class. -/
def waitingCmds (pd : Pond) (program cls : Nat) : List Cmd :=
  ((queueOf pd cls).filter fun q => decide (q.program = program)).map (·.cmd)

/-- The parts of the spill span that a save moves: without the reloadable bytes of a cheap stop (13 R365). -/
def spillRuns (s : State) (t : Nat) (cover : Option Reload) : List (Nat × Nat) :=
  let a := taskField s t 32 4
  let n := taskField s t 36 4
  match cover with
  | none => [(a, n)]
  | some r =>
    let lo := max a (min r.offset (a + n))
    let hi := max lo (min (r.offset + r.length) (a + n))
    [(a, lo - a), (hi, a + n - hi)]

/-- The reload entry that covers a cheap point (06 R166). -/
def coverOf (i : Option Image) (index : Nat) : Option Reload :=
  match i with
  | none => none
  | some i => i.reloads.find? fun r => decide (r.first ≤ index ∧ index ≤ r.last)

/-- The parts of the spill span in the slot of a rank that stopped by `rank` in a gang that stopped by `kind` (13
R365). -/
def savedRuns (s : State) (t kind rank : Nat) (i : Option Image) (index : Nat) : List (Nat × Nat) :=
  if kind = 1 then [] else spillRuns s t (if kind = 0 ∧ rank = 0 then coverOf i index else none)

/-- The command index at which a stopped rank resumes (13 R364, R369): after the last fetched command when it was forced. -/
def resumeIndex (k : Core) : Nat :=
  match k.sect with
  | some sec => if k.stopKind = 2 then sec.pc else k.stopped.getD 0
  | none => k.stopped.getD 0

/-- The save of one rank of a task into its slot (13 R365): the state and the bytes of B_live. -/
def saveRank (t l kind : Nat) (s : State) : Nat × State :=
  let ph := physOf s l
  let s := settlePond ph s
  let pd := pondOf s ph
  let p := taskField s t 1 1
  let slot := taskField s t 48 8 + rankIn s l * slotSize s t
  let index := resumeIndex pd.core
  let k := pd.core
  let accs := if kind = 2 then (List.range 8).filter (bitAt pd.accWritten) else []
  let vregs := if kind = 2 then (List.range 32).filter (bitAt pd.vregWritten) else []
  let runs := savedRuns s t kind k.stopKind (imageOn s ph p) index
  let mask (l : List Nat) : Nat := l.foldl (fun w i => w + 2 ^ i) 0
  let comps := (List.range 8).foldl (fun w i => if mapFind false k.comps i then w + 2 ^ i else w) 0
  let s := deviceWrite s slot ((List.range 256).flatMap fun i => leBytes (getParam k i).toNat 8)
  let s := deviceWrite s (slot + 2048) ((List.range 16).flatMap fun i => leBytes (mapFind 0 k.loops i) 4)
  let s := deviceWrite s (slot + 2112) (leBytes comps 8)
  let s := deviceWrite s (slot + 2176) ((List.range 32).flatMap fun i => leBytes (getSync k i) 2)
  let s := deviceWrite s (slot + 4096) ((List.range 32).flatMap fun i => streamBytes (streamOf pd i))
  let s := forUpTo 11 (fun c s =>
    let cs := waitingCmds pd p (c + 1)
    deviceWrite s (slot + 8192 + c * 2048)
      ((List.range 64).flatMap fun i => match cs[i]? with
        | some x => cmdBytes x
        | none => leBytes 0 32)) s
  let s := deviceWrite s (slot + 32768)
    (leBytes (index + k.stopKind * 2 ^ 16 + mask accs * 2 ^ 24) 8 ++ leBytes (mask vregs) 8)
  let w (b : WeightBlock) : List Byte := leBytes b.source 8 ++ leBytes (if b.valid then 1 else 0) 8
  let s := deviceWrite s (slot + 32800) (w pd.activeW ++ w pd.shadowW)
  let s := forEach accs (fun i s =>
    deviceWrite s (slot + 65536 + i * 262144) (wordsBytes (mapRead 0 pd.acc (i * 65536) 65536))) s
  let s := forEach vregs (fun i s =>
    deviceWrite s (slot + 2162688 + i * 1024) (wordsBytes (mapRead 0 pd.vregs (i * 256) 256))) s
  let s := forEach runs (fun r s =>
    deviceWrite s (slot + 2195456 + (r.1 - taskField s t 32 4)) (bufRead pd r.1 r.2)) s
  let live := 262144 * accs.length + 1024 * vregs.length + (runs.map (·.2)).foldl (· + ·) 0
  let s := modPond s ph fun pd =>
    let pd := dropProgram pd p
    { pd with core := { pd.core with sect := none, stalled := none, stopped := none, stopKind := 0 } }
  (live, s)

/-! ## The transfer of switch state (13 R366) -/

/-- The serving window is open (02 Table TCK-2). -/
def windowOpen (s : State) : Bool :=
  s.tick.anyEdge && decide (s.tick.lastEdge + serveStart ≤ s.now) && decide (s.now < s.tick.lastEdge + servingEndAt s)

/-- The tasks whose state moves, by gang. -/
def movers (s : State) : List (Nat × TaskRun) :=
  s.shares.runs.filterMap fun e => e.2.bind fun r => if r.saving || r.restoring then some (e.1, r) else none

/-- The ponds that move switch state. -/
def movingPonds (s : State) : Nat := ((movers s).map fun e => (gangMembers s e.1).length).sum

/-- A transfer of a gang's task state begins: R366 fixes no rate for it in the serving window, nor for any transfer while
more than 96 ponds move. -/
def beginMove (g : Nat) (s : State) : State :=
  let start (r : TaskRun) : TaskRun := { r with moved := s.now, since := s.now, slow := windowOpen s }
  let s := setRun s g ((runOf s g).map start)
  if movingPonds s ≤ 96 then s
  else forEach (movers s) (fun e s => setRun s e.1 (some { e.2 with slow := true })) s

/-- The transfers that a used edge finds under way and that began before the serving window of the ending tick had closed
have met that window (13 R366). -/
def moversAtEdge (s : State) : State :=
  forEach (movers s) (fun e s =>
    if e.2.moved < s.tick.lastEdge + servingEndAt s then setRun s e.1 (some { e.2 with slow := true }) else s) s

/-- SWITCH_OUT_SAVE (13 R364, R365): every rank of the gang has stopped and saves its own state. -/
def execSwitchOutSave (g : Nat) (s : State) : Out :=
  if g < logicalCount s then
    .next (match runOf s g with
      | none => s
      | some r =>
        let p := taskField s r.task 1 1
        if r.stopAt.isNone || r.saving || r.restoring ||
            !(gangMembers s g).all (fun l => readyToSave (pondOf s (physOf s l)) p) then s
        else
          let s := chargeTask g false s
          let kind := gangStopKind s g
          let (live, s) := (gangMembers s g).foldl
            (fun (a : Nat × State) l =>
              let (n, s) := saveRank r.task l kind a.2
              (max a.1 n, s)) (0, s)
          beginMove g (setRun s g (some { r with saving := true, kind := kind, live := live })))
  else .fault .noSuchUnit

/-- The time that a save or a restore takes (13 R366): 128 bytes in each clk while the serving window stays closed and at
most 96 ponds move; otherwise between the nominal and the certified time, as the free value `v` says (log 10). -/
def switchTime (s : State) (r : TaskRun) (v : Nat) : Nat :=
  let lo := 1000 + ceilDiv r.live 128
  let hi := 1000 + ceilDiv (3 * r.live) 128
  let closed := !s.tick.anyEdge || decide (s.tick.lastEdge + servingEndAt s ≤ r.moved) ||
    decide (r.moved + lo ≤ s.tick.lastEdge + serveStart)
  if closed && !r.slow then lo else lo + v % (hi - lo + 1)

/-- The stop kind that a slot records of its rank (13 Table SHR-3). -/
def slotKind (s : State) (slot : Nat) : Nat := bits (readLe s (slot + 32768) 4) 17 16

/-- The slot of a rank of a task. -/
def slotOf (s : State) (t l : Nat) : Nat := taskField s t 48 8 + rankIn s l * slotSize s t

/-- The stop kind of the last switch-out of a task (13 R364): forced as its record says, RET when every rank returned,
else cheap. -/
def savedKind (s : State) (g t : Nat) : Nat :=
  if bitAt (taskField s t 6 1) 1 then 2
  else if (gangMembers s g).all fun l => decide (slotKind s (slotOf s t l) = 1) then 1 else 0

/-- Accumulator slots and vector registers that a slot holds. -/
def slotCounts (s : State) (slot : Nat) : Nat × Nat :=
  let count (m n : Nat) : Nat := ((List.range n).filter (bitAt m)).length
  (count (bits (readLe s (slot + 32768) 4) 31 24) 8, count (readLe s (slot + 32776) 4) 32)

/-- B_live of a rank: what its slot holds of accumulators, registers and the spill span (13 R365). -/
def slotLive (s : State) (t kind slot : Nat) (i : Option Image) : Nat :=
  let n := slotCounts s slot
  262144 * n.1 + 1024 * n.2 +
    ((savedRuns s t kind (slotKind s slot) i (readLe s (slot + 32768) 4 % 65536)).map (·.2)).foldl (· + ·) 0

/-- The trace records of a switch-out that has ended (13 Table SHR-4): on every rank, and the fault record of a forced
one. -/
def traceSwitchOut (g t kind : Nat) (s : State) : State :=
  let p := taskField s t 1 1
  forEach (gangMembers s g) (fun l s =>
    let ph := physOf s l
    let slot := slotOf s t l
    let n := slotCounts s slot
    let live := slotLive s t kind slot (imageOn s ph p)
    let s := if kind = 2 then
        traceFault ph 0x0302 0 0 (t + n.1 * 2 ^ 8 + n.2 * 2 ^ 16 + readLe s (slot + 32768) 4 % 65536 * 2 ^ 24) s
      else s
    traceInfo ph 0x0300 4 0 0 (t + kind * 2 ^ 8 + live / 64 * 2 ^ 16) (some p) s) s

/-- The wait of a serving gang's dispatch for a switch-out is counted up to now (13 R368); `on` says that it goes on. -/
def countDispatchWait (g : Nat) (on : Bool) (s : State) : State :=
  let gg := gangOf s g
  if gg.dispatchAt = 0 then s
  else addObj (setGang s g { gg with dispatchAt := if on then s.now + 1 else 0 }) (key 0x2D03 6) (s.now + 1 - gg.dispatchAt)

/-- SWITCH_OUT_DONE (13 R365, R357, 06 R155): the save has ended and the task is switched out, held, or free. -/
def execSwitchOutDone (g : Nat) (s : State) : Out :=
  if g < logicalCount s then
    .next (match runOf s g with
      | none => s
      | some r =>
        if !r.saving then s
        else
          let (v, s) := freeWord s
          let s := traceSwitchOut g r.task r.kind (chargeTask g true (advanceTo s (r.moved + switchTime s r v.toNat)))
          let cls := taskField s r.task 2 1
          let s := addObj (addObj s (key 0x2D03 (if r.kind = 0 then 1 else if r.kind = 1 then 3 else 2)) 1)
            (key (0x5100 + cls) 7) 1
          let off := if r.kind = 2 then 92 else 88
          let s := setTaskField s r.task off 4 (taskField s r.task off 4 + 1)
          let s := setTaskField s r.task 6 1 (if r.kind = 2 then 3 else 1)
          let s := countDispatchWait g false (zeroPeers g (setRun s g none))
          let s := { s with shares := { s.shares with
            outAt := mapPut 0 s.shares.outAt r.task (s.now + 1) } }
          if r.ending then freeTask r.task s
          else if mustHold s r.task then holdTask r.task s
          else setTaskState s r.task 3)
  else .fault .noSuchUnit

/-! ## Restore (13 R369, R370) -/

/-- The core of a rank restored from its slot: registers that took a staged value since the switch-out keep it, P10 is
the tick number (13 R369). -/
def restoreCore (s : State) (slot outAt : Nat) (k : Core) : Core :=
  let keep (i : Nat) : Bool := decide (outAt < mapFind 0 k.staged i)
  let k1 := (List.range 256).foldl (fun c i =>
    if keep i then c else setParam c i (BitVec.ofNat 64 (readLe s (slot + 8 * i) 8))) k
  let k1 := setParam k1 10 (BitVec.ofNat 64 (tickNumber s))
  let comps := readLe s (slot + 2112) 1
  let loops := (List.range 16).map fun i => readLe s (slot + 2048 + 4 * i) 4
  let sync := (List.range 32).map fun i => readLe s (slot + 2176 + 2 * i) 2
  { k1 with
    loops := mapWrite 0 [] 0 loops,
    comps := mapWrite false [] 0 ((List.range 8).map (bitAt comps)),
    sync := mapWrite 0 [] 0 sync }

/-- The saved accumulators, registers, streams and spill of a slot back in the pond (13 R369). -/
def restorePond (s : State) (t kind slot : Nat) (i : Option Image) (pd : Pond) : Pond :=
  let w := readLe s (slot + 32768) 4
  let words (a n : Nat) : List F32 := (List.range n).map fun j => BitVec.ofNat 32 (readLe s (a + 4 * j) 4)
  let ends := (List.range 32).map fun j => streamOfBytes (readBytes s (slot + 4096 + 64 * j) 64)
  let pd := { pd with streams := mapWrite StreamEnd.closed [] 0 ends }
  let pd := ((List.range 8).filter (bitAt (bits w 31 24))).foldl
    (fun pd j => { pd with acc := mapWrite 0 pd.acc (j * 65536) (words (slot + 65536 + j * 262144) 65536) }) pd
  let pd := ((List.range 32).filter (bitAt (readLe s (slot + 32776) 4))).foldl
    (fun pd j => { pd with vregs := mapWrite 0 pd.vregs (j * 256) (words (slot + 2162688 + j * 1024) 256) }) pd
  (savedRuns s t kind (slotKind s slot) i (w % 65536)).foldl (fun pd r => bufWrite pd r.1 (readBytes s (slot + 2195456 + (r.1 - taskField s t 32 4)) r.2)) pd

/-- A command pushed back into the queue of its class. -/
def pushBack (program now : Nat) (c : Cmd) (cls : Nat) (pd : Pond) : Pond :=
  { setQueue pd cls (queueOf pd cls ++ [{ cmd := c, program := program, pushed := now, number := pd.pushes }]) with
    pushes := pd.pushes + 1 }

/-- The saved unstarted commands of a forced stop, pushed back in their order (13 R369). -/
def restoreQueues (s : State) (slot program : Nat) (pd : Pond) : Pond :=
  (List.range 11).foldl (fun pd c =>
    let cs := ((List.range 64).map fun j => cmdOfBytes (readBytes s (slot + 8192 + c * 2048 + 32 * j) 32)).filter
      fun x => decide (x.w0 ≠ 0)
    cs.foldl (fun pd x => pushBack program s.now x (c + 1) pd) pd) pd

/-- B_live of a restore: the largest of the gang's ranks. -/
def restoreLive (s : State) (g t : Nat) : Nat :=
  let kind := savedKind s g t
  ((gangMembers s g).map fun l =>
    slotLive s t kind (slotOf s t l) (imageOn s (physOf s l) (taskField s t 1 1))).foldl max 0

/-- SCHEDULER_DECISION (13 R363, R369): in background time with no task under way, or with the task standing at its
RET, the gang takes the eligible task with the smallest pass. -/
def execSchedulerDecision (g : Nat) (s : State) : Out :=
  if g < logicalCount s then
    .next (
      let atRet := match runOf s g with
        | some r => !r.saving && !r.restoring && r.stopAt.isNone && gangQuiet s g && allStopped s g
        | none => gangQuiet s g
      if !atRet || !backgroundTime s g then s
      else
        let s := chargeTask g false s
        match runOf s g, chooseTask s g with
        | some r, some t =>
          if t = r.task then enterTask g t s
          else setRun s g (some { r with stopAt := some s.now })
        | some r, none => setRun s g (some { r with stopAt := some s.now })
        | none, none => s
        | none, some t =>
          if bitAt (taskField s t 6 1) 0 then
            beginMove g (setRun (setTaskState s t 2) g
              (some { task := t, since := s.now, entered := s.now, stopAt := none, saving := false,
                      restoring := true, kind := 0, live := restoreLive s g t, ending := false }))
          else enterTask g t s)
  else .fault .noSuchUnit

end Sys2Proof.Machine
end

