-- ==== Sys2Proof/Machine/Access.lean ====
section
/-! DEFINITION. Accesses of a pond's engines to the unified range (10 R280, R286, R300, R302 to R304, 07 R209), and the
table engine (05 R130, R146, R147). -/

namespace Sys2Proof.Machine

/-! ## Checks of a transfer -/

/-- The program that a pond runs has the serving flag (06 Table CMD-8). -/
def servesProgram (s : State) (ph program : Nat) : Bool :=
  match imageOn s ph program with
  | some i => bitAt i.flags 0
  | none => false

/-- Accesses of a serving section to extents that are not pinned in tier 0 (10 R300): counted, with source 16. -/
def tierMiss (ph program : Nat) (runs : List Run) (s : State) : State :=
  let es := (unitExtents s runs fun x => decide (x.tier ≠ 0) || !x.pinned).dedup
  if !servesProgram s ph program || decide (es = []) then s
  else raise 16 (.pond ph) (addObj s (key 0x2A04 0xA) es.length)

/-- A run touches a page of a configured pool (07 R209). -/
def touchesPool (s : State) (r : Run) : Bool :=
  (List.range 4).any fun q =>
    let base := getObj s (key (0x2710 + q) 1)
    decide (base < r.1 + r.2 ∧ r.1 < base + poolPages s q * poolPageBytes s q)

/-- The epoch of the reads that a pond's program issues (07 R209): the tick of admission for a step, else the tick of
issue; none when no page is read. -/
def epochOf (s : State) (ph : Nat) (runs : List Run) : Option Nat :=
  if runs.any (touchesPool s) then
    match (pondOf s ph).core.sect with
    | some sec => if sec.task then some (tickNumber s) else some sec.epoch
    | none => some (tickNumber s)
  else none

/-! ## TLOAD (05 R130, R146, R147) -/

def tloadFirst (c : Cmd) : Nat := bits c.w1.toNat 63 56
def tloadCount (c : Cmd) : Nat := bits c.w1.toNat 55 48 + 1

/-- The image slot of a table of a logical pond (05 R130). -/
def tableSlot (l t : Nat) : Nat := 0xFF02A8000000 + 262144 * l + 1024 * t

/-- A legal TLOAD (05 R147). -/
def tloadLegal (c : Cmd) : Bool :=
  decide (tloadFirst c + tloadCount c ≤ 256) && decide (bits c.w1.toNat 47 0 = 0) && decide (c.w2 = 0) &&
    decide (c.w3 = 0)

/-- The record of the table numbers of a logical number that hold a valid table (05 R131). -/
def noteTable (l t : Nat) (valid : Bool) (s : State) : State :=
  let ts := (mapFind [] s.map.tables l).filter (· ≠ t)
  { s with map := { s.map with tables := mapPut [] s.map.tables l (if valid then ts ++ [t] else ts) } }

/-- One table loaded from its slot, counted (0x2501.0A): an invalid image, or one in an unmapped or unservable slot, leaves the table
invalid, is counted and sets source 6 (05 R130). -/
def loadTable (l ph t : Nat) (s : State) : State :=
  let run : Run := (tableSlot l t, 1024)
  let bs := readBytes s run.1 1024
  let s := addObj s (key 0x2501 0xA) 1
  if !unitMapped s [run] || unservable s [run] || imageInvalid bs then
    let s := if unitMapped s [run] then s else unmappedAccess s
    let s := modPond s ph fun pd => { pd with tables := mapPut Table.invalid pd.tables t Table.invalid }
    let s := noteTable l t false s
    raise 6 (.pond ph) (addObj s (key 0x2501 0xB) 1)
  else
    noteTable l t true
      (modPond s ph fun pd => { pd with tables := mapPut Table.invalid pd.tables t { valid := true, bytes := bs } })

/-- The tables of a list loaded in order. -/
def loadTables (l ph : Nat) (ts : List Nat) (s : State) : State := forEach ts (loadTable l ph) s

/-- The image slots that a TLOAD reads: one under re-fetch holds the command at its head (05 R130). -/
def tloadReads (l : Nat) (_ : State) (_ : Nat) (q : Queued) : List Run :=
  [(tableSlot l (tloadFirst q.cmd), 1024 * tloadCount q.cmd)]

/-- TLOAD: tables loaded from the pond's image area. -/
def execTload (p : Nat) (s : State) : Out :=
  onHead p 0x5 0x01 0 s (fun s ph _ => classIdle (pondOf s ph) 0x5) (fun _ _ q => tloadLegal q.cmd)
    (fun ph q s => ran (loadTables p ph ((List.range (tloadCount q.cmd)).map (tloadFirst q.cmd + ·)) s)) (tloadReads p)

end Sys2Proof.Machine
end

