-- ==== Sys2Proof/Machine/Crc.lean ====
section
/-! DEFINITION. The cyclic redundancy checks: CRC-32C of images, records and group headers (06 R163, 11 Table NUM-1, 12
Table FAB-4) and CRC-64/ECMA-182 of flits (12 R335). -/

namespace Sys2Proof.Machine

/-- `k` shifts of the reflected CRC-32C register. -/
def crc32cShift : Nat → Nat → Nat
  | 0, c => c
  | k + 1, c => crc32cShift k (if c % 2 = 1 then (c / 2) ^^^ 0x82F63B78 else c / 2)

/-- CRC-32C of a run of bytes. -/
def crc32c (bs : List Byte) : Nat :=
  (bs.foldl (fun c b => crc32cShift 8 (c ^^^ b.toNat)) 0xFFFFFFFF) ^^^ 0xFFFFFFFF

/-- `k` shifts of the CRC-64/ECMA-182 register. -/
def crc64Shift : Nat → Nat → Nat
  | 0, c => c
  | k + 1, c =>
    crc64Shift k (if 2 ^ 63 ≤ c then ((c * 2) % 2 ^ 64) ^^^ 0x42F0E1EBA9EA3693 else (c * 2) % 2 ^ 64)

/-- CRC-64/ECMA-182 of a run of bytes. -/
def crc64 (bs : List Byte) : Nat := bs.foldl (fun c b => crc64Shift 8 (c ^^^ (b.toNat * 2 ^ 56))) 0

end Sys2Proof.Machine
end

