-- ==== Sys2Proof/Machine/Tiers.lean ====
section
/-! DEFINITION. The memory tiers (10): directives, migrations, prefetch schedules, poison and its re-fetch, errors and
recalibration of members, and the evacuation of a member (15 R420, R422). -/

namespace Sys2Proof.Machine

/-! ## The directive ring (10 R283) -/

/-- Slot 0 of the directive ring and its publish location (10 Table MEM-3). -/
def directiveRing : Nat := 0xFF0340040000
def directivePublish : Nat := 0xFF0340050000

/-- The slot of a directive of the count. -/
def directiveSlot (i : Nat) : Nat := directiveRing + i % 1024 * 64

/-- A directive entry (10 Table MEM-5). -/
structure DirectiveEntry where
  op : Nat
  obj : Nat
  tier : Nat
  pinned : Bool
  readOnly : Bool
  base : Nat
  count : Nat
  backup : Nat
  mask : Nat
  resv : Bool
  deriving DecidableEq, Repr

/-- The entry in a slot. -/
def directiveAt (s : State) (i : Nat) : DirectiveEntry :=
  let w (k : Nat) : Nat := readLe s (directiveSlot i + 8 * k) 8
  { op := bits (w 0) 63 56, obj := bits (w 0) 55 44, tier := bits (w 0) 43 42, pinned := bitAt (w 0) 41,
    readOnly := bitAt (w 0) 40, base := bits (w 1) 47 0, count := bits (w 2) 31 0, backup := bits (w 3) 47 0,
    mask := readLe s (directiveSlot i + 32) 32,
    resv := decide (bits (w 0) 39 8 ≠ 0) || decide (bits (w 1) 63 48 ≠ 0) || decide (bits (w 2) 63 32 ≠ 0) ||
      decide (bits (w 3) 63 48 ≠ 0) }

/-- The result byte of a directive's slot, written by the device. -/
def writeResult (i r : Nat) (s : State) : State := deviceWrite s (directiveSlot i) [BitVec.ofNat 8 r]

/-- Consumed directives (0x2A01.06). -/
def directivesConsumed (s : State) : Nat := getObj s (key 0x2A01 6)

/-- Directives in progress. -/
def inProgress (t : Tiers) : List Directive := t.directives.filter fun d => !d.complete

/-- The start of directives from the count on, in ring order, with at most 16 in progress and none past one whose object
is busy; a reserved opcode has no effect to perform and ends with result 0x06. -/
def startDirectives (published : Nat) : Nat → State → State
  | 0, s => s
  | fuel + 1, s =>
    let i := s.tiers.started
    let d := directiveAt s i
    if published ≤ i ∨ 16 ≤ (inProgress s.tiers).length ∨
        ((inProgress s.tiers).any fun x => decide (x.obj = d.obj)) = true then s
    else
      let bad := decide (d.op = 0 ∨ 6 < d.op)
      startDirectives published fuel (writeResult i 0xFE { s with tiers := { s.tiers with
        started := i + 1,
        directives := s.tiers.directives ++
          [{ index := i, op := d.op, obj := d.obj, result := if bad then 6 else 0xFE, performed := bad,
             complete := false }] } })

/-- DIRECTIVE_RING_READ: the published count is read and directives start (10 R283). -/
def execDirectiveRingRead (s : State) : Out :=
  .next (if mappedAt s directivePublish && !tiersAsleep s then startDirectives (readLe s directivePublish 8) 16 s else s)

/-! ## Frames and migrations (10 R285, R287, R288) -/

/-- An object record (10 R282). -/
def objOf (s : State) (o : Nat) : Obj := mapFind Obj.free s.tiers.objects o

/-- The state with an object record replaced. -/
def setObject (s : State) (o : Nat) (x : Obj) : State :=
  { s with tiers := { s.tiers with objects := mapPut Obj.free s.tiers.objects o x } }

/-- The extents of an object. -/
def objExtents (x : Obj) : List Nat :=
  match extentIndex x.base with
  | none => []
  | some e => (List.range x.count).map (e + ·)

/-- A frame returns to the free frames once the transactions to it have completed (10 R284, R287). -/
def releaseFrame (tier frame : Nat) (s : State) : State :=
  { s with tiers := { s.tiers with releasing := s.tiers.releasing ++ [(tier, frame)] } }

/-- FRAME_RELEASE: a frame that waits for its transactions is free again. -/
def releasedFrame (tier frame : Nat) (s : State) : State :=
  markFrame { s with tiers := { s.tiers with releasing := s.tiers.releasing.erase (tier, frame) } } tier frame false

/-- A migration ended or given up before its switch: its frame is free again, and the extent no longer migrates. -/
def dropMigration (m : Migration) (s : State) : State :=
  let s := { s with tiers := { s.tiers with migrations := s.tiers.migrations.erase m } }
  match m.toFrame with
  | none => s
  | some fr =>
    let s := markFrame s m.toTier fr false
    setExtent s m.extent { extentOf s m.extent with migrating := false }

/-- Copies in progress. -/
def copying (s : State) : Nat := (s.tiers.migrations.filter fun m => m.toFrame.isSome).length

/-- Frames of a tier that waiting migrations of directives and schedules will take. -/
def owedFrames (s : State) (tier : Nat) : Nat :=
  (s.tiers.migrations.filter fun m => decide (m.toTier = tier) && m.toFrame.isNone && !m.evacuate).length

/-- User frames of a tier that a directive or a prefetch entry finds free. -/
def spareFrames (s : State) (tier : Nat) : Nat := allocatable s tier - owedFrames s tier

/-- The tier and frame for an extent that leaves an evacuating member (15 R420): a user frame of its tier; an extent that
is not pinned is demoted where none is free; else a reserve frame of its tier (10 R275). -/
def evacuationTarget (s : State) (x : Extent) : Option (Nat × Nat) :=
  match nextFrame s x.tier with
  | some fr => some (x.tier, fr)
  | none =>
    let lower := if x.pinned then none else (nextFrame s (x.tier + 1)).map fun fr => (x.tier + 1, fr)
    match lower with
    | some t => some t
    | none => (rotate s x.tier (reserveInGroup s x.tier)).map fun fr => (x.tier, fr)

/-- A prefetch schedule as it stands. -/
def scheduleOf (s : State) (n : Nat) : Schedule :=
  mapFind { cursor := 0, depth := 0, entries := [] } s.tiers.schedules n

/-- The state with a prefetch schedule replaced. -/
def setSchedule (s : State) (n : Nat) (sc : Schedule) : State :=
  { s with tiers := { s.tiers with schedules := mapInsert s.tiers.schedules n sc } }

/-- A prefetch entry ends, once, and is counted: `k` is its pass × 4,096 + number, `sub` the counter of Table MEM-18 (10 R295). -/
def endEntry (n k sub : Nat) (s : State) : State :=
  let sc := scheduleOf s n
  if k / 4096 = sc.pass then
    match sc.entries[k % 4096]? with
    | none => s
    | some en =>
      if en.ended then s
      else addObj (setSchedule s n { sc with entries := sc.entries.set (k % 4096) { en with ended := true } }) (key 0x2A03 sub) 1
  else if k ∈ sc.old then addObj (setSchedule s n { sc with old := sc.old.filter (· ≠ k) }) (key 0x2A03 sub) 1
  else s

/-- The end of a migration noted at its prefetch entry: the entry ends with its last one (10 R295). -/
def noteEntry (sch : Option (Nat × Nat)) (s : State) : State :=
  match sch with
  | none => s
  | some (n, k) =>
    if s.tiers.migrations.any fun m => decide (m.schedule = some (n, k)) then s else endEntry n k 5 s

/-- A migration given up before its switch, for another reason than an error. -/
def cancelMigration (m : Migration) (s : State) : State := noteEntry m.schedule (dropMigration m s)

/-- One waiting migration started, or given up when it has nothing left to do: its frame taken and the extent marked
migrating (10 R287); one of an extent whose re-fetch is under way waits for its end (10 R302). -/
def startMigration (m : Migration) (s : State) : State :=
  let x := extentOf s m.extent
  if 16 ≤ copying s then s
  else if x.migrating || s.tiers.refetches.any (fun r => decide (r.extent = m.extent)) then s
  else if m.evacuate then
    (if 3 ≤ x.tier ∨ (x.tier, frameGroup x.tier x.frame) ∉ s.tiers.evacuating then
      { s with tiers := { s.tiers with migrations := s.tiers.migrations.erase m } }
    else
      match evacuationTarget s x with
      | none => s
      | some (t, fr) =>
        let s := setExtent (takeFrame s t fr) m.extent { x with migrating := true }
        { s with tiers := { s.tiers with migrations := s.tiers.migrations.map fun q =>
            if q = m then { m with toTier := t, toFrame := some fr, began := s.now } else q } })
  else if 3 ≤ x.tier ∨ x.tier = m.toTier ∨ (m.schedule.isSome = true ∧ x.pinned = true) then
    noteEntry m.schedule { s with tiers := { s.tiers with migrations := s.tiers.migrations.erase m } }
  else
    match nextFrame s m.toTier with
    | none => s
    | some fr =>
      let s := setExtent (takeFrame s m.toTier fr) m.extent { x with migrating := true }
      { s with tiers := { s.tiers with migrations := s.tiers.migrations.map fun q =>
          if q = m then { m with toFrame := some fr, began := s.now } else q } }

/-- Waiting migrations started in order while fewer than 16 copies run (10 R288); source 48 follows the frames that an
evacuation lacks (15 R420). -/
def pumpMigrations (s : State) : State :=
  let s := forEach (s.tiers.migrations.filter fun m => m.toFrame.isNone) startMigration s
  followCause 48 (decide (copying s < 16) && s.tiers.migrations.any fun m =>
    m.evacuate && m.toFrame.isNone && !(extentOf s m.extent).migrating) s

/-- FRAME_RELEASE (10 R284). -/
def execFrameRelease (tier frame : Nat) (s : State) : Out :=
  .next (if (tier, frame) ∈ s.tiers.releasing then pumpMigrations (releasedFrame tier frame s) else s)

/-- The extents of an evacuating member that hold a frame of it, pinned ones first, each with its migration
(15 R420). -/
def planEvacuation (tier g : Nat) (s : State) : State :=
  let on := s.tiers.extents.filter fun e =>
    decide (e.2.tier = tier) && decide (frameGroup tier e.2.frame = g) &&
      !(s.tiers.migrations.any fun m => decide (m.extent = e.1))
  let es := (on.filter fun e => e.2.pinned) ++ on.filter fun e => !e.2.pinned
  { s with tiers := { s.tiers with migrations := s.tiers.migrations ++ es.map fun e =>
      { extent := e.1, toTier := tier, toFrame := none, directive := none, schedule := none, evacuate := true } } }

/-- The retirement of a member begins (15 R420 steps 1 and 2). -/
def startEvacuation (tier g : Nat) (s : State) : State :=
  if groupInService s tier g then
    let s := forEach (groupMembers tier g) (fun i s => setMember s tier i { memberOf s tier i with state := 3 }) s
    let s := { s with tiers := { s.tiers with evacuating := s.tiers.evacuating ++ [(tier, g)] } }
    pumpMigrations (planEvacuation tier g s)
  else s

/-- EVACUATION_RETRY at a used edge (15 R420). -/
def retryEvacuation (s : State) : State :=
  pumpMigrations (forEach s.tiers.evacuating (fun m s => planEvacuation m.1 m.2 s) s)

/-- Allocated frames of a member that is being evacuated: mapped ones, targets of copies, and frames with outstanding
transactions (15 R420 step 3, 0x2E10.08). -/
def framesLeft (s : State) (tier g : Nat) : Nat :=
  let here (t fr : Nat) : Bool := decide (t = tier) && decide (frameGroup tier fr = g)
  (s.tiers.extents.filter fun e => here e.2.tier e.2.frame).length +
    (s.tiers.migrations.filter fun m => match m.toFrame with
      | some fr => here m.toTier fr
      | none => false).length +
    (s.tiers.refetches.filter fun r => here (extentOf s r.extent).tier r.toFrame).length +
    (s.tiers.releasing.filter fun r => here r.1 r.2).length

/-- Source 46's cause while a degraded member is not retired (15 R422). -/
def followDegraded (s : State) : State := followCause 46 (decide (s.tiers.degraded ≠ [])) s

/-- A member becomes degraded (15 R422). -/
def degrade (tier i : Nat) (s : State) : State :=
  let k := tier * 1024 + i
  if k ∈ s.tiers.degraded then s
  else followDegraded { s with tiers := { s.tiers with degraded := s.tiers.degraded ++ [k] } }

/-- MEMBER_EVACUATION_DONE: no allocated frame remains and the member is retired (15 R420 step 3). -/
def execMemberEvacuationDone (tier member : Nat) (s : State) : Out :=
  if tier < 2 ∧ member < memberGroups tier then
    .next (if (tier, member) ∈ s.tiers.evacuating ∧ framesLeft s tier member = 0 then
      let s := forEach (groupMembers tier member)
        (fun i s => setMember s tier i { memberOf s tier i with state := 2 }) s
      let s := { s with tiers := { s.tiers with
        evacuating := s.tiers.evacuating.erase (tier, member),
        degraded := s.tiers.degraded.filter fun k =>
          !(decide (k / 1024 = tier) && decide (groupOf tier (k % 1024) = member)) } }
      let s := followDegraded (addObj s (key 0x2E10 7) 1)
      if s.requests.retire = some (tier, member) then
        setObj (setObj { s with requests := { s.requests with retire := none } } (key 0x2E10 0xB) 0) (key 0x2E10 0xC) 0
      else s
    else s)
  else .fault .noSuchUnit

/-! ## Directives (10 R284) -/

/-- Rows of Table MEM-3 that the run-time places. -/
def runtimeRows : List (Nat × Nat) :=
  [(0xFF0000000000, 0x80000000), (0xFF0080000000, 0x100000000), (0xFF0180000000, 0x100000000),
   (0xFF1000000000, 0xF000000000)]

/-- A range that DEFINE may take: whole extents of the general range or of one run-time row. -/
def rangePermitted (base n : Nat) : Bool :=
  let len := n * extentSize
  decide (base % extentSize = 0) && decide (1 ≤ n) &&
    (decide (base + len ≤ 2 ^ 47) || runtimeRows.any fun r => decide (r.1 ≤ base ∧ base + len ≤ r.1 + r.2))

/-- A backup range is in order: whole extents, wholly mapped, and not overlapping the object. -/
def backupFits (s : State) (backup base n : Nat) : Bool :=
  let len := n * extentSize
  decide (backup % extentSize = 0) && unitMapped s [(backup, len)] &&
    (decide (backup + len ≤ base) || decide (base + len ≤ backup))

/-- The result of a directive (10 R284, Table MEM-7), its checks in the order of the codes. -/
def directiveResult (s : State) (d : DirectiveEntry) : Nat :=
  let o := objOf s d.obj
  let define := decide (d.op = 1)
  let moves := decide (d.op = 1 ∨ d.op = 2)
  let need := if define then d.count else (objExtents o).countP fun e => decide ((extentOf s e).tier ≠ d.tier)
  if (if define then decide (o.state ≠ 0) else decide (o.state ≠ 1)) then 1
  else if define && (!rangePermitted d.base d.count ||
      ((List.range d.count).any fun k => mappedAt s (d.base + k * extentSize))) then 2
  else if moves && d.pinned && decide (d.tier ≠ 0) then 3
  else if define && decide (d.backup ≠ 0) && (!d.readOnly || !backupFits s d.backup d.base d.count) then 3
  else if decide (d.op = 4) && (!o.readOnly ||
      (decide (d.backup ≠ 0) && !backupFits s d.backup o.base o.count)) then 3
  else if moves && decide (d.tier < 3) && decide (spareFrames s d.tier < need) then 4
  else if moves && decide (d.tier = 2) && decide (userFrames s 2 = 0) then 5
  else if d.resv || (moves && decide (d.tier = 3)) then 6
  else 0

/-- DEFINE's extent: a frame taken, zeroed and mapped (10 R285). -/
def defineExtent (d : DirectiveEntry) (e : Nat) (s : State) : State :=
  match nextFrame s d.tier with
  | none => s
  | some fr =>
    setExtent (zeroFrame (takeFrame s d.tier fr) d.tier fr) e
      { Extent.unmapped with tier := d.tier, pinned := d.pinned, readOnly := d.readOnly, object := d.obj,
                             frame := fr }

/-- The effect of DEFINE. -/
def defineEffect (_ : Nat) (d : DirectiveEntry) (s : State) : State :=
  let o : Obj := { state := 1, tier := d.tier, pinned := d.pinned, readOnly := d.readOnly, poisoned := false,
                   base := d.base, count := d.count, backup := d.backup, mask := d.mask }
  setObject (forEach (objExtents o) (defineExtent d) s) d.obj o

/-- The effect of PLACE: pinned as given where the extent is in the tier, or at once where it is cleared; every other
extent migrates (10 R287), in place of a move of a schedule that has not begun. A schedule moves no extent that is now pinned out of tier 0
(10 R286): such a copy ends. -/
def placeEffect (i : Nat) (d : DirectiveEntry) (s : State) : State :=
  let es := objExtents (objOf s d.obj)
  let s := forEach (s.tiers.migrations.filter fun m => decide (m.extent ∈ es) && m.schedule.isSome &&
    (m.toFrame.isNone || (d.pinned && decide ((extentOf s m.extent).tier = d.tier)))) cancelMigration s
  let s := forEach es (fun e s =>
    let x := extentOf s e
    if x.tier = d.tier ∨ !d.pinned then setExtent s e { x with pinned := d.pinned } else s) s
  let go := es.filter fun e => decide ((extentOf s e).tier ≠ d.tier) || (extentOf s e).migrating
  pumpMigrations { s with tiers := { s.tiers with migrations := s.tiers.migrations ++ go.map fun e =>
    { extent := e, toTier := d.tier, toFrame := none, directive := some i, schedule := none, evacuate := false } } }

/-- An extent is unmapped at once: its frame returns later, and its copies end (10 R284). -/
def unmapExtent (e : Nat) (s : State) : State :=
  let s := forEach (s.tiers.migrations.filter fun m => decide (m.extent = e)) cancelMigration s
  let s := forEach (s.tiers.refetches.filter fun r => decide (r.extent = e))
    (fun r s => releaseFrame (extentOf s e).tier r.toFrame
      { s with tiers := { s.tiers with refetches := s.tiers.refetches.erase r } }) s
  let x := extentOf s e
  setExtent (releaseFrame x.tier x.frame s) e Extent.unmapped

/-- The effect of FREE. -/
def freeEffect (_ : Nat) (d : DirectiveEntry) (s : State) : State :=
  setObject (forEach (objExtents (objOf s d.obj)) unmapExtent s) d.obj Obj.free

/-- The effect of SETBACKUP. -/
def setbackupEffect (_ : Nat) (d : DirectiveEntry) (s : State) : State :=
  setObject s d.obj { objOf s d.obj with backup := d.backup }

/-- The effect of CLEAN. -/
def cleanEffect (_ : Nat) (d : DirectiveEntry) (s : State) : State :=
  let o := objOf s d.obj
  setObject (forEach (objExtents o) (fun e s => setExtent s e { extentOf s e with poisoned := false }) s) d.obj
    { o with poisoned := false }

/-- The effect of SETMASK. -/
def setmaskEffect (_ : Nat) (d : DirectiveEntry) (s : State) : State :=
  setObject s d.obj { objOf s d.obj with mask := d.mask }

/-- The directive of count `i`, started and not yet performed with opcode `op`, is checked and performed; a refused one
changes nothing (10 R284). -/
def performDirective (i op : Nat) (effect : Nat → DirectiveEntry → State → State) (s : State) : Out :=
  .next (match s.tiers.directives.find? fun d => decide (d.index = i) && decide (d.op = op) && !d.performed with
    | none => s
    | some d =>
      let en := { directiveAt s i with op := op, obj := d.obj }
      let r := directiveResult s en
      let s := { s with tiers := { s.tiers with directives := s.tiers.directives.map fun q =>
        if q = d then { d with result := r, performed := true } else q } }
      if r = 0 then effect i en s else s)

/-- DEFINE (10 Table MEM-6). -/
def execDefine (i : Nat) (s : State) : Out := performDirective i 1 defineEffect s

/-- PLACE. -/
def execPlace (i : Nat) (s : State) : Out := performDirective i 2 placeEffect s

/-- FREE. -/
def execFree (i : Nat) (s : State) : Out := performDirective i 3 freeEffect s

/-- SETBACKUP. -/
def execSetbackup (i : Nat) (s : State) : Out := performDirective i 4 setbackupEffect s

/-- CLEAN. -/
def execClean (i : Nat) (s : State) : Out := performDirective i 5 cleanEffect s

/-- SETMASK. -/
def execSetmask (i : Nat) (s : State) : Out := performDirective i 6 setmaskEffect s

/-- The consumed count moves over completed directives from the oldest on (10 R283). -/
def advanceConsumed : Nat → State → State
  | 0, s => s
  | fuel + 1, s =>
    match s.tiers.directives.find? fun d => decide (d.index = directivesConsumed s) && d.complete with
    | none => s
    | some d =>
      advanceConsumed fuel (setObj { s with tiers := { s.tiers with
        directives := s.tiers.directives.erase d } } (key 0x2A01 6) (directivesConsumed s + 1))

/-- DIRECTIVE_COMPLETE: a directive that has been performed, and whose migrations have ended, gets its result; it is
counted and the consumed count advances (10 R283). A PLACE that completed shows its tier and pinned flag. -/
def execDirectiveComplete (i : Nat) (s : State) : Out :=
  .next (match s.tiers.directives.find? fun d => decide (d.index = i) && d.performed && !d.complete with
    | none => s
    | some d =>
      if s.tiers.migrations.any fun m => decide (m.directive = some i) then s
      else
        let en := directiveAt s i
        let s := if d.op = 2 ∧ d.result = 0
          then forEach (objExtents (objOf s d.obj))
            (fun e s => if (extentOf s e).tier = en.tier then setExtent s e { extentOf s e with pinned := en.pinned } else s)
            (setObject s d.obj { objOf s d.obj with tier := en.tier, pinned := en.pinned }) else s
        let s := writeResult i d.result { s with tiers := { s.tiers with directives := s.tiers.directives.map fun q =>
          if q = d then { d with complete := true } else q } }
        advanceConsumed 1024 (addObj s (key 0x2A03 (if d.result = 0 then 1 else 2)) 1))

/-! ## MIGRATION_DONE (10 R287) -/

/-- The pinned flag of an extent after its move: as the PLACE gives it, else as before. -/
def pinnedAfter (s : State) (m : Migration) (x : Extent) : Bool :=
  match m.directive with
  | some i => (directiveAt s i).pinned
  | none => x.pinned

/-- MIGRATION_DONE: the last granule of an extent's copy has been copied, and the map switches (10 R287); a copy from or
to tier 2 waits while the link is down (16 R438). -/
def execMigrationDone (e : Nat) (s : State) : Out :=
  .next (match s.tiers.migrations.find? fun m => decide (m.extent = e) && m.toFrame.isSome with
    | none => s
    | some m =>
      if !linkUp s && (decide ((extentOf s e).tier = 2) || decide (m.toTier = 2)) then s
      else
      let fr := m.toFrame.getD 0
      let x := extentOf s e
      let s := addObj (addObj (copyFrame s x.tier x.frame m.toTier fr) (key 0x2A05 (2 * x.tier + 1)) extentSize)
        (key 0x2A05 (2 * m.toTier + 2)) extentSize
      let s := releaseFrame x.tier x.frame { s with tiers := { s.tiers with
        migrations := s.tiers.migrations.erase m } }
      let s := setExtent s e { x with tier := m.toTier, frame := fr, migrating := false,
                                      pinned := pinnedAfter s m x }
      let s := noteEntry m.schedule (addObj s (key 0x2A03 3) 1)
      retryEvacuation s)

/-! ## Prefetch schedules (10 R294, R295) -/

/-- First byte of a schedule. -/
def scheduleBase (n : Nat) : Nat := 0xFF0340200000 + n * 131072

/-- An entry of a schedule in memory (10 Table MEM-11). -/
def readEntry (s : State) (n k : Nat) : PfEntry :=
  let a := scheduleBase n + 64 + 32 * k
  { first := bits (readLe s a 8) 47 0, count := readLe s (a + 8) 4, due := readLe s (a + 12) 2,
    action := readLe s (a + 14) 1, started := false, ended := false }

/-- Entries of a schedule, by its header. -/
def scheduleCount (s : State) (n : Nat) : Nat := min (readLe s (scheduleBase n) 2) 4094

/-- The valid flag of a schedule. -/
def scheduleValid (s : State) (n : Nat) : Bool := bitAt (readLe s (scheduleBase n + 3) 1) 0

/-- Target tier of an action: 0 promote; 1, 2 demote. -/
def actionTier (a : Nat) : Nat := a

/-- A due entry starts: its extents that are mapped, not pinned and not in the target tier migrate; it fails when the
tier has too few free user frames, and ends at once when nothing moves (10 R295). -/
def startEntry (n k : Nat) (en : PfEntry) (s : State) : State :=
  let sc := scheduleOf s n
  let id := sc.pass * 4096 + k
  let es := (List.range en.count).filterMap fun j => extentIndex (en.first + j * extentSize)
  let go := es.filter fun e =>
    let x := extentOf s e
    decide (x.tier < 3) && !x.pinned && decide (x.tier ≠ actionTier en.action)
  let s := setSchedule s n { sc with entries := sc.entries.set k { en with started := true } }
  if spareFrames s (actionTier en.action) < go.length then endEntry n id 6 s
  else
    noteEntry (some (n, id)) { s with tiers := { s.tiers with migrations := s.tiers.migrations ++ go.map fun e =>
      { extent := e, toTier := actionTier en.action, toFrame := none, directive := none, schedule := some (n, id),
        evacuate := false } } }

/-- Every entry not yet started whose due mark is at most the cursor plus depth, in entry order (10 R295). -/
def startDue (n : Nat) (s : State) : State :=
  match s.tiers.schedules.find? fun e => decide (e.1 = n) && !tiersAsleep s with
  | none => s
  | some (_, sc) =>
    pumpMigrations ((List.range sc.entries.length).foldl (fun s k =>
      match sc.entries[k]? with
      | none => s
      | some en => if !en.started && decide (en.due ≤ sc.cursor + sc.depth) then startEntry n k en s else s) s)

/-- PFMARK's effect on a schedule (10 R295): restart, or the cursor moved up. Entries of the pass that ends which have started go on, and
are counted when they end. -/
def markSchedule (n mark : Nat) (s : State) : State :=
  let sc := scheduleOf s n
  if mark = 0 then
    let left := (sc.entries.filter fun en => !en.started).length
    let going := (List.range sc.entries.length).filter fun k =>
      match sc.entries[k]? with
      | some en => en.started && !en.ended
      | none => false
    let next : Schedule :=
      { cursor := 0, depth := readLe s (scheduleBase n + 2) 1,
        entries := (List.range (scheduleCount s n)).map (readEntry s n), pass := sc.pass + 1,
        old := sc.old ++ going.map (sc.pass * 4096 + ·) }
    startDue n (setSchedule (addObj s (key 0x2A03 6) left) n next)
  else if sc.cursor < mark then startDue n (setSchedule s n { sc with cursor := mark })
  else s

/-- Every entry with a due mark of at most `m` has completed or failed (10 R295). -/
def marksReached (s : State) (n m : Nat) : Bool :=
  (scheduleOf s n).entries.all fun en => en.ended || decide (m < en.due)

/-- The tier under which a wait for a mark is counted: the target tier of the first entry that it waits for (DESIGN CHOICE, log 29). -/
def markTier (s : State) (n m : Nat) : Nat :=
  match (scheduleOf s n).entries.find? fun en => !en.ended && decide (en.due ≤ m) with
  | some en => actionTier en.action
  | none => 0

/-! ## Errors of memory (10 R276, R302 to R304, 15 R422) -/

/-- One hour in clk. -/
def hourClk : Nat := 4500000000000

/-- The row that holds a byte of tier 0: pseudo-channel × 2^40 + the row within it. -/
def rowOfByte (x : Extent) (off : Nat) : Nat :=
  let pc := memberOfByte x off
  pc * 2 ^ 40 + Config.rowOf pc (x.frame / 64 * 262144 + off / 2048 * 256 + off % 256) % 2 ^ 40

/-- The object of an extent: the defined one that its map entry names and whose range holds it (10 R302). -/
def objectOfExtent (s : State) (e : Nat) : Option Nat :=
  let x := extentOf s e
  let o := objOf s x.object
  if o.state = 1 ∧ e ∈ objExtents o then some x.object else none

/-- The entries not yet fetched of a gang whose program is in the mask: switched to a fallback outside the mask, or
dropped (10 R304). -/
def maskGang (mask g : Nat) (s : State) : State :=
  let gg := gangOf s g
  let f (acc : Gang × List Nat) (i : Nat) : Gang × List Nat :=
    match acc.1.entries[i]? with
    | none => acc
    | some e =>
      if i < gg.next ∨ !bitAt mask e.program ∨ e.dropped = true then acc
      else
        let fu := futureOf s e.future
        if fu.fallbackEligible && !e.fallback && !bitAt mask fu.fallback then
          let e' := switchEntry s acc.1 e
          ({ acc.1 with entries := acc.1.entries.set i e',
                        charged := if e'.program ∈ acc.1.charged then acc.1.charged
                                   else e'.program :: acc.1.charged }, acc.2 ++ [e.future])
        else ({ acc.1 with entries := acc.1.entries.set i { e with dropped := true } }, acc.2)
  let r := (List.range gg.entries.length).foldl f (gg, [])
  let start := match r.1.entries with
    | e :: _ => e.planned
    | [] => 0
  if r.1 = gg then s
  else countSwitches r.2 (writeEntries g (setGang s g { r.1 with entries := replan start r.1.entries }))

/-- The programs of a mask become unavailable, and in the tick in progress their entries not yet fetched fall back or are
dropped (10 R304 step 2). -/
def maskPrograms (mask : Nat) (s : State) : State :=
  let ps := (List.range 256).filter fun p => bitAt mask p
  let s := forEach ps (fun p s =>
    let r := dirOf s p
    if bitAt r.state 1 then s
    else addObj (setDir s p { r with state := withBit r.state 1 true }) (key 0x2A04 9) 1) s
  let s := if ps = [] then s else followUnavailable s
  if s.tick.latched && !s.tick.committed then forEach (mapKeys s.gangs) (maskGang mask) s else s

/-- A re-fetch that no backup can serve (10 R304): counted, and the object's programs become unavailable. -/
def refetchFailed (e : Nat) (s : State) : State :=
  let s := addObj s (key 0x2A04 8) 1
  match objectOfExtent s e with
  | none => s
  | some o => maskPrograms (objOf s o).mask s

/-- The frame for a re-fetch, in the order of preference of R303. -/
def refetchFrame (s : State) (x : Extent) : Option Nat :=
  if x.tier = 2 then nextFrame s 2
  else
    match reserveInGroup s x.tier (frameGroup x.tier x.frame) with
    | some fr => some fr
    | none =>
      match rotate s x.tier (reserveInGroup s x.tier) with
      | some fr => some fr
      | none => nextFrame s x.tier

/-- The backup extent of an extent, when its object has a usable one (10 R303, R304). -/
def backupOf (s : State) (e : Nat) : Option Nat :=
  match objectOfExtent s e with
  | none => none
  | some o =>
    let ob := objOf s o
    match extentIndex ob.base, extentIndex ob.backup with
    | some b, some k =>
      let x := extentOf s (k + (e - b))
      if ob.backup ≠ 0 ∧ x.tier < 3 ∧ x.poisoned = false then some (k + (e - b)) else none
    | _, _ => none

/-- A poisoned extent's re-fetch starts, or fails (10 R303, R304). A frame taken in rotation is an allocation of R285. -/
def startRefetch (e : Nat) (s : State) : State :=
  match backupOf s e, refetchFrame s (extentOf s e) with
  | some b, some fr =>
    let x := extentOf s e
    let s := if userFrames s x.tier ≤ fr ∧ frameGroup x.tier fr = frameGroup x.tier x.frame then markFrame s x.tier fr true
      else takeFrame s x.tier fr
    { s with tiers := { s.tiers with refetches := s.tiers.refetches ++ [{ extent := e, toFrame := fr, backup := b }] } }
  | _, _ => refetchFailed e s

/-- Re-fetches whose backup has met an error fail, and their frames are free again (10 R304). -/
def failRefetches (backup : Nat) (s : State) : State :=
  forEach (s.tiers.refetches.filter fun r => decide (r.backup = backup)) (fun r s =>
    refetchFailed r.extent (markFrame { s with tiers := { s.tiers with refetches := s.tiers.refetches.erase r } }
      (extentOf s r.extent).tier r.toFrame false)) s

/-- Copies of an extent end at an error met while its source is read; a schedule's entry ends as failed (10 R287). -/
def endCopies (e : Nat) (s : State) : State :=
  forEach (s.tiers.migrations.filter fun m => decide (m.extent = e) && m.toFrame.isSome) (fun m s =>
    let s := dropMigration m s
    match m.schedule with
    | none => s
    | some (n, k) => endEntry n k 6 s) s

/-- Source 47 for a row of tier 0 (15 R422). -/
def rowEvent (row : Nat) (s : State) : State :=
  raise 47 .chip { s with weir := { s.weir with rowOf := mapPut 0 s.weir.rowOf 47 row } }

/-- The poisoning of an extent by an uncorrectable error (10 R302) and its consequences on the device. -/
def poisonExtent (uda e : Nat) (s : State) : State :=
  let x := extentOf s e
  let i := memberOfByte x (uda % extentSize)
  let s := addObj s (key 0x2A04 (3 + x.tier)) 1
  let s := if x.tier < 2
    then setMember s x.tier i { memberOf s x.tier i with uncorrectable := (memberOf s x.tier i).uncorrectable + 1 } else s
  let s := setExtent s e { extentOf s e with poisoned := true }
  let s := match objectOfExtent s e with
    | none => s
    | some o => setObject s o { objOf s o with poisoned := true }
  let s := raise 44 .chip s
  let s := if x.tier = 0 then rowEvent (rowOfByte x (uda % extentSize)) s else s
  let s := failRefetches e (endCopies e s)
  let s := if x.poisoned then s else startRefetch e s
  pumpMigrations s

/-- A corrected error (10 R276, 15 R422): counted per tier and member, with the thresholds of member and row. -/
def execCorrectedError (uda : Nat) (s : State) : Out :=
  let x := extentAt s uda
  .next (if 2 ≤ x.tier then s
    else
      let off := uda % extentSize
      let i := memberOfByte x off
      let s := addObj s (key 0x2A04 (1 + x.tier)) 1
      let m := memberOf s x.tier i
      let recent := s.now :: m.recent.filter fun t => decide (s.now < t + hourClk)
      let s := setMember s x.tier i { m with corrected := m.corrected + 1, recent := recent }
      let s := if getObj s (key 0x2E10 1) ≤ recent.length then degrade x.tier i s else s
      if x.tier = 0 then
        let row := rowOfByte x off
        let rec' := s.now :: (mapFind [] s.tiers.rows row).filter fun t => decide (s.now < t + hourClk)
        let s := { s with tiers := { s.tiers with rows := mapPut [] s.tiers.rows row rec' } }
        if getObj s (key 0x2E10 2) ≤ rec'.length then rowEvent row s else s
      else s)

/-! ## Recalibration (10 R307) -/

/-- A member works: it is in service or being evacuated. -/
def memberWorks (m : Member) : Bool := decide (m.state = 0 ∨ m.state = 3)

/-- HBM_RECENTRE: a pseudo-channel re-centres its delays, counted at 0x2A30.08. -/
def execHbmRecentre (c : Nat) (s : State) : Out :=
  if c < 512 then
    let m := memberOf s 0 c
    .next (if memberWorks m then setMember s 0 c { m with recals := m.recals + 1 } else s)
  else .fault .noSuchUnit

/-- SHORE_WCK_CHECK: a drift above 1/16 UI starts a retrain of the channel. -/
def execShoreWckCheck (c : Nat) (drift : Bool) (s : State) : Out :=
  if c < 64 then
    let m := memberOf s 1 c
    .next (if memberWorks m && drift then setMember s 1 c { m with retraining := true } else s)
  else .fault .noSuchUnit

end Sys2Proof.Machine
end

