-- ==== Sys2Proof/Machine/NumUnit.lean ====
section
/-! DEFINITION. The numerics unit (11 R310 to R321): the area, adoption, folding, publication and alarms. What it does
happens at used edges and at the release from reset. -/

namespace Sys2Proof.Machine

/-! ## The area (11 R310) -/

/-- The base of the area (0x2B01.01) and the unit's state (0x2B01.02: 0 off, 1 running, 2 stopped). -/
def numBase (s : State) : Nat := getObj s (key 0x2B01 1)
def numState (s : State) : Nat := getObj s (key 0x2B01 2)

/-- Every extent of the area is mapped and pinned in tier 0. -/
def areaPinned (s : State) (base n : Nat) : Bool :=
  match extentsOf base n with
  | none => false
  | some es => es.all fun e => decide ((extentOf s e).tier = 0) && (extentOf s e).pinned

/-- The record and the report cell of R310. -/
def recordAt (s : State) (w : Nat) : Nat := numBase s + w * 512
def cellAt (s : State) (w p : Nat) : Nat := numBase s + 524288 + (w * 128 + p) * 64

/-- The unit's state follows the area: off without a base, stopped while an extent is not pinned in tier 0. -/
def followArea (s : State) : State :=
  let st := if numBase s = 0 then 0 else if areaPinned s (numBase s) 8912896 then 1 else 2
  followCause 49 (decide (st = 2)) (setObj s (key 0x2B01 2) st)

/-! ## Records (11 Table NUM-1) -/

/-- A record of the unit. -/
def numRec (s : State) (w : Nat) : Option NumRec := mapFind none s.numerics.records w

/-- The state with a record of the unit replaced. -/
def setNumRec (s : State) (w : Nat) (r : Option NumRec) : State :=
  { s with numerics := { s.numerics with records := mapPut none s.numerics.records w r } }

/-- FP32 2^σ. -/
def pow2F32 (x : Int) : F32 := BitVec.ofNat 32 ((x + 127).toNat * 2 ^ 23)

/-- The 512 bytes of a record with its CRC. -/
def recordBytes (r : NumRec) : List Byte :=
  let b (x : Bool) (n : Nat) : Nat := if x then 2 ^ n else 0
  let body :=
    leBytes (1 + b r.historyValid 1 + b r.watch 2 + b r.alarm 3 + b r.isPartial 4) 1 ++ leBytes r.window 1 ++
    leBytes (fieldOf 8 r.target) 1 ++ leBytes r.margin 1 ++ leBytes r.contributors 1 ++ leBytes (fieldOf 8 r.sigma) 1 ++
    leBytes r.fill 1 ++ leBytes r.ring 1 ++
    (if r.historyValid then leBytes (pow2F32 r.sigma).toNat 4 ++ leBytes (pow2F32 (-r.sigma)).toNat 4 else leBytes 0 8) ++
    leBytes r.step 8 ++ leBytes r.zeroRun 2 ++ leBytes r.threshold 2 ++ leBytes r.lastAmax.toNat 4 ++ leBytes 0 32 ++
    (List.range 64).flatMap (fun i => leBytes (r.history.getD i 0).toNat 4) ++ leBytes 0 188
  body ++ leBytes (crc32c body) 4

/-- A record published in one update (11 R311, R316). -/
def publish (w : Nat) (s : State) : State :=
  match numRec s w with
  | none => s
  | some r => deviceWrite s (recordAt s w) (recordBytes r)

/-- The image of a record: its fields, whether it is defined, whether its CRC holds and whether its fields lie in their
ranges. -/
def imageOf (bs : List Byte) : NumRec × Bool × Bool × Bool :=
  let u (i n : Nat) : Nat := leValue ((bs.drop i).take n)
  let n := u 1 1
  let r : NumRec :=
    { historyValid := bitAt (u 0 1) 1, watch := bitAt (u 0 1) 2, alarm := bitAt (u 0 1) 3, isPartial := bitAt (u 0 1) 4,
      window := n, target := signedOf 8 (u 2 1), margin := u 3 1, contributors := u 4 1, sigma := signedOf 8 (u 5 1),
      fill := u 6 1, ring := u 7 1, step := u 16 8, zeroRun := u 24 2, threshold := u 26 2,
      lastAmax := BitVec.ofNat 32 (u 28 4), history := (List.range 64).map fun i => BitVec.ofNat 32 (u (64 + 4 * i) 4) }
  let ranges := decide (1 ≤ n ∧ n ≤ 64) && decide (-64 ≤ r.target ∧ r.target ≤ 64) && decide (r.margin ≤ 15) &&
    decide (1 ≤ r.contributors ∧ r.contributors ≤ 128) && decide (-126 ≤ r.sigma ∧ r.sigma ≤ 126) &&
    decide (r.fill ≤ n) && decide (r.ring < n) && decide (1 ≤ r.threshold)
  (r, bitAt (u 0 1) 0, decide (u 508 4 = crc32c (bs.take 508)), ranges)

/-- The scale of R318. -/
def rescale (r : NumRec) : NumRec :=
  let h := (r.history.take r.fill).foldl max32 (0 : F32)
  match flOf32 h with
  | .num _ m e =>
    if m = 0 then r
    else { r with sigma := max (-126) (min 126 (r.target - floorLog2 m e - r.margin)) }
  | _ => r

/-- Sources 50 and 51 follow the records (15 Table FLT-1). -/
def followRecords (s : State) : State :=
  let any (f : NumRec → Bool) : Bool := s.numerics.records.any fun e =>
    match e.2 with
    | some r => f r
    | none => false
  followCause 51 (any (·.alarm)) (followCause 50 (any fun r => !r.historyValid) s)

/-- A record enters just-in-time scaling (11 R320): without history, counted, with source 50. -/
def enterJit (w : Nat) (r : NumRec) (s : State) : State :=
  let s := setNumRec s w (some { r with historyValid := false, fill := 0, ring := 0 })
  raise 50 .chip (setObj (addObj s (key 0x2B02 6) 1) (srcKey 50 2) 1)

/-! ## Adoption (11 R312, R314) -/

/-- One image adopted, released or refused; the code and number of the first refused one are carried on. -/
def adoptOne (w : Nat) (a : State × Nat × Nat) : State × Nat × Nat :=
  let s := a.1
  let (r, defined, crcOk, ranges) := imageOf (readBytes s (recordAt s w) 512)
  let refuse (code : Nat) : State × Nat × Nat :=
    (setNumRec s w none, if a.2.1 = 0 then code else a.2.1, if a.2.1 = 0 then w else a.2.2)
  if !defined then (setNumRec s w none, a.2)
  else if !crcOk then refuse 1
  else if !ranges then refuse 2
  else if r.historyValid && decide (r.fill = r.window) then (publish w (setNumRec s w (some (rescale r))), a.2)
  else (publish w (enterJit w r s), a.2)

/-- The adoption request taken at a used edge (11 R312). -/
def adoptRecords (s : State) : State :=
  if getObj s (key 0x2B01 5) = 0 then s
  else
    let s := setObj s (key 0x2B01 5) 0
    if numState s ≠ 1 then setObj s (key 0x2B01 6) 3
    else
      let first := getObj s (key 0x2B01 3)
      let ws := (List.range (getObj s (key 0x2B01 4))).map (first + ·)
      let (s, code, bad) := ws.foldl (fun a w => adoptOne w a) (s, 0, 0xFFFF)
      followRecords (setObj (setObj s (key 0x2B01 6) code) (key 0x2B01 7) bad)

/-- A field of a damaged record that lies outside its range takes its default. -/
def repaired (r : NumRec) : NumRec :=
  let n := if 1 ≤ r.window ∧ r.window ≤ 64 then r.window else 16
  { r with window := n, target := if -64 ≤ r.target ∧ r.target ≤ 64 then r.target else 8,
           margin := if r.margin ≤ 15 then r.margin else 1,
           contributors := if 1 ≤ r.contributors ∧ r.contributors ≤ 128 then r.contributors else 1,
           sigma := if -126 ≤ r.sigma ∧ r.sigma ≤ 126 then r.sigma else 0,
           threshold := if 1 ≤ r.threshold then r.threshold else 256 }

/-- The records read at a release from reset (11 R314). -/
def readRecords (s : State) : State :=
  let s := followArea { s with numerics := Numerics.start }
  if numState s ≠ 1 then s
  else
    followRecords ((List.range 1024).foldl (fun s w =>
      let (r, defined, crcOk, _) := imageOf (readBytes s (recordAt s w) 512)
      if !defined then s
      else if crcOk then setNumRec s w (some r)
      else publish w (enterJit w (repaired r) s)) s)

/-! ## Folding (11 R316, R317, R319, R321) -/

/-- A report cell: step, amax, tiles, zero tiles (11 R315). -/
def cellOfPond (s : State) (w p : Nat) : Nat × F32 × Nat × Nat :=
  let a := cellAt s w p
  (readLe s a 8, BitVec.ofNat 32 (readLe s (a + 8) 4), readLe s (a + 12) 4, readLe s (a + 16) 4)

/-- One step folded from its cells. -/
def foldStep (w : Nat) (r : NumRec) (cells : List (Nat × F32 × Nat × Nat)) (s : State) : State :=
  let odd := (cells.filter fun c => !isFinite (flOf32 c.2.1)).length
  let a := cells.foldl (fun m c => max32 m c.2.1) (0 : F32)
  let tiles := (cells.map (·.2.2.1)).sum
  let zeros := (cells.map (·.2.2.2)).sum
  let s := addObj (addObj s (key 0x2B02 1) 1) (key 0x2B02 2) odd
  let s := if odd = 0 then s else raise 49 .chip s
  let short := decide (cells.length < r.contributors)
  let s := if short then addObj s (key 0x2B02 3) 1 else s
  let s := if r.historyValid then s else addObj s (key 0x2B02 7) 1
  let r := { r with step := r.step + 1, lastAmax := a, isPartial := short }
  let put (v : F32) (r : NumRec) : NumRec :=
    { r with history := r.history.set r.ring v, ring := (r.ring + 1) % r.window, fill := min (r.fill + 1) r.window }
  let r := match flOf32 a with
    | .num _ m _ => if m ≠ 0 then put a r else if r.fill < r.window then put 0 r else r
    | _ => r
  let zero := decide (0 < tiles ∧ zeros = tiles)
  let run : Nat := if r.watch && zero then min (r.zeroRun + 1) 65535 else if r.watch then 0 else r.zeroRun
  let rings := r.watch && decide (run = r.threshold) && decide (r.zeroRun ≠ run)
  let r := { r with zeroRun := run, alarm := if rings then true else if zero then r.alarm else false,
                    historyValid := r.historyValid || decide (r.fill = r.window) }
  let s := if zero then addObj s (key 0x2B02 8) 1 else s
  let s := setNumRec s w (some (if r.historyValid then rescale r else r))
  let s := { s with numerics := { s.numerics with folded := s.numerics.folded ++ [w] } }
  if rings then
    raise 51 .chip (setObj (setObj (addObj s (key 0x2B02 9) 1) (key 0x2B02 0xB) w) (srcKey 51 2) 1)
  else s

/-- A record's next step folded when its cells are present, or when a pond has passed it. -/
def foldRecord (w : Nat) (s : State) : State :=
  match numRec s w with
  | none => s
  | some r =>
    let cells := (List.range 128).map (cellOfPond s w)
    let now := cells.filter fun c => decide (c.1 = r.step + 1)
    if r.contributors ≤ now.length ∨ (cells.any fun c => decide (r.step + 1 < c.1)) = true then foldStep w r now s
    else s

/-- The folds that have finished by an edge are published; each that has not is counted once at 0x2B02.04 and waits for a later edge
(11 R316). -/
def publishFolds (s : State) : State :=
  let late := s.numerics.folded.filter (Config.foldLate s.fresh)
  let done := s.numerics.folded.filter fun w => decide (w ∉ late)
  let more := (late.filter fun w => decide (w ∉ s.numerics.late)).length
  let s := { s with fresh := s.fresh + 1, numerics := { s.numerics with folded := late, late := late } }
  addObj (forEach done publish s) (key 0x2B02 4) more

/-- The unit at a used edge (11 R310, R312, R316): its reset ends, folds of the tick before are published, and a request to adopt is
taken. -/
def numericsEdge (s : State) : State :=
  let s := if s.numerics.resetting then readRecords s else followArea s
  let s := adoptRecords (if numState s = 1 then publishFolds s else s)
  if numState s = 1 then followRecords s else s

/-- The unit at the latch instant (11 R316): the cells that have landed are folded, of every record whose last fold has finished. -/
def numericsLatch (s : State) : State :=
  if numState s = 1 && !s.numerics.resetting then
    followRecords (forEach ((mapKeys s.numerics.records).filter fun w => decide (w ∉ s.numerics.folded)) foldRecord s)
  else s

/-- Records in just-in-time scaling and in alarm (0x2B02.05, .0A). -/
def recordsIn (s : State) (f : NumRec → Bool) : Nat :=
  (s.numerics.records.filter fun e =>
    match e.2 with
    | some r => f r
    | none => false).length

end Sys2Proof.Machine
end

