-- ==== Sys2Proof/Machine/Admission.lean ====
section
/-! DEFINITION. The latch and the sluice's build (02 R40 to R52, 01 R22 to R26): inputs, operations, staged parameter
values, admission, dealing and the work list. -/

namespace Sys2Proof.Machine

/-! ## Inputs (02 R40) -/

/-- What a future's input slot holds at the latch (02 R40): absent, present with a client tag, or a header whose
payload does not fit. -/
inductive Input where
  | absent
  | present (tag : Nat)
  | oversized
  deriving DecidableEq, Repr

/-- The input of a future in the latched bank (02 R40, Table TCK-3). -/
def inputOf (s : State) (f : Nat) : Input :=
  let size := getObj s (key 0x2205 2)
  let a := inputBank s + f * size
  if !mappedAt s a then .absent
  else
    let w0 := readLe s a 8
    let tick := tickNumber s
    if bitAt w0 0 ∧ w0 / 2 ^ 32 = tick % 2 ^ 32 ∧ readLe s (a + 16) 4 = tick / 2 ^ 32 % 2 ^ 32 then
      (if 64 + 64 * bits w0 31 16 ≤ size then .present (readLe s (a + 8) 8) else .oversized)
    else .absent

/-! ## Staged parameter values (06 R172) -/

/-- The staging record of a logical pond (06). -/
def stagingAt (l : Nat) : Nat := 0xFF02AB480000 + 4096 * l

/-- Registers of the programs that run on a pond at the latch as background work, its error-exit section among it, or as a
carried step (06 R172). -/
def runningRange (s : State) (l : Nat) : Nat → Bool := fun r =>
  let ph := physOf s l
  let gg := gangOf s (rank0Of s l)
  match (pondOf s ph).core.sect with
  | none => false
  | some sec =>
    if sec.task ∨ gg.carryRunning then
      match imageOn s ph sec.program with
      | some i => decide (i.regLow ≤ r) && decide (r ≤ i.regHigh)
      | none => false
    else false

/-- STAGED_PARAMETER_APPLY for one logical pond (06 R172). -/
def applyStaged (l : Nat) (s : State) : State :=
  let a := stagingAt l
  if !mappedAt s a then s
  else
    let mask := readLe s (a + 2048) 32
    if mask = 0 then s
    else if physOf s l = 0xFF then deviceWrite s (a + 2048) (leBytes 0 32)
    else if tickNumber s < readLe s (a + 2112) 8 then s
    else
      let ph := physOf s l
      let wanted := (List.range 256).filter fun r => bitAt mask r && decide (24 ≤ r)
      let late := wanted.filter (runningRange s l)
      let now := wanted.filter fun r => !runningRange s l r
      let toMask (rs : List Nat) : Nat := rs.foldl (fun w r => w + 2 ^ r) 0
      let value (r : Nat) : W64 := BitVec.ofNat 64 (readLe s (a + 8 * r) 8)
      let applied := readLe s (a + 2080) 32
      let s1 := modCore s ph fun k =>
        now.foldl (fun k r => { setParam k r (value r) with staged := mapPut 0 k.staged r (s.now + 1) }) k
      let s1 := deviceWrite s1 (a + 2048) (leBytes (toMask late) 32)
      let s1 := deviceWrite s1 (a + 2080) (leBytes (applied ||| toMask now) 32)
      let s1 := addObj (addObj s1 (key 0x2613 1) now.length) (key 0x2613 2) late.length
      let note (d : Nat) (rs : List Nat) (s : State) : State :=
        match rs with
        | [] => s
        | r :: _ => traceInfo ph 0x0006 3 0 0 (d + r * 2 ^ 8) none s
      note 1 late (note 0 now s1)

/-- STAGED_PARAMETER_APPLY (06 R172). -/
def applyAllStaged (s : State) : State := forUpTo (logicalCount s) applyStaged s

/-! ## Dealing (01 R25) -/

/-- No member of a gang is halted (02 R59). -/
def unhaltedGang (s : State) (members : List Nat) : Bool :=
  members.all fun l => (pondOf s (physOf s l)).halt.isNone

/-- The gangs of a basin that may be dealt to (01 R22, R23, 02 R59). -/
def openGangs (s : State) (b : Nat) : List (List Nat) := (usableGangs s b).filter (unhaltedGang s)

/-- The enabled basins. -/
def enabledBasins (s : State) : List Nat := (List.range 256).filter (basinEnabled s.tree)

/-- The gangs of the whole subtree of a basin that may be dealt to. -/
def subtreeGangs (s : State) (b : Nat) : List (List Nat) :=
  ((enabledBasins s).filter fun c => inSubtree s.tree b c).flatMap (openGangs s)

/-- A member of a basin as dealing sees it: load dealt to it, its usable ponds, and the gang or the child basin. -/
structure DealMember where
  load : Nat
  ponds : Nat
  gang : Option Nat
  child : Nat

/-- The members of a basin in the order of ties (01 R25): gangs by rank-0 number, then child basins by number. The load of a
child basin is that of every gang of its subtree, carried cost and what was dealt inside the subtree among it (DESIGN
CHOICE, log 55). -/
def dealMembers (s : State) (b : Nat) : List DealMember :=
  let gangs := (openGangs s b).map fun m =>
    { load := (gangOf s (m.headD 0)).load, ponds := m.length, gang := some (m.headD 0), child := 0 : DealMember }
  let kids := ((enabledBasins s).filter fun c => decide (c ≠ 0) && decide (basinParent s.tree c = b)).filterMap
    fun c =>
      let gs := subtreeGangs s c
      let ponds := (gs.map (·.length)).foldl (· + ·) 0
      let load := (gs.map fun m => (gangOf s (m.headD 0)).load).foldl (· + ·) 0
      if ponds = 0 then none else some { load := load, ponds := ponds, gang := none, child := c : DealMember }
  gangs ++ kids

/-- The first member with the smallest load per usable pond. -/
def leastMember : List DealMember → Option DealMember
  | [] => none
  | a :: as =>
    match leastMember as with
    | none => some a
    | some b => if a.load * b.ponds ≤ b.load * a.ponds then some a else some b

/-- DEALING: the gang to which a basin's next future goes (01 R25); the fuel bounds the depth of the tree. -/
def dealTo (s : State) : Nat → Nat → Option Nat
  | 0, _ => none
  | fuel + 1, b =>
    match leastMember (dealMembers s b) with
    | none => none
    | some m =>
      match m.gang with
      | some g => some g
      | none => dealTo s fuel m.child

/-! ## Admission (02 R47 to R49) -/

/-- The cost of a program on a gang: C_step, and C_fix when it has not been charged there (02 R49, 15 R419). -/
def costOn (s : State) (gg : Gang) (p : Nat) : Nat :=
  scaled s (dirOf s p).cStep + (if p ∈ gg.charged then 0 else scaled s (dirOf s p).cFix)

/-- A step of a future admitted on a gang (02 R49). -/
def admitOn (f g p tag : Nat) (fallback : Bool) (s : State) : State :=
  let gg := gangOf s g
  let cost := costOn s gg p
  let e : WorkEntry := { future := f, program := p, fallback := fallback, first := decide (p ∉ gg.charged),
                         position := gg.entries.length, planned := gg.load, charge := cost, switched := false,
                         dropped := false }
  let s := setGang s g { gg with entries := gg.entries ++ [e], load := gg.load + cost,
                                 charged := if p ∈ gg.charged then gg.charged else p :: gg.charged }
  let s := setStep s f { StepRec.notDue with status := if fallback then 2 else 1, selector := p, tag := tag,
                                             tick := tickNumber s, gang := g }
  countStep f 0xA s

/-- A due future refused with a status (02 Table TCK-5, 01 R26, R27). -/
def refuse (f status tag : Nat) (s : State) : State :=
  countStep f 0xC (setStep s f { StepRec.notDue with
    status := status, selector := (futureOf s f).model, tag := tag, tick := tickNumber s, done := true })

/-- A program fits on a gang within its cap (02 R49). -/
def fitsOn (s : State) (gg : Gang) (p : Nat) : Bool := decide (gg.load + costOn s gg p ≤ gg.cap)

/-- ADMISSION of one due future (02 R49). -/
def admitOne (f tag : Nat) (s : State) : State :=
  let e := futureOf s f
  match dealTo s 257 e.basin with
  | none => refuse f 0x06 tag s
  | some g =>
    let gg := gangOf s g
    let width := gg.members.length
    let ok := available s e.model
    let q := e.fallback
    if derate s = 0xFFFFFFFF then refuse f 0x04 tag s
    else if ok ∧ (dirOf s e.model).pondCount ≠ width then refuse f 0x05 tag s
    else if ok && decide (0 < gg.cap) && fitsOn s gg e.model then admitOn f g e.model tag false s
    else if e.fallbackEligible && available s q && decide ((dirOf s q).pondCount = width) then
      (if decide (0 < gg.cap) && fitsOn s gg q then admitOn f g q tag true s else refuse f 0x04 tag s)
    else if ok then refuse f 0x04 tag s
    else refuse f 0x0C tag s

/-- A runnable future's input taken or missed, and whether it is due (02 R40, R47): its tag when it is. Only futures that may
be due have their headers examined and an oversized one counted (DESIGN CHOICE, log 56). -/
def takeInput (f : Nat) (s : State) : Option Nat × State :=
  let e := futureOf s f
  match inputOf s f with
  | .present tag => (some tag, s)
  | i =>
    if e.inputRequired then
      (none, setStep s f { StepRec.notDue with status := 0x07, selector := e.model, tick := tickNumber s, done := true })
    else (some 0, if i = .oversized then addObj s (key 0x2203 8) 1 else s)

/-- The futures that may be due: runnable and without a carried step (02 R47), ascending. -/
def candidates (s : State) : List Nat :=
  (s.seq.futures.filter fun e => decide (e.2.state = 1) && !e.2.carried).map (·.1)

/-- The due futures with their tags, and the state after their inputs are taken. -/
def dueFutures (s : State) : List (Nat × Nat) × State :=
  (candidates s).foldl
    (fun (a : List (Nat × Nat) × State) f =>
      let (r, s) := takeInput f a.2
      match r with
      | some tag => (a.1 ++ [(f, tag)], s)
      | none => (a.1, s)) ([], s)

/-- The walk of one priority (02 R48): from its origin upward and around; the origin of the next tick is the first
future refused for budget. -/
def walkPriority (due : List (Nat × Nat)) (prio : Nat) (s : State) : State :=
  let origin := mapFind 0 s.tick.origins prio
  let mine := due.filter fun d => decide ((futureOf s d.1).priority = prio)
  let order := mine.filter (fun d => decide (origin ≤ d.1)) ++ mine.filter fun d => decide (d.1 < origin)
  let s := forEach order (fun d s => admitOne d.1 d.2 s) s
  match order.find? fun d => decide ((stepOf s d.1).status = 0x04) with
  | some d => { s with tick := { s.tick with origins := mapPut 0 s.tick.origins prio d.1 } }
  | none => s

/-- The switch allowance A_sw of a gang (02 R49): the largest A_bg of the background programs in its active banks. -/
def switchAllowance (s : State) (members : List Nat) : Nat :=
  (members.flatMap fun l => (activePrograms (pondOf s (physOf s l))).filterMap fun r =>
    if bitAt r.image.flags 1 then some (scaled s r.image.aBg) else none).foldl max 0

/-- The certified cost that a gang carries into the tick from the one before (02 R49, R57). -/
def carriedLoad (s : State) (gg : Gang) : Nat :=
  match gg.carry with
  | some k => if k.tick + 1 = tickNumber s then scaled s k.remaining else 0
  | none => 0

/-- A usable gang at the start of the walk (02 R49): load = carry, cap = b − A_sw. -/
def openGang (b : Nat) (members : List Nat) (s : State) : State :=
  let g := members.headD 0
  let gg := gangOf s g
  let w := getObj s (key 0x2201 5)
  let set := basinBudget s.tree b
  let bound := min (if set = 0 then w else set) w
  let aSw := switchAllowance s members
  setGang s g { gg with
    basin := b, members := members, aSw := aSw, cap := bound - aSw,
    load := carriedLoad s gg }

/-- Every gang with nothing dealt to it, its running group, what it still has to fetch of the tick before, and carry kept. -/
def clearGang (gg : Gang) : Gang :=
  { Gang.empty with group := gg.group, late := gg.late, carry := gg.carry, carryRunning := gg.carryRunning,
                    sectionStart := gg.sectionStart, offset := gg.offset, finish := gg.finish,
                    members := gg.members, basin := gg.basin, costFlagged := gg.costFlagged }

/-- A map of gangs passed through `f`, kept canonical. -/
def mapGangs (f : Gang → Gang) (m : NMap Gang) : NMap Gang :=
  (m.map fun e => (e.1, f e.2)).filter fun e => decide (e.2 ≠ Gang.empty)

/-! ## The work list (02 R52) -/

/-- The index of each gang's first entry: by basin, then by rank-0 number (02). -/
def numberGangs (s : State) : State × NMap (Nat × Nat) :=
  let r := (List.range 256).foldl
    (fun (a : State × Nat × NMap (Nat × Nat)) b =>
      let gs := if basinEnabled a.1.tree b then (basinGangs a.1 b).map (·.headD 0) else []
      let (s, n) := gs.foldl
        (fun (x : State × Nat) g =>
          let gg := gangOf x.1 g
          if gg.entries = [] then x
          else (setGang x.1 g { gg with firstIndex := x.2 }, x.2 + gg.entries.length)) (a.1, a.2.1)
      (s, n, mapPut (0, 0) a.2.2 b (if n = a.2.1 then (0, 0) else (a.2.1, n - a.2.1)))) (s, 0, [])
  (r.1, r.2.2)

/-- WORK_LIST_WRITE (02 R52, Table TCK-7): the segment headers and the entries of the tick's bank. The first entry of a
basin without entries is not stated: a free value (log 10). -/
def writeWorkList (s : State) : State :=
  let (s, segs) := numberGangs s
  let base := workEntries (tickNumber s) - 16384
  if !mappedAt s base then s
  else
    let header (b : Nat) : List Byte :=
      let seg := mapFind (0, 0) segs b
      let first := if seg.2 = 0 then (Config.freeWord (s.fresh + b)).toNat % 2 ^ 16 else seg.1
      leBytes (tickNumber s) 8 ++ leBytes (seg.2 * 2 ^ 32 + first * 2 ^ 16 + b) 8 ++ leBytes 0 48
    let s := forUpTo 256 (fun b s => deviceWrite s (base + 64 * b) (header b)) s
    forEach (mapKeys s.gangs) writeEntries { s with fresh := s.fresh + 256 }

/-! ## The latch -/

/-- The sluice admits nothing: the module is not Active (17 R459), or a trap is in force (15 Table FLT-3). -/
def admitsNothing (s : State) : Bool := !isActive s || (s.weir.trapEdge && decide (s.weir.trapped ≠ []))

/-- The build's duration (0x2202.02): not stated beyond its bound of 15,000 clk from the edge (R51), so a free value
below it (log 10). -/
def noteBuild (s : State) : State :=
  let (v, s) := freeWord s
  let n := v.toNat % 14937
  let s := setObj s (key 0x2202 2) n
  let s := if getObj s (key 0x2202 3) < n then setObj s (key 0x2202 3) n else s
  { s with tick := { s.tick with build := n } }

/-- Admission over all due futures (02 R47 to R49). -/
def admitAll (s : State) : State :=
  let gangs := (enabledBasins s).flatMap fun b => (openGangs s b).map fun m => (b, m)
  let s := forEach gangs (fun x s => openGang x.1 x.2 s) s
  let s := { s with gangs := mapGangs (fun gg => if holdsCarried gg then gg else { gg with carry := none }) s.gangs }
  if admitsNothing s then s
  else
    let (due, s) := dueFutures s
    forEach [3, 2, 1, 0] (walkPriority due) s

/-- What the latch keeps of the tick before: carried steps, and a context limit that a background section met since the edge
and the next commit answers (07 R216). -/
def keptSteps (m : NMap StepRec) : NMap StepRec :=
  (m.filter fun e => e.2.carried || e.2.contextHit).map fun e =>
    (e.1, if e.2.carried then e.2 else { StepRec.notDue with contextHit := true })

/-- INPUT_LATCH (02 R38, R40): at E + 64 clk, the numerics unit takes the cells that have landed (11 R316), the input bank flips, operations and staged values are applied, futures
are admitted and dealt, and the work list is written. -/
def execInputLatch (s : State) : Out :=
  if !s.tick.anyEdge || s.tick.latched then .next s
  else
    let s := advanceTo s (s.tick.lastEdge + 64)
    let s := { s with tick := { s.tick with latched := true },
                      steps := keptSteps s.steps }
    let s := applyAllStaged (applyOperations (numericsLatch s))
    .next (noteBuild (writeWorkList (admitAll s)))

end Sys2Proof.Machine
end

