-- ==== Sys2Proof/Machine/Attention.lean ====
section
/-! DEFINITION. The attention-page engine (07 R212 to R231): PWALK, PAPPEND, ATTF and ATTB. -/

namespace Sys2Proof.Machine

/-! ## Command words (07 Table FUT-10) and the future they name -/

/-- The future that a class 0x6 command names. -/
def pageFuture (pd : Pond) (c : Cmd) : Nat :=
  if opcodeOf c ≤ 2 then bits c.w1.toNat 63 49 else bits (getParam pd.core (bits c.w1.toNat 63 56)).toNat 63 49

/-- The future may be named (07 R217): allocated and, in a section of a group, one of the group. -/
def mayName (s : State) (ph f : Nat) : Bool :=
  allocated (futureOf s f) &&
    match (pondOf s ph).core.sect with
    | some sec => decide (sec.kind = .background) || decide (f ∈ sec.group)
    | none => true

/-- A page-table entry of a future names a page of a configured pool (07 R217). -/
def entryValid (s : State) (f x : Nat) : Bool :=
  match (futureOf s f).pages[x]? with
  | some p => decide ((pageRecord s p).state ≠ 3)
  | none => false

/-- A page fault (07 R217): source 8, counted, cause 0x0B. -/
def pageFault (ph : Nat) (s : State) : Started := ended 0x0B (raise 8 (.pond ph) (addObj s (key 0x2720 5) 1))

/-- The page descriptor of entry `x` (07 Table FUT-7): valid rows up to `tokens`. -/
def descriptor (s : State) (f x tokens : Nat) (shared prepared : Bool) : List Byte :=
  let p := (futureOf s f).pages.getD x 0
  leBytes (pageUda s p) 8 ++ leBytes (64 * x) 4 ++ leBytes (min 64 (tokens - 64 * x)) 2 ++
    leBytes ((if shared then 1 else 0) + (if prepared then 2 else 0)) 2

/-- Descriptors written to consecutive places of the pond buffer. -/
def writeDescriptors (ph off : Nat) (ds : List (List Byte)) (s : State) : State :=
  addObj (modPond s ph fun pd => bufWrite pd off ds.flatten) (key 0x2720 2) ds.length

def descOff (c : Cmd) : Nat := bits c.w2.toNat 63 40
def walkFirst (c : Cmd) : Nat := bits c.w1.toNat 48 37
def walkCount (c : Cmd) : Nat := bits c.w1.toNat 36 25 + 1
def appendTokens (c : Cmd) : Nat := bits c.w1.toNat 48 37 + 1

/-- The attention-page engine runs one command at a time (06 R152). -/
def pageReady (s : State) (ph : Nat) (_ : Queued) : Bool := classIdle (pondOf s ph) 0x6

/-! ## PWALK (07 R218) -/

/-- A legal PWALK (07 Table FUT-11). -/
def pwalkLegal (c : Cmd) : Bool :=
  decide (bits c.w1.toNat 24 0 = 0) && decide (bits c.w2.toNat 39 0 = 0) && decide (c.w3 = 0) &&
    decide (walkFirst c + walkCount c ≤ 4096) && decide (descOff c % 64 = 0) &&
    decide (descOff c + 16 * walkCount c ≤ bufSize)

/-- A page-table entry is prepared in this step: it covers one of the pending tokens (07 R212, Table FUT-7). -/
def preparedEntry (e : Future) (x : Nat) : Bool :=
  decide (e.pending ≠ 0 ∧ e.length < 64 * x + 64 ∧ 64 * x < e.length + e.pending)

/-- PWALK: descriptors of consecutive page-table entries. -/
def execPwalk (p : Nat) (s : State) : Out :=
  onHead p 0x6 0x01 0 s pageReady (fun _ _ q => pwalkLegal q.cmd) fun ph q s =>
    let c := q.cmd
    let f := pageFuture (pondOf s ph) c
    let xs := (List.range (walkCount c)).map (walkFirst c + ·)
    if !mayName s ph f || !xs.all (entryValid s f) then pageFault ph s
    else
      let e := futureOf s f
      let ds := xs.map fun x =>
        descriptor s f x (e.length + e.pending) (decide (1 < (pageRecord s (e.pages.getD x 0)).count)) (preparedEntry e x)
      ran (writeDescriptors ph (descOff c) ds (addObj s (key 0x2720 1) 1))

/-! ## PAPPEND (07 R213 to R216, R219) -/

/-- The page-table entries that the tokens of a PAPPEND touch (07 R213). -/
def touchedEntries (e : Future) (n : Nat) : List Nat :=
  let a := e.length + e.pending
  (List.range ((a + n - 1) / 64 + 1 - a / 64)).map (a / 64 + ·)

/-- A legal PAPPEND (07 Table FUT-11). -/
def pappendLegal (s : State) (c : Cmd) : Bool :=
  decide (bits c.w1.toNat 36 0 = 0) && decide (bits c.w2.toNat 39 0 = 0) && decide (c.w3 = 0) &&
    decide (descOff c % 64 = 0) &&
    decide (descOff c + 16 * (touchedEntries (futureOf s (bits c.w1.toNat 63 49)) (appendTokens c)).length ≤ bufSize)

/-- The entries of a PAPPEND that need a new page: those beyond the page count, and shared ones (07 R213). -/
def neededEntries (s : State) (f n : Nat) : List Nat :=
  let e := futureOf s f
  (touchedEntries e n).filter fun x =>
    match e.pages[x]? with
    | none => true
    | some p => decide (1 < (pageRecord s p).count)

/-- The page that a PAPPEND copies, if any (07 R213). -/
def copiedPage (s : State) (f n : Nat) : Option Nat :=
  (neededEntries s f n).findSome? fun x => (futureOf s f).pages[x]?

/-- The new page of that copy: the first that the PAPPEND takes. -/
def appendWrites (s : State) (f n : Nat) : List Run :=
  match copiedPage s f n, takePage (futureOf s f).pool s with
  | some _, some (p, _) => [(pageUda s p, poolPageBytes s (futureOf s f).pool)]
  | _, _ => []

/-- One entry prepared (07 R213): a new page, or a copy of the shared one. -/
def prepareEntry (f x : Nat) (s : State) : State :=
  let e := futureOf s f
  match takePage e.pool s with
  | none => s
  | some (p, s) =>
    match e.pages[x]? with
    | none => setFuture s f { futureOf s f with pages := (futureOf s f).pages ++ [p] }
    | some old =>
      let n := poolPageBytes s e.pool
      let s := countBytes true [(pageUda s p, n)] (countBytes false [(pageUda s old, n)] s)
      let s := deviceAgentWrite s (pageUda s p) (readBytes s (pageUda s old) n)
      let s := addObj (dropPage old s) (key (0x2710 + e.pool) 8) 1
      setFuture s f { futureOf s f with pages := (futureOf s f).pages.set x p }

/-- The page that a PAPPEND copies, as a run of bytes (07 R213). -/
def appendReads (s : State) (f n : Nat) : List Run :=
  (copiedPage s f n).toList.map fun p => (pageUda s p, poolPageBytes s (futureOf s f).pool)

/-- The effect of a PAPPEND (07 R213 to R219). -/
def runPappend (ph : Nat) (q : Queued) (s : State) : Started :=
  let c := q.cmd
  let f := pageFuture (pondOf s ph) c
  let n := appendTokens c
  let e := futureOf s f
  let xs := touchedEntries e n
  let need := neededEntries s f n
  let src := appendReads s f n
  let dst := appendWrites s f n
  if !mayName s ph f || !(xs.filter (· < e.pages.length)).all (entryValid s f) then pageFault ph s
  else if getObj s (key 0x2700 8) < e.length + e.pending + n ∨ 4096 < (xs.map (· + 1)).foldl max 0 then
    ended 0x0B (raise 9 (.pond ph) (setStep s f { stepOf s f with contextHit := true }))
  else if poolFree s e.pool < need.length then
    ended 0x0B (raise 10 (.pond ph) (addObj s (key (0x2710 + e.pool) 9) 1))
  else if !unitMapped s (src ++ dst) then ended 0x0B (unmappedAccess s)
  else if unitReadOnly s dst then ended 0x0B (addObj s (key 0x2A04 0xC) 1)
  else if unservable s src then ended 0x0B s
  else
    let s := forEach need (prepareEntry f) (addObj (tierMiss ph q.program (src ++ dst) s) (key 0x2720 3) 1)
    let e := futureOf s f
    let ds := xs.map fun x =>
      descriptor s f x (e.length + e.pending + n) (decide (1 < (pageRecord s (e.pages.getD x 0)).count)) true
    { ran (writeDescriptors ph (descOff c) ds s) with epochReads := epochOf s ph src }

/-- PAPPEND: pages prepared for the step's new tokens, all together or not at all. -/
def execPappend (p : Nat) (s : State) : Out :=
  onHead p 0x6 0x02 0 s pageReady (fun s _ q => pappendLegal s q.cmd) runPappend
    fun s ph q => appendReads s (pageFuture (pondOf s ph) q.cmd) (appendTokens q.cmd)

/-- What a PAPPEND's completion does: pending grows by its tokens (07 R213). -/
def completeAppend (ph : Nat) (c : Cmd) (s : State) : State :=
  let f := pageFuture (pondOf s ph) c
  let e := futureOf s f
  setFuture s f { e with pending := e.pending + appendTokens c }

/-! ## Attention: parameters (07 Tables FUT-8, FUT-9) -/

/-- The parameters of ATTF and ATTB, read at the start. -/
structure Att where
  future : Nat
  hq : Nat
  hkv : Nat
  dh : Nat
  m : Nat
  mvalid : Nat
  mask : Nat
  scale : F32
  fb : Nat
  q : Nat
  qRate : Nat
  pArea : Nat
  staging : Nat
  work : Nat
  stats : Nat
  qStride : Nat
  dst : Opnd
  dstStride : Nat
  layer : Nat
  rate : Nat
  base : Nat
  o : Opnd
  grad : Opnd
  accumulate : Bool
  area : Nat

/-- First descriptor register. -/
def attFirst (c : Cmd) : Nat := bits c.w1.toNat 63 56

/-- Descriptor register `i`. -/
def attReg (pd : Pond) (c : Cmd) (i : Nat) : Nat := (getParam pd.core (attFirst c + i)).toNat

/-- The parameters of a command. -/
def attOf (pd : Pond) (c : Cmd) : Att :=
  let d := attReg pd c
  { future := bits (d 0) 63 49, hq := bits (d 0) 39 32, hkv := bits (d 0) 31 24, dh := 64 * 2 ^ bits (d 0) 23 22,
    m := 256 * 2 ^ bits (d 0) 21 20, mvalid := bits (d 0) 19 9, mask := bits (d 0) 8 7,
    scale := BitVec.ofNat 32 (bits (d 1) 63 32), fb := bits (d 1) 31 19, q := bits (d 2) 63 40,
    qRate := bits (d 2) 39 38, pArea := bits (d 2) 37 14, staging := bits (d 3) 63 40, work := bits (d 3) 39 16,
    stats := bits (d 4) 63 40, qStride := bits (d 4) 39 16 * 64, dst := longOf (bits (d 5) 63 24),
    dstStride := bits (d 5) 23 0, layer := bits (d 6) 63 40 * 64, rate := bits (d 6) 39 38, base := bits (d 7) 63 60,
    o := longOf (bits (d 8) 63 24), grad := longOf (bits (d 9) 63 24), accumulate := bitAt (d 10) 48,
    area := bits (d 10) 47 0 }

/-- Bytes T of one tensor of a page and feature group (07 R206). -/
def pageTensor (a : Att) : Nat := tensorBytes 2 a.rate 64

/-- Feature groups of keys and values, and of the query tensors. -/
def kvGroups (a : Att) : Nat := ceilDiv (a.hkv * a.dh) 256
def qGroups (a : Att) : Nat := ceilDiv (a.hq * a.dh) 256

/-- Query heads per key-value head. -/
def headsPer (a : Att) : Nat := a.hq / a.hkv

/-- Bytes of one key group of one key-value head (07 Table FUT-9). -/
def keyGroupBytes (a : Att) : Nat := 8 * pageTensor a

/-- A tensor operand of a feature group. -/
def groupOperand (o : Opnd) (stride g : Nat) : Opnd := { o with addr := o.addr + g * stride }

/-- A tensor descriptor is legal in every feature group. -/
def tensorsLegal (a : Att) (o : Opnd) (dest : Bool) : Bool :=
  decide (o.sel = 2 ∨ o.sel = 3) &&
    (List.range (qGroups a)).all fun g => opLegal (groupOperand o a.dstStride g) a.mvalid dest

/-- Reserved fields of the registers that both commands use. -/
def attReserved (pd : Pond) (c : Cmd) : Bool :=
  let d := attReg pd c
  decide (bits (d 0) 6 0 = 0 ∧ bits (d 1) 18 0 = 0 ∧ bits (d 2) 13 0 = 0 ∧ bits (d 3) 15 0 = 0 ∧
    bits (d 4) 15 0 = 0 ∧ bits (d 6) 37 0 = 0 ∧ bits (d 7) 59 0 = 0)

/-- Offsets are multiples of 64 and areas lie in the pond buffer (07 Tables FUT-9, FUT-11); `pRows` counts P areas and
`extra` the row terms. -/
def attAreas (a : Att) (pRows extra : Nat) : Bool :=
  decide (a.q % 64 = 0 ∧ a.pArea % 64 = 0 ∧ a.staging % 64 = 0 ∧ a.work % 64 = 0 ∧ a.stats % 64 = 0) &&
    decide (a.staging + 2 * keyGroupBytes a ≤ bufSize) && decide (a.pArea + pRows * a.m * 320 ≤ bufSize) &&
    decide (a.work + headsPer a * a.m * 1024 ≤ bufSize) && decide (a.stats + a.hq * a.m * (8 + extra) ≤ bufSize) &&
    decide (a.q + (qGroups a - 1) * a.qStride + tensorBytes 2 a.qRate a.m ≤ bufSize)

/-- The checks that both commands share (07 Table FUT-11). -/
def attCommon (s : State) (ph : Nat) (c : Cmd) : Bool :=
  let pd := pondOf s ph
  let a := attOf pd c
  decide (bits c.w1.toNat 55 0 = 0 ∧ c.w2 = 0 ∧ c.w3 = 0) && attReserved pd c &&
    decide (bits (attReg pd c 0) 23 22 ≠ 3 ∧ bits (attReg pd c 0) 21 20 ≠ 3 ∧ a.mask ≠ 3) &&
    decide (1 ≤ a.hq ∧ 1 ≤ a.hkv ∧ a.hq % a.hkv = 0) &&
    decide (a.layer + 2 * kvGroups a * pageTensor a ≤ poolPageBytes s (futureOf s a.future).pool) &&
    decide (1 ≤ a.mvalid ∧ a.mvalid ≤ a.m) &&
    (!mayName s ph a.future || decide (a.mvalid ≤ (futureOf s a.future).pending)) &&
    decide (a.mask = 2 → 1 ≤ a.fb) && tensorsLegal a a.dst true

/-- A legal ATTF. -/
def attfLegal (s : State) (ph : Nat) (c : Cmd) : Bool :=
  let a := attOf (pondOf s ph) c
  decide (24 ≤ attFirst c ∧ attFirst c + 7 ≤ 255) && attCommon s ph c && attAreas a 1 0 &&
    decide (a.base + 2 * a.m / 256 ≤ 8)

/-- A legal ATTB. -/
def attbLegal (s : State) (ph : Nat) (c : Cmd) : Bool :=
  let pd := pondOf s ph
  let a := attOf pd c
  let d := attReg pd c
  decide (24 ≤ attFirst c ∧ attFirst c + 10 ≤ 255) && attCommon s ph c && attAreas a 4 4 &&
    decide (bits (d 0) 21 20 ≤ 1) && decide (bits (d 8) 23 0 = 0 ∧ bits (d 9) 23 0 = 0 ∧ bits (d 10) 63 49 = 0) &&
    tensorsLegal a a.o false && tensorsLegal a a.grad false && decide (a.base + 3 * a.m / 256 + 2 ≤ 8)

/-! ## Attention: operands -/

/-- Keys that the command processes, and their groups (07 R223). -/
def keyCount (s : State) (a : Att) : Nat := (futureOf s a.future).length + (futureOf s a.future).pending
def keyGroups (s : State) (a : Att) : Nat := ceilDiv (keyCount s a) 256

/-- The page-table entries that the command walks. -/
def attEntries (s : State) (a : Att) : List Nat :=
  List.range (min (ceilDiv (keyCount s a) 64) (futureOf s a.future).pages.length)

/-- What the command fetches from its pages. -/
def attRuns (s : State) (a : Att) : List Run :=
  (attEntries s a).map fun x =>
    (pageUda s ((futureOf s a.future).pages.getD x 0) + a.layer, 2 * kvGroups a * pageTensor a)

/-- Row `k` of K (kind 0) or V (kind 1) of a feature group, decoded from its page (07 R206). -/
def kvBlock (s : State) (ph : Nat) (a : Att) (kind g k : Nat) : Option Decoded :=
  match (futureOf s a.future).pages[k / 64]? with
  | none => none
  | some p =>
    let base := pageUda s p + a.layer + (kind * kvGroups a + g) * pageTensor a
    some (decodeBlock 2 a.rate (tabFn (pondOf s ph)) (fun off n => readBytes s (base + off) n) (k % 64))

/-- The 256 values of row `k` of K or V in the feature group of a key-value head; the ports inject zeros at and beyond n_k
and for an absent entry (03 R78). -/
def kvFull (s : State) (ph : Nat) (a : Att) (kind j k : Nat) : List Fl :=
  match kvBlock s ph a kind (j * a.dh / 256) k with
  | some d => if k < keyCount s a then decodedValues 2 d else List.replicate 256 (.num false 0 0)
  | none => List.replicate 256 (.num false 0 0)

/-- The values of the head's columns of row `k` of K or V. -/
def kvRow (s : State) (ph : Nat) (a : Att) (kind j k : Nat) : List Fl :=
  ((kvFull s ph a kind j k).drop (j * a.dh % 256)).take a.dh

/-- Key `k` lies in an entry of the future's page table (07 R223). -/
def keyPresent (s : State) (a : Att) (k : Nat) : Bool := decide (k / 64 < (futureOf s a.future).pages.length)

/-- The blocks of K and V that the command decodes. -/
def kvBlocks (s : State) (ph : Nat) (a : Att) : List Decoded :=
  (List.range (keyCount s a)).flatMap fun k => (List.range 2).flatMap fun kind =>
    (List.range (kvGroups a)).filterMap fun g => kvBlock s ph a kind g k

/-- Row `i` of Q of head `h`: its columns and the block decoded. -/
def qRow (s : State) (ph : Nat) (a : Att) (h i : Nat) : List Fl × Decoded :=
  let c0 := h * a.dh
  let pd := pondOf s ph
  let d := decodeBlock 2 a.qRate (tabFn pd) (fun off n => bufRead pd (a.q + c0 / 256 * a.qStride + off) n) i
  (((decodedValues 2 d).drop (c0 % 256)).take a.dh, d)

/-- Key `k` is visible to row `i` (07 R223). -/
def visible (a : Att) (nk i k : Nat) : Bool :=
  let qi := nk - a.mvalid + i
  match a.mask with
  | 0 => decide (k < nk)
  | 1 => decide (k ≤ qi)
  | _ => decide (k < min nk (nk - a.mvalid + a.fb * ((qi + a.mvalid - nk) / a.fb + 1)))

/-- The sum of a head's row against a row of K or V as a pass of the array forms it (03 R65): at the positions outside the
head's columns, which begin at `c0`, the activation port injects +0 (07 R225). -/
def dotRow (c0 : Nat) (xs ws : List Fl) : F32 :=
  columnSum ((List.range 256).map fun n =>
    flMul (if c0 ≤ n then xs.getD (n - c0) (.num false 0 0) else .num false 0 0) (ws.getD n (.num false 0 0)))

/-- e^x by the gate pipeline's exponential (07 R224, 04 R106). -/
def exp32 (x : F32) : F32 := gateFn 6 (neg32 x)

/-- ln x as LOG gives it (04 Table VEC-4). -/
def ln32 (x : F32) : F32 :=
  vecFn 0x17 { atPosInf := posInf32, atNegInf := 0x7FC00000, atZero := atPlusZero negInf32, negative := true } x

/-- A row of values converted to FP8 E4M3 and back (07 R224: the P area). -/
def throughFp8 (xs : List F32) : List Fl × List Nat × List Nat :=
  let scales := (rowScales 2 256 xs).map fun g => g.getD 127
  let es := (formRow 2 256 0 gateRounding scales xs).1
  ((List.range 256).map fun i => scaledElement 2 (es.getD i 0) (scales.getD (i / 32) 127), es, scales)

/-! ## ATTF (07 R224 to R227) -/

/-- What a head and row carry over the key groups: maximum, sum, output columns. -/
structure Soft where
  m : F32
  l : F32
  o : List F32

/-- One key group folded into a head's row: scores, exponentials, output (07 R224). The second part is the row of the
P area. -/
def softStep (s : State) (ph : Nat) (a : Att) (nk j g i : Nat) (q : List Fl) (x : Soft) : Soft × List Byte :=
  let scores := (List.range 256).map fun t =>
    let k := 256 * g + t
    if k < nk ∧ visible a nk i k = true ∧ keyPresent s a k = true
    then mul32 a.scale (dotRow (j * a.dh % 256) q (kvFull s ph a 0 j k)) else negInf32
  let mn := max32 x.m (scores.foldl max32 negInf32)
  let dead := decide (mn = negInf32)
  let p := scores.map fun v => if dead then (0 : F32) else exp32 (sub32 v mn)
  let al := if dead then one32 else exp32 (sub32 x.m mn)
  let l := add32 (mul32 al x.l) (pairTree add32 p)
  let (pf, es, scales) := throughFp8 p
  let vs := (List.range 256).map fun t => kvRow s ph a 1 j (256 * g + t)
  let o := (List.range a.dh).map fun n =>
    let t := columnSum ((List.range 256).map fun k => flMul (pf.getD k (.num false 0 0)) ((vs.getD k []).getD n (.num false 0 0)))
    fma32 al (x.o.getD n 0) t
  ({ m := mn, l := l, o := o }, rawRowBytes 2 256 [] es scales)

/-- A head's row over every key group, with the last row of the P area. -/
def softRow (s : State) (ph : Nat) (a : Att) (h i : Nat) : Soft × List Byte :=
  let nk := keyCount s a
  let q := (qRow s ph a h i).1
  (List.range (keyGroups s a)).foldl (fun x g => softStep s ph a nk (h / headsPer a) g i q x.1)
    ({ m := negInf32, l := 0, o := List.replicate a.dh 0 }, [])

/-- The values of a head's columns written into row `i` of a destination tensor over what the row holds. -/
def writeHeadRow (ph : Nat) (c : Cmd) (a : Att) (h i : Nat) (rows : List (Nat × List F32)) (s : State) : State :=
  let g := h * a.dh / 256
  let per := 256 / a.dh
  let out := (List.range 256).map fun n =>
    match rows.find? fun r => decide (r.1 = g * per + n / a.dh) with
    | some r => r.2.getD (n % a.dh) 0
    | none => 0
  let heads := min per (a.hq - g * per)
  writeRow ph c (groupOperand a.dst a.dstStride g) gateRounding i (heads * a.dh) out s

/-- Two FP32 values written at a byte offset. -/
def putStats (off : Nat) (m l : F32) (pd : Pond) : Pond := bufWrite pd off (leBytes m.toNat 4 ++ leBytes l.toNat 4)

/-- The O work area after a pass (dQ work in ATTB): what the heads of the last key-value head have merged, a raw FP32 row
for each head and query row, in the head's columns (07 R224, Table FUT-9; the order of the rows is log 25's). -/
def putWork (ph : Nat) (a : Att) (v : Nat → Nat → List F32) (s : State) : State :=
  forUpTo (headsPer a) (fun r s => forUpTo a.mvalid (fun i s =>
    let h := a.hq - headsPer a + r
    modPond s ph fun pd =>
      bufWrite pd (a.work + (r * a.m + i) * 1024 + h * a.dh % 256 * 4) ((v h i).flatMap fun x => leBytes x.toNat 4)) s) s

/-- What the staging areas of 07 Table FUT-9 contain afterwards is open: free bytes. -/
def scratch (ph off n : Nat) (s : State) : State :=
  let k := s.fresh
  modPond { s with fresh := k + n } ph fun pd =>
    bufWrite pd off ((List.range n).map fun i => (Config.freeWord (k + i)).setWidth 8)

/-- The forward pass (07 R224 to R226). -/
def runAttf (ph : Nat) (c : Cmd) (a : Att) (s : State) : State :=
  let s0 := s
  let heads := List.range a.hq
  let rows := List.range a.mvalid
  let results := heads.map fun h => rows.map fun i => softRow s0 ph a h i
  let full (h i : Nat) : Soft × List Byte := (results.getD h []).getD i ({ m := negInf32, l := 0, o := [] }, [])
  let at_ (h i : Nat) : Soft := (full h i).1
  let s := noteDecoded ph c (kvBlocks s0 ph a ++ heads.flatMap fun h => rows.map fun i => (qRow s0 ph a h i).2) s
  let s := scratch ph a.staging (2 * keyGroupBytes a) s
  let s := forEach rows (fun i s => modPond s ph fun pd => bufWrite pd (a.pArea + i * 320) (full (a.hq - 1) i).2) s
  let s := putWork ph a (fun h i => (at_ h i).o) s
  let outOf (h i : Nat) : List F32 :=
    let x := at_ h i
    if isZero (flOf32 x.l) then List.replicate a.dh 0 else x.o.map fun v => div32 v x.l
  let s := forUpTo (qGroups a) (fun g s =>
    forEach rows (fun i s =>
      let per := 256 / a.dh
      let hs := (List.range per).filterMap fun t => if g * per + t < a.hq then some (g * per + t) else none
      writeHeadRow ph c a (g * per) i (hs.map fun h => (h, outOf h i)) s) s) s
  forEach heads (fun h s => forEach rows (fun i s =>
    let x := at_ h i
    let lam := if isZero (flOf32 x.l) then negInf32 else ln32 x.l
    let s := if x.m = negInf32 then addObj s (key 0x2720 9) 1 else s
    modPond s ph (putStats (a.stats + (h * a.m + i) * 8) x.m lam)) s) s

/-- An attention command starts only while the matrix, vector and gate engines run nothing (07 R221). -/
def attReady (s : State) (ph : Nat) (_ : Queued) : Bool :=
  let pd := pondOf s ph
  classIdle pd 0x6 && classIdle pd 0x1 && classIdle pd 0x2 && classIdle pd 0x3

/-- The start of an attention command: its page walk (07 R217), its fetches and what it writes outside the pond (10 R280,
R286, R304), its effect. -/
def startAttention (ph : Nat) (q : Queued) (k : Nat) (reads writes : List Run) (effect : State → State) (s : State) :
    Started :=
  let a := attOf (pondOf s ph) q.cmd
  if !mayName s ph a.future || !(attEntries s a).all (entryValid s a.future) then pageFault ph s
  else if !unitMapped s (reads ++ writes) then ended 0x0B (unmappedAccess s)
  else if unitReadOnly s writes then ended 0x0B (addObj s (key 0x2A04 0xC) 1)
  else if unservable s reads then ended 0x0B s
  else
    let s := countBytes true writes (countBytes false reads (tierMiss ph q.program (reads ++ writes) (addObj s k 1)))
    { ran (effect s) with epochReads := epochOf s ph reads, expander := true }

/-- A weight block with free values: what the cells hold after an attention command. -/
def freeBlock (k : Nat) (b : WeightBlock) : WeightBlock :=
  if b.valid then
    { b with rows := 512, cols := 256, scales := [],
             values := mapWrite 0 [] 0 ((List.range 131072).map fun i => (Config.freeWord (k + i)).setWidth 32) }
  else b

/-- The accumulator slots that an attention command uses, and the cells of the array, hold values that the manual does
not state. -/
def scratchSlots (ph base n : Nat) (s : State) : State :=
  let k := s.fresh
  modPond { s with fresh := k + n * 65536 + 131072 } ph fun pd =>
    { pd with acc := mapWrite 0 pd.acc (base * 65536)
                ((List.range (n * 65536)).map fun i => (Config.freeWord (k + i)).setWidth 32),
              accWritten := (List.range n).foldl (fun w i => w ||| 2 ^ (base + i)) pd.accWritten,
              activeW := freeBlock (k + n * 65536) (if pd.shadowW.valid then pd.shadowW else pd.activeW),
              shadowW := WeightBlock.none }

/-- ATTF: the attention forward pass of one layer for one future. -/
def execAttf (p : Nat) (s : State) : Out :=
  onHead p 0x6 0x03 0 s attReady (fun s ph q => attfLegal s ph q.cmd)
    (fun ph q s =>
      let a := attOf (pondOf s ph) q.cmd
      startAttention ph q (key 0x2720 7) (attRuns s a) []
        (fun s => runAttf ph q.cmd a (scratchSlots ph a.base (2 * a.m / 256) s)) s)
    fun s ph q => attRuns s (attOf (pondOf s ph) q.cmd)

/-! ## ATTB (07 R228, R229) -/

/-- A head's columns of row `i` of a tensor of the backward pass. -/
def headCols (pd : Pond) (a : Att) (o : Opnd) (h i : Nat) : List F32 :=
  ((readRow pd 0 (groupOperand o a.dstStride (h * a.dh / 256)) 256 i).1.drop (h * a.dh % 256)).take a.dh

/-- The blocks that the backward pass decodes of a coded tensor, O or dO: one for each row of each group of heads. -/
def coveredBlocks (pd : Pond) (a : Att) (o : Opnd) : List Decoded :=
  (List.range (qGroups a)).flatMap fun g => (List.range a.mvalid).filterMap fun i =>
    (readRow pd 0 (groupOperand o a.dstStride g) 256 i).2

/-- The statistics of a head and row, as the forward pass wrote them (07 R226). -/
def statsOf (pd : Pond) (a : Att) (h i : Nat) : F32 × F32 :=
  let bs := bufRead pd (a.stats + (h * a.m + i) * 8) 8
  (BitVec.ofNat 32 (leValue (bs.take 4)), BitVec.ofNat 32 (leValue (bs.drop 4)))

/-- The row term d[h, i] (07 R228). -/
def rowTerm (pd : Pond) (a : Att) (h i : Nat) : F32 :=
  pairTree add32 (padFrom a.dh 0 (((headCols pd a a.grad h i).zip (headCols pd a a.o h i)).map fun x => mul32 x.1 x.2))

/-- One row against one key group of the backward pass: the probabilities and dS, each of 256 keys (07 R228). -/
def backRow (s : State) (ph : Nat) (a : Att) (nk h g i : Nat) : List F32 × List F32 :=
  let pd := pondOf s ph
  let j := h / headsPer a
  let (m, lam) := statsOf pd a h i
  let q := (qRow s ph a h i).1
  let dO := headCols pd a a.grad h i
  let dsum := rowTerm pd a h i
  let ps := (List.range 256).map fun t =>
    let k := 256 * g + t
    if m = negInf32 ∨ ¬(k < nk ∧ visible a nk i k = true ∧ keyPresent s a k = true) then (0 : F32)
    else exp32 (sub32 (sub32 (mul32 a.scale (dotRow (j * a.dh % 256) q (kvFull s ph a 0 j k))) m) lam)
  let dS := (List.range 256).map fun t =>
    let p := ps.getD t 0
    let dp := dotRow (j * a.dh % 256) (dO.map flOf32) (kvFull s ph a 1 j (256 * g + t))
    mul32 (mul32 a.scale p) (sub32 dp dsum)
  (ps, dS)

/-- One product of a transposed area with a tensor (07 R228, Table FUT-9): `w` gives the FP32 value of row `i`, which
the area holds as FP8 E4M3 in groups along the rows, and `tensor` the tensor's value; passes of 256 rows accumulate. -/
def transposedProduct (m : Nat) (w : Nat → F32) (tensor : Nat → Fl) (acc : F32) : F32 :=
  (List.range (m / 256)).foldl (fun acc b =>
    let fs := (throughFp8 ((List.range 256).map fun i => w (256 * b + i))).1
    add32 acc (columnSum ((List.range 256).map fun i => flMul (fs.getD i (.num false 0 0)) (tensor (256 * b + i))))) acc

/-- dK and dV of key `t` of a group for a key-value head, summed over its query heads and rows (07 R228). -/
def backKey (s : State) (ph : Nat) (a : Att) (nk j g t : Nat) : List F32 × List F32 :=
  let zero : Fl := .num false 0 0
  let term (kind : Bool) (n r : Nat) (acc : F32) : F32 :=
    let h := j * headsPer a + r
    let rows := (List.range a.mvalid).map fun i =>
      let x := backRow s ph a nk h g i
      ((if kind then x.2 else x.1).getD t 0,
       if kind then (qRow s ph a h i).1.getD n zero else flOf32 ((headCols (pondOf s ph) a a.grad h i).getD n 0))
    transposedProduct a.m (fun i => (rows.getD i (0, zero)).1) (fun i => (rows.getD i (0, zero)).2) acc
  let sum (kind : Bool) (n : Nat) : F32 := (List.range (headsPer a)).foldl (fun acc r => term kind n r acc) 0
  ((List.range a.dh).map (sum true), (List.range a.dh).map (sum false))

/-- dQ of a head's row over every key group, merged in FP32 (07 R228). -/
def backQuery (s : State) (ph : Nat) (a : Att) (nk h i : Nat) : List F32 :=
  (List.range (keyGroups s a)).foldl (fun acc g =>
    let dS := (throughFp8 (backRow s ph a nk h g i).2).1
    (List.range a.dh).map fun n =>
      add32 (acc.getD n 0) (columnSum ((List.range 256).map fun t =>
        flMul (dS.getD t (.num false 0 0))
          ((kvRow s ph a 0 (h / headsPer a) (256 * g + t)).getD n (.num false 0 0)))))
    (List.replicate a.dh 0)

/-- The address of a gradient row of a key-value head (07 R228). -/
def gradRow (a : Att) (kind j k : Nat) : Nat :=
  let g := j * a.dh / 256
  a.area + k / 64 * 2 * kvGroups a * 65536 + (kind * kvGroups a + g) * 65536 + k % 64 * 1024 + j * a.dh % 256 * 4

/-- The page-table entries whose gradients the command writes: 4g to 4g + 3 of every key group (07 R228). -/
def gradEntries (s : State) (a : Att) : List Nat := List.range (4 * keyGroups s a)

/-- The gradient rows that the command writes. -/
def gradRuns (s : State) (a : Att) : List Run :=
  (gradEntries s a).flatMap fun x => (List.range 64).flatMap fun t => (List.range a.hkv).flatMap fun j =>
    (List.range 2).map fun kind => (gradRow a kind j (64 * x + t), a.dh * 4)

/-- What an ATTB reads outside the pond: its pages, and the gradient rows that it adds to. A page or row under re-fetch holds
it at its head (10 R303). -/
def backReads (s : State) (a : Att) : List Run := attRuns s a ++ if a.accumulate then gradRuns s a else []

/-- One gradient row stored, or added with rounding to nearest even (07 R228). -/
def storeGrad (a : Att) (addr : Nat) (xs : List F32) (s : State) : State :=
  let v (i : Nat) (x : F32) : F32 :=
    if a.accumulate then add32 (BitVec.ofNat 32 (readLe s (addr + 4 * i) 4)) x else x
  deviceAgentWrite s addr ((xs.mapIdx v).flatMap fun x => leBytes x.toNat 4)

/-- The FP8 row of the P area for 256 values (04 Table VEC-3). -/
def fp8Row (xs : List F32) : List Byte :=
  let x := throughFp8 xs
  rawRowBytes 2 256 [] x.2.1 x.2.2

/-- P and dS of the last head against the last key group, by query row: what the P areas end with. -/
def lastRows (s : State) (ph : Nat) (a : Att) (nk : Nat) : List (List F32 × List F32) :=
  if nk = 0 then [] else (List.range a.mvalid).map (backRow s ph a nk (a.hq - 1) (keyGroups s a - 1))

/-- Row `i` of area `k` of the four P areas, in the order of Table FUT-9: P, Pᵀ, dS, dSᵀ; row 256 b + t of a transposed one
holds key t's values of query rows 256 b to 256 b + 255 (log 25). -/
def lastBytes (a : Att) (last : List (List F32 × List F32)) (k i : Nat) : List Byte :=
  let part (x : List F32 × List F32) : List F32 := if k < 2 then x.1 else x.2
  if last = [] then []
  else if k % 2 = 0 then (if i < a.mvalid then fp8Row (part (last.getD i ([], []))) else [])
  else fp8Row ((List.range 256).map fun n => (part (last.getD (256 * (i / 256) + n) ([], []))).getD (i % 256) 0)

/-- The backward pass (07 R228). -/
def runAttb (ph : Nat) (c : Cmd) (a : Att) (s : State) : State :=
  let s0 := s
  let nk := keyCount s0 a
  let rows := List.range a.mvalid
  let dq := (List.range a.hq).map fun h => rows.map fun i => backQuery s0 ph a nk h i
  let pd := pondOf s0 ph
  let s := noteDecoded ph c (kvBlocks s0 ph a ++
    ((List.range a.hq).flatMap fun h => rows.map fun i => (qRow s0 ph a h i).2) ++
    coveredBlocks pd a a.o ++ coveredBlocks pd a a.grad) s
  let s := forEach (gradEntries s0 a) (fun x s => forUpTo 64 (fun t s => forUpTo a.hkv (fun j s =>
    let k := 64 * x + t
    let (dk, dv) := backKey s0 ph a nk j (k / 256) (k % 256)
    storeGrad a (gradRow a 1 j k) dv (storeGrad a (gradRow a 0 j k) dk s)) s) s) s
  let s := scratch ph a.staging (2 * keyGroupBytes a) s
  let last := lastRows s0 ph a nk
  let s := forUpTo 4 (fun k s => forUpTo a.m (fun i s =>
    modPond s ph fun pd => bufWrite pd (a.pArea + (k * a.m + i) * 320) (lastBytes a last k i)) s) s
  let s := putWork ph a (fun h i => (dq.getD h []).getD i []) s
  let s := forUpTo a.hq (fun h s => forEach rows (fun i s =>
    modPond s ph fun pd =>
      bufWrite pd (a.stats + a.hq * a.m * 8 + (h * a.m + i) * 4) (leBytes (rowTerm (pondOf s0 ph) a h i).toNat 4)) s) s
  forUpTo (qGroups a) (fun g s =>
    forEach rows (fun i s =>
      let per := 256 / a.dh
      let hs := (List.range per).filterMap fun t => if g * per + t < a.hq then some (g * per + t) else none
      writeHeadRow ph c a (g * per) i (hs.map fun h => (h, (dq.getD h []).getD i [])) s) s) s

/-- ATTB: the attention backward pass of one layer for one future. -/
def execAttb (p : Nat) (s : State) : Out :=
  onHead p 0x6 0x04 0 s attReady (fun s ph q => attbLegal s ph q.cmd)
    (fun ph q s =>
      let a := attOf (pondOf s ph) q.cmd
      startAttention ph q (key 0x2720 8) (backReads s a) (gradRuns s a)
        (fun s => runAttb ph q.cmd a (scratchSlots ph a.base (3 * a.m / 256 + 2) s)) s)
    fun s ph q => backReads s (attOf (pondOf s ph) q.cmd)

end Sys2Proof.Machine
end

