-- ==== Sys2Proof/Machine/Dma.lean ====
section
/-! DEFINITION. The pond DMA and tier engine (10 R296 to R298, R300, R302 to R304): COPY in its three forms, and
PFMARK. -/

namespace Sys2Proof.Machine

def copySrcKind (c : Cmd) : Nat := bits c.w1.toNat 63 62
def copyDstKind (c : Cmd) : Nat := bits c.w1.toNat 61 60
def copyPeer (c : Cmd) : Nat := bits c.w1.toNat 59 53
def copyOp (c : Cmd) : Nat := bits c.w1.toNat 52 51
def copyRows (c : Cmd) : Nat := bits c.w1.toNat 50 40 + 1
def copyLen (c : Cmd) : Nat := bits c.w1.toNat 39 22 * 64
def copySrc (c : Cmd) : Nat := bits c.w2.toNat 63 22 * 64
def copySrcStride (c : Cmd) : Nat := bits c.w2.toNat 21 0 * 64
def copyDst (c : Cmd) : Nat := bits c.w3.toNat 63 22 * 64
def copyDstStride (c : Cmd) : Nat := bits c.w3.toNat 21 0 * 64

/-- The rows of an operand. -/
def rowRuns (base stride len rows : Nat) : List Run := (List.range rows).map fun j => (base + j * stride, len)

/-- The last byte of an operand's rows stays below a bound. -/
def rowsWithin (base stride len rows bound : Nat) : Bool := decide (base + (rows - 1) * stride + len ≤ bound)

/-- The runs that a COPY reads and writes in the unified range; zero fill reads nothing, an add reads its
destination. -/
def copyReads (c : Cmd) : List Run :=
  (if copyOp c ≠ 2 ∧ copySrcKind c = 0 then rowRuns (copySrc c) (copySrcStride c) (copyLen c) (copyRows c) else []) ++
    (if copyOp c = 1 then rowRuns (copyDst c) (copyDstStride c) (copyLen c) (copyRows c) else [])
def copyWrites (c : Cmd) : List Run :=
  if copyDstKind c = 0 then rowRuns (copyDst c) (copyDstStride c) (copyLen c) (copyRows c) else []

/-- The checks of 10 Table MEM-13 on a COPY. -/
def copyLegal (width : Nat) (c : Cmd) : Bool :=
  let n := copyRows c
  let ok (uda : Bool) (base stride : Nat) : Bool :=
    rowsWithin base stride (copyLen c) n (if uda then 2 ^ 48 else bufSize)
  decide (copySrcKind c ≠ 3) && decide (copyDstKind c < 2) && decide (copyOp c ≠ 3) &&
    decide (bits c.w1.toNat 21 0 = 0) && (decide (copySrcKind c ≠ 2) || decide (copyPeer c < width)) &&
    (decide (copyOp c ≠ 1) || (decide (copySrcKind c = 1) && decide (copyDstKind c = 0))) &&
    decide (1 ≤ copyLen c) &&
    (decide (copyOp c = 2) || ok (decide (copySrcKind c = 0)) (copySrc c) (copySrcStride c)) &&
    ok (decide (copyDstKind c = 0)) (copyDst c) (copyDstStride c)

/-- Up to four commands in flight (10 R292). -/
def dmaFree (pd : Pond) : Bool := decide ((pd.running.filter fun r => decide (classOf r.cmd = 0x4)).length < 4)

/-- The bytes of row `j` of the source. -/
def sourceRow (s : State) (l ph : Nat) (c : Cmd) (j : Nat) : List Byte :=
  let a := copySrc c + j * copySrcStride c
  if copyOp c = 2 then List.replicate (copyLen c) 0
  else
    match copySrcKind c with
    | 0 => readBytes s a (copyLen c)
    | 1 => bufRead (pondOf s ph) a (copyLen c)
    | _ => bufRead (pondOf s (physOf s ((gangMembers s l).getD (copyPeer c) l))) a (copyLen c)

/-- Row `j` moved to its destination. -/
def moveRow (l ph : Nat) (c : Cmd) (j : Nat) (s : State) : State :=
  let src := sourceRow s l ph c j
  let a := copyDst c + j * copyDstStride c
  if copyDstKind c = 0 then
    deviceAgentStore (decide (copyOp c = 1)) s a src
  else modPond s ph fun pd => bufWrite pd a src

/-- 256-byte granules that a run touches. -/
def granulesOf (r : Run) : Nat := (r.1 + r.2 - 1) / 256 + 1 - r.1 / 256

/-- The effect of a COPY: no transfer and an error exit with cause 0x0B where a byte is unmapped, read-only or poisoned
with no re-fetch (10 R280, R286, R304); else the rows in ascending order. -/
def runCopy (l ph : Nat) (q : Queued) (s : State) : Started :=
  let c := q.cmd
  let rd := copyReads c
  let wr := copyWrites c
  if !unitMapped s (rd ++ wr) then ended 0x0B (unmappedAccess s)
  else if unitReadOnly s wr then ended 0x0B (addObj s (key 0x2A04 0xC) 1)
  else if unservable s rd then ended 0x0B s
  else
    let ep := epochOf s ph rd
    let s := tierMiss ph q.program (rd ++ wr) s
    let s := countBytes true wr (countBytes false rd s)
    let s := if copyOp c = 1 then addObj s (key 0x2A05 7) ((wr.map granulesOf).sum) else s
    { ran (forUpTo (copyRows c) (moveRow l ph c) s) with epochReads := ep }

/-- A COPY with op field `op`, or a command that every form of the class discards. -/
def isCopy (op : Nat) (_ : State) (_ : Nat) (q : Queued) : Bool :=
  (decide (opcodeOf q.cmd = 0x01) && (decide (copyOp q.cmd = op) || decide (copyOp q.cmd = 3))) ||
    decide (opcodeOf q.cmd ∉ legalOpcodes 0x4)

/-- The head of the DMA queue as a COPY with op field `op`: it starts while fewer than four commands are in flight. -/
def copyRow (p op : Nat) (s : State) : Out :=
  onHeadIf p 0x4 (key 0x2A05 8) (isCopy op) s (fun s ph _ => dmaFree (pondOf s ph))
    (fun s _ q => copyLegal (gangMembers s p).length q.cmd) (runCopy p) (fun _ _ q => copyReads q.cmd)

/-- COPY with op 0 (10 R296). -/
def execCopy (p : Nat) (s : State) : Out := copyRow p 0 s

/-- COPY with op 1: FP32 add (10 R297). -/
def execFp32Add (p : Nat) (s : State) : Out := copyRow p 1 s

/-- COPY with op 2: zero fill. -/
def execZeroFill (p : Nat) (s : State) : Out := copyRow p 2 s

def pfSchedule (c : Cmd) : Nat := bits c.w1.toNat 63 60
def pfMark (c : Cmd) : Nat := bits c.w1.toNat 59 48
def pfWait (c : Cmd) : Bool := bitAt c.w1.toNat 47

/-- The checks of 10 Table MEM-13 on a PFMARK; the actions are checked where the entries are read. -/
def pfmarkLegal (s : State) (c : Cmd) : Bool :=
  let n := pfSchedule c
  decide (bits c.w1.toNat 46 0 = 0) && decide (c.w2 = 0) && decide (c.w3 = 0) && scheduleValid s n &&
    (decide (pfMark c ≠ 0) || (List.range (scheduleCount s n)).all fun k => decide ((readEntry s n k).action ≤ 2))

/-- PFMARK (10 R295): its wait is one of its own until the schedule has reached the mark. -/
def execPfmark (p : Nat) (s : State) : Out :=
  onHead p 0x4 0x02 (key 0x2A05 8) s (fun s ph _ => dmaFree (pondOf s ph)) (fun s _ q => pfmarkLegal s q.cmd)
    fun _ q s =>
      let c := q.cmd
      let s := markSchedule (pfSchedule c) (pfMark c) s
      { ran s with
        waits := if pfWait c then markTier s (pfSchedule c) (pfMark c) * 65536 + pfSchedule c * 4096 + pfMark c + 1 else 0 }

end Sys2Proof.Machine
end

