-- ==== Sys2Proof/Machine/Intake.lean ====
section
/-! DEFINITION. The chip-level dispatcher of classes 0x9 and 0xA (09 R272), intake contexts, and the conversion and
coding of decoded pictures (09 R253, R254, R261 to R267). What a bitstream decodes to is an outside document: its
pictures and syntax are free values. -/

namespace Sys2Proof.Machine

/-! ## Chip-level dispatch (09 R272) -/

def ictxContext (c : Cmd) : Nat := bits c.w1.toNat 63 58
def ictxCodec (c : Cmd) : Nat := bits c.w1.toNat 57 56
def ictxW (c : Cmd) : Nat := bits c.w1.toNat 55 42
def ictxH (c : Cmd) : Nat := bits c.w1.toNat 41 28
def ictxSize (c : Cmd) : Nat := bits c.w3.toNat 63 32
def decodeD0 (c : Cmd) : Nat := bits c.w1.toNat 57 50
def decodeUnit (c : Cmd) : Nat := bits c.w2.toNat 47 0
def decodeLength (c : Cmd) : Nat := bits c.w3.toNat 63 32

/-- A unit's use is still due: its command runs, or waits at the head of its queue. -/
def useLive (s : State) (u : ChipUse) : Bool :=
  match u.run with
  | some id => (pondOf s u.pond).running.any fun r => decide (r.id = id)
  | none => decide (queueOf (pondOf s u.pond) u.cls ≠ [])

/-- The uses without those that a reset of their pond has ended. -/
def liveUses (s : State) : List ChipUse := s.intake.uses.filter (useLive s)

/-- The state with the uses replaced. -/
def setUses (s : State) (us : List ChipUse) : State := { s with intake := { s.intake with uses := us } }

/-- The lowest free unit of a class. -/
def freeUnit (s : State) (cls : Nat) : Option Nat :=
  (List.range (unitsOf s cls)).find? fun i =>
    decide ((cls, i) ∉ s.weir.units) && !((liveUses s).any fun u => decide (u.cls = cls ∧ u.unit = i))

/-- The command at the head of a pond's queue of a chip-level class can be dispatched: its wait is satisfied, it has no
unit yet, and its context is not busy. -/
def dispatchable (s : State) (cls l : Nat) : Option Queued :=
  let ph := physOf s l
  if ph = 0xFF then none
  else
    match queueOf (pondOf s ph) cls with
    | [] => none
    | q :: _ =>
      let us := liveUses s
      if waitMet (pondOf s ph) q.cmd && mayStart (pondOf s ph) q cls &&
          !(us.any fun u => decide (u.cls = cls ∧ u.pond = ph ∧ u.run = none)) &&
          !(decide (cls = 0xA) && us.any fun u => decide (u.context = some (ictxContext q.cmd))) then some q
      else none

/-- The head of a pond's queue of a class begins a wait for a unit, unless one is on. -/
def noteUnitWait (cls ph : Nat) (s : State) : State :=
  modPond s ph fun pd =>
    match queueOf pd cls with
    | [] => pd
    | q :: rest => setQueue pd cls ({ q with waiting := q.waiting.or (some (s.now, unitNote cls)) } :: rest)

/-- The wait of the head of a pond's queue ends: counted. -/
def endUnitWait (cls ph : Nat) (s : State) : State :=
  match queueOf (pondOf s ph) cls with
  | [] => s
  | q :: rest => modPond (countWait q.waiting s) ph fun pd => setQueue pd cls ({ q with waiting := none } :: rest)

/-- CHIP_UNIT_DISPATCH (09 R272): a free unit of the class goes to the oldest command at the head of any pond's queue,
ties to the lowest logical pond; with no free unit such commands wait. -/
def execChipUnitDispatch (cls : Nat) (s : State) : Out :=
  if cls = 0x9 ∨ cls = 0xA then
    let heads := (List.range (logicalCount s)).filterMap fun l => (dispatchable s cls l).map fun q => (l, q)
    .next (match freeUnit s cls, minBy (fun e => e.2.pushed) heads with
      | some u, some (l, q) =>
        let ph := physOf s l
        setUses (endUnitWait cls ph s)
          (liveUses s ++ [{ cls := cls, unit := u, pond := ph, run := none, report := 0, bound := 0,
                            context := if cls = 0xA then some (ictxContext q.cmd) else none }])
      | none, _ => forEach heads (fun e s => noteUnitWait cls (physOf s e.1) s) s
      | _, none => s)
  else .fault .noSuchUnit

/-- A pond holds a unit of a class for the head of its queue. -/
def hasUnit (cls : Nat) (s : State) (ph : Nat) (_ : Queued) : Bool :=
  (liveUses s).any fun u => decide (u.cls = cls ∧ u.pond = ph ∧ u.run = none)

/-- The unit that a pond holds for its head passes to the command that has started, or is free again when it was
discarded. -/
def settleUse (cls ph : Nat) (before after : State) : State :=
  let id := (pondOf before ph).nextId
  let mine (u : ChipUse) : Bool := decide (u.cls = cls ∧ u.pond = ph ∧ u.run = none)
  if (pondOf after ph).nextId ≠ id then
    setUses after (after.intake.uses.map fun u => if mine u then { u with run := some id } else u)
  else if queueOf (pondOf after ph) cls ≠ queueOf (pondOf before ph) cls then
    setUses after (after.intake.uses.filter fun u => !mine u)
  else after

/-- The row of one opcode of a chip-level class, on the unit given to the pond. -/
def onUnitHead (p cls op own : Nat) (s : State) (valid : State → Nat → Queued → Bool)
    (effect : Nat → Queued → State → Started) : Out :=
  match onHead p cls op own s (hasUnit cls) valid effect with
  | .next t => .next (if physOf s p = 0xFF then t else settleUse cls (physOf s p) s t)
  | o => o

/-- The record and bound of the unit that a pond's starting command uses. -/
def noteReport (cls ph report bound : Nat) (s : State) : State :=
  setUses s (s.intake.uses.map fun u =>
    if u.cls = cls ∧ u.pond = ph ∧ u.run = none then { u with report := report, bound := bound } else u)

/-! ## ICTX (09 R262) -/

/-- The context of a number. -/
def ctxOf (s : State) (c : Nat) : IntakeCtx := mapFind IntakeCtx.closed s.intake.contexts c

/-- The state with a context replaced. -/
def setCtx (s : State) (c : Nat) (x : IntakeCtx) : State :=
  { s with intake := { s.intake with contexts := mapPut IntakeCtx.closed s.intake.contexts c x } }

/-- The checks of 09 Table CNV-10 on ICTX. -/
def ictxLegal (c : Cmd) : Bool :=
  decide (ictxCodec c < 2) && decide (bits c.w1.toNat 27 0 = 0) && decide (bits c.w2.toNat 63 48 = 0) &&
    decide (bits c.w3.toNat 31 0 = 0) && decide (16 ≤ ictxW c ∧ ictxW c ≤ 8192 ∧ 16 ≤ ictxH c ∧ ictxH c ≤ 8192) &&
    (decide (ictxSize c = 0) || decide (51 * ictxW c * ictxH c + 8388608 ≤ ictxSize c * 4096))

/-- The context that an ICTX leaves: closed, or open for the pond that issues it, with nothing decoded. That its reference
area lies in the HBM tier is the program's duty, which no check of Table CNV-10 enforces (log 58). -/
def ictxOpens (c : Cmd) (p : Nat) : IntakeCtx :=
  if ictxSize c = 0 then IntakeCtx.closed
  else { IntakeCtx.closed with opened := true, codec := ictxCodec c, wMax := ictxW c, hMax := ictxH c, owner := p,
                               area := bits c.w2.toNat 47 0, size := ictxSize c }

/-- ICTX: opens a context for the pond that issues it, or closes it. -/
def execIctx (p : Nat) (s : State) : Out :=
  onUnitHead p 0xA 0x01 (key 0x2901 8) s (fun _ _ q => ictxLegal q.cmd) fun _ q s =>
    let c := q.cmd
    ran (setCtx s (ictxContext c) (ictxOpens c p))

/-! ## Descriptors of DECODE and FLUSH (09 Table CNV-5) -/

/-- The descriptor of a DECODE or FLUSH. -/
structure Decode where
  x0 : Nat
  y0 : Nat
  cw : Nat
  ch : Nat
  wo : Nat
  ho : Nat
  fold : Nat
  filter : Nat
  matrix : Nat
  range : Nat
  fmt : Nat
  rate : Nat
  table : Nat
  segment : Bool
  q : Nat
  phases : Nat
  margin : Nat
  chunks : Nat
  segsLog : Nat
  my : Nat
  image : Nat
  base : Nat
  status : Nat
  mean : List F32
  scale : List F32
  resv : Bool

/-- The descriptor read from the registers. -/
def decodeOf (pd : Pond) (c : Cmd) : Decode :=
  let d (i : Nat) : Nat := (getParam pd.core (decodeD0 c + i)).toNat
  let seg := bitAt (d 1) 16
  { x0 := bits (d 0) 63 48, y0 := bits (d 0) 47 32, cw := bits (d 0) 31 16, ch := bits (d 0) 15 0,
    wo := bits (d 1) 63 52, ho := bits (d 1) 51 40, fold := bits (d 1) 39 37, filter := bits (d 1) 36 35,
    matrix := bits (d 1) 34 32, range := bits (d 1) 31 30, fmt := bits (d 1) 29 27, rate := bits (d 1) 26 25,
    table := bits (d 1) 24 17, segment := seg, q := bits (d 2) 63 56, phases := bits (d 2) 55 54 + 1,
    margin := bits (d 2) 53 47, chunks := bits (d 2) 46 40 + 1, segsLog := bits (d 2) 39 37,
    my := bits (d 2) 36 31, image := bits (d 2) 30 23, base := bits (d 3) 47 0, status := bits (d 4) 47 0,
    mean := (List.range 3).map fun i => BitVec.ofNat 32 (bits (d (5 + i)) 63 32),
    scale := (List.range 3).map fun i => BitVec.ofNat 32 (bits (d (5 + i)) 31 0),
    resv := decide (bits (d 1) 15 0 ≠ 0) || (if seg then decide (bits (d 2) 22 0 ≠ 0) else decide (d 2 ≠ 0)) ||
      decide (bits (d 3) 63 48 ≠ 0) || decide (bits (d 4) 63 48 ≠ 0) }

/-- Positions of the output map. -/
def mapW (d : Decode) : Nat := d.wo / 2 ^ d.fold
def mapH (d : Decode) : Nat := d.ho / 2 ^ d.fold

/-- Channel groups of the output map for `nc` channels of the picture (09 R264 stage 6). -/
def mapGroups (d : Decode) (nc : Nat) : Nat := ceilDiv (2 ^ d.fold * 2 ^ d.fold * nc) 256

/-- The record pitch of the segment layout (09 R253). -/
def recordPitch (d : Decode) : Nat := ceilDiv (d.phases * d.chunks * chunkBytes d.fmt d.rate) 64 * 64

/-- Bytes of the output map. -/
def mapBytes (d : Decode) (nc : Nat) : Nat :=
  if d.segment then mapGroups d nc * (mapH d + 2 * d.my) * recordPitch d
  else mapGroups d nc * tensorBytes d.fmt d.rate (mapH d * mapW d)

/-! ## Decoded pictures and their output (09 R261, R263, R267) -/

/-- What the decoder reports of the unit of the DECODE numbered `n`, a free value by index (outside documents). -/
def info (n codec cx : Nat) (bs : List Byte) (i : Nat) : Nat := Config.decodedInfo codec [cx, n] bs i

/-- A picture: size, whether it is monochrome, 8-bit samples, siting and range, matrix code, and its samples. -/
structure Picture where
  w : Nat
  h : Nat
  mono : Bool
  eight : Bool
  siting : Nat
  full : Bool
  code : Nat
  sample : Nat → Nat

/-- The picture that the unit of the DECODE numbered `n` codes. -/
def pictureOf (n codec cx : Nat) (bs : List Byte) : Picture :=
  let v := info n codec cx bs
  { w := v 3 % 65536, h := v 4 % 65536, mono := decide (codec = 1 ∧ v 5 % 2 = 1), eight := decide (v 6 % 2 = 0),
    siting := if codec = 0 then v 7 % 6 else if v 7 % 2 = 1 then 2 else 0, full := decide (v 8 % 2 = 1),
    code := v 9, sample := Config.decodedSample codec cx n bs }

/-- FLUSH, which decodes nothing. -/
def isFlush (c : Cmd) : Bool := decide (opcodeOf c = 3)

/-- The bytes of the unit that a command decodes. -/
def unitBytes (s : State) (c : Cmd) : List Byte := if isFlush c then [] else readBytes s (decodeUnit c) (decodeLength c)

/-- What the decoder reports of the unit of a command that starts now. -/
def unitInfo (s : State) (c : Cmd) (i : Nat) : Nat :=
  info s.fresh (ctxOf s (ictxContext c)).codec (ictxContext c) (unitBytes s c) i

/-- The picture that the unit of a command that starts now codes. -/
def unitPicture (s : State) (c : Cmd) : Picture :=
  pictureOf s.fresh (ctxOf s (ictxContext c)).codec (ictxContext c) (unitBytes s c)

/-- Whether the unit is a random access point (free value 0, R267). -/
def unitAccess (s : State) (c : Cmd) : Bool := decide (unitInfo s c 0 % 2 = 1)

/-- The status of a unit before output: 3 while the context awaits an access point, 2 for a stream error (free value 1) or a
picture beyond Table CNV-3, 4 for one above the context's maximum; 0 for a unit that is decoded (R261, R267; log 58). -/
def unitStatus (s : State) (c : Cmd) : Nat :=
  let x := ctxOf s (ictxContext c)
  let k := unitPicture s c
  if isFlush c then 0
  else if x.awaiting && !unitAccess s c then 3
  else if unitInfo s c 1 % 2 = 1 ∨ 8192 < k.w ∨ (if x.codec = 0 then 4320 else 4352) < k.h then 2
  else if x.wMax < k.w ∨ x.hMax < k.h then 4
  else 0

/-- The context once the unit is decoded (R263): its picture waits for output where it is to be output (free value 2; an AV1
unit shows one frame or none), after those before it, unless an access point drops them (free value 14). -/
def afterUnit (s : State) (c : Cmd) : IntakeCtx :=
  let x := ctxOf s (ictxContext c)
  if isFlush c then x
  else
    let access := unitAccess s c
    let epoch := if access then x.epoch + 1 else x.epoch
    let shows := decide (unitInfo s c 2 % 2 = 1)
    let p : HeldPicture :=
      { epoch := epoch, order := unitInfo s c 11 % 2 ^ 32, index := s.fresh, bytes := unitBytes s c }
    { x with
      awaiting := false, epoch := epoch,
      shown := if !shows then x.shown else if access || decide (unitInfo s c 15 % 2 = 1) then 0 else x.shown + 1,
      pics := (if access && decide (unitInfo s c 14 % 2 = 1) then [] else x.pics) ++ if shows then [p] else [] }

/-- The place of a picture in output order: by coded video sequence, then by its signed order count. -/
def outputOrder (p : HeldPicture) : Nat := p.epoch * 2 ^ 32 + (p.order + 2 ^ 31) % 2 ^ 32

/-- The picture that the output process releases for a command (R263): for AV1 the frame that the unit shows; for HEVC the
next one in output order, on FLUSH, or by bumping once more pictures wait than the stream's reorder limit (free value 13). -/
def releasedOf (s : State) (c : Cmd) : Option HeldPicture :=
  let x := afterUnit s c
  if x.codec = 1 then (if isFlush c then none else x.pics.head?)
  else if isFlush c || decide (unitInfo s c 13 % 17 < x.pics.length) then minBy outputOrder x.pics
  else none

/-- The unit of an AV1 DECODE is monochrome. -/
def unitMono (s : State) (c : Cmd) : Bool :=
  decide ((ctxOf s (ictxContext c)).codec = 1) && !isFlush c && (unitPicture s c).mono

/-- The picture that a command releases, as its context decodes it. -/
def releasedPicture (s : State) (c : Cmd) : Option Picture :=
  if unitStatus s c ≠ 0 then none
  else (releasedOf s c).map fun p => pictureOf p.index (ctxOf s (ictxContext c)).codec (ictxContext c) p.bytes

/-- A resize ratio is legal (09 R264 stage 4). -/
def ratioLegal (filter win wout : Nat) : Bool :=
  decide (win ≤ 16 * wout) && (if filter = 1 then decide (wout ≤ win) else decide (wout ≤ 2 * win))

/-- The resize ratio of one side: of the crop, or of the picture that is released where the crop is the whole picture. -/
def sideLegal (s : State) (c : Cmd) (filter win wout : Nat) (side : Picture → Nat) : Bool :=
  if win = 0 then
    (match releasedPicture s c with
     | some k => ratioLegal filter (side k) wout
     | none => true)
  else ratioLegal filter win wout

/-- The checks of 09 Table CNV-10 on DECODE and FLUSH; those on the channels and on a whole-picture crop look at the picture
that the command decodes (log 58). -/
def decodeLegal (s : State) (ph : Nat) (c : Cmd) : Bool :=
  let x := ctxOf s (ictxContext c)
  let d := decodeOf (pondOf s ph) c
  let f := 2 ^ d.fold
  let mono := unitMono s c
  let nc := if mono then 1 else 3
  decide (24 ≤ decodeD0 c ∧ decodeD0 c ≤ 248) && decide (bits c.w1.toNat 49 0 = 0) &&
    decide (bits c.w2.toNat 63 48 = 0) && decide (bits c.w3.toNat 31 0 = 0) &&
    (decide (opcodeOf c = 2) || decide (c.w2 = 0 ∧ c.w3 = 0)) && !d.resv && decide (d.fold ≤ 4) &&
    decide (d.filter < 2 ∧ d.matrix < 4 ∧ d.range < 3 ∧ 1 ≤ d.fmt ∧ d.fmt ≤ 6) &&
    decide (1 ≤ d.wo ∧ d.wo % f = 0 ∧ 1 ≤ d.ho ∧ d.ho % f = 0) &&
    (!x.opened || decide ((d.cw = 0 ∨ d.x0 + d.cw ≤ x.wMax) ∧ (d.ch = 0 ∨ d.y0 + d.ch ≤ x.hMax))) &&
    (!mono || decide ((d.mean.drop 1).all (· = 0) && (d.scale.drop 1).all (· = 0))) &&
    sideLegal s c d.filter d.cw d.wo Picture.w && sideLegal s c d.filter d.ch d.ho Picture.h &&
    decide (d.base % 64 = 0 ∧ d.status % 32 = 0) &&
    (!d.segment || (decide (1 ≤ d.q) && decide (d.segsLog ≤ 5) && decide (d.phases * d.chunks ≤ 512) &&
      decide (mapGroups d nc ≤ 64) && !(isMx d.fmt && decide (d.rate = 2)) && decide (d.image < 32 / 2 ^ d.segsLog))) &&
    unitMapped s [(d.base, mapBytes d nc), (d.status, 32)]

/-! ## The stages of a picture (09 R264) -/

/-- A sample of plane `p` widened to 10 bits; positions outside the plane repeat its edge. -/
def sample10 (k : Picture) (p : Nat) (x y : Int) : Nat :=
  let w := if p = 0 then k.w else (k.w + 1) / 2
  let h := if p = 0 then k.h else (k.h + 1) / 2
  let cx := min x.toNat (w - 1)
  let cy := min y.toNat (h - 1)
  let v := k.sample (p * 2 ^ 40 + cy * w + cx)
  if k.eight then v % 256 * 4 else v % 1024

/-- A chroma value on the luma grid, in sixteenths (stage 1): bilinear weights at the signalled siting (positions by
H.265, PRESUMED). -/
def chroma16 (k : Picture) (p x y : Nat) : Nat :=
  let u : Int := 2 * (x : Int) - (if k.siting % 2 = 1 then 1 else 0)
  let v : Int := 2 * (y : Int) - (if k.siting ≤ 1 then 1 else if k.siting ≤ 3 then 0 else 2)
  let fx := (u % 4).toNat
  let fy := (v % 4).toNat
  let at_ (i j : Int) : Nat := sample10 k p (u / 4 + i) (v / 4 + j)
  (at_ 0 0 * (4 - fx) + at_ 1 0 * fx) * (4 - fy) + (at_ 0 1 * (4 - fx) + at_ 1 1 * fx) * fy

/-- (v × 2^e − off) / span, in FP32. -/
def normalised (v : Nat) (e : Int) (off span : Nat) : F32 :=
  toF32 .nearest (flDiv (flAdd (.num false v e) (.num true off 0)) (.num false span 0))

/-- The coefficients a, b, c, d of 09 Table CNV-4 by matrix. -/
def colourMatrix (m : Nat) : F32 × F32 × F32 × F32 :=
  match m with
  | 0 => (0x3FB374BC, 0xBEB03298, 0xBF36D19E, 0x3FE2D0E5)
  | 1 => (0x3FC9930C, 0xBE3FD1DD, 0xBEEFADF3, 0x3FED844D)
  | _ => (0x3FBCBFB1, 0xBE288095, 0xBF124431, 0x3FF0D1B7)

/-- The matrix in use: the descriptor's, or the stream's (stage 2). -/
def matrixOf (d : Decode) (k : Picture) : Nat :=
  if d.matrix < 3 then d.matrix else if k.code = 5 ∨ k.code = 6 then 0 else if k.code = 9 then 2 else 1

/-- Channel `c` of the converted picture at a luma position (stage 2). -/
def colour (d : Decode) (k : Picture) (c x y : Nat) : F32 :=
  let full := if d.range = 0 then k.full else decide (d.range = 2)
  let yy := normalised (sample10 k 0 x y) 0 (if full then 0 else 64) (if full then 1023 else 876)
  if k.mono then yy
  else
    let ch (p : Nat) : F32 := normalised (chroma16 k p x y) (-4) 512 (if full then 1023 else 896)
    let (a, b, cc, dd) := colourMatrix (matrixOf d k)
    match c with
    | 0 => add32 yy (mul32 a (ch 2))
    | 1 => add32 (add32 yy (mul32 b (ch 1))) (mul32 cc (ch 2))
    | _ => add32 yy (mul32 dd (ch 1))

/-- One bilinear resize along a line of `win` values (stage 4). -/
def bilinear (get : Nat → F32) (win wout x : Nat) : F32 :=
  let num : Int := (2 * (x : Int) + 1) * win - wout
  let den : Int := 2 * wout
  let i0 := num / den
  let f := ((num % den) * 65536 / den).toNat
  let v0 := get (min i0.toNat (win - 1))
  let v1 := get (min (i0 + 1).toNat (win - 1))
  fma32 (toF32 .nearest (.num false f (-16))) (sub32 v1 v0) v0

/-- One area resize along a line (stage 4): overlaps truncated to 16 bits. -/
def areaResize (get : Nat → F32) (win wout x : Nat) : F32 :=
  let lo := x * win
  let hi := (x + 1) * win
  let sum := (List.range (ceilDiv hi wout - lo / wout)).foldl (fun acc j =>
    let i := lo / wout + j
    let w := (min hi ((i + 1) * wout) - max lo (i * wout)) * 65536 / wout
    add32 acc (mul32 (toF32 .nearest (.num false w (-16))) (get i))) (0 : F32)
  toF32 .nearest (flDiv (flMul (flOf32 sum) (.num false wout 0)) (.num false win 0))

/-- Output pixel (x, y) of channel `c`: crop, resize horizontally and then vertically, normalisation (stages 3 to
5). -/
def pixel (d : Decode) (k : Picture) (c x y : Nat) : F32 :=
  let w := if d.cw = 0 then k.w else d.cw
  let h := if d.ch = 0 then k.h else d.ch
  let x0 := if d.cw = 0 then 0 else d.x0
  let y0 := if d.ch = 0 then 0 else d.y0
  let line := if d.filter = 1 then areaResize else bilinear
  let row (j : Nat) : F32 := line (fun i => colour d k c (x0 + i) (y0 + j)) w d.wo x
  let v := line row h d.ho y
  mul32 (sub32 v (d.mean.getD c 0)) (d.scale.getD c 0)

/-- Channels of a picture. -/
def channelsOf (k : Picture) : Nat := if k.mono then 1 else 3

/-- The 256 channels of group `g` at output position (x, y) (stage 6). -/
def position (d : Decode) (k : Picture) (g x y : Nat) : List F32 :=
  let f := 2 ^ d.fold
  let nc := channelsOf k
  (List.range 256).map fun t =>
    let q := 256 * g + t
    if q < f * f * nc then pixel d k (q % nc) (f * x + q / nc % f) (f * y + q / nc / f) else 0

/-! ## Coding and writing (09 R254, R265) -/

/-- The table of the issuing pond's image area, read at the start; none when it is invalid or of another format. -/
def imageTable (s : State) (l t fmt : Nat) : Option Tab :=
  let run : Run := (tableSlot l t, 1024)
  if !unitMapped s [run] then none
  else
    let bs := readBytes s run.1 1024
    if imageInvalid bs || decide ((tabOf bs).fmt ≠ fmt) then none else some (tabOf bs)

/-- An element block and its scale entry written at block `j` of a tensor base; the flag tells of lossy coding. -/
def writeBlock (ph : Nat) (c : Cmd) (d : Decode) (tab : Option Tab) (base j : Nat) (xs : List F32)
    (a : State × Bool) : State × Bool :=
  let s := a.1
  let w := 1 + deltaBits d.rate
  let at_ := base + scaleBlockAt d.fmt d.rate j
  let (e, entry, raised, sat, gs) :=
    codedRow d.fmt d.rate d.table 256 j { stochastic := false, seed := 0, tag := tagOf c, kb := 0 } tab
      (if isMx d.fmt then readBytes s at_ (scaleBytes d.fmt d.rate) else []) xs
  let s := deviceAgentWrite s (base + blockAt d.fmt d.rate j) e.bytes
  let s := if isMx d.fmt then deviceAgentWrite s (at_ + w * (j % 32)) ((entry.drop (w * (j % 32))).take w) else s
  let s := noteConverted sat gs (noteEncoded ph c tab raised e s)
  (s, a.2 || decide (e.shift ≠ 0) || e.lastZ || e.nanBlock || decide (raised ≠ 0))

/-- The picture written in plain layout. -/
def writePlain (ph : Nat) (c : Cmd) (d : Decode) (k : Picture) (tab : Option Tab) (a : State × Bool) : State × Bool :=
  (List.range (mapGroups d (channelsOf k))).foldl (fun a g =>
    (List.range (mapH d * mapW d)).foldl (fun a j =>
      writeBlock ph c d tab (d.base + g * tensorBytes d.fmt d.rate (mapH d * mapW d)) j
        (position d k g (j % mapW d) (j / mapW d)) a) a) a

/-- The image slots of every record of the image in segment layout, the margins as zero blocks. -/
def writeSegments (ph : Nat) (c : Cmd) (d : Decode) (k : Picture) (tab : Option Tab) (a : State × Bool) :
    State × Bool :=
  let ns := 2 ^ d.segsLog
  (List.range (mapGroups d (channelsOf k))).foldl (fun a g =>
    (List.range (mapH d + 2 * d.my)).foldl (fun a yy =>
      let base := d.base + (g * (mapH d + 2 * d.my) + yy) * recordPitch d
      (List.range (d.phases * d.chunks)).foldl (fun a pk =>
        (List.range ns).foldl (fun a rr =>
          let x : Int := (rr * d.q + d.phases * (pk % d.chunks) + pk / d.chunks : Nat) - (d.margin : Int)
          let inside := decide (d.my ≤ yy ∧ yy < d.my + mapH d) && decide (0 ≤ x) && decide (x < mapW d)
          writeBlock ph c d tab base (32 * pk + d.image * ns + rr)
            (if inside then position d k g x.toNat (yy - d.my) else List.replicate 256 0) a) a) a) a) a

/-- Element blocks that the picture writes. -/
def blocksWritten (d : Decode) (k : Picture) : Nat :=
  mapGroups d (channelsOf k) *
    (if d.segment then (mapH d + 2 * d.my) * d.phases * d.chunks * 2 ^ d.segsLog else mapH d * mapW d)

/-- The status record (09 Table CNV-6); its duration is written when the command completes. -/
def statusBytes (result flags order w h consumed : Nat) : List Byte :=
  leBytes result 1 ++ leBytes flags 1 ++ leBytes 0 2 ++ leBytes 0 4 ++ leBytes order 4 ++ leBytes w 2 ++
    leBytes h 2 ++ leBytes consumed 8 ++ leBytes 0 8

/-- A picture converted, coded and written in its layout; nothing lands in a read-only extent (10 R286). -/
def writePicture (l ph : Nat) (c : Cmd) (d : Decode) (k : Picture) (s : State) : State × Bool :=
  let tab := imageTable s l d.table d.fmt
  if unitReadOnly s [(d.base, mapBytes d (channelsOf k))] then (addObj s (key 0x2A04 0xC) 1, false)
  else
    let s := countBytes true [(d.base, mapBytes d (channelsOf k))] s
    if d.segment then writeSegments ph c d k tab (s, false) else writePlain ph c d k tab (s, false)

/-- A stream error (09 R267): counted, source 52, and the context awaits an access point. -/
def streamError (cx : Nat) (s : State) : State :=
  raise 52 .chip (setCtx (addObj s (key 0x2901 3) 1) cx { ctxOf s cx with awaiting := true })

/-- The memory that a command reads: its unit; and the reference area of its context, which has to be mapped (10 R280). -/
def decodeReads (s : State) (c : Cmd) : List Run :=
  let x := ctxOf s (ictxContext c)
  (if isFlush c then [] else [(decodeUnit c, decodeLength c)]) ++ if x.opened then [(x.area, x.size * 4096)] else []

/-- The bound of R266: the coded picture's samples and the unit's bits, none of either for FLUSH, and the blocks written. -/
def decodeBound (s : State) (c : Cmd) (blocks : Nat) : Nat :=
  let k := unitPicture s c
  2500 + max (ceilDiv (5 * 8 * (unitBytes s c).length) 8) (if isFlush c then 0 else ceilDiv (5 * k.w * k.h) 16) + blocks

/-- What a DECODE or FLUSH that releases a picture writes: the picture and its counts, with the flags of its record. -/
def releasePicture (l ph : Nat) (c : Cmd) (d : Decode) (k : Picture) (grain : Bool) (s : State) : State × Nat :=
  let (s, lossy) := writePicture l ph c d k s
  let s := addObj s (key 0x2901 2) 1
  (if grain then addObj s (key 0x2901 7) 1 else s, (if grain then 1 else 0) + if lossy then 2 else 0)

/-- DECODE or FLUSH on its context (09 R263 to R267). -/
def runDecode (l ph : Nat) (q : Queued) (s : State) : Started :=
  let c := q.cmd
  let cx := ictxContext c
  let x := ctxOf s cx
  let d := decodeOf (pondOf s ph) c
  let reads := decodeReads s c
  if !x.opened || decide (x.owner ≠ l) then ended 0x0B (raise 23 (.pond ph) s)
  else if !unitMapped s reads then ended 0x0B (unmappedAccess s)
  else if unservable s reads then ended 0x0B s
  else
    let status := unitStatus s c
    let own := unitPicture s c
    let order := unitInfo s c 11 % 2 ^ 32
    let consumed := if isFlush c then 0 else unitInfo s c 10 % 2 ^ 64
    let s0 := s
    let s := countBytes false (reads.take (if isFlush c then 0 else 1)) { s with fresh := s.fresh + 1 }
    let finish (result flags order w h blocks : Nat) (s : State) : Started :=
      ran (noteReport 0xA ph d.status (decodeBound s0 c blocks)
        (deviceWrite s d.status (statusBytes result flags order w h consumed)))
    if status = 3 then finish 3 0 order own.w own.h 0 (addObj s (key 0x2901 4) 1)
    else if status ≠ 0 then finish status 0 order own.w own.h 0 (streamError cx s)
    else
      let y := afterUnit s0 c
      match releasedOf s0 c with
      | none => finish 1 0 order own.w own.h 0 (setCtx s cx y)
      | some p =>
        let k := pictureOf p.index x.codec cx p.bytes
        let grain := decide (x.codec = 1 ∧ info p.index x.codec cx p.bytes 12 % 2 = 1)
        let r := releasePicture l ph c d k grain (setCtx s cx { y with pics := y.pics.erase p })
        finish 0 r.2 (if x.codec = 1 then y.shown else p.order) k.w k.h (blocksWritten d k) r.1

/-- A read of the unit that waits for a re-fetch holds the command at its head. -/
def decodeRow (p op : Nat) (s : State) : Out :=
  match onHead p 0xA op (key 0x2901 8) s
      (hasUnit 0xA) (fun s ph q => decodeLegal s ph q.cmd) (runDecode p)
      (fun s _ q => decodeReads s q.cmd) with
  | .next t => .next (if physOf s p = 0xFF then t else settleUse 0xA (physOf s p) s t)
  | o => o

/-- DECODE: one coded unit on its context. -/
def execDecode (p : Nat) (s : State) : Out := decodeRow p 0x02 s

/-- FLUSH: the next picture in output order, with nothing decoded. -/
def execFlush (p : Nat) (s : State) : Out := decodeRow p 0x03 s

end Sys2Proof.Machine
end

