-- ==== Sys2Proof/Machine/Box.lean ====
section
/-! DEFINITION. Box decoding and suppression (09 R268 to R271). -/

namespace Sys2Proof.Machine

/-! ## A correctly rounded exponential (09 R269) -/

/-- exp of an FP32 value, correctly rounded. -/
def boxExp (a : F32) : F32 :=
  match flOf32 a with
  | .nan => 0x7FC00000
  | .inf n => if n then 0 else 0x7F800000
  | .num n m e =>
    if m = 0 then one32
    else if flCompare (.num false m e) (.num false 128 0) = 1 then (if n then 0 else 0x7F800000)
    else
      let v := expFixed m e
      if n then toF32 .nearest (.num false (2 * (2 ^ (2 * expBits) / v) + 1) (-(expBits : Int) - 1))
      else toF32 .nearest (.num false (2 * v + 1) (-(expBits : Int) - 1))

/-! ## BOXSEL (09 Tables CNV-7, CNV-8) -/

/-- The descriptor of a BOXSEL. -/
structure BoxArgs where
  anchors : Nat
  classes : Nat
  perClass : Bool
  keep : Nat
  out : Nat
  threshold : F32
  iou : Nat
  clip : F32
  width : Nat
  height : Nat
  v : List F32
  regAt : Nat
  scoreAt : Nat
  anchorAt : Nat
  outAt : Nat
  resv : Bool

def boxD0 (c : Cmd) : Nat := bits c.w1.toNat 63 56

/-- The descriptor read from the registers. -/
def boxOf (pd : Pond) (c : Cmd) : BoxArgs :=
  let d (i : Nat) : Nat := (getParam pd.core (boxD0 c + i)).toNat
  let f (i hi lo : Nat) : F32 := BitVec.ofNat 32 (bits (d i) hi lo)
  { anchors := bits (d 0) 63 46 + 1, classes := bits (d 0) 45 36 + 1, perClass := bitAt (d 0) 35,
    keep := bits (d 0) 34 21 + 1, out := bits (d 0) 20 9 + 1, threshold := f 1 63 32, iou := bits (d 1) 31 16,
    clip := f 2 63 32, width := bits (d 2) 31 16, height := bits (d 2) 15 0,
    v := [f 3 63 32, f 3 31 0, f 4 63 32, f 4 31 0], regAt := bits (d 5) 47 0, scoreAt := bits (d 6) 47 0,
    anchorAt := bits (d 7) 47 0, outAt := bits (d 8) 47 0,
    resv := decide (bits (d 0) 8 0 ≠ 0) || decide (bits (d 1) 15 0 ≠ 0) ||
      (List.range 4).any fun i => decide (bits (d (5 + i)) 63 48 ≠ 0) }

/-- The runs that a BOXSEL reads. -/
def boxReads (b : BoxArgs) : List Run :=
  [(b.regAt, 16 * b.anchors), (b.scoreAt, 4 * b.anchors * b.classes), (b.anchorAt, 16 * b.anchors)]

/-- The run of its output, at its largest. -/
def boxWrites (b : BoxArgs) : List Run := [(b.outAt, 64 + 32 * b.out)]

/-- The checks of 09 Table CNV-10 on BOXSEL. -/
def boxLegal (s : State) (ph : Nat) (c : Cmd) : Bool :=
  let b := boxOf (pondOf s ph) c
  decide (24 ≤ boxD0 c ∧ boxD0 c ≤ 247) && decide (bits c.w1.toNat 55 0 = 0) && decide (c.w2 = 0 ∧ c.w3 = 0) && !b.resv &&
    decide (1 ≤ b.width ∧ 1 ≤ b.height) && [b.regAt, b.scoreAt, b.anchorAt, b.outAt].all (fun a => decide (a % 64 = 0)) &&
    unitMapped s (boxReads b ++ boxWrites b)

/-- A candidate: anchor, class and score (09 R268). -/
structure Candidate where
  anchor : Nat
  cls : Nat
  score : F32

/-- An FP32 value at a UDA. -/
def f32At (s : State) (uda : Nat) : F32 := BitVec.ofNat 32 (readLe s uda 4)

/-- `a` is at least `b`, neither a NaN. -/
def atLeast (a b : F32) : Bool :=
  !isNan (flOf32 a) && !isNan (flOf32 b) && decide (0 ≤ flCompare (flOf32 a) (flOf32 b))

/-- The candidates of an anchor (09 R268): every passing class, or the highest-scoring one, the lowest on a tie. -/
def anchorCandidates (s : State) (b : BoxArgs) (i : Nat) : List Candidate :=
  let all := (List.range b.classes).map fun k =>
    { anchor := i, cls := k, score := f32At s (b.scoreAt + 4 * (i * b.classes + k)) : Candidate }
  let pass := all.filter fun x => atLeast x.score b.threshold
  if b.perClass then pass
  else
    match pass.foldl (fun (m : Option Candidate) x =>
      match m with
      | none => some x
      | some y => if flCompare (flOf32 x.score) (flOf32 y.score) = 1 then some x else some y) none with
    | none => []
    | some x => [x]

/-- A candidate placed behind every one of at least its score. -/
def insertScore (x : Candidate) : List Candidate → List Candidate
  | [] => [x]
  | y :: ys => if 0 ≤ flCompare (flOf32 y.score) (flOf32 x.score) then y :: insertScore x ys else x :: y :: ys

/-- Candidates by falling score; equal scores keep the order of anchor and class. -/
def byScore (l : List Candidate) : List Candidate := l.foldl (fun acc x => insertScore x acc) []

/-- A decoded box in sixteenths of a pixel with its candidate. -/
structure Box where
  x0 : Int
  y0 : Int
  x1 : Int
  y1 : Int
  cand : Candidate

/-- A coordinate times 16, to the nearest integer with ties to even, clamped to 0 … `limit`; a NaN has no stated
result. -/
def toSixteenths (limit : Nat) (a : F32) : Int :=
  match flOf32 (mul32 a 0x41800000) with
  | .nan => (Config.vectorFn 0x100 a).toNat % (limit + 1)
  | .inf n => if n then 0 else limit
  | .num n m e =>
    let q : Nat :=
      if 0 ≤ e then m * 2 ^ e.toNat
      else
        let d := 2 ^ (-e).toNat
        let r := m % d
        m / d + (if d < 2 * r ∨ (d = 2 * r ∧ m / d % 2 = 1) then 1 else 0)
    if n then 0 else min q limit

/-- The box of a candidate (09 R269). -/
def decodeBox (s : State) (b : BoxArgs) (c : Candidate) : Box :=
  let an (i : Nat) : F32 := f32At s (b.anchorAt + 16 * c.anchor + 4 * i)
  let rg (i : Nat) : F32 := f32At s (b.regAt + 16 * c.anchor + 4 * i)
  let v (i : Nat) : F32 := b.v.getD i 0
  let cx := fma32 (mul32 (rg 0) (v 0)) (an 2) (an 0)
  let cy := fma32 (mul32 (rg 1) (v 1)) (an 3) (an 1)
  let w := mul32 (an 2) (boxExp (min32 (mul32 (rg 2) (v 2)) b.clip))
  let h := mul32 (an 3) (boxExp (min32 (mul32 (rg 3) (v 3)) b.clip))
  let half : F32 := 0x3F000000
  { x0 := toSixteenths (16 * b.width) (fma32 (neg32 half) w cx), x1 := toSixteenths (16 * b.width) (fma32 half w cx),
    y0 := toSixteenths (16 * b.height) (fma32 (neg32 half) h cy), y1 := toSixteenths (16 * b.height) (fma32 half h cy),
    cand := c }

/-- Area of a box in units of 1/256 pixel². -/
def boxArea (b : Box) : Int := (b.x1 - b.x0) * (b.y1 - b.y0)

/-- A kept box suppresses another one (09 R270). -/
def suppresses (a : BoxArgs) (k b : Box) : Bool :=
  let i := max 0 (min k.x1 b.x1 - max k.x0 b.x0) * max 0 (min k.y1 b.y1 - max k.y0 b.y0)
  (!a.perClass || decide (k.cand.cls = b.cand.cls)) && decide ((a.iou : Int) * (boxArea k + boxArea b - i) < i * 65536)

/-- Greedy suppression in order, until `out` boxes are kept (09 R270). -/
def suppress (a : BoxArgs) : List Box → List Box → List Box
  | kept, [] => kept
  | kept, b :: bs =>
    if a.out ≤ kept.length then kept
    else if kept.any fun k => suppresses a k b then suppress a kept bs else suppress a (kept ++ [b]) bs

/-- The 32 bytes of a kept box (09 Table CNV-7). -/
def boxBytes (b : Box) : List Byte :=
  let i32 (x : Int) : List Byte := leBytes (fieldOf 32 x) 4
  i32 b.x0 ++ i32 b.y0 ++ i32 b.x1 ++ i32 b.y1 ++ leBytes b.cand.score.toNat 4 ++ leBytes b.cand.cls 2 ++ leBytes 0 2 ++
    leBytes b.cand.anchor 4 ++ leBytes 0 4

/-- The effect of a BOXSEL; the header's duration is written when the command completes. -/
def runBoxsel (ph : Nat) (q : Queued) (s : State) : Started :=
  let b := boxOf (pondOf s ph) q.cmd
  if unservable s (boxReads b) then ended 0x0B s
  else
    let all := (List.range b.anchors).flatMap (anchorCandidates s b)
    let kept := (byScore all).take b.keep
    let dropped := all.length - kept.length
    let boxes := kept.map (decodeBox s b)
    let live := boxes.filter fun x => decide (x.x1 ≠ x.x0) && decide (x.y1 ≠ x.y0)
    let flat := boxes.length - live.length
    let out := suppress b [] live
    let full := decide (b.out ≤ out.length)
    let head := leBytes out.length 4 ++ leBytes ((if 0 < dropped then 1 else 0) + (if full then 2 else 0)) 1 ++ leBytes 0 3 ++
      leBytes all.length 4 ++ leBytes flat 4 ++ leBytes 0 48
    let bs := head ++ out.flatMap boxBytes
    let s := countBytes false (boxReads b) s
    let s := addObj (addObj (addObj s (key 0x2902 2) all.length) (key 0x2902 3) dropped) (key 0x2902 4) flat
    let s := addObj (if full then addObj s (key 0x2902 6) 1 else s) (key 0x2902 5) out.length
    let s := if unitReadOnly s [(b.outAt, bs.length)] then addObj s (key 0x2A04 0xC) 1
      else deviceAgentWrite (countBytes true [(b.outAt, bs.length)] s) b.outAt bs
    ran (noteReport 0x9 ph b.outAt 0 s)

/-- BOXSEL on the post-processing unit given to the pond; reads that wait for a re-fetch hold it at its head. -/
def execBoxsel (p : Nat) (s : State) : Out :=
  match onHead p 0x9 0x01 (key 0x2902 8) s
      (hasUnit 0x9) (fun s ph q => boxLegal s ph q.cmd) (runBoxsel)
      (fun s ph q => boxReads (boxOf (pondOf s ph) q.cmd)) with
  | .next t => .next (if physOf s p = 0xFF then t else settleUse 0x9 (physOf s p) s t)
  | o => o

end Sys2Proof.Machine
end

