-- ==== Sys2Proof/Machine/Fabric.lean ====
section
/-! DEFINITION. Brooks and messages (12 R334 to R341): flits, replay, lanes, credits, end-to-end acknowledgement, and the
tables of the fabric area. -/

namespace Sys2Proof.Machine

/-! ## Objects and tables -/

/-- Object `sub` of brook `k`'s record (12 Table FAB-11). -/
def brookKey (k sub : Nat) : Nat := key (0x5300 + k) sub

/-- A brook beside its record. -/
def brookOf (s : State) (k : Nat) : Brook := mapFind Brook.down s.fabric.brooks k

/-- The state with a brook replaced. -/
def setBrook (s : State) (k : Nat) (b : Brook) : State :=
  { s with fabric := { s.fabric with brooks := mapPut Brook.down s.fabric.brooks k b } }

/-- State of a brook (0x53kk.01): 0 down, 1 training, 2 full width, 3 spare in use, 4 reduced width. -/
def brookState (s : State) (k : Nat) : Nat := getObj s (brookKey k 1)

/-- A brook carries flits. -/
def brookUp (s : State) (k : Nat) : Bool := decide (2 ≤ brookState s k)

/-- The module's routing ID and the fabric enable (0x2C00.01, .02). -/
def ownId (s : State) : Nat := getObj s (key 0x2C00 1)
def fabricOn (s : State) : Bool := decide (getObj s (key 0x2C00 2) = 1)

/-- The route entry in force of a routing ID and its fields (12 Table FAB-4). -/
def routeOf (s : State) (id : Nat) : Nat := mapFind 0 s.fabric.routes id
def routeAccepts (s : State) (id : Nat) : Bool := bitAt (routeOf s id) 30
def routeClass (s : State) (id : Nat) : Nat := bits (routeOf s id) 19 18

/-- Brooks of a route entry that are in service. -/
def routeBrooks (s : State) (route : Nat) : List Nat := (List.range 18).filter fun k => bitAt route k && brookUp s k

/-- A peer can be reached by a route entry: the module itself, or a valid route with a brook in service (12 R344). -/
def reachableBy (s : State) (id route : Nat) : Bool :=
  decide (id = ownId s) || (bitAt route 31 && decide (routeBrooks s route ≠ []))

/-- A peer can be reached by the tables in force. -/
def reachable (s : State) (id : Nat) : Bool := reachableBy s id (routeOf s id)

/-! ## Flits (12 R335, R336) -/

/-- The head word of a flit with the brook's acknowledgement. -/
def headWord (s : State) (k : Nat) (nak : Bool) (f : Flit) : Nat :=
  f.kind * 2 ^ 62 + f.dst * 2 ^ 50 + ownId s * 2 ^ 38 + f.seq * 2 ^ 26 +
    ((brookOf s k).rxNext + 4095) % 4096 * 2 ^ 14 + 2 ^ 13 + (if nak then 2 ^ 12 else 0) + f.count

/-- A flit put on a brook. -/
def emitFlit (k : Nat) (nak : Bool) (f : Flit) (s : State) : State :=
  let w := headWord s k nak f
  let payload := f.payload ++ List.replicate (240 - f.payload.length) 0
  addObj (send s (.flit k w payload (crc64 (leBytes w 8 ++ payload)))) (brookKey k 4) 1

/-- The next waiting run of flits that may begin or go on, with the others: the message under way first; else the first
whose destination has granted a flit (12 R338, R339). Control flits need no credit. -/
def nextRun (s : State) (b : Brook) : Option (Flit × List Flit × List (List Flit)) :=
  let may (f : Flit) : Bool := decide (f.kind = 3) || decide (0 < mapFind 0 s.fabric.credit f.dst)
  let head (m : List Flit) : Bool :=
    match m with
    | f :: _ => may f
    | [] => false
  let pick := if b.mid then (if (b.waiting.headD []).length = 0 ∨ !head (b.waiting.headD []) then none else some 0)
    else b.waiting.findIdx? head
  match pick with
  | none => none
  | some i =>
    match b.waiting[i]? with
    | some (f :: rest) => some (f, rest, b.waiting.eraseIdx i)
    | _ => none

/-- Waiting flits sent while the brook is up and its replay buffer has room (12 R336). A spare request goes out next after a message
under way, and then the brook carries no flits until its handshake ends (12 R337). -/
def pumpBrook (k : Nat) : Nat → State → State
  | 0, s => s
  | fuel + 1, s =>
    let b := brookOf s k
    if !brookUp s k || (b.asked.isSome && b.holding) || decide (1024 ≤ b.replay.length) then s
    else
      match nextRun s b with
      | none => s
      | some (f, rest, others) =>
        let f := { f with seq := b.txSeq }
        let b := { b with txSeq := (b.txSeq + 1) % 4096, replay := b.replay ++ [f], mid := decide (rest ≠ []),
                          holding := b.asked.isSome && decide (f.kind = 3 ∧ f.count = 3),
                          waiting := if rest = [] then others else rest :: others }
        let s := setBrook s k b
        let s := if f.kind = 3 then s else { s with fabric := { s.fabric with
          credit := mapPut 0 s.fabric.credit f.dst (mapFind 0 s.fabric.credit f.dst - 1) } }
        pumpBrook k fuel (emitFlit k false f s)

/-- Flits that wait on a brook. -/
def waitingFlits (b : Brook) : Nat := (b.waiting.map List.length).sum

/-- Destinations to which data flits wait for credit, on a brook that is up (12 R339). -/
def creditless (s : State) : List Nat :=
  (s.fabric.brooks.flatMap fun e =>
    if brookUp s e.1 then
      e.2.waiting.filterMap fun m =>
        match m with
        | f :: _ => if f.kind ≠ 3 ∧ mapFind 0 s.fabric.credit f.dst = 0 then some f.dst else none
        | [] => none
    else []).dedup

/-- The waits for credit that have ended are counted, once for each destination (0x2C05.05), and those that begin are noted. -/
def noteCredit (s : State) : State :=
  let now := creditless s
  let ended := s.fabric.creditSince.filter fun e => decide (e.2 ≠ 0 ∧ e.1 ∉ now)
  let s := forEach ended (fun e s => addObj s (key 0x2C05 5) (s.now + 1 - e.2)) s
  { s with fabric := { s.fabric with
    creditSince := now.foldl (fun m d => if mapFind 0 m d = 0 then mapPut 0 m d (s.now + 1) else m)
      (s.fabric.creditSince.filter fun e => decide (e.1 ∈ now)) } }

/-- What can be sent on a brook is sent. -/
def pump (k : Nat) (s : State) : State := noteCredit (pumpBrook k (waitingFlits (brookOf s k)) s)

/-- A run of flits queued on a brook. -/
def queueRun (k : Nat) (m : List Flit) (s : State) : State :=
  let b := brookOf s k
  pump k (setBrook s k { b with waiting := b.waiting ++ [m] })

/-- A link-control flit (12 Table FAB-2). -/
def controlFlit (dst sub : Nat) (payload : List Byte) : Flit :=
  { seq := 0, kind := 3, dst := dst, count := sub, payload := payload }

/-- The request for the spare goes before everything but the message under way (12 R337). -/
def askSpare (k lane : Nat) (s : State) : State :=
  let b := brookOf s k
  let m := [controlFlit (getObj s (brookKey k 3) % 4096) 3 [BitVec.ofNat 8 lane]]
  let n := if b.mid then 1 else 0
  pump k (setBrook s k { b with asked := some lane, holding := false, waiting := b.waiting.take n ++ m :: b.waiting.drop n })

/-- A link-control flit to a destination on a brook. -/
def sendControl (k dst sub : Nat) (payload : List Byte) (s : State) : State :=
  queueRun k [controlFlit dst sub payload] s

/-! ## Outgoing messages (12 R338) -/

/-- The 32-byte header of a message (12 Table FAB-3). A read request names its length in `extra`. -/
def messageHeader (m : OutMsg) : List Byte :=
  leBytes m.id 4 ++ leBytes (if m.op = 2 then m.extra else m.data.length) 4 ++ leBytes m.uda 8 ++ leBytes m.op 1 ++
    leBytes m.counter 1 ++ leBytes (if m.poisoned then 1 else 0) 1 ++ leBytes 0 1 ++ leBytes m.transfer 4 ++
    leBytes (if m.op = 4 then m.extra else 0) 8

/-- A list cut into runs of 240 bytes, the payload of a flit; the fuel is its length. -/
def cutPayload : Nat → List Byte → List (List Byte)
  | 0, _ => []
  | _ + 1, [] => []
  | fuel + 1, bs => bs.take 240 :: cutPayload fuel (bs.drop 240)

/-- The flits of a message: one head flit and its body flits. -/
def messageFlits (m : OutMsg) : List Flit :=
  let bs := messageHeader m ++ m.data
  ((cutPayload bs.length bs).zipIdx).map fun e =>
    { seq := 0, kind := if e.2 = 0 then 1 else 2, dst := m.dst, count := e.1.length - 1, payload := e.1 }

/-- The next brook of a route entry in rotation, another one than `old` when there is one. -/
def chooseBrook (s : State) (route : Nat) (old : Option Nat) : Option Nat :=
  let ks := routeBrooks s route
  let ks := if (ks.filter fun k => decide (some k ≠ old)) = [] then ks else ks.filter fun k => decide (some k ≠ old)
  match ks.find? fun k => decide (s.fabric.rotor ≤ k) with
  | some k => some k
  | none => ks.head?

/-- A message put on a brook of its route; without one it waits for its timeout. -/
def dispatchMessage (m : OutMsg) (s : State) : State :=
  match chooseBrook s m.route m.brook with
  | none => { s with fabric := { s.fabric with out := s.fabric.out ++ [{ m with sentAt := s.now, brook := none }] } }
  | some k =>
    let s := { s with fabric := { s.fabric with
      out := s.fabric.out ++ [{ m with sentAt := s.now, brook := some k }], rotor := (k + 1) % 18 } }
    queueRun k (messageFlits m) s

/-- The next message ID toward a destination. -/
def takeId (dst : Nat) (s : State) : Nat × State :=
  let n := mapFind 0 s.fabric.nextMsg dst
  (n, { s with fabric := { s.fabric with nextMsg := mapPut 0 s.fabric.nextMsg dst ((n + 1) % 2 ^ 32) } })

/-- A message with no content. -/
def blankMsg (dst op : Nat) : OutMsg :=
  { dst := dst, id := 0, op := op, uda := 0, counter := 0, poisoned := false, transfer := 0, extra := 0, data := [],
    sentAt := 0, brook := none, route := 0 }

/-- A new message sent by a route entry: its ID and the state. -/
def sendBy (route : Nat) (m : OutMsg) (s : State) : Nat × State :=
  let (id, s) := takeId m.dst s
  (id, dispatchMessage { m with id := id, route := route } (addObj s (key 0x2C05 1) 1))

/-- A new message sent by the tables in force: its ID and the state. -/
def sendMessage (m : OutMsg) (s : State) : Nat × State := sendBy (routeOf s m.dst) m s

/-- Messages that wait for their end-to-end acknowledgement sent again with the same ID on another brook. -/
def resendAll (ms : List OutMsg) (s : State) : State :=
  forEach ms (fun m s =>
    dispatchMessage m (addObj { s with fabric := { s.fabric with out := s.fabric.out.erase m } } (key 0x2C05 3) 1)) s

/-- END_TO_END_TIMEOUT: a message not acknowledged within 0x2C03.01 is sent again (12 R338). -/
def execEndToEndTimeout (dst msg : Nat) (s : State) : Out :=
  .next (match s.fabric.out.find? fun m => decide (m.dst = dst ∧ m.id = msg) with
    | none => s
    | some m => resendAll [m] (advanceTo s (m.sentAt + getObj s (key 0x2C03 1) * usClk)))

/-! ## Lanes and training (12 R336, R337) -/

/-- Lanes in use (0x53kk.02): the logical lanes of the width in use, a replaced one by the spare. -/
def lanesOf (b : Brook) : Nat :=
  let on := match b.half with
    | none => List.range 8
    | some g => (List.range 4).map fun i => 4 * g + i
  on.foldl (fun w i => w + (if b.spared = some i then 2 ^ 8 else 2 ^ i)) 0

/-- The brook's record shows its width, spare and lanes. -/
def showWidth (k : Nat) (s : State) : State :=
  let b := brookOf s k
  let st := if b.half.isSome then 4 else if b.spared.isSome then 3 else 2
  setObj (if brookUp s k then setObj s (brookKey k 1) st else s) (brookKey k 2) (lanesOf b)

/-- Source 54's cause while a brook that has gone down stays down. -/
def followBrooks (s : State) : State :=
  followCause 54 ((List.range 18).any fun k => decide (brookState s k = 0) && decide (getObj s (brookKey k 0xA) ≠ 0)) s

/-- Flits granted to sources by control flits that wait on a brook. -/
def unsentGrants (b : Brook) : List (Nat × Nat) :=
  b.waiting.filterMap fun m =>
    match m with
    | f :: _ => if f.kind = 3 ∧ f.count = 2 then some (f.dst, leValue (f.payload.take 4)) else none
    | [] => none

/-- Flits that a source is to be granted once a brook leads to it. -/
def oweGrant (src n : Nat) (s : State) : State :=
  { s with fabric := { s.fabric with owedGrants := mapPut 0 s.fabric.owedGrants src (mapFind 0 s.fabric.owedGrants src + n) } }

/-- Flits granted to a source (12 R339): when no brook leads to it, or while the module is asleep (17 R467), they stay owed. -/
def grant (src n : Nat) (s : State) : State :=
  if n = 0 then s
  else
    match if 2 ≤ getObj s (key 0x2F00 2) then none else chooseBrook s (routeOf s src) none with
    | none => oweGrant src n s
    | some k =>
      let s := { s with fabric := { s.fabric with
        granted := mapPut 0 s.fabric.granted src (mapFind 0 s.fabric.granted src + n) } }
      sendControl k src 2 (leBytes n 4) s

/-- The grants that are owed, tried again. -/
def payGrants (s : State) : State :=
  forEach s.fabric.owedGrants (fun e s => grant e.1 e.2 s) { s with fabric := { s.fabric with owedGrants := [] } }

/-- A brook goes down (12 R336, R337): counted, sources 53 and 54; its messages and the grants that it had not sent go to another
brook. -/
def brookDown (k : Nat) (s : State) : State :=
  let owed := unsentGrants (brookOf s k)
  let s := forEach owed (fun e s => oweGrant e.1 e.2 { s with fabric := { s.fabric with
    granted := mapPut 0 s.fabric.granted e.1 (mapFind 0 s.fabric.granted e.1 - e.2) } }) s
  let s := setBrook s k { Brook.down with failed := (brookOf s k).failed, spared := (brookOf s k).spared,
                                          half := (brookOf s k).half }
  let s := followBrooks (raise 53 (.brook k) (addObj (setObj s (brookKey k 1) 0) (brookKey k 0xA) 1))
  payGrants (resendAll (s.fabric.out.filter fun m => decide (m.brook = some k)) s)

/-- A brook retrained, with source 53. -/
def retrain (k : Nat) (s : State) : State := raise 53 (.brook k) (retrainBrook k s)

/-- A brook carries no flits while it waits for the confirmation of a spare (12 R337). -/
def brookHeld (b : Brook) : Bool := b.asked.isSome && b.holding

/-- The whole replay buffer sent again; while the brook carries no flits, once it does. -/
def replayAll (k : Nat) (s : State) : State :=
  let b := brookOf s k
  if brookHeld b then setBrook s k { b with owedReplay := true } else forEach b.replay (emitFlit k false) s

/-- A nak (12 R336), an idle flit; while the brook carries no flits, once it does. -/
def sendNak (k dst : Nat) (s : State) : State :=
  let b := brookOf s k
  if brookHeld b then setBrook s k { b with owedNak := true }
  else emitFlit k true { controlFlit dst 1 [] with kind := 0 } s

/-- A brook whose handshake has ended carries flits again: what it held back goes out. -/
def resumeBrook (k : Nat) (s : State) : State :=
  let b := brookOf s k
  let s := setBrook s k { b with owedReplay := false, owedNak := false }
  let s := if b.owedReplay then replayAll k s else s
  pump k (if b.owedNak then sendNak k (getObj s (brookKey k 3) % 4096) s else s)

/-- The brook continues on a group of lanes without a failed one, or is down (12 R337). -/
def narrow (k : Nat) (s : State) : State :=
  let b := brookOf s k
  let free (g : Nat) : Bool := b.failed.all fun l => decide (l / 4 ≠ g)
  if free 0 ∨ free 1 then
    let g := if free 0 then 0 else 1
    resumeBrook k (sendControl k (getObj s (brookKey k 3) % 4096) 5 [BitVec.ofNat 8 g]
      (showWidth k (setBrook s k { b with half := some g, asked := none })))
  else brookDown k s

/-- The spare takes the place of a lane (0x53kk.09). -/
def useSpare (k lane : Nat) (s : State) : State :=
  let b := brookOf s k
  addObj (showWidth k (setBrook s k { b with spared := some lane, asked := none, failed := b.failed.erase lane }))
    (brookKey k 9) 1

/-- SPARE_REQUEST: the peer asks for a lane to be replaced; the spare is put in use and confirmed. -/
def execSpareRequest (k lane : Nat) (s : State) : Out :=
  if k < 18 ∧ lane < 8 then
    .next (if brookUp s k && (brookOf s k).spared.isNone then
      let s := useSpare k lane s
      sendControl k (getObj s (brookKey k 3) % 4096) 4 [BitVec.ofNat 8 lane] s
    else s)
  else .fault .noSuchUnit

/-- SPARE_CONFIRM: the replacement asked for is in use, and the brook carries flits again. -/
def execSpareConfirm (k lane : Nat) (s : State) : Out :=
  if k < 18 ∧ lane < 8 then
    .next (if (brookOf s k).asked = some lane then resumeBrook k (useSpare k lane s) else s)
  else .fault .noSuchUnit

/-- WIDTH_CHANGE: the brook continues on the group that the peer names. -/
def execWidthChange (k group : Nat) (s : State) : Out :=
  if k < 18 ∧ group < 2 then
    .next (if brookUp s k then
      resumeBrook k (showWidth k (setBrook s k { brookOf s k with half := some group, asked := none })) else s)
  else .fault .noSuchUnit

/-- IDENTITY: the peer's routing ID (0x53kk.03). -/
def execIdentity (k peer : Nat) (s : State) : Out :=
  if k < 18 then .next (setObj s (brookKey k 3) (peer % 65536)) else .fault .noSuchUnit

/-! ## Credits and acknowledgements (12 R336, R339) -/

/-- CREDIT_GRANT: flits granted by a destination. -/
def execCreditGrant (k peer flits : Nat) (s : State) : Out :=
  if k < 18 ∧ peer < 4096 then
    let s := { s with fabric := { s.fabric with
      credit := mapPut 0 s.fabric.credit peer (mapFind 0 s.fabric.credit peer + flits) } }
    .next (forUpTo 18 pump s)
  else .fault .noSuchUnit

/-- Flits acknowledged up to a sequence leave the replay buffer. -/
def ackUpTo (k seq : Nat) (s : State) : State :=
  let b := brookOf s k
  match b.replay.findIdx? fun f => decide (f.seq = seq) with
  | none => s
  | some i => pump k (setBrook s k { b with replay := b.replay.drop (i + 1) })

/-- ACK: the highest sequence received in order. -/
def execAck (k seq : Nat) (s : State) : Out :=
  if k < 18 ∧ seq < 4096 then .next (ackUpTo k seq s) else .fault .noSuchUnit

/-- A nak (12 R336): everything after the sequence acknowledged is sent again; the eighth replay in a row of one
sequence retrains the brook. -/
def nakFrom (k seq : Nat) (s : State) : State :=
  let s := ackUpTo k seq s
  let b := brookOf s k
  let first := (seq + 1) % 4096
  let n := if b.replaySeq = first then b.replayCount + 1 else 1
  let s := setBrook s k { b with replaySeq := first, replayCount := n }
  let s := raise 53 (.brook k) (addObj (replayAll k s) (brookKey k 7) 1)
  if 8 ≤ n then retrain k (setBrook s k { brookOf s k with replayCount := 0 }) else s

/-! ## Incoming messages -/

/-- A write from the fabric (12 R340): discarded as a whole when unmapped, read-only or in the latched bank; bytes of the
device's own structures are dropped. The flag tells whether it landed. -/
def fabricWrite (s : State) (uda : Nat) (bs : List Byte) : State × Bool :=
  if !unitMapped s [(uda, bs.length)] then (unmappedAccess s, false)
  else if unitReadOnly s [(uda, bs.length)] then (addObj s (key 0x2A04 0xC) 1, false)
  else if touchesLatched s uda bs.length then (addObj s (key 0x2205 9) 1, false)
  else
    let s := countBytes true [(uda, bs.length)] s
    if (List.range bs.length).any fun i => inFabricState s (uda + i) then
      ((List.range bs.length).foldl (fun s i =>
        if inFabricState s (uda + i) then s else deviceAgentWrite s (uda + i) [bs.getD i 0]) s, true)
    else (deviceAgentWrite s uda bs, true)

/-- The flits of a message of `n` bytes. -/
def flitsOf (n : Nat) : Nat := ceilDiv (32 + n) 240

/-- An end-to-end acknowledgement to a source (12 R338). -/
def acknowledge (src msg : Nat) (s : State) : State :=
  match chooseBrook s (routeOf s src) none with
  | none => s
  | some k => sendControl k src 6 (leBytes msg 4) s

/-- A message from a source: ignored while the fabric is off, discarded as without credit when the source's channel is
not open, acknowledged again when it is a duplicate; else it takes effect and is acknowledged (12 R338, R339). -/
def onMessage (src msg n : Nat) (s : State) (effect : State → State) : Out :=
  if src < 4096 ∧ 1 ≤ n ∧ n ≤ 65536 then
    .next (if !fabricOn s then s
      else if !routeAccepts s src then raise 55 .chip (addObj s (key 0x2C04 6) (flitsOf n))
      else
        let seen := mapFind [] s.fabric.acked src
        if msg % 2 ^ 32 ∈ seen then acknowledge src msg (addObj s (key 0x2C05 4) 1)
        else
          let s := effect (addObj s (key 0x2C05 2) 1)
          acknowledge src msg { s with fabric := { s.fabric with
            acked := mapPut [] s.fabric.acked src ((msg % 2 ^ 32 :: seen).take 65536) } })
  else .fault .noSuchUnit

/-- WRITE: the data land (12 R340). -/
def execWrite (src msg uda : Nat) (data : List Byte) (s : State) : Out :=
  onMessage src msg data.length s fun s => (fabricWrite s uda data).1

/-- A fabric counter gains 1 (12 R345): its copy in the fabric area follows, and a WAITF that it satisfies is done. -/
def bumpCounter (c : Nat) (s : State) : State :=
  let v := mapFind 0 s.fabric.counters c + 1
  let s := { s with fabric := { s.fabric with
    counters := mapPut 0 s.fabric.counters c v,
    cmds := s.fabric.cmds.map fun f =>
      if opcodeOf f.cmd = 0x05 ∧ bits f.cmd.w1.toNat 63 56 = c ∧ f.cmd.w2.toNat ≤ v then { f with done := true } else f } }
  if fabricArea s = 0 then s else deviceWrite s (fabricArea s + 0x8800 + 8 * c) (leBytes v 8)

/-- WRITE_LAST_SIGNAL: the data land, and then the counter gains 1. -/
def execWriteLastSignal (src msg uda counter : Nat) (data : List Byte) (s : State) : Out :=
  if counter < 256 then
    onMessage src msg data.length s fun s =>
      let (s, landed) := fabricWrite s uda data
      if landed then bumpCounter counter s else s
  else .fault .noSuchUnit

/-- A read response to a peer. -/
def respond (peer transfer : Nat) (poisoned : Bool) (data : List Byte) (s : State) : State :=
  (sendMessage { blankMsg peer 3 with transfer := transfer, poisoned := poisoned, data := data } s).2

/-- The answer to a peer's read (10 R280, R302): all ones where unmapped; poisoned without data where no re-fetch can
serve it. -/
def answerPeer (peer transfer uda n : Nat) (s : State) : State :=
  let run : Run := (uda, n)
  if !unitMapped s [run] then respond peer transfer false (List.replicate n 0xFF) (unmappedRead s)
  else if unservable s [run] then respond peer transfer true [] s
  else respond peer transfer false (readBytes s uda n) (countBytes false [run] s)

/-- READ_REQUEST: answered, or held while a re-fetch of its extent runs (10 R302). -/
def execReadRequest (src msg uda len transfer : Nat) (s : State) : Out :=
  onMessage src msg len s fun s =>
    if unitMapped s [(uda, len)] && waitsRefetch s [(uda, len)] then
      let r : WaitingRead :=
        { host := false, uda := uda, len := len, peer := src, msg := msg, transfer := transfer,
          waiting := waitNote s [(uda, len)] }
      { s with tiers := { s.tiers with reads := s.tiers.reads ++ [r] } }
    else answerPeer src transfer uda len s

/-! ## The fabric area (12 R341) -/

/-- A group header read from the area: members, own index, and whether it is defined, whether its fields are in range
and its CRC holds. -/
def fabGroupAt (s : State) (g : Nat) : FabGroup × Bool × Bool :=
  let a := fabricArea s + 0x4000 + 64 * g
  let n := readLe s a 2
  let list := readBytes s (fabricArea s + 0x100000 + g * 8192) (2 * n)
  let flags := readLe s (a + 4) 1
  let members := (List.range n).map fun i => leValue ((list.drop (2 * i)).take 2)
  let own := readLe s (a + 2) 2
  let ok := decide (1 ≤ n ∧ n ≤ 4096) && decide (own < n) && decide (flags < 2) && decide (leValue (readBytes s (a + 5) 55) = 0) &&
    (members.all fun m => decide (m < 4096)) &&
    decide (readLe s (a + 60) 4 = crc32c (readBytes s a 60 ++ list))
  ({ own := own, members := members, worst := 0 }, bitAt flags 0, ok)

/-- The tables of the area, or the result code and the entry first refused (12 R341). -/
def readTables (s : State) : Except (Nat × Nat) (NMap Nat × NMap (Option FabGroup)) :=
  let a := fabricArea s
  let own := ownId s
  if a = 0 ∨ !areaPinned s a 4194304 then .error (4, 0xFFFF)
  else
    let routes : NMap Nat := (List.range 4096).filterMap fun i =>
      let w := readLe s (a + 4 * i) 4
      if w = 0 then none else some (i, w)
    match routes.find? fun e => decide (bits e.2 29 20 ≠ 0) with
    | some e => .error (1, e.1)
    | none =>
      let entry (i : Nat) : Nat := mapFind 0 routes i
      (List.range 256).foldl (fun acc g =>
        match acc with
        | .error e => .error e
        | .ok (r, gs) =>
          let (gr, defined, ok) := fabGroupAt s g
          if !defined then .ok (r, gs)
          else if !ok then .error (1, g)
          else if gr.members.getD gr.own 0xFFFF ≠ own then .error (2, g)
          else if gr.members.any fun m => decide (m ≠ own) && !bitAt (entry m) 31 then .error (3, g)
          else
            let worst := gr.members.foldl (fun w m => max w (bits (entry m) 19 18)) 0
            .ok (r, mapPut none gs g (some { gr with worst := worst }))) (.ok (routes, []))

/-- Flits of the reserve of an ingress channel (0x2C04.02). -/
def reserveFlits (s : State) : Nat := getObj s (key 0x2C04 2) / 256

/-- Flits that a source may still send. -/
def openCredit (s : State) (src : Nat) : Nat := mapFind 0 s.fabric.granted src - mapFind 0 s.fabric.used src

/-- FABRIC_COMMIT at a used edge (12 R341): the tables of the area come into force, newly opened channels get their
reserve, and the counters are shown in the area. -/
def fabricCommit (s : State) : State :=
  if getObj s (key 0x2C01 2) = 0 then s
  else
    let s := setObj s (key 0x2C01 2) 0
    match readTables s with
    | .error (code, e) => setObj (setObj s (key 0x2C01 3) code) (key 0x2C01 4) e
    | .ok (routes, groups) =>
      let opened := (mapKeys routes).filter fun i =>
        decide (i ≠ ownId s) && bitAt (mapFind 0 routes i) 30 && !routeAccepts s i
      let s := { s with fabric := { s.fabric with routes := routes, groups := groups } }
      let s := setObj (setObj s (key 0x2C01 3) 0) (key 0x2C01 4) 0xFFFF
      let s := forUpTo 256 (fun c s =>
        deviceWrite s (fabricArea s + 0x8800 + 8 * c) (leBytes (mapFind 0 s.fabric.counters c) 8)) s
      payGrants (forEach opened (fun i s => grant i (reserveFlits s) s) s)

/-- A group in force. -/
def groupInForce (s : State) (g : Nat) : Option FabGroup := mapFind none s.fabric.groups g

end Sys2Proof.Machine
end

