-- ==== Sys2Proof/Machine/Collective.lean ====
section
/-! DEFINITION. The fabric engine (12 R342 to R351, R354, R355): transfers, collectives, stamps, waits and permutes. How
parts of a collective are numbered on the wire is the model's own (log 20). -/

namespace Sys2Proof.Machine

/-! ## Command words (12 Tables FAB-5, FAB-6) -/

def fabPeer (c : Cmd) : Nat := bits c.w1.toNat 63 52
def fabKind (c : Cmd) : Bool := bitAt c.w1.toNat 51
def fabSignal (c : Cmd) : Bool := bitAt c.w1.toNat 50
def fabCounter (c : Cmd) : Nat := bits c.w1.toNat 49 42
def fabClass (c : Cmd) : Nat := bits c.w1.toNat 41 40
def fabLength (c : Cmd) : Nat := bits c.w1.toNat 39 16 * 64
def fabSource (c : Cmd) : Nat := bits c.w2.toNat 63 22 * 64
def fabDest (c : Cmd) : Nat := bits c.w3.toNat 63 22 * 64
def collD0 (c : Cmd) : Nat := bits c.w1.toNat 63 56
def stampGroup (c : Cmd) : Nat := bits c.w1.toNat 63 56
def stampSlot (c : Cmd) : Nat := bits c.w1.toNat 55 48
def stampClass (c : Cmd) : Nat := bits c.w1.toNat 47 46
def stampKeep (c : Cmd) : Nat := bits c.w2.toNat 63 22 * 64
def waitfCounter (c : Cmd) : Nat := bits c.w1.toNat 63 56

/-- Descriptor registers D0 to D4 of a command. -/
def fabFields (pd : Pond) (c : Cmd) : List Nat :=
  (List.range 5).map fun i => if collD0 c + i < 256 then (getParam pd.core (collD0 c + i)).toNat else 0

/-- COLL: op, dtype, group, class, keep, compare, slot, root, source, destination, S and keep area. -/
def collOp (d : List Nat) : Nat := bits (d.getD 0 0) 63 61
def collDtype (d : List Nat) : Nat := bits (d.getD 0 0) 60 59
def collGroup (d : List Nat) : Nat := bits (d.getD 0 0) 58 51
def collClass (d : List Nat) : Nat := bits (d.getD 0 0) 50 49
def collKeepSet (d : List Nat) : Bool := bitAt (d.getD 0 0) 48
def collCompare (d : List Nat) : Bool := bitAt (d.getD 0 0) 47
def collSlot (d : List Nat) : Nat := bits (d.getD 0 0) 46 39
def collRoot (d : List Nat) : Nat := bits (d.getD 0 0) 38 27
def collSrc (d : List Nat) : Nat := bits (d.getD 1 0) 47 0
def collDst (d : List Nat) : Nat := bits (d.getD 2 0) 47 0
def collSize (d : List Nat) : Nat := bits (d.getD 3 0) 39 0
def collKeep (d : List Nat) : Nat := bits (d.getD 4 0) 47 0

/-- PERMUTE: group, class, block bytes, blocks, buffer, plan, scratch and scratch blocks. -/
def permGroup (d : List Nat) : Nat := bits (d.getD 0 0) 63 56
def permClass (d : List Nat) : Nat := bits (d.getD 0 0) 55 54
def permBlock (d : List Nat) : Nat := bits (d.getD 0 0) 53 30 * 64
def permK (d : List Nat) : Nat := bits (d.getD 0 0) 29 10
def permBuffer (d : List Nat) : Nat := bits (d.getD 1 0) 47 0
def permPlan (d : List Nat) : Nat := bits (d.getD 2 0) 47 0
def permScratch (d : List Nat) : Nat := bits (d.getD 3 0) 47 0
def permQ (d : List Nat) : Nat := bits (d.getD 3 0) 63 48

/-! ## Commands in progress (12 R342) -/

/-- A command in progress whose running record its pond still has. -/
def fabLive (s : State) (f : FabCmd) : Bool := (pondOf s f.pond).running.any fun r => decide (r.id = f.run)

/-- The commands in progress. -/
def fabCmds (s : State) : List FabCmd := s.fabric.cmds.filter (fabLive s)

/-- The state with the commands replaced. -/
def setFabCmds (s : State) (l : List FabCmd) : State := { s with fabric := { s.fabric with cmds := l } }

/-- A command in progress replaced by its pond and running number. -/
def putFab (f : FabCmd) (s : State) : State :=
  setFabCmds s (s.fabric.cmds.map fun g => if g.pond = f.pond ∧ g.run = f.run then f else g)

/-- A command in progress by its pond and running number. -/
def findFab (s : State) (ph run : Nat) : Option FabCmd := s.fabric.cmds.find? fun f => decide (f.pond = ph ∧ f.run = run)

/-- A command that ends with an error exit: it completes without its signal (12 R344). -/
def failFab (f : FabCmd) (cause src sub : Nat) (s : State) : State :=
  let s := setFabCmds s (s.fabric.cmds.filter fun g => !(decide (g.pond = f.pond ∧ g.run = f.run)))
  let s := modPond s f.pond fun pd => { pd with running := pd.running.filter fun r => decide (r.id ≠ f.run) }
  let s := if sub = 0 then s else addObj s (key 0x2C05 sub) 1
  startExit f.pond cause (tagOf f.cmd) (raise src (.pond f.pond) s)

/-- The commands that wait for a peer which no brook of its route reaches any more end with cause 0x0B and source 19 (12 R344). -/
def cutOff (s : State) : State :=
  forEach ((fabCmds s).filter fun f => !f.done) (fun f s =>
    if f.routes.all fun e => reachableBy s e.1 e.2 then s else failFab f 0x0B 19 0xB s) s

/-- BROOK_RETRAIN_DONE (12 R336): the brook carries flits again and names itself to its peer; after three failed attempts
in a row it is down. -/
def execBrookRetrainDone (k : Nat) (ok : Bool) (s : State) : Out :=
  if k < 18 then
    .next (cutOff (if brookState s k ≠ 1 then s
      else if ok then
        let b := brookOf s k
        let s := setBrook s k { b with retrains := 0, replayCount := 0, nakCount := 0, asked := none }
        let s := showWidth k (setObj s (brookKey k 1) 2)
        let s := followBrooks (resumeBrook k (replayAll k s))
        payGrants (sendControl k (getObj s (brookKey k 3) % 4096) 7 (leBytes (ownId s) 2) s)
      else
        let b := brookOf s k
        let s := setBrook s k { b with retrains := b.retrains + 1 }
        if 3 ≤ b.retrains + 1 then brookDown k s else retrain k s))
  else .fault .noSuchUnit

/-- LANE_ERROR_WINDOW (12 R337): a lane above the threshold is replaced by the spare; a further one reduces the width. -/
def execLaneErrorWindow (k lane : Nat) (ratio : F32) (s : State) : Out :=
  if k < 18 ∧ lane ≤ 8 then
    let s := addObj { s with fresh := s.fresh + 1 } (brookKey k 0xB) (Config.correctedSymbols s.fresh)
    let b := brookOf s k
    let high := flCompare (flOf32 ratio) (flOf32 (BitVec.ofNat 32 (getObj s (key 0x2C03 5)))) = 1
    let l := if lane = 8 then b.spared.getD 8 else lane
    .next (cutOff (if !brookUp s k || !decide high || decide (l = 8) || decide (lane ≠ 8 ∧ b.spared = some lane) ||
        decide (l ∈ b.failed) then s
      else
        let s := setBrook s k { b with failed := b.failed ++ [l] }
        if b.spared.isNone && b.asked.isNone && b.half.isNone then askSpare k l s else narrow k s))
  else .fault .noSuchUnit

/-- A command that starts. -/
def newFab (s : State) (l ph : Nat) (c : Cmd) : FabCmd :=
  { pond := ph, logical := l, run := (pondOf s ph).nextId, cmd := c, fields := [], group := 0, seq := 0, own := 0,
    members := [], routes := [], acks := [], pieces := [], parts := [], stamps := [], scratch := [], torn := false, markers := [], round := 0,
    started := s.now, last := none, done := false }

/-- At most 8 commands of a pond and 128 in all are in progress (12 R342). -/
def fabRoom (s : State) (ph : Nat) : Bool :=
  decide ((fabCmds s).length < 128) && decide (((fabCmds s).filter fun f => decide (f.pond = ph)).length < 8)

/-- A command that finds a peer unreachable (12 R344). -/
def unreachableEnd (ph : Nat) (s : State) : Started :=
  ended 0x0B (raise 19 (.pond ph) (addObj s (key 0x2C05 0xB) 1))

/-- A command entered among those in progress. -/
def enterFab (f : FabCmd) (s : State) : Started := ran (setFabCmds s (fabCmds s ++ [f]))

/-- A command that has read runs of the unified range, with the epoch of the pages among them (07 R209). -/
def withReads (epoch : Option Nat) (r : Started) : Started := { r with epochReads := if r.cause.isSome then none else epoch }

/-- A command with the routes of its peers as they are in force at its start (12 R341). -/
def withRoutes (s : State) (peers : List Nat) (f : FabCmd) : FabCmd :=
  { f with routes := peers.foldl (fun m p => mapInsert m p (routeOf s p)) [] }

/-- A message of a command, sent by the routes that it keeps. -/
def sendOf (f : FabCmd) (m : OutMsg) (s : State) : Nat × State := sendBy (mapFind 0 f.routes m.dst) m s

/-- The head of a pond's fabric queue as a command of opcode `op` that `mine` selects; reads that wait for a re-fetch hold
it. -/
def fabRow (p op : Nat) (mine : State → Nat → Queued → Bool) (reads : State → Nat → Queued → List Run) (s : State)
    (valid : State → Nat → Queued → Bool) (effect : Nat → Queued → State → Started) : Out :=
  onHeadIf p 0x8 (key 0x2C05 0xA) (fun s ph q => takesOp op q.cmd && (decide (opcodeOf q.cmd ≠ op) || mine s ph q)) s
    (fun s ph _ => fabRoom s ph) valid effect reads

/-! ## PUT and GET -/

/-- The bytes of a local operand. -/
def localRead (s : State) (ph : Nat) (buf : Bool) (a n : Nat) : List Byte :=
  if buf then bufRead (pondOf s ph) a n else readBytes s a n

/-- A local operand lies in the pond buffer or in mapped extents (12 Table FAB-7). -/
def localFits (s : State) (buf : Bool) (a n : Nat) : Bool :=
  if buf then decide (a + n ≤ bufSize) else unitMapped s [(a, n)]

/-- A peer's class is covered by the declared one; of the module's own entry, only the mask is ignored (12 Table FAB-4). -/
def classCovers (s : State) (peer cls : Nat) : Bool := decide (routeClass s peer ≤ cls)

/-- Offset and length of the messages of a transfer of `n` bytes (12 R338). -/
def messageCuts (n : Nat) : List (Nat × Nat) :=
  (List.range (ceilDiv n 65536)).map fun i => (65536 * i, min 65536 (n - 65536 * i))

/-- The checks of 12 Table FAB-7 on PUT. -/
def putLegal (s : State) (_ : Nat) (q : Queued) : Bool :=
  let c := q.cmd
  decide (bits c.w1.toNat 15 0 = 0) && decide (bits c.w2.toNat 21 0 = 0) && decide (bits c.w3.toNat 21 0 = 0) &&
    decide (64 ≤ fabLength c) && classCovers s (fabPeer c) (fabClass c) &&
    localFits s (fabKind c) (fabSource c) (fabLength c)

/-- The runs that a PUT reads in the unified range. -/
def putReads (c : Cmd) : List Run := if fabKind c then [] else [(fabSource c, fabLength c)]

/-- The message of a PUT at an offset. -/
def putMessage (s : State) (ph : Nat) (c : Cmd) (last : Bool) (cut : Nat × Nat) : OutMsg :=
  { blankMsg (fabPeer c) (if last && fabSignal c then 1 else 0) with
    uda := fabDest c + cut.1, counter := if last && fabSignal c then fabCounter c else 0,
    transfer := s.fabric.nextTransfer, data := localRead s ph (fabKind c) (fabSource c + cut.1) cut.2 }

/-- The effect of a PUT: its messages are sent, the signalling last one once every other is acknowledged; a PUT to the
module itself lands at once. -/
def runPut (l ph : Nat) (q : Queued) (s : State) : Started :=
  let c := q.cmd
  if !reachable s (fabPeer c) then unreachableEnd ph s
  else if unservable s (putReads c) then ended 0x0B s
  else
    let cuts := messageCuts (fabLength c)
    let ms := cuts.zipIdx.map fun e => putMessage s ph c (decide (e.2 + 1 = cuts.length)) e.1
    let s := countBytes false (putReads c) { s with fabric := { s.fabric with
      nextTransfer := (s.fabric.nextTransfer + 1) % 2 ^ 32 } }
    let f := withRoutes s [fabPeer c] (newFab s l ph c)
    let ep := epochOf s ph (putReads c)
    withReads ep <| if fabPeer c = ownId s then
      let (s, ok) := ms.foldl (fun a m =>
        let (s, landed) := fabricWrite a.1 m.uda m.data
        (s, a.2 && landed)) (s, true)
      enterFab { f with done := true } (if fabSignal c && ok then bumpCounter (fabCounter c) s else s)
    else
      let held := fabSignal c && decide (1 < ms.length)
      let (s, ids) := (if held then ms.dropLast else ms).foldl (fun a m =>
        let (id, s) := sendOf f m a.1
        (s, a.2 ++ [(m.dst, id)])) (s, ([] : List (Nat × Nat)))
      enterFab { f with acks := ids, last := if held then ms.getLast? else none } s

/-- PUT (12 Table FAB-5). -/
def execPut (p : Nat) (s : State) : Out :=
  fabRow p 0x01 (fun _ _ _ => true) (fun _ _ q => putReads q.cmd) s putLegal (runPut p)

/-- The checks of 12 Table FAB-7 on GET. -/
def getLegal (s : State) (_ : Nat) (q : Queued) : Bool :=
  let c := q.cmd
  decide (bits c.w1.toNat 50 42 = 0) && decide (bits c.w1.toNat 15 0 = 0) && decide (bits c.w2.toNat 21 0 = 0) &&
    decide (bits c.w3.toNat 21 0 = 0) && decide (64 ≤ fabLength c) && classCovers s (fabPeer c) (fabClass c) &&
    localFits s (fabKind c) (fabDest c) (fabLength c)

/-- Bytes landed in a local operand; in a read-only extent nothing is written (10 R286). -/
def localWrite (ph : Nat) (buf : Bool) (a : Nat) (bs : List Byte) (s : State) : State :=
  if buf then modPond s ph fun pd => bufWrite pd a bs
  else if unitReadOnly s [(a, bs.length)] then addObj s (key 0x2A04 0xC) 1
  else deviceAgentWrite (countBytes true [(a, bs.length)] s) a bs

/-- Read requests sent, each with a transfer ID of its own: the IDs and the state. -/
def sendReads (f : FabCmd) (peer : Nat) (cuts : List (Nat × Nat)) (s : State) : List Nat × State :=
  cuts.foldl (fun a cut =>
    let t := a.2.fabric.nextTransfer
    let s := { a.2 with fabric := { a.2.fabric with nextTransfer := (t + 1) % 2 ^ 32 } }
    (a.1 ++ [t], (sendOf f { blankMsg peer 2 with uda := cut.1, transfer := t, extra := cut.2 } s).2)) ([], s)

/-- The effect of a GET; a GET from the module itself reads at once. -/
def runGet (l ph : Nat) (q : Queued) (s : State) : Started :=
  let c := q.cmd
  let run : Run := (fabSource c, fabLength c)
  if !reachable s (fabPeer c) then unreachableEnd ph s
  else
    let f := withRoutes s [fabPeer c] (newFab s l ph c)
    if fabPeer c = ownId s then
      (if !unitMapped s [run] then
        enterFab { f with done := true }
          (localWrite ph (fabKind c) (fabDest c) (List.replicate run.2 0xFF) (unmappedRead s))
      else if unservable s [run] then ended 0x0B s
      else withReads (epochOf s ph [run]) (enterFab { f with done := true }
        (localWrite ph (fabKind c) (fabDest c) (readBytes s run.1 run.2) (countBytes false [run] s))))
    else
      let (ids, s) := sendReads f (fabPeer c) ((messageCuts run.2).map fun e => (run.1 + e.1, e.2)) s
      enterFab { f with pieces := ids, scratch := ids.zipIdx.map fun e => (e.1, e.2 + 1) } s

/-- GET (12 Table FAB-5). -/
def execGet (p : Nat) (s : State) : Out :=
  fabRow p 0x02 (fun _ _ _ => true)
    (fun s _ q => if fabPeer q.cmd = ownId s then [(fabSource q.cmd, fabLength q.cmd)] else []) s getLegal (runGet p)

/-! ## WAITF (12 R345) -/

/-- WAITF (12 Table FAB-5): done once its counter has reached the value. -/
def execWaitf (p : Nat) (s : State) : Out :=
  fabRow p 0x05 (fun _ _ _ => true) (fun _ _ _ => []) s
    (fun _ _ q => decide (bits q.cmd.w1.toNat 55 0 = 0) && decide (bits q.cmd.w3.toNat 63 32 = 0))
    fun ph q s =>
      enterFab { newFab s p ph q.cmd with
        done := decide (q.cmd.w2.toNat ≤ mapFind 0 s.fabric.counters (waitfCounter q.cmd)) } s

/-- The collective timeout in clk (0x2C03.02). -/
def collectiveTimeout (s : State) : Nat := getObj s (key 0x2C03 2) * msClk

/-- The instant at which a WAITF times out. -/
def waitfEnd (s : State) (f : FabCmd) : Nat :=
  let t := bits f.cmd.w3.toNat 31 0
  f.started + if t = 0 then collectiveTimeout s else t

/-- WAITF_TIMEOUT: of the WAITF commands of a pond that still wait, the one whose timeout expires first ends (12 R345). -/
def execWaitfTimeout (p : Nat) (s : State) : Out :=
  onPond p s fun ph =>
    let fs := (fabCmds s).filter fun f => decide (f.pond = ph) && decide (opcodeOf f.cmd = 0x05) && !f.done
    match fs.find? fun f => fs.all fun g => decide (waitfEnd s f ≤ waitfEnd s g) with
    | none => s
    | some f => failFab f 0x0B 20 9 (advanceTo s (waitfEnd s f))

/-! ## Stamps (12 R349 to R351) -/

/-- The address of a stamp in a fabric area. -/
def stampAt (s : State) (slot : Nat) : Nat := fabricArea s + 0x8000 + 8 * slot

/-- The module's own stamp; 0 without an area. -/
def ownStamp (s : State) (slot : Nat) : Nat := if mappedAt s (stampAt s slot) then readLe s (stampAt s slot) 8 else 0

/-- Stamps agree with the keep area: each equals its entry of 8 bytes, and is even (12 R350, R351). -/
def stampsMatch (s : State) (keep : Nat) (stamps : List Nat) : Bool :=
  stamps.zipIdx.all fun e => decide (e.1 = readLe s (keep + 8 * e.2) 8) && decide (e.1 % 2 = 0)

/-- The stamps of a command's members in order. -/
def stampList (f : FabCmd) : List Nat := (List.range f.members.length).map fun i => mapFind 0 f.stamps i

/-- A stale shard (12 R350): cause 0x0A, source 18. -/
def staleEnd (f : FabCmd) (s : State) : State := failFab f 0x0A 18 8 s

/-- STAMPCHK ends when every stamp has been read (12 R351). -/
def finishStamps (f : FabCmd) (s : State) : State :=
  if stampsMatch s (stampKeep f.cmd) (stampList f) then putFab { f with done := true } s else staleEnd f s

/-- The group is defined, and its worst class covered (12 Table FAB-7). -/
def groupCovered (s : State) (g cls : Nat) : Bool :=
  match groupInForce s g with
  | none => false
  | some gr => decide (gr.worst ≤ cls)

/-- Members of a group in force. -/
def groupSize (s : State) (g : Nat) : Nat :=
  match groupInForce s g with
  | none => 0
  | some gr => gr.members.length

/-- Every member of a group can be reached. -/
def groupReachable (s : State) (g : Nat) : Bool :=
  match groupInForce s g with
  | none => false
  | some gr => gr.members.all (reachable s)

/-- A command of a group: members and own index. -/
def inGroup (s : State) (g : Nat) (f : FabCmd) : FabCmd :=
  match groupInForce s g with
  | none => f
  | some gr => withRoutes s gr.members { f with group := g, own := gr.own, members := gr.members }

/-- The checks of 12 Table FAB-7 on STAMPCHK. -/
def stampLegal (s : State) (_ : Nat) (q : Queued) : Bool :=
  let c := q.cmd
  decide (bits c.w1.toNat 45 0 = 0) && decide (bits c.w2.toNat 21 0 = 0) && decide (c.w3 = 0) &&
    groupCovered s (stampGroup c) (stampClass c) && unitMapped s [(stampKeep c, 8 * groupSize s (stampGroup c))]

/-- The effect of STAMPCHK (12 R351): the stamps of every member are read, the peers' from the same place of their
fabric areas. -/
def runStampchk (l ph : Nat) (q : Queued) (s : State) : Started :=
  let c := q.cmd
  if !groupReachable s (stampGroup c) then unreachableEnd ph s
  else
    let f := inGroup s (stampGroup c) (newFab s l ph c)
    let f := { f with stamps := mapPut 0 [] f.own (ownStamp s (stampSlot c)) }
    let (f, s) := (List.range f.members.length).foldl (fun (a : FabCmd × State) i =>
      if i = f.own then a
      else
        let (ids, s) := sendReads a.1 (f.members.getD i 0) [(stampAt a.2 (stampSlot c), 8)] a.2
        ({ a.1 with pieces := a.1.pieces ++ ids,
                    scratch := ids.foldl (fun m t => mapInsert m t (i + 1)) a.1.scratch }, s)) (f, s)
    let r := enterFab f s
    if f.pieces = [] then
      (if stampsMatch s (stampKeep c) (stampList f) then enterFab { f with done := true } s
       else ended 0x0A (raise 18 (.pond ph) (addObj s (key 0x2C05 8) 1)))
    else r

/-- STAMPCHK (12 Table FAB-5). -/
def execStampchk (p : Nat) (s : State) : Out :=
  fabRow p 0x04 (fun _ _ _ => true) (fun _ _ _ => []) s stampLegal (runStampchk p)

/-! ## Collectives (12 R346 to R350) -/

/-- Bytes of a part: S / n, all of S for a broadcast. -/
def partBytes (f : FabCmd) : Nat :=
  if collOp f.fields = 3 then collSize f.fields else collSize f.fields / max f.members.length 1

/-- Messages of a part. -/
def cutsOfPart (f : FabCmd) : Nat := ceilDiv (partBytes f) 65536

/-- The number of cut `j` of part `c`: phase 0 passes sums along the members, phase 1 hands out finished parts. -/
def pieceNo (f : FabCmd) (phase c j : Nat) : Nat := (phase * f.members.length + c) * cutsOfPart f + j

/-- Length of cut `j` of a part. -/
def cutLength (f : FabCmd) (j : Nat) : Nat := min 65536 (partBytes f - 65536 * j)

/-- The member before and after an index in the order of the group. -/
def prevOf (f : FabCmd) (i : Nat) : Nat := (i + f.members.length - 1) % f.members.length
def nextOf (f : FabCmd) (i : Nat) : Nat := (i + 1) % f.members.length

/-- The pieces that a member awaits. -/
def awaited (f : FabCmd) : List Nat :=
  let n := f.members.length
  let all (phase : Nat) (cs : List Nat) : List Nat :=
    cs.flatMap fun c => (List.range (cutsOfPart f)).map (pieceNo f phase c)
  let others := (List.range n).filter fun c => decide (c ≠ f.own)
  let chain := (List.range n).filter fun c => decide (c ≠ prevOf f f.own)
  match collOp f.fields with
  | 0 => all 0 chain ++ all 1 others
  | 1 => all 0 chain
  | 3 => if f.own = collRoot f.fields then [] else all 1 [collRoot f.fields]
  | _ => all 1 others

/-- The stamp check that a part carries (12 R349): the 32 low bits of the readings before and after it was sent; bit 0, which an odd
reading sets, is also set where the two differ (DESIGN CHOICE, log 59). -/
def stampCheck (before after : Nat) : Nat :=
  let w := after % 2 ^ 32
  if before = after ∨ w % 2 = 1 then w else w + 1

/-- A part sent to a member, cut by cut, with the stamp as it was at the start and as it is now. -/
def sendPiece (f : FabCmd) (dest phase c j : Nat) (data : List Byte) (s : State) : State :=
  let stamp := if collOp f.fields = 2 then stampCheck (mapFind 0 f.stamps f.own) (ownStamp s (collSlot f.fields)) else 0
  (sendOf f { blankMsg (f.members.getD dest 0) 4 with
    uda := f.group * 2 ^ 40 + pieceNo f phase c j, extra := f.seq % 2 ^ 32 + stamp * 2 ^ 32, data := data } s).2

/-- The member's own bytes of cut `j` of part `c` in its source. -/
def ownCut (s : State) (f : FabCmd) (c j : Nat) : List Byte :=
  readBytes s (collSrc f.fields + c * partBytes f + 65536 * j) (cutLength f j)

/-- Bytes of cut `j` landed at part place `c` of the destination. -/
def landCut (f : FabCmd) (c j : Nat) (data : List Byte) (s : State) : State :=
  localWrite f.pond false (collDst f.fields + c * partBytes f + 65536 * j) data s

/-- The sum of two runs by dtype (12 R347): FP32, or BF16 formed in FP32 and rounded to BF16. -/
def addRuns (dtype : Nat) (a b : List Byte) : List Byte :=
  if dtype = 0 then addBytes a b
  else
    (List.range (b.length / 2)).flatMap fun i =>
      let half (l : List Byte) : F32 := BitVec.ofNat 32 (leValue ((l.drop (2 * i)).take 2) * 65536)
      leBytes (toBf16 .nearest (flOf32 (add32 (half a) (half b)))) 2

/-- The end of a collective: stamps kept or compared (12 R350), or done. -/
def finishColl (f : FabCmd) (s : State) : State :=
  let d := f.fields
  if collOp d ≠ 2 then addObj (putFab { f with done := true } s) (key 0x2C05 6) 1
  else
    let stamps := stampList f
    let stale := (collCompare d && !stampsMatch s (collKeep d) stamps) || f.torn
    let s := if collKeepSet d then
        deviceWrite s (collKeep d) (stamps.flatMap fun x => leBytes x 8)
      else s
    if stale then staleEnd f s else addObj (putFab { f with done := true } s) (key 0x2C05 6) 1

/-- A finished cut of the member's own part handed to every other member. -/
def handOut (f : FabCmd) (j : Nat) (data : List Byte) (s : State) : State :=
  forEach ((List.range f.members.length).filter fun i => decide (i ≠ f.own))
    (fun i s => sendPiece f i 1 f.own j data s) s

/-- The destination of a collective that has failed is undefined (12 R346): every byte is a free value. -/
def spoilDestination (f : FabCmd) (s : State) : State :=
  let n := if collOp f.fields = 1 then partBytes f else collSize f.fields
  if opcodeOf f.cmd ≠ 0x03 ∨ unitReadOnly s [(collDst f.fields, n)] = true then s
  else
    let k := s.fresh
    deviceAgentWrite { s with fresh := k + n } (collDst f.fields)
      ((List.range n).map fun i => (Config.freeWord (k + i)).setWidth 8)

/-- A part disagrees with the command (12 R346). -/
def collFault (f : FabCmd) (s : State) : State := spoilDestination f (failFab f 0x0B 21 7 s)

/-- A piece taken by a collective: summed and passed on, or landed. A part whose stamp is odd, or differs between its cuts, is torn (12
R349). -/
def takePart (f : FabCmd) (src stamp piece : Nat) (data : List Byte) (s : State) : State :=
  let n := f.members.length
  let j := piece % max (cutsOfPart f) 1
  let pc := piece / max (cutsOfPart f) 1
  let phase := pc / max n 1
  let c := pc % max n 1
  let from_ := if phase = 0 then prevOf f f.own else c
  if piece ∉ f.pieces ∨ data.length ≠ cutLength f j ∨ f.members.getD from_ 0 ≠ src then collFault f s
  else
    let f := { f with pieces := f.pieces.erase piece,
                      stamps := if collOp f.fields = 2 then mapInsert f.stamps c stamp else f.stamps,
                      torn := f.torn || (decide (collOp f.fields = 2) && (decide (stamp % 2 = 1) ||
                        ((f.stamps.any fun e => decide (e.1 = c)) && decide (mapFind 0 f.stamps c ≠ stamp)))) }
    let s := putFab f s
    let s :=
      if phase = 0 then
        let sum := addRuns (collDtype f.fields) data (ownCut s f c j)
        if c = f.own then
          let s := landCut f (if collOp f.fields = 1 then 0 else c) j sum s
          if collOp f.fields = 0 then handOut f j sum s else s
        else sendPiece f (nextOf f f.own) 0 c j sum s
      else landCut f (if collOp f.fields = 3 then 0 else c) j data s
    if f.pieces = [] then finishColl f s else s

/-- Parts that arrived before their command, in order of arrival. -/
def takeEarly (ph run : Nat) (take : FabCmd → EarlyPart → State → State) (s : State) : State :=
  match findFab s ph run with
  | none => s
  | some f0 =>
    let mine := s.fabric.early.filter fun e => decide (e.group = f0.group ∧ e.seq = f0.seq)
    let s := { s with fabric := { s.fabric with early := s.fabric.early.filter fun e => decide (e ∉ mine) } }
    forEach mine (fun e s =>
      match findFab s ph run with
      | none => s
      | some f => take f e s) s

/-- The runs of a collective's operands: read, and written. -/
def collReads (f : FabCmd) : List Run :=
  let d := f.fields
  let n := match collOp d with
    | 2 => partBytes f
    | 3 => if f.own = collRoot d then collSize d else 0
    | _ => collSize d
  if n = 0 then [] else [(collSrc d, n)]
def collWrites (f : FabCmd) : List Run :=
  let d := f.fields
  [(collDst d, if collOp d = 1 then partBytes f else collSize d)] ++
    (if collKeepSet d || collCompare d then [(collKeep d, 8 * f.members.length)] else [])

/-- The command that a COLL would be. -/
def collOf (s : State) (l ph : Nat) (c : Cmd) : FabCmd :=
  let d := fabFields (pondOf s ph) c
  inGroup s (collGroup d) { newFab s l ph c with fields := d }

/-- The checks of 12 Table FAB-7 on COLL. -/
def collLegal (l : Nat) (s : State) (ph : Nat) (q : Queued) : Bool :=
  let c := q.cmd
  let f := collOf s l ph c
  let d := f.fields
  let n := f.members.length
  let word (i : Nat) : Bool := decide (bits (d.getD i 0) 63 48 = 0) && decide (d.getD i 0 % 64 = 0)
  decide (24 ≤ collD0 c ∧ collD0 c ≤ 251) && decide (bits c.w1.toNat 55 0 = 0) && decide (c.w2 = 0 ∧ c.w3 = 0) &&
    decide (bits (d.getD 0 0) 26 0 = 0) && decide (collOp d ≤ 4 ∧ collDtype d ≤ 2) &&
    (decide (collDtype d ≠ 2) || decide (2 ≤ collOp d)) && groupCovered s (collGroup d) (collClass d) &&
    (decide (collOp d ≠ 3) || decide (collRoot d < n)) && word 1 && word 2 && word 4 &&
    decide (bits (d.getD 3 0) 63 40 = 0) && decide (1 ≤ collSize d) && decide (collSize d % (256 * max n 1) = 0) &&
    unitMapped s (collReads f ++ collWrites f)

/-- The effect of a COLL: its place in the group's sequence, its first sends, its own output, and the parts that have
arrived already. -/
def runColl (l ph : Nat) (q : Queued) (s : State) : Started :=
  let f := collOf s l ph q.cmd
  let d := f.fields
  if !groupReachable s (collGroup d) then unreachableEnd ph s
  else if unservable s (collReads f) then ended 0x0B s
  else
    let g := collGroup d
    let seq := mapFind 0 s.fabric.seqs g
    let s := { s with fabric := { s.fabric with seqs := mapPut 0 s.fabric.seqs g (seq + 1) } }
    let f := { f with seq := seq, pieces := if f.members.length ≤ 1 then [] else awaited f,
                      stamps := if collOp d = 2 then mapInsert [] f.own (ownStamp s (collSlot d)) else [],
                      torn := decide (collOp d = 2) && decide (ownStamp s (collSlot d) % 2 = 1) }
    let ep := epochOf s ph (collReads f)
    let s := countBytes false (collReads f) s
    let r := withReads ep (enterFab f s)
    let s := r.state
    let js := List.range (cutsOfPart f)
    let others := (List.range f.members.length).filter fun i => decide (i ≠ f.own)
    let s :=
      if f.members.length ≤ 1 then forEach js (fun j s => landCut f 0 j (ownCut s f 0 j) s) s
      else
        match collOp d with
        | 0 | 1 => forEach js (fun j s => sendPiece f (nextOf f f.own) 0 (prevOf f f.own) j (ownCut s f (prevOf f f.own) j) s) s
        | 2 => forEach js (fun j s => landCut f f.own j (ownCut s f 0 j) (handOut f j (ownCut s f 0 j) s)) s
        | 3 =>
          if f.own = collRoot d then
            forEach js (fun j s => landCut f 0 j (ownCut s f 0 j) (handOut f j (ownCut s f 0 j) s)) s
          else s
        | _ =>
          let s := forEach others (fun m s => forEach js (fun j s => sendPiece f m 1 f.own j (ownCut s f m j) s) s) s
          forEach js (fun j s => landCut f f.own j (ownCut s f f.own j) s) s
    { r with state := s }

/-- The effect of a COLL with the parts that came early, once it is among the running commands. -/
def settleColl (ph run : Nat) (s : State) : State :=
  match findFab s ph run with
  | none => s
  | some f =>
    if f.done then s
    else if f.pieces = [] then finishColl f s
    else takeEarly ph run (fun f e s => takePart f e.src e.stamp e.part e.data s) s

/-- A COLL of op `op` at the head of a pond's queue. -/
def collRow (p op : Nat) (s : State) : Out :=
  let run := (pondOf s (physOf s p)).nextId
  match fabRow p 0x03
      (fun s ph q =>
        let d := fabFields (pondOf s ph) q.cmd
        decide (collOp d = op) || decide (5 ≤ collOp d))
      (fun s ph q => collReads (collOf s p ph q.cmd)) s (collLegal p) (runColl p) with
  | .next t => .next (if physOf s p = 0xFF ∨ (pondOf t (physOf s p)).nextId = run then t else settleColl (physOf s p) run t)
  | o => o

/-- ALLREDUCE (12 R347). -/
def execAllreduce (p : Nat) (s : State) : Out := collRow p 0 s

/-- REDUCESCATTER. -/
def execReducescatter (p : Nat) (s : State) : Out := collRow p 1 s

/-- ALLGATHER (12 R347, R349, R350). -/
def execAllgather (p : Nat) (s : State) : Out := collRow p 2 s

/-- BROADCAST. -/
def execBroadcast (p : Nat) (s : State) : Out := collRow p 3 s

/-- ALLTOALL. -/
def execAlltoall (p : Nat) (s : State) : Out := collRow p 4 s

/-! ## PERMUTE (12 R354, R355) -/

/-- An entry of the plan: destination member and slot. -/
def planEntry (s : State) (f : FabCmd) (m j : Nat) : Nat × Nat :=
  let w := readLe s (permPlan f.fields + (m * permK f.fields + j) * 8) 8
  (bits w 63 52, bits w 19 0)

/-- The bytes of the plan. -/
def planBytes (s : State) (f : FabCmd) : List Byte :=
  readBytes s (permPlan f.fields) (f.members.length * permK f.fields * 8)

/-- The plan maps onto every member and slot exactly once (12 R354). -/
def planBijective (s : State) (f : FabCmd) : Bool :=
  let k := permK f.fields
  let all := (List.range f.members.length).flatMap fun m => (List.range k).map fun j => planEntry s f m j
  (all.all fun e => decide (e.1 < f.members.length ∧ e.2 < k)) && decide (all.Nodup)

/-- The member's scratch need (12 R354). -/
def scratchNeed (s : State) (f : FabCmd) : Nat :=
  let k := permK f.fields
  ((List.range k).map fun j =>
    ((List.range f.members.length).map fun m =>
      ((List.range (j + 1)).filter fun i =>
        decide ((planEntry s f m i).1 = f.own) && decide (j ≤ (planEntry s f m i).2)).length).sum).foldl max 0

/-- Messages of a block. -/
def cutsOfBlock (f : FabCmd) : Nat := ceilDiv (permBlock f.fields) 65536

/-- The piece of a sender's round-`j` block, cut `i`; number 0 is the exchange of the plan's CRC. -/
def roundPiece (f : FabCmd) (j i : Nat) : Nat := 1 + j * cutsOfBlock f + i

/-- The key under which a piece of a member is awaited. -/
def permKey (piece m : Nat) : Nat := piece * 4096 + m

/-- The number of the marker of round `j` that member `o` has begun (12 R355). -/
def markerPiece (f : FabCmd) (j o : Nat) : Nat := 1 + permK f.fields * cutsOfBlock f + j * f.members.length + o

/-- A marker handed to the next member. -/
def passMarker (f : FabCmd) (piece : Nat) (s : State) : State :=
  (sendOf f { blankMsg (f.members.getD (nextOf f f.own) 0) 4 with
    uda := f.group * 2 ^ 40 + piece, extra := f.seq % 2 ^ 32, data := [1] } s).2

/-- The member's block of the round is acknowledged: its own marker sets out around the group, and the markers of others that waited for
this go on (12 R355 step 3). -/
def passMarkers (ph run : Nat) (s : State) : State :=
  match findFab s ph run with
  | none => s
  | some f =>
    if f.acks ≠ [] ∨ f.members.length ≤ 1 then s
    else
      forEach (markerPiece f f.round f.own :: f.markers) (passMarker f) (putFab { f with markers := [] } s)

/-- A piece sent to a member; its acknowledgement is awaited. -/
def sendPerm (ph run dest piece : Nat) (data : List Byte) (s : State) : State :=
  match findFab s ph run with
  | none => s
  | some f =>
    let dst := f.members.getD dest 0
    let (id, s) := sendOf f { blankMsg dst 4 with uda := f.group * 2 ^ 40 + piece, extra := f.seq % 2 ^ 32, data := data } s
    match findFab s ph run with
    | none => s
    | some f => putFab { f with acks := f.acks ++ [(dst, id)] } s

/-- The place where a block with destination slot `d` lands in round `j`: its slot when it lies below `j`, else a scratch
block, the lowest free one. -/
def landingPlace (f : FabCmd) (j d : Nat) : FabCmd × Nat :=
  if d < j then (f, permBuffer f.fields + d * permBlock f.fields)
  else
    match f.scratch.find? fun e => decide (e.2 = d + 1) with
    | some e => (f, permScratch f.fields + e.1 * permBlock f.fields)
    | none =>
      let i := ((List.range (permQ f.fields)).find? fun i => decide (mapFind 0 f.scratch i = 0)).getD 0
      ({ f with scratch := mapPut 0 f.scratch i (d + 1) }, permScratch f.fields + i * permBlock f.fields)

/-- A cut of the round's block from member `m` landed. -/
def landBlock (ph run m i : Nat) (data : List Byte) (s : State) : State :=
  match findFab s ph run with
  | none => s
  | some f =>
    let (f, a) := landingPlace f f.round (planEntry s f m f.round).2
    localWrite ph false (a + 65536 * i) data (putFab f s)

/-- A round begins: the member sends its slot, or lands it when it stays, and awaits the blocks of the others and the markers of the
round. -/
def startRound (ph run : Nat) (s : State) : State :=
  match findFab s ph run with
  | none => s
  | some f =>
    let j := f.round
    let (m, _) := planEntry s f f.own j
    let is := List.range (cutsOfBlock f)
    let cut (s : State) (i : Nat) : List Byte :=
      readBytes s (permBuffer f.fields + j * permBlock f.fields + 65536 * i) (min 65536 (permBlock f.fields - 65536 * i))
    let due := ((List.range f.members.length).filter fun x => decide (x ≠ f.own) && decide ((planEntry s f x j).1 = f.own)).flatMap
      fun x => is.map fun i => permKey (roundPiece f j i) x
    let marks := if f.members.length ≤ 1 then []
      else (List.range f.members.length).map fun o => permKey (markerPiece f j o) (prevOf f f.own)
    let s := putFab { f with pieces := due ++ marks } s
    if m = f.own then passMarkers ph run (forEach is (fun i s => landBlock ph run f.own i (cut s i) s) s)
    else forEach is (fun i s => sendPerm ph run m (roundPiece f j i) (cut s i) s) s

/-- A permute fault (12 R354). -/
def permFault (f : FabCmd) (s : State) : State := failFab f 0x0B 22 0 s

/-- The member's own checks of the plan. -/
def permChecks (s : State) (f : FabCmd) : Bool :=
  planBijective s f && decide (scratchNeed s f ≤ permQ f.fields)

/-- What the members exchange: the plan's CRC-32C and whether the own checks hold. -/
def permToken (s : State) (f : FabCmd) : List Byte :=
  leBytes (crc32c (planBytes s f)) 4 ++ [if permChecks s f then 1 else 0]

/-- A part taken by a PERMUTE: a token, a marker, or a cut of the round's block; one of a later round waits. A marker of another member goes
on at once when the own block is acknowledged. -/
def takePerm (f : FabCmd) (src piece : Nat) (data : List Byte) (s : State) : State :=
  let m := f.members.idxOf src
  let k := permKey piece m
  if k ∉ f.pieces then
    { s with fabric := { s.fabric with early := s.fabric.early ++
      [{ src := src, group := f.group, seq := f.seq, stamp := 0, part := piece, data := data }] } }
  else
    let s := putFab { f with pieces := f.pieces.erase k } s
    if piece = 0 then
      (if data ≠ leBytes (crc32c (planBytes s f)) 4 ++ [1] ∨ !permChecks s f then permFault f s
       else if f.pieces.erase k = [] then startRound f.pond f.run s
       else s)
    else if 1 + permK f.fields * cutsOfBlock f ≤ piece then
      (if piece = markerPiece f f.round f.own then s
       else if f.acks = [] then passMarker f piece s
       else putFab { f with pieces := f.pieces.erase k, markers := f.markers ++ [piece] } s)
    else landBlock f.pond f.run m ((piece - 1) % max (cutsOfBlock f) 1) data s

/-- The early parts of a PERMUTE tried again: the tokens among them, which may begin round 0, and then its blocks. -/
def settlePerm (ph run : Nat) (s : State) : State :=
  let again (s : State) : State := takeEarly ph run (fun f e s => takePerm f e.src e.part e.data s) s
  again (again s)

/-- The command that a PERMUTE would be. -/
def permOf (s : State) (l ph : Nat) (c : Cmd) : FabCmd :=
  let d := fabFields (pondOf s ph) c
  inGroup s (permGroup d) { newFab s l ph c with fields := d }

/-- The checks of 12 Table FAB-7 on PERMUTE. -/
def permLegal (l : Nat) (s : State) (ph : Nat) (q : Queued) : Bool :=
  let c := q.cmd
  let f := permOf s l ph c
  let d := f.fields
  decide (24 ≤ collD0 c ∧ collD0 c ≤ 252) && decide (bits c.w1.toNat 55 0 = 0) && decide (c.w2 = 0 ∧ c.w3 = 0) &&
    decide (bits (d.getD 0 0) 9 0 = 0) && decide (1 ≤ permBlock d ∧ 1 ≤ permK d) &&
    groupCovered s (permGroup d) (permClass d) && decide (bits (d.getD 1 0) 63 48 = 0 ∧ d.getD 1 0 % 64 = 0) &&
    decide (bits (d.getD 2 0) 63 48 = 0 ∧ d.getD 2 0 % 64 = 0) && decide (permScratch d % 64 = 0) &&
    unitMapped s [(permBuffer d, permK d * permBlock d), (permPlan d, f.members.length * permK d * 8),
      (permScratch d, permQ d * permBlock d)]

/-- The effect of a PERMUTE: its place in the group's sequence, and the token sent to every other member. -/
def runPermute (l ph : Nat) (q : Queued) (s : State) : Started :=
  let f := permOf s l ph q.cmd
  let d := f.fields
  let reads : List Run := [(permBuffer d, permK d * permBlock d), (permPlan d, f.members.length * permK d * 8)]
  if !groupReachable s (permGroup d) then unreachableEnd ph s
  else if unservable s reads then ended 0x0B s
  else
    let g := permGroup d
    let seq := mapFind 0 s.fabric.seqs g
    let s := { s with fabric := { s.fabric with seqs := mapPut 0 s.fabric.seqs g (seq + 1) } }
    let others := (List.range f.members.length).filter fun i => decide (i ≠ f.own)
    if others = [] ∧ !permChecks s f then ended 0x0B (raise 22 (.pond ph) s)
    else
      let f := { f with seq := seq, pieces := others.map (permKey 0) }
      let r := withReads (epochOf s ph reads) (enterFab f s)
      let tok := permToken s f
      let s := forEach others (fun i s =>
        (sendOf f { blankMsg (f.members.getD i 0) 4 with uda := g * 2 ^ 40, extra := seq % 2 ^ 32, data := tok } s).2) r.state
      { r with state := if others = [] then startRound ph f.run s else s }

/-- PERMUTE (12 R354). -/
def execPermute (p : Nat) (s : State) : Out :=
  let run := (pondOf s (physOf s p)).nextId
  match fabRow p 0x06 (fun _ _ _ => true)
      (fun s ph q =>
        let f := permOf s p ph q.cmd
        [(permBuffer f.fields, permK f.fields * permBlock f.fields)]) s (permLegal p) (runPermute p) with
  | .next t => .next (if physOf s p = 0xFF ∨ (pondOf t (physOf s p)).nextId = run then t else settlePerm (physOf s p) run t)
  | o => o

/-- The scratch block of the round's slot moved into it (12 R355 step 4). -/
def settleRound (f : FabCmd) (s : State) : State :=
  let j := f.round
  match f.scratch.find? fun e => decide (e.2 = j + 1) with
  | none => s
  | some e =>
    let n := permBlock f.fields
    let s := localWrite f.pond false (permBuffer f.fields + j * n) (readBytes s (permScratch f.fields + e.1 * n) n) s
    putFab { f with scratch := mapPut 0 f.scratch e.1 0 } s

/-- PERMUTE_ROUND_END: once the own block is acknowledged, every block due has come and the markers have passed around the group, the
round ends; the last one ends the command (12 R355). -/
def execPermuteRoundEnd (p : Nat) (s : State) : Out :=
  onPond p s fun ph =>
    match (fabCmds s).find? fun f => decide (f.pond = ph) && decide (opcodeOf f.cmd = 0x06) && !f.done with
    | none => s
    | some f =>
      if f.acks ≠ [] ∨ f.pieces ≠ [] then s
      else
        let s := settleRound f s
        match findFab s ph f.run with
        | none => s
        | some f =>
          if permK f.fields ≤ f.round + 1 then
            addObj (putFab { f with round := f.round + 1, done := true } s) (key 0x2C05 0xC) 1
          else settlePerm ph f.run (startRound ph f.run (putFab { f with round := f.round + 1 } s))

/-- COLLECTIVE_TIMEOUT: the oldest collective or permute of a pond that has not completed ends (12 R346). -/
def execCollectiveTimeout (p : Nat) (s : State) : Out :=
  onPond p s fun ph =>
    match (fabCmds s).find? fun f =>
        decide (f.pond = ph) && decide (opcodeOf f.cmd = 0x03 ∨ opcodeOf f.cmd = 0x06) && !f.done with
    | none => s
    | some f =>
      spoilDestination f (failFab f 0x0B 21 7 (addObj (advanceTo s (f.started + collectiveTimeout s)) (key 0x2C05 9) 1))

/-! ## What arrives for the commands -/

/-- A read response taken by its command: a poisoned one ends it and writes nothing (10 R302); the last one completes
it. -/
def takeResponse (f : FabCmd) (transfer : Nat) (poisoned : Bool) (data : List Byte) (s : State) : State :=
  if poisoned then
    let s := setFabCmds s (s.fabric.cmds.filter fun g => !(decide (g.pond = f.pond ∧ g.run = f.run)))
    let s := modPond s f.pond fun pd => { pd with running := pd.running.filter fun r => decide (r.id ≠ f.run) }
    startExit f.pond 0x0B (tagOf f.cmd) s
  else if opcodeOf f.cmd = 0x04 then
    let m := mapFind 0 f.scratch transfer - 1
    let f := { f with pieces := f.pieces.erase transfer, stamps := mapPut 0 f.stamps m (leValue data) }
    if f.pieces = [] then finishStamps f (putFab f s) else putFab f s
  else
    let f := { f with pieces := f.pieces.erase transfer, parts := mapPut [] f.parts (mapFind 0 f.scratch transfer) data }
    if f.pieces = [] then
      putFab { f with done := true }
        (forEach f.parts (fun e s => localWrite f.pond (fabKind f.cmd) (fabDest f.cmd + 65536 * (e.1 - 1)) e.2 s) s)
    else putFab f s

/-- READ_RESPONSE (12 R338). -/
def execReadResponse (src msg transfer : Nat) (poisoned : Bool) (data : List Byte) (s : State) : Out :=
  onMessage src msg (max data.length 1) s fun s =>
    match (fabCmds s).find? fun f => decide (transfer ∈ f.pieces) && decide (opcodeOf f.cmd = 0x02 ∨ opcodeOf f.cmd = 0x04) with
    | none => s
    | some f => takeResponse f transfer poisoned data s

/-- COLLECTIVE_PART (12 R346): taken by the command of its group and sequence, or kept for it. -/
def execCollectivePart (src msg group seq stamp part : Nat) (data : List Byte) (s : State) : Out :=
  onMessage src msg data.length s fun s =>
    match (fabCmds s).find? fun f => decide (f.group = group ∧ f.seq % 2 ^ 32 = seq % 2 ^ 32) && !f.done &&
        decide (opcodeOf f.cmd = 0x03 ∨ opcodeOf f.cmd = 0x06) with
    | some f => if opcodeOf f.cmd = 0x06 then settlePerm f.pond f.run (takePerm f src part data s) else takePart f src stamp part data s
    | none =>
      let next := mapFind 0 s.fabric.seqs group
      if next % 2 ^ 32 ≤ seq % 2 ^ 32 then
        { s with fabric := { s.fabric with early := s.fabric.early ++
          [{ src := src, group := group, seq := seq, stamp := stamp, part := part, data := data }] } }
      else s

/-- A message acknowledged by its destination: a PUT whose messages are all acknowledged sends its signalling one, or is
done (12 R345). -/
def ackedBy (dst id : Nat) (f : FabCmd) (s : State) : State :=
  if (dst, id) ∉ f.acks then s
  else
    let f := { f with acks := f.acks.erase (dst, id) }
    if f.acks = [] ∧ opcodeOf f.cmd = 0x06 then passMarkers f.pond f.run (putFab f s)
    else if f.acks ≠ [] ∨ opcodeOf f.cmd ≠ 0x01 then putFab f s
    else
      match f.last with
      | some m =>
        let (id', s) := sendOf f m s
        putFab { f with last := none, acks := [(m.dst, id')] } s
      | none => putFab { f with done := true } s

/-- END_TO_END_ACK (12 R338). -/
def execEndToEndAck (k peer msg : Nat) (s : State) : Out :=
  if k < 18 ∧ peer < 4096 then
    let s := { s with fabric := { s.fabric with
      out := s.fabric.out.filter fun m => !(decide (m.dst = peer ∧ m.id = msg)) } }
    .next (forEach (fabCmds s) (ackedBy peer msg) s)
  else .fault .noSuchUnit

/-! ## FLIT_RECEIVE (12 R335, R336, R338, R339) -/

/-- The state that an outcome leaves; unchanged after a stop. -/
def stateAfter (s : State) (o : Out) : State :=
  match o with
  | .next t => t
  | _ => s

/-- A whole message taken from its bytes. -/
def takeMessage (src : Nat) (bs : List Byte) (s : State) : State :=
  let u (i n : Nat) : Nat := leValue ((bs.drop i).take n)
  let data := (bs.drop 32).take (u 4 4)
  stateAfter s (match u 16 1 with
    | 0 => execWrite src (u 0 4) (u 8 6) data s
    | 1 => execWriteLastSignal src (u 0 4) (u 8 6) (u 17 1) data s
    | 2 => execReadRequest src (u 0 4) (u 8 6) (u 4 4) (u 20 4) s
    | 3 => execReadResponse src (u 0 4) (u 20 4) (bitAt (u 18 1) 0) data s
    | 4 => execCollectivePart src (u 0 4) (u 13 1) (u 24 4) (u 28 4) (u 8 5) data s
    | _ => .next s)

/-- Bytes of a message still to come, from what has come. -/
def messageLength (bs : List Byte) : Nat :=
  let op := leValue ((bs.drop 16).take 1)
  let poisoned := bitAt (leValue ((bs.drop 18).take 1)) 0
  if op = 2 ∨ (op = 3 ∧ poisoned) then 32 else 32 + leValue ((bs.drop 4).take 4)

/-- A control flit's effect (12 Table FAB-2). -/
def takeControl (k src sub : Nat) (payload : List Byte) (s : State) : State :=
  let u (n : Nat) : Nat := leValue (payload.take n)
  stateAfter s (match sub with
    | 2 => execCreditGrant k src (u 4) s
    | 3 => execSpareRequest k (u 1) s
    | 4 => execSpareConfirm k (u 1) s
    | 5 => execWidthChange k (u 1) s
    | 6 => execEndToEndAck k src (u 4) s
    | 7 => execIdentity k (u 2) s
    | _ => .next s)

/-- Bytes held in the ingress pool (0x2C04.04). -/
def poolOccupancy (s : State) : Nat :=
  (s.fabric.brooks.map fun e => ceilDiv e.2.bytes.length 240 * 256).sum

/-- Bytes of a channel in the ingress pool: what has come of the messages under way from its source. -/
def channelUse (s : State) (src : Nat) : Nat :=
  (s.fabric.brooks.map fun e => if e.2.source = src then ceilDiv e.2.bytes.length 240 * 256 else 0).sum

/-- Bytes of the shared overflow that channels hold or have been granted beyond their reserves (12 R339). -/
def overflowUsed (s : State) : Nat :=
  ((mapKeys s.fabric.granted).map fun i => channelUse s i + 256 * openCredit s i - getObj s (key 0x2C04 2)).sum

/-- The shared overflow: the pool less the reserves of the open channels. -/
def overflowSize (s : State) : Nat :=
  100663296 - ((mapKeys s.fabric.routes).filter fun i => decide (i ≠ ownId s) && routeAccepts s i).length * getObj s (key 0x2C04 2)

/-- A data flit taken into the pool: without credit it is discarded and counted; its bytes join the message under way,
which takes effect when it is whole, and the flits that drain are granted again (12 R339). -/
def takeData (k src kind n : Nat) (payload : List Byte) (s : State) : State :=
  if !routeAccepts s src || decide (openCredit s src = 0) then raise 55 .chip (addObj s (key 0x2C04 6) 1)
  else
    let s := { s with fabric := { s.fabric with used := mapPut 0 s.fabric.used src (mapFind 0 s.fabric.used src + 1) } }
    let b := brookOf s k
    let bs := (if kind = 1 then [] else b.bytes) ++ payload.take (n + 1)
    let s := setBrook s k { b with bytes := bs, source := src }
    let s := setObj s (key 0x2C04 5) (max (getObj s (key 0x2C04 5)) (poolOccupancy s))
    let use := channelUse s src
    let s := if getObj s (key 0x2C04 2) < 2 * use ∧ use < getObj s (key 0x2C04 3) ∧ openCredit s src < 256 ∧
        overflowUsed s + 65536 ≤ overflowSize s then grant src 256 s else s
    if bs.length < messageLength bs ∨ bs.length < 32 then s
    else
      let s := setBrook s k { brookOf s k with bytes := [] }
      grant src (reserveFlits s - openCredit s src) (takeMessage src bs s)

/-- A gap or a failed check answered with a nak (12 R336); the eighth in a row for one sequence, which its sender replays each time,
retrains the brook at this end too. -/
def answerNak (k src : Nat) (s : State) : State :=
  let b := brookOf s k
  let n := if b.nakSeq = b.rxNext then b.nakCount + 1 else 1
  let s := sendNak k src (setBrook s k { b with nakSeq := b.rxNext, nakCount := n % 8 })
  if n = 8 then retrain k s else s

/-- FLIT_RECEIVE: a flit that fails its CRC or comes out of order is answered by a nak; one in order is acknowledged and
takes effect. -/
def execFlitReceive (k : Nat) (head : W64) (payload : List Byte) (crc : W64) (s : State) : Out :=
  if k < 18 then
    let w := head.toNat
    let payload := (payload ++ List.replicate (240 - payload.length) 0).take 240
    let kind := bits w 63 62
    let dst := bits w 61 50
    let src := bits w 49 38
    let seq := bits w 37 26
    let nak (s : State) : State := answerNak k src s
    .next (if !brookUp s k || !fabricOn s then s
      else if crc64 (leBytes w 8 ++ payload) ≠ crc.toNat then
        nak (addObj (addObj { s with fresh := s.fresh + 1 } (brookKey k 6) 1) (brookKey k 0xC) (Config.badCodewords s.fresh))
      else
        let s := addObj s (brookKey k 5) 1
        let s := if bitAt w 13 then
            (if bitAt w 12 then nakFrom k (bits w 25 14) s else ackUpTo k (bits w 25 14) s)
          else s
        let want := (brookOf s k).rxNext
        if kind = 0 then s
        else if seq ≠ want then (if (want + 4096 - seq) % 4096 ≤ 2048 then s else nak s)
        else
          let s := setBrook s k { brookOf s k with rxNext := (want + 1) % 4096, nakCount := 0 }
          let s := if kind = 3 ∧ bits w 7 0 = 1 then s else sendControl k src 1 [] s
          if kind = 3 then takeControl k src (bits w 7 0) payload s
          else if dst ≠ ownId s then s
          else takeData k src kind (bits w 7 0) payload s)
  else .fault .noSuchUnit

/-! ## Errors and re-fetches that answer waiting reads (10 R302 to R304) -/

/-- A host read answered: all ones when it is unmapped, or poisoned where no re-fetch can serve it (10 R280, R302). -/
def answerHost (uda n : Nat) (s : State) : State :=
  let run : Run := (uda, n)
  if !unitMapped s [run] then send (unmappedRead s) (.hostData false (List.replicate n 0xFF))
  else if unservable s [run] then send s (.hostData true (List.replicate n 0xFF))
  else send (countBytes false [run] s) (.hostData false (readBytes s uda n))

/-- Reads from outside that no longer wait for a re-fetch are answered. -/
def serveReads (s : State) : State :=
  let go := s.tiers.reads.filter fun r => !(unitMapped s [(r.uda, r.len)] && waitsRefetch s [(r.uda, r.len)])
  let s := { s with tiers := { s.tiers with reads := s.tiers.reads.filter fun r => decide (r ∉ go) } }
  forEach go (fun r s =>
    let s := countWait r.waiting s
    if r.host then answerHost r.uda r.len s else answerPeer r.peer r.transfer r.uda r.len s) s

/-- Accesses that waited for a channel or for the link go on where they can (10 R301). -/
def wakeAccesses (s : State) : State := serveReads (flushWrites s)

/-- SHORE_RETRAIN_DONE: the retrain ends and is counted, and accesses that waited for the channel go on (10 R307). -/
def execShoreRetrainDone (c : Nat) (s : State) : Out :=
  if c < 64 then
    let m := memberOf s 1 c
    .next (if m.retraining then wakeAccesses (setMember s 1 c { m with retraining := false, recals := m.recals + 1 }) else s)
  else .fault .noSuchUnit

/-- UNCORRECTABLE_MEMORY_ERROR: the extent of a byte is poisoned (10 R302). -/
def execUncorrectableMemoryError (uda : Nat) (s : State) : Out :=
  .next (match extentIndex uda with
    | none => s
    | some e => if (extentOf s e).tier < 3 then serveReads (poisonExtent uda e s) else s)

/-- REFETCH_DONE (10 R303): the backup has been copied; the map switches, poison clears, the old frame is withheld and
the waiting reads complete; a copy from or into tier 2 waits while the link is down (16 R438). -/
def execRefetchDone (e : Nat) (s : State) : Out :=
  .next (match s.tiers.refetches.find? fun r => decide (r.extent = e) with
    | none => serveReads s
    | some r =>
      let x := extentOf s e
      let b := extentOf s r.backup
      if !linkUp s ∧ (b.tier = 2 ∨ x.tier = 2) then s
      else
      let s := { s with tiers := { s.tiers with refetches := s.tiers.refetches.erase r } }
      if 3 ≤ b.tier ∨ b.poisoned = true then
        serveReads (refetchFailed e (markFrame s x.tier r.toFrame false))
      else
        let s := addObj (addObj (copyFrame s b.tier b.frame x.tier r.toFrame) (key 0x2A05 (2 * b.tier + 1)) extentSize)
          (key 0x2A05 (2 * x.tier + 2)) extentSize
        let s := setExtent s e { x with frame := r.toFrame, poisoned := false }
        let s := match objectOfExtent s e with
          | none => s
          | some o => setObject s o { objOf s o with
              poisoned := (objExtents (objOf s o)).any fun k => (extentOf s k).poisoned }
        retryEvacuation (serveReads (addObj s (key 0x2A04 7) 1)))

end Sys2Proof.Machine
end

