-- ==== Sys2Proof/Machine/Serving.lean ====
section
/-! DEFINITION. Dispatch on a gang (06 R174 to R176), the end of sections (RET), error exits and their handlers
(06 R179 to R181), and the measured cost of steps (02 R45). -/

namespace Sys2Proof.Machine

/-! ## Dispatch (06 R174) -/

/-- The work-list index of a group that begins with an entry: in its own bank for a carried one (06 Table CMD-4). -/
def groupIndex (gg : Gang) (e : WorkEntry) : Nat :=
  match gg.carryRunning, gg.carry with
  | true, some k => k.index
  | _, _ => gg.firstIndex + e.position

/-- The tick of the epoch in which a gang's group reads pages (07 R209): that of its admission. -/
def groupEpoch (s : State) (gg : Gang) : Nat :=
  match gg.carryRunning, gg.carry with
  | true, some k => k.tick
  | _, _ => tickNumber s

/-- A section of the gang's group starts on one member. -/
def startMember (g l : Nat) (kind : SectionKind) (s : State) : State :=
  let gg := gangOf s g
  match gg.group with
  | [] => s
  | e :: _ =>
    let flags := (if e.fallback then 1 else 0) + (if gg.carryRunning then 2 else 0) +
      (if kind = .prologue then 4 else 0)
    startSection l (physOf s l) kind e.program (groupEpoch s gg) gg.carryRunning
      { group := gg.group.map (·.future), flags := flags, index := groupIndex gg e, cause := 0, tag := 0 } s

/-- A pond's serving clk charged to the class of the basin to which the group's first future is bound (13 R357). -/
def chargeServing (sec : Section) (s : State) : State :=
  match sec.group with
  | [] => s
  | f :: _ => addObj s (key (0x5100 + basinClass s.tree (futureOf s f).basin) 2) (s.now - sec.started)

/-- The serving section of a pond is charged up to now (13 R357). -/
def chargeSection (ph : Nat) (s : State) : State :=
  match (pondOf s ph).core.sect with
  | none => s
  | some sec =>
    if sec.task then s
    else modCore (chargeServing sec s) ph fun k => { k with sect := some { sec with started := s.now } }

/-- What a program has pushed on a pond and not started leaves the queues, and its tap is disarmed: its run is over. -/
def withdraw (ph program : Nat) (s : State) : State :=
  let s := modPond (settlePond ph s) ph fun pd =>
    let pd := dropProgram pd program
    { pd with core := { pd.core with stalled := none } }
  match (pondOf s ph).tap with
  | none => s
  | some t =>
    if t.program = program then
      countIdle ph 0x3 (modPond s ph fun pd =>
        { pd with tap := none, running := pd.running.filter fun r => decide (r.id ≠ t.id) })
    else s

/-- CARRIED_STEP_RUN (06 R174, R155, R159; 02 R57): every member runs the step section of the carried step's program from
its entry point, under P11 [1]; what its first run had pushed and not started is withdrawn, since the second run pushes it
again (DEDUCED, log 13). A member that takes its error exit, or that has returned, does not run it again. -/
def runCarried (g : Nat) (s : State) : State :=
  let gg := gangOf s g
  if !gg.carryRunning || decide (gg.group = []) then s
  else
    let again := (gangMembers s g).filter fun l =>
      let k := (pondOf s (physOf s l)).core
      k.sect.isSome && k.exiting.isNone && !k.exited
    let program := (gg.group.head?.map (·.program)).getD 0
    forEach again (fun l s => startMember g l .step (withdraw (physOf s l) program (chargeSection (physOf s l) s))) s

/-- The program of the carried step that a gang runs, as the list of what has run in the tick (06 R174). -/
def carriedProgram (gg : Gang) : List Nat :=
  match gg.carryRunning, gg.group with
  | true, e :: _ => [e.program]
  | _, _ => []

/-- SERVING_DISPATCH_START (06 R174, 13 R368): at S + A_sw, or when the switch-out has ended, rank 0 begins dispatch.
A switch-out still in progress makes it wait; the wait is counted and sets source 17. -/
def execServingDispatchStart (g : Nat) (s : State) : Out :=
  if g < logicalCount s then
    .next (
      let gg := gangOf s g
      if !s.tick.latched || gg.dispatched || s.tick.committed then s
      else
        let due := s.tick.lastEdge + serveStart + gg.aSw
        let s := advanceTo s due
        if servingGang s g && (runOf s g).isSome then
          (if gg.dispatchAt = 0 then
             raise 17 (.pond (physOf s g))
               (addObj (setGang s g { gg with dispatchAt := due + 1 }) (key 0x2D03 5) 1)
           else s)
        else
          let s := countDispatchWait g false s
          let s := setGang s g { gangOf s g with dispatched := true }
          let s := modCore s (physOf s g) fun k => { k with ran := carriedProgram gg }
          runCarried g s)
  else .fault .noSuchUnit

/-- The entries that a gang still has to fetch: those of the tick before, else those of the tick in progress. -/
def toFetch (gg : Gang) : List WorkEntry := if gg.late = [] then gg.entries.drop gg.next else gg.late

/-- The group that comes next (06 R174): the longest run of one program and fallback flag, at most the batch width. -/
def groupAt (s : State) (gg : Gang) : List WorkEntry :=
  match toFetch gg with
  | [] => []
  | e :: es =>
    let same (x : WorkEntry) : Bool := decide (x.program = e.program) && (x.fallback == e.fallback) && !x.dropped
    e :: (es.takeWhile same).take (max (dirOf s e.program).batch 1 - 1)

/-- The leading entries that get status 0x0B without running (06 R176, 10 R304). -/
def skipDropped (g : Nat) (s : State) : State :=
  let gg := gangOf s g
  let lost := (gg.entries.drop gg.next).takeWhile (·.dropped)
  giveAbortedAll raise g (lost.map (·.future)) (setGang s g { gg with next := gg.next + lost.length })

/-- A gang can fetch: dispatch has begun, nothing runs on any member, and the serving window is open. -/
def mayFetchGroup (s : State) (g : Nat) : Bool :=
  let gg := gangOf s g
  gg.dispatched && decide (gg.group = []) && gangQuiet s g && !s.tick.committed

/-- A gang that has fetched a group: the group leaves the entries of the tick, or those of the tick before, whose steps run
as carried ones (02 R57). -/
def fetched (gg : Gang) (group : List WorkEntry) (now : Nat) : Gang :=
  let gg := { gg with group := group, sectionStart := now, offset := 0, costFlagged := false }
  match gg.late, gg.carry, group with
  | _ :: _, some k, e :: _ =>
    { gg with late := gg.late.drop group.length, carryRunning := true,
              carry := some { k with index := k.first + e.position, base := 0 } }
  | _, _, _ => { gg with next := gg.next + group.length }

/-- The marks of a fetched group (02 R55, 06 R174): the entries are fetched, switched ones deliver with status 0x03. -/
def markFetched (g : Nat) (group : List WorkEntry) (s : State) : State :=
  let s := setGang s g (fetched (gangOf s g) group s.now)
  forEach group (fun e s =>
    let r := stepOf s e.future
    setStep s e.future { r with status := if e.switched then 3 else r.status, selector := e.program }) s

/-- GROUP_FETCH (06 R174, R175; 02 R55): rank 0 fetches the next group and every member starts its prologue, the first
time the program runs on the gang in the tick, or its step section; a step of the tick before, carried over unfetched, runs
its step section (02 R57). -/
def execGroupFetch (g t : Nat) (s : State) : Out :=
  if g < logicalCount s then
    .next (
      if !mayFetchGroup s g then s
      else
        let s := skipDropped g (advanceTo s t)
        let gg := gangOf s g
        match groupAt s gg with
        | [] => s
        | e :: es =>
          let ph := physOf s g
          let fresh := e.program ∉ (pondOf s ph).core.ran
          let s := markFetched g (e :: es) s
          let s := traceInfo ph 0x0001 0 0 0
            (groupIndex (gangOf s g) e % 2 ^ 16 + (es.length + 1) * 2 ^ 16 + e.future * 2 ^ 32) none s
          let s := modCore s ph fun k => { k with ran := if fresh then e.program :: k.ran else k.ran }
          let prologue := match imageOn s ph e.program with
            | some i => fresh && !(gangOf s g).carryRunning && decide (i.prologue ≠ 0xFFFF)
            | none => false
          let missing := (gangMembers s g).any fun l => (residentOf (pondOf s (physOf s l)) e.program).isNone
          let s := if missing then addObj s (key 0x2601 0xA) 1 else s
          let s := forEach (gangMembers s g) (fun l s => modPond s (physOf s l) forgetWeights) s
          forEach (gangMembers s g) (fun l s => startMember g l (if prologue then .prologue else .step) s) s)
  else .fault .noSuchUnit

/-! ## The end of a section (06 R160 RET, R174; 13 R357) -/

/-- The section of a pond ends. -/
def leaveSection (ph : Nat) (s : State) : State :=
  modCore s ph fun k => { k with sect := none, exiting := none }

/-- The group of a gang is complete when no member runs it any more (06 R174): its steps are done. -/
def endGroup (g : Nat) (s : State) : State :=
  let gg := gangOf s g
  if gg.group = [] ∨ !gangQuiet s g then s
  else
    let s := forEach gg.group (fun e s =>
      setStep s e.future { stepOf s e.future with done := true, finish := s.now }) s
    setGang s g { gg with group := [], carryRunning := false, finish := s.now }

/-- A task whose program took an error exit becomes faulted once every rank has ended (13 R371). -/
def taskFaulted (g : Nat) (s : State) : State :=
  if !gangQuiet s g then s
  else
    let s := chargeTask g false s
    match runOf s g with
    | none => s
    | some r =>
      addObj (setTaskState (setTaskField (setRun s g none) r.task 6 1 0) r.task 5) (key 0x2D03 9) 1

/-- The RET of a background section on one rank (13 R363, R364); the step counts when every rank has returned. -/
def returnTask (g ph : Nat) (s : State) : State :=
  let s := modCore s ph fun k => { k with sect := none, stopped := some 0, stopKind := 1 }
  if allStopped s g && gangQuiet s g then
    match runOf s g with
    | none => s
    | some r =>
      let s := setTaskField s r.task 64 8 (taskField s r.task 64 8 + 1)
      addObj s (key (0x5100 + taskField s r.task 2 1) 6) 1
  else s

/-- The code that RET's trace record gives a section kind (06 Table CMD-14). -/
def kindCode : SectionKind → Nat
  | .step => 0
  | .prologue => 1
  | .error => 2
  | .background => 3

/-- RET (06 R160): after a fence the section returns to the dispatcher. -/
def execRet (p : Nat) (s : State) : Out :=
  controlAt p 0x0B s fun ph sec c s =>
    if !fenced (pondOf s ph) sec.program then s
    else
      let g := rank0Of s p
      let s := signalDone ph c (traceInfo ph 0x0002 0 (tagOf c) 0 (kindCode sec.kind) (some sec.program) s)
      if (pondOf s ph).core.sect.isNone || (pondOf s ph).core.exiting.isSome then s
      else
      match sec.kind with
      | .background => returnTask g ph s
      | .error =>
        if sec.task then taskFaulted g (leaveSection ph s) else chargeServing sec (leaveSection ph s)
      | .prologue => startMember g p .step (chargeServing sec (leaveSection ph s))
      | .step => endGroup g (chargeServing sec (leaveSection ph s))

/-- COST_EXCEEDED (02 R45): the elapsed clk of the step on a gang passes its certified cost. It counts once for each entry of
the group, and sets the source of the rank-0 pond (DESIGN CHOICE, log 56). -/
def execCostExceeded (g : Nat) (s : State) : Out :=
  if g < logicalCount s then
    .next (
      let gg := gangOf s g
      if gg.group = [] ∨ gg.costFlagged then s
      else
        let cost := (gg.group.map (·.charge)).foldl (· + ·) 0
        let s := advanceTo s (gg.sectionStart + cost + 1)
        raise 13 (.pond (physOf s g))
          (addObj (setGang s g { gg with costFlagged := true }) (key 0x2204 5) gg.group.length))
  else .fault .noSuchUnit

/-! ## Error exits (06 R179 to R181) -/

/-- The fault source of an error cause (06 Table CMD-11). The causes 0x08, 0x09, 0x0B and those of ERR set none here:
their sources are set where their own rules say. -/
def causeSource (cause : Nat) : Option Nat :=
  match cause with
  | 1 => some 0
  | 2 => some 1
  | 3 => some 0
  | 4 => some 0
  | 5 => some 3
  | 6 => some 4
  | 7 => some 5
  | 0x0A => some 18
  | 0x0C => some 0
  | 0x0D => some 0
  | _ => none

/-- When every member of a gang has entered its handler, the peer counters are zero and the gang's stream ends are
closed, with the credits on their way to them (06 R180, R184). -/
def allEntered (g : Nat) (s : State) : State :=
  if (gangMembers s g).all fun l => (pondOf s (physOf s l)).core.exited then
    forEach (gangMembers s g) (fun l s =>
      modPond (countStalls (physOf s l) s) (physOf s l) fun pd =>
        { pd with streams := [], core := { pd.core with creditsDue := [] } }) (zeroPeers g s)
  else s

/-- The futures of a failed group receive status 0x0B; a failed prologue takes every remaining entry of its program
with it, those carried over unfetched at once (06 R176, R179). -/
def failGroup (g : Nat) (sec : Section) (s : State) : State :=
  let s := giveAbortedAll raise g sec.group s
  let gg := gangOf s g
  let hit (e : WorkEntry) : Bool := decide (sec.kind = .prologue) && decide (e.program = sec.program)
  let drop (e : WorkEntry) : WorkEntry := if hit e then { e with dropped := true } else e
  let s := giveAbortedAll raise g ((gg.late.filter hit).map (·.future)) s
  setGang s g { gg with group := [], carryRunning := false, late := gg.late.filter fun e => !hit e,
                        entries := gg.entries.take gg.next ++ (gg.entries.drop gg.next).map drop }

/-- An armed tap ends without its rows: counted, traced with its tag, and its GATE command does not signal (04 R110). -/
def dropTap (ph : Nat) (s : State) : State :=
  match (pondOf s ph).tap with
  | none => s
  | some t =>
    let s := modPond s ph fun pd => { pd with tap := none, running := pd.running.filter fun r => decide (r.id ≠ t.id) }
    traceFault ph 0x0010 (tagOf t.cmd) 0x3 0x04 (addObj (countIdle ph 0x3 s) (key 0x2402 6) 1)

/-- A program that exits or ends while its tap is armed: the tap is disarmed with the effects of 04 R110, the command-fault
source among them. -/
def disarmTap (ph : Nat) (s : State) : State :=
  if (pondOf s ph).tap.isNone then s else raise 0 (.pond ph) (dropTap ph s)

/-- The tap of a program that is taking its error exit is disarmed (04 R110). -/
def disarmExiting (ph : Nat) (s : State) : State :=
  let k := (pondOf s ph).core
  match k.exiting, k.sect, (pondOf s ph).tap with
  | some _, some sec, some t => if t.program = sec.program then disarmTap ph s else s
  | _, _, _ => s

/-- An exit inside an error-exit section ends that section, with no further handler (06 R181; 13 R371). -/
def endHandler (g ph : Nat) (sec : Section) (s : State) : State :=
  if sec.task then taskFaulted g (leaveSection ph s) else chargeServing sec (leaveSection ph s)

/-- Step 4 of an exit (06 R179): the source, the trace record, the count and the record of the last error. -/
def noteExit (p ph : Nat) (e : Exiting) (s : State) : State :=
  let tag := e.tag % 2 ^ 24
  let s := match causeSource e.cause with
    | some i => raise i (.pond ph) s
    | none => s
  let s := addObj (traceFault ph 0x0011 tag (e.tag / 2 ^ 24) (e.cause + rankIn s p * 2 ^ 8) s) (key 0x2601 6) 1
  setObj (setObj s (key 0x2602 1) (ph * 2 ^ 56 + e.cause * 2 ^ 48 + tag)) (key 0x2602 2) (tickNumber s)

/-- ERROR_HANDLER_ENTRY (06 R179 steps 3 to 5, R180, R181): every started command of the program has completed, so the
source is set, the exit recorded, and the error-exit section runs, or the program returns at once. -/
def execErrorHandlerEntry (p : Nat) (s : State) : Out :=
  onPond p s fun ph =>
    let s := disarmExiting ph s
    let pd := pondOf s ph
    match pd.core.exiting, pd.core.sect with
    | some e, some sec =>
      if pd.running.any fun r => decide (r.program = sec.program) then s
      else if sec.kind = .error then endHandler (rank0Of s p) ph sec s
      else
        let g := rank0Of s p
        let s := noteExit p ph e s
        let s := if sec.task then s else failGroup g sec (chargeServing sec s)
        let s := modCore s ph fun k => { k with exiting := none, exited := true }
        let entry := match imageOn s ph sec.program with
          | some i => i.errorExit
          | none => 0xFFFF
        let s := allEntered g s
        if entry = 0xFFFF then
          let s := leaveSection ph s
          if sec.task then taskFaulted g s else s
        else
          startSection p ph .error sec.program sec.epoch sec.carried
            { group := sec.group, flags := (if sec.task then 24 else 8) + (if sec.carried then 2 else 0),
              index := (getParam (pondOf s ph).core 13).toNat, cause := e.cause, tag := e.tag % 2 ^ 24 } s
    | _, _ => s

/-- GANG_ERROR_NOTIFY (06 R180): the other members of the gang take their error exit with cause 0x08, unless they have
taken one; a member with nothing in progress counts as having entered. -/
def execGangErrorNotify (p : Nat) (s : State) : Out :=
  onPond p s fun ph =>
    let k := (pondOf s ph).core
    if k.exiting.isNone && !k.exited then s
    else
      let g := rank0Of s p
      let s := forEach ((gangMembers s g).filter (· ≠ p)) (fun l s =>
        let q := physOf s l
        if q = 0xFF then s
        else if (pondOf s q).core.sect.isNone then modCore s q fun k => { k with exited := true }
        else if (pondOf s q).core.exited then s
        else startExit q 0x08 0 s) s
      if k.exited then allEntered g s else s

end Sys2Proof.Machine
end

