-- ==== Sys2Proof/Machine/Restore.lean ====
section
/-! DEFINITION. The end of a task's restore: reloads, and the section that each rank continues or enters (13 R369,
R370, 06 R178). -/

namespace Sys2Proof.Machine

/-- The table numbers of a program's table mask. -/
def maskTables (i : Option Image) : List Nat :=
  match i with
  | none => []
  | some i => (List.range 256).filter (bitAt i.tableMask)

/-- A weight block of a forced stop reloaded from what the slot records: word 1 of its command and its valid bit; the
whole block, since the slot holds no extents (13 Table SHR-3; DESIGN CHOICE, log 14). -/
def reloadBlock (s : State) (pd : Pond) (at_ : Nat) : WeightBlock × List Decoded :=
  if bitAt (readLe s (at_ + 8) 1) 0 then
    let w1 : W64 := BitVec.ofNat 64 (readLe s at_ 8)
    let probe : Cmd := { w0 := 0, w1 := w1, w2 := 0, w3 := 0 }
    loadBlock pd { probe with w2 := BitVec.ofNat 64 (depthOf (mmaWfmt probe) * 2 ^ 19 + 256 * 2 ^ 10) }
  else (WeightBlock.none, [])

/-- The weight blocks of a forced stop reloaded; what the expander decodes is counted, under tag 0, since the slot
holds no command's tag (05 R141, R143; log 14). -/
def reloadBlocks (ph slot : Nat) (s : State) : State :=
  let a := reloadBlock s (pondOf s ph) (slot + 32800)
  let b := reloadBlock s (pondOf s ph) (slot + 32816)
  let c : Cmd := { w0 := BitVec.ofNat 64 (2 ^ 52), w1 := 0, w2 := 0, w3 := 0 }
  noteDecoded ph c (a.2 ++ b.2) (modPond s ph fun pd => { pd with activeW := a.1, shadowW := b.1 })

/-- The section of a rank that continues where it stopped. -/
def continueSection (s : State) (t ph pc resume : Nat) : Core :=
  let k := (pondOf s ph).core
  { k with
    sect := some { kind := .background, program := taskField s t 1 1, pc := pc, group := (taskInfo s t).group,
                   epoch := tickNumber s, carried := false, task := true, resume := resume, started := s.now, progress := 0 },
    exiting := none, exited := false, stalled := none, stopped := none, stopKind := 0 }

/-- A program that is not in the active bank, or whose slots wait for repair, ends at once (06 R175, R183). -/
def checkResident (ph program : Nat) (s : State) : State :=
  let tag := match (pondOf s ph).core.sect with
    | some sec => slotTag program sec.pc
    | none => slotTag program 0
  match residentOf (pondOf s ph) program with
  | none => startExit ph 0x06 tag s
  | some r => if r.damaged ≠ [] then startExit ph 0x07 tag s else s

/-- One rank restored from its slot (13 R369, R370): state, tables, then the background entry where the rank had returned,
the covering reload entry or the command itself after a cheap stop of the gang, and the weight blocks and unstarted
commands after a forced one, in which a rank that had stopped at a cheap command continues there. -/
def restoreRank (t kind l : Nat) (s : State) : State :=
  let ph := physOf s l
  let p := taskField s t 1 1
  let slot := slotOf s t l
  let img := imageOn s ph p
  let index := readLe s (slot + 32768) 4 % 65536
  let rank := slotKind s slot
  let s0 := s
  let s := modPond s ph fun pd =>
    let pd := restorePond s0 t kind slot img pd
    forgetWeights (clearWritten { pd with core := restoreCore s0 slot (mapFind 0 s0.shares.outAt t) pd.core })
  let s := loadTables l ph (maskTables img) s
  if rank = 1 then startSection l ph .background p (tickNumber s) false (taskInfo s t) s
  else
    let pc := match kind, coverOf img index with
      | 0, some r => r.resume
      | _, _ => index
    let s := modPond s ph fun pd => { pd with core := continueSection s t ph pc index }
    let s := if kind = 2 then
        let s := reloadBlocks ph slot s
        modPond s ph (restoreQueues s slot p)
      else s
    checkResident ph p s

/-- Clk of the reloads (13 R370): 8 for each table of the mask, 1,024 for the weight blocks of a forced stop. -/
def reloadTime (s : State) (g t kind : Nat) : Nat :=
  8 * (maskTables (imageOn s (physOf s g) (taskField s t 1 1))).length + (if kind = 2 then 1024 else 0)

/-- RESTORE_DONE (13 R366, R369, R370): the restore of a gang ends and its task runs. -/
def execRestoreDone (g : Nat) (s : State) : Out :=
  if g < logicalCount s then
    .next (match runOf s g with
      | none => s
      | some r =>
        if !r.restoring then s
        else
          let t := r.task
          let p := taskField s t 1 1
          let kind := savedKind s g t
          let (v, s) := freeWord s
          let took := switchTime s r v.toNat + reloadTime s g t kind
          let s := chargeTask g true (advanceTo s (r.moved + took))
          let s := addObj (forEach (gangMembers s g) (restoreRank t kind) s) (key 0x2D03 4) 1
          let s := traceTask g 0x0301 (t + took * 2 ^ 16) p s
          match runOf s g with
          | none => s
          | some r => setRun s g (some { r with restoring := false, since := s.now, entered := s.now }))
  else .fault .noSuchUnit

end Sys2Proof.Machine
end

