-- ==== Sys2Proof/Machine/Loader.lean ====
section
/-! DEFINITION. Program images, the loader, the program directory and the bank switch (06 R163 to R171, R183). -/

namespace Sys2Proof.Machine

/-! ## The image (06 R163 to R166, Table CMD-8) -/

/-- The slot of a program in the image area (06 R163). -/
def slotAt (p : Nat) : Nat := 0xFF0000000000 + p * 8388608

/-- A little-endian field of a byte list. -/
def fieldAt (bs : List Byte) (off n : Nat) : Nat := leValue ((bs.drop off).take n)

/-- Commands of an instruction bank (06 R149). -/
def bankSlots : Nat := 1024

/-- The checkpoint table of an image (06 R165). -/
def checkpointsOf (bs : List Byte) : List Checkpoint :=
  (List.range (fieldAt bs 14 2)).map fun i =>
    let o := fieldAt bs 44 4 + 16 * i
    { index := fieldAt bs o 2, prologue := decide (fieldAt bs (o + 2) 1 = 1), c0 := fieldAt bs (o + 4) 4,
      c1 := fieldAt bs (o + 8) 4 }

/-- The reload table of an image (06 R166). -/
def reloadsOf (bs : List Byte) : List Reload :=
  (List.range (fieldAt bs 30 2)).map fun i =>
    let o := fieldAt bs 48 4 + 16 * i
    { first := fieldAt bs o 2, last := fieldAt bs (o + 2) 2, offset := fieldAt bs (o + 4) 4,
      length := fieldAt bs (o + 8) 4, resume := fieldAt bs (o + 12) 2 }

/-- The header of an image with its tables (06 Table CMD-8). -/
def programOf (bs : List Byte) : Image :=
  { number := fieldAt bs 6 1, pondCount := fieldAt bs 7 1, batch := fieldAt bs 8 1, flags := fieldAt bs 9 1,
    nCmd := fieldAt bs 10 2, regLow := fieldAt bs 12 1, regHigh := fieldAt bs 13 1, cFix := fieldAt bs 16 4,
    cStep := fieldAt bs 20 4, aBg := fieldAt bs 24 4, engines := fieldAt bs 28 2, prologue := fieldAt bs 32 2,
    step := fieldAt bs 34 2, errorExit := fieldAt bs 36 2, background := fieldAt bs 38 2,
    tableMask := fieldAt bs 64 32, crc := fieldAt bs 252 4,
    regs := (List.range (fieldAt bs 13 1 + 1 - fieldAt bs 12 1)).map fun i => fieldAt bs (fieldAt bs 40 4 + 8 * i) 8,
    checkpoints := checkpointsOf bs, reloads := reloadsOf bs }

/-- The commands of a rank's section. -/
def sectionOf (bs : List Byte) (rank : Nat) : List Cmd :=
  let n := fieldAt bs 10 2
  (List.range n).map fun i => cmdOfBytes ((bs.drop (fieldAt bs 52 4 + (rank * n + i) * 32)).take 32)

/-! ## The checks of 06 Table CMD-9 -/

/-- Code 0x01: header, resv fields, offsets and CRC. -/
def headerOk (p : Nat) (bs : List Byte) : Bool :=
  let i := programOf bs
  let len := fieldAt bs 56 4
  let serving := bitAt i.flags 0
  let background := bitAt i.flags 1
  let zero (off n : Nat) : Bool := decide (fieldAt bs off n = 0)
  decide (fieldAt bs 0 4 = 0x49505744) && decide (fieldAt bs 4 2 = 1) && decide (i.number = p) &&
    decide (256 ≤ len ∧ len ≤ 8388608) &&
    decide (i.crc = crc32c (bs.take 252 ++ (bs.take len).drop 256)) &&
    decide (i.pondCount ∈ [1, 2, 4, 8, 16, 32, 64, 128]) && decide (1 ≤ i.batch ∧ i.batch ≤ 8) &&
    decide (i.flags < 8) && decide (i.engines < 4096) && decide (1 ≤ i.nCmd ∧ i.nCmd ≤ bankSlots) &&
    decide (24 ≤ i.regLow ∧ i.regLow ≤ i.regHigh) && (!serving || decide (i.aBg = 0)) &&
    (serving || decide (i.step = 0xFFFF)) &&
    (background || decide (i.background = 0xFFFF)) && (background || decide (i.tableMask = 0)) &&
    zero 60 4 && zero 96 156 &&
    decide (fieldAt bs 40 4 + 8 * (i.regHigh + 1 - i.regLow) ≤ len) &&
    decide (fieldAt bs 44 4 + 16 * i.checkpoints.length ≤ len) &&
    decide (fieldAt bs 48 4 + 16 * i.reloads.length ≤ len) &&
    decide (fieldAt bs 52 4 + 32 * i.pondCount * i.nCmd ≤ len) &&
    ((List.range i.checkpoints.length).all fun k =>
      zero (fieldAt bs 44 4 + 16 * k + 3) 1 && zero (fieldAt bs 44 4 + 16 * k + 12) 4) &&
    ((List.range i.reloads.length).all fun k => zero (fieldAt bs 48 4 + 16 * k + 14) 2)

/-- A word 0 as 06 Table CMD-2 has it, with the tag of its slot. -/
def wordOk (p index : Nat) (c : Cmd) : Bool :=
  let w := c.w0.toNat
  (waits c || decide (bits w 47 40 = 0)) && (signals c || decide (bits w 39 32 = 0)) &&
    decide (bits w 31 24 ≤ 253) && (decide (classOf c ≠ 0) || decide (bits w 31 24 = 0)) &&
    decide (bits w 23 16 = p) && decide (bits w 15 0 = index)

/-- The number of functions of a control opcode (06 Tables CMD-5, CMD-6): where it has none, func is resv. -/
def controlFuncs (op : Nat) : Nat :=
  match op with
  | 0x02 => 10
  | 0x07 => 6
  | 0x08 => 3
  | 0x09 => 8
  | 0x0C => 128
  | _ => 1

/-- A legal control command (06 Tables CMD-5, CMD-6). -/
def controlLegal (c : Cmd) : Bool :=
  let op := opcodeOf c
  let w := c.w1.toNat
  decide (1 ≤ op ∧ op ≤ 0xE) && decide (fieldFunc c < controlFuncs op) && decide (bits w 31 31 = 0) &&
    decide (bits w 23 16 = 0) && decide (c.w3 = 0) && (decide (op ∉ [1, 2, 3]) || decide (24 ≤ fieldD c)) &&
    (decide (op ≠ 9) || decide (24 ≤ fieldD c ∧ fieldD c ≤ 31))

/-- A pond whose weight registers hold a block: the image does not decide what is loaded when a command starts. -/
def loadedPond : Pond := { Pond.reset with activeW := { WeightBlock.none with valid := true } }

/-- The checks of a class that the image decides (03 R76, 04 R119, 05 R147, 07 R231, 08 R251, 09 R273, 10 R298, 12
R344). -/
def engineLegal (width : Nat) (c : Cmd) : Bool :=
  let op := opcodeOf c
  let w1 := c.w1.toNat
  let noWords := decide (c.w2 = 0) && decide (c.w3 = 0)
  decide (op ∈ legalOpcodes (classOf c)) &&
    (match classOf c with
     | 0x1 => if op = 1 then mmaLegal loadedPond c else wloadLegal loadedPond c
     | 0x2 => vecLegal c
     | 0x3 => if op = 1 then gateLegal c else if op = 0x12 then sfixLegal c else scanLegal c
     | 0x4 =>
       if op = 1 then copyLegal width c else decide (bits w1 46 0 = 0) && noWords
     | 0x5 => tloadLegal c
     | 0x6 =>
       if op = 1 then pwalkLegal c
       else if op = 2 then
         decide (bits w1 36 0 = 0) && decide (bits c.w2.toNat 39 0 = 0) && decide (c.w3 = 0) &&
           decide (descOff c % 64 = 0) && decide (descOff c + 16 * ceilDiv (appendTokens c) 64 ≤ bufSize)
       else
         decide (24 ≤ attFirst c ∧ attFirst c + (if op = 3 then 7 else 10) ≤ 255) &&
           decide (bits w1 55 0 = 0) && noWords
     | 0x7 => poolLegal c
     | 0x8 =>
       (match op with
        | 1 =>
          decide (bits w1 15 0 = 0) && decide (bits c.w2.toNat 21 0 = 0) && decide (bits c.w3.toNat 21 0 = 0) &&
            decide (64 ≤ fabLength c) && (!fabKind c || decide (fabSource c + fabLength c ≤ bufSize))
        | 2 =>
          decide (bits w1 50 42 = 0) && decide (bits w1 15 0 = 0) && decide (bits c.w2.toNat 21 0 = 0) &&
            decide (bits c.w3.toNat 21 0 = 0) && decide (64 ≤ fabLength c) &&
            (!fabKind c || decide (fabDest c + fabLength c ≤ bufSize))
        | 3 => decide (24 ≤ collD0 c ∧ collD0 c ≤ 251) && decide (bits w1 55 0 = 0) && noWords
        | 4 => decide (bits w1 45 0 = 0) && decide (bits c.w2.toNat 21 0 = 0) && decide (c.w3 = 0)
        | 5 => decide (bits w1 55 0 = 0) && decide (bits c.w3.toNat 63 32 = 0)
        | _ => decide (24 ≤ collD0 c ∧ collD0 c ≤ 252) && decide (bits w1 55 0 = 0) && noWords)
     | 0x9 => decide (24 ≤ boxD0 c ∧ boxD0 c ≤ 247) && decide (bits w1 55 0 = 0) && noWords
     | 0xA =>
       if op = 1 then ictxLegal c
       else
         decide (24 ≤ decodeD0 c ∧ decodeD0 c ≤ 248) && decide (bits w1 49 0 = 0) &&
           decide (bits c.w2.toNat 63 48 = 0) && decide (bits c.w3.toNat 31 0 = 0) && (decide (op = 2) || noWords)
     | _ => streamValid width c)

/-- Code 0x07 for one command of program `p`; a serving program holds no command of class 0xA (09 R272). -/
def commandLegal (i : Image) (p index : Nat) (c : Cmd) : Bool :=
  wordOk p index c && (if classOf c = 0 then controlLegal c else engineLegal i.pondCount c) &&
    !(bitAt i.flags 0 && decide (classOf c = 0xA))

/-- The first command of an image that breaks code 0x07: rank and index. -/
def firstIllegal (p : Nat) (i : Image) (bs : List Byte) : Option (Nat × Nat) :=
  (List.range i.pondCount).findSome? fun rank =>
    ((sectionOf bs rank).zipIdx.find? fun e => !commandLegal i p e.2 e.1).map fun e => (rank, e.2)

/-- Code 0x06: the engine mask or a command's class names an absent or reserved class. -/
def classesOk (s : State) (i : Image) (code : List Cmd) : Bool :=
  decide ((i.engines &&& enginesPresent s) = i.engines) &&
    code.all fun c => decide (classOf c < 12) && bitAt (enginesPresent s ||| 1) (classOf c)

/-- Code 0x08: branch, loop and entry-point targets and the reload table. -/
def targetsOk (i : Image) (code : List Cmd) : Bool :=
  let n := i.nCmd
  let entry (e : Nat) (must : Bool) : Bool := decide (e < n) || (!must && decide (e = 0xFFFF))
  (code.all fun c => decide (classOf c ≠ 0 ∨ opcodeOf c ∉ [5, 6, 8]) || decide (fieldTarget c < n)) &&
    entry i.prologue false && entry i.step (bitAt i.flags 0) && entry i.errorExit false &&
    entry i.background (bitAt i.flags 1) &&
    i.reloads.all fun r => decide (r.first < n ∧ r.last < n ∧ r.resume < n ∧ r.first ≤ r.last)

/-- Code 0x09: the checkpoint table and the checkpoint flags agree, no flag stands outside rank 0, and the step's first
command has it. -/
def checkpointsOk (bs : List Byte) (i : Image) : Bool :=
  let flag (c : Cmd) : Bool := bitAt c.w0.toNat 51
  let rank0 := sectionOf bs 0
  let flagged := (rank0.zipIdx.filter fun e => flag e.1).map (·.2)
  let listed : List Nat := i.checkpoints.map fun (k : Checkpoint) => k.index
  let kinds := (List.range i.checkpoints.length).all fun k => decide (fieldAt bs (fieldAt bs 44 4 + 16 * k + 2) 1 ≤ 1)
  kinds && decide listed.Nodup && listed.all (fun x => decide (x ∈ flagged)) &&
    flagged.all (fun x => decide (x ∈ listed)) &&
    ((List.range i.pondCount).all fun r => decide (r = 0) || !(sectionOf bs r).any flag) &&
    (!bitAt i.flags 0 || decide (i.step ∈ flagged))

/-- The ponds that hold programs: those that a logical number names, with their banks. -/
def heldBanks (s : State) : List (List Resident) :=
  s.map.toPhys.flatMap fun e => [mapFind [] (pondOf s e.2).banks 0, mapFind [] (pondOf s e.2).banks 1]

/-- Two register ranges overlap. -/
def rangesMeet (a b : Image) : Bool := decide (a.regLow ≤ b.regHigh ∧ b.regLow ≤ a.regHigh)

/-- The result code of a load of program `p` into basin `b` from its image (06 Table CMD-9), the lowest one that
applies, with the rank and index of code 0x07. -/
def loadCode (s : State) (p b : Nat) (bs : List Byte) : Nat × Nat × Nat :=
  let i := programOf bs
  let code := (List.range i.pondCount).flatMap (sectionOf bs)
  let gangs := usableGangs s b
  let banks := gangs.flatten.map fun l => inactivePrograms (pondOf s (physOf s l))
  let used (k : List Resident) : Nat := (k.map fun r => r.image.nCmd).sum
  let elsewhere := (heldBanks s).any fun k => k.any fun r => decide (r.image.number = p ∧ r.image.crc ≠ i.crc)
  let plain (n : Nat) : Nat × Nat × Nat := (n, 0xFF, 0xFFFF)
  if !headerOk p bs then plain 1
  else if i.pondCount ≠ basinWidth s.tree b then plain 2
  else if banks.any (fun k => decide (bankSlots < used k + i.nCmd)) then plain 3
  else if banks.any (fun k => k.any fun r => decide (r.image.number = p)) || elsewhere then plain 4
  else if banks.any (fun k => k.any fun r => rangesMeet r.image i) then plain 5
  else if !classesOk s i code then plain 6
  else
    match firstIllegal p i bs with
    | some (rank, index) => (7, rank, index)
    | none =>
      if !targetsOk i code then plain 8
      else if !checkpointsOk bs i then plain 9
      else if !basinEnabled s.tree b || decide (gangs = []) then plain 0xA
      else plain 0

/-! ## The program directory (06 R171) -/

/-- The record of a program follows its residence: ponds holding, and bit 0 while any bank holds it. -/
def settleDirectory (p : Nat) (s : State) : State :=
  let n := (heldBanks s).countP fun k => k.any fun r => decide (r.image.number = p)
  let d := dirOf s p
  if n = d.holding then s
  else setDir s p { d with holding := n, state := if n = 0 then withBit d.state 0 false else d.state }

/-- Every record after banks have changed. -/
def settleDirectories (s : State) : State := forUpTo 256 settleDirectory s

/-- The record of a program that has been loaded (06 Table CMD-10). -/
def recordOf (p : Nat) (i : Image) : DirRecord :=
  { state := 1 + (if bitAt i.flags 0 then 4 else 0) + (if bitAt i.flags 1 then 8 else 0),
    pondCount := i.pondCount, batch := i.batch, cFix := i.cFix, cStep := i.cStep, aBg := i.aBg, crc := i.crc,
    checkpoints := i.checkpoints.length, imageUda := slotAt p, holding := 0 }

/-! ## The load (06 R167) -/

/-- Every pond of the basin's usable gangs takes the program into its inactive bank. -/
def takeProgram (b : Nat) (bs : List Byte) (s : State) : State :=
  forEach (usableGangs s b) (fun members s =>
    forEach members.zipIdx (fun e s =>
      modPond s (physOf s e.1) fun pd =>
        let r : Resident := { image := programOf bs, code := sectionOf bs e.2, damaged := [] }
        { pd with banks := mapPut [] pd.banks (1 - pd.core.activeBank) (inactivePrograms pd ++ [r]) }) s) s

/-- The length of the image in a slot, bounded by the slot (06 Table CMD-8). -/
def imageLength (s : State) (p : Nat) : Nat := max 256 (min 8388608 (readLe s (slotAt p + 56) 4))

/-- A write aimed at the active bank of a pond is blocked (06 R168): its bytes are dropped. -/
def blockBankWrite (ph at_ : Nat) (s : State) : State :=
  raise 2 (.pond ph) (traceFault ph 0x0012 0 0 at_ (addObj s (key 0x2601 8) 1))

/-- The end of a load with its code. -/
def finishLoad (r : Nat × Nat × Nat) (s : State) : State :=
  setObj (setObj (setObj (setObj s (key 0x2610 3) 0) (key 0x2610 4) r.1) (key 0x2610 5) r.2.1) (key 0x2610 6) r.2.2

/-- PROGRAM_LOAD_DONE (06 R167): the loader has read the image and checked it. While the slot waits for its re-fetch, or
for the link, the load goes on. -/
def execProgramLoadDone (s : State) : Out :=
  .next (
    if getObj s (key 0x2610 3) = 0 then s
    else
      let p := s.requests.loadProgram
      let b := s.requests.loadBasin
      let head := [(slotAt p, 256)]
      let runs := [(slotAt p, imageLength s p)]
      if !unitMapped s head then finishLoad (1, 0xFF, 0xFFFF) (unmappedAccess s)
      else if waitsRefetch s head || (unitMapped s runs && waitsRefetch s runs) then
        { s with requests := { s.requests with
          loadWaiting := s.requests.loadWaiting.or ((waitNote s head).or (waitNote s runs)) } }
      else
        let s := { countWait s.requests.loadWaiting s with requests := { s.requests with loadWaiting := none } }
        if !unitMapped s runs then finishLoad (1, 0xFF, 0xFFFF) (unmappedAccess s)
        else if unitPoisoned s runs then finishLoad (1, 0xFF, 0xFFFF) s
        else
          let bs := readBytes s (slotAt p) (imageLength s p)
          let r := loadCode s p b bs
          if r.1 ≠ 0 then finishLoad r s
          else
            let s := setDir (takeProgram b bs s) p (recordOf p (programOf bs))
            setObj (finishLoad r (followUnavailable (settleDirectory p s))) (key 0x2610 7) (tickNumber s))

/-! ## Bank switches and clears (06 R169, R170) -/

/-- The registers of the programs of the active bank, from their images (06 R170). -/
def initRegisters (k : Core) (rs : List Resident) : Core :=
  rs.foldl (fun k r =>
    if bitAt r.image.flags 2 then k
    else (List.range r.image.regs.length).foldl
      (fun k i => setParam k (r.image.regLow + i) (BitVec.ofNat 64 (r.image.regs.getD i 0))) k) k

/-- A pond makes its inactive bank active (06 R169, R170). -/
def switchPond (pd : Pond) : Pond :=
  let pd := { pd with core := { pd.core with activeBank := 1 - pd.core.activeBank } }
  { pd with core := initRegisters pd.core (activePrograms pd) }

/-- A pond without the background section of a program: what was not started is dropped and its tap disarmed (04 R110). -/
def quitPond (ph program : Nat) (s : State) : State :=
  let s := settlePond ph s
  let tapped := match (pondOf s ph).tap with
    | some t => decide (t.program = program)
    | none => false
  let s := if tapped then disarmTap ph s else s
  modPond s ph fun pd =>
    let pd := dropProgram pd program
    { pd with core := { pd.core with sect := none, stalled := none, exiting := none, stopped := none, stopKind := 0 } }

/-- The task that runs on a gang ends at once on every rank (06 R169, 13 R358). -/
def quitTask (g : Nat) (s : State) : State :=
  match runOf s g with
  | none => s
  | some r =>
    let p := taskField s r.task 1 1
    let s := setRun (chargeTask g (r.saving || r.restoring) s) g none
    forEach (gangMembers s g) (fun l s => if physOf s l = 0xFF then s else quitPond (physOf s l) p s) s

/-- The background tasks of a gang whose program is absent from the new active bank end, with their saved state (06
R169). -/
def endAbsentTasks (g : Nat) (s : State) : State :=
  forEach (tasksOf s g) (fun t s =>
    if programOnGang s g (taskField s t 1 1) then s
    else freeTask t (if (runOf s g).map (·.task) = some t then quitTask g s else s)) s

/-- The share area is written (13 R358): with a base of 0 no task runs. -/
def setShareArea (v : Nat) (s : State) : State :=
  let s := if v = 0 then forEach (mapKeys s.shares.runs) quitTask s else s
  setObj s (key 0x2D01 1) v

/-- Every pond of a gang switches. -/
def switchGang (g : Nat) (s : State) : State :=
  let s := forEach (gangMembers s g) (fun l s =>
    if physOf s l = 0xFF then s else modPond s (physOf s l) switchPond) s
  endAbsentTasks g s

/-- Every pond of a gang empties its inactive bank. -/
def clearGangBank (g : Nat) (s : State) : State :=
  forEach (gangMembers s g) (fun l s =>
    if physOf s l = 0xFF then s
    else modPond s (physOf s l) fun pd => { pd with banks := mapPut [] pd.banks (1 - pd.core.activeBank) [] }) s

/-- The gangs that a request still concerns: those deferred at an earlier edge, else all of its basin. -/
def requestGangs (s : State) (deferred : List Nat) (b : Nat) : List Nat :=
  if deferred ≠ [] then deferred else (basinGangs s b).map fun m => m.headD 0

/-- A bank switch at a used edge (06 R169): gangs that hold a carried step defer theirs; a disabled basin has none, which
is the result. -/
def bankSwitch (s : State) : State :=
  if getObj s (key 0x2611 2) = 0 then s
  else if !basinEnabled s.tree s.requests.switchBasin && decide (s.requests.switchDeferred = []) then
    setObj (setObj s (key 0x2611 2) 0) (key 0x2611 4) 2
  else
    let gs := requestGangs s s.requests.switchDeferred s.requests.switchBasin
    let held := gs.filter fun g => holdsCarried (gangOf s g)
    let s := forEach (gs.filter fun g => decide (g ∉ held)) switchGang s
    let s := { s with requests := { s.requests with switchDeferred := held } }
    if held = [] then
      setObj (setObj (setObj s (key 0x2611 2) 0) (key 0x2611 4) 0) (key 0x2611 5) (tickNumber s)
    else setObj s (key 0x2611 4) 1

/-- The clear of inactive banks at a used edge, after the switch (06 R169). -/
def bankClear (s : State) : State :=
  if getObj s (key 0x2611 3) = 0 then s
  else
    let gs := requestGangs s s.requests.clearDeferred s.requests.clearBasin
    let held := gs.filter fun g => decide (g ∈ s.requests.switchDeferred)
    let s := forEach (gs.filter fun g => decide (g ∉ held)) clearGangBank s
    let s := { s with requests := { s.requests with clearDeferred := held } }
    settleDirectories (if held = [] then setObj s (key 0x2611 3) 0 else s)

/-- The rewrite of damaged slots from the contents recorded at the load (06 R183). -/
def rewriteSlots (s : State) : State :=
  forEach (s.map.toPhys.map (·.2)) (fun ph s =>
    if (pondOf s ph).banks.any (fun e => e.2.any fun r => decide (r.damaged ≠ [])) then
      modPond s ph fun pd =>
        { pd with banks := pd.banks.map fun e => (e.1, e.2.map fun r => { r with damaged := [] }) }
    else s) s

end Sys2Proof.Machine
end

