-- ==== Sys2Proof/Machine/Owner.lean ====
section
/-! DEFINITION. Masters and ownership (14 R392 to R399): the lease, the end of ownership, elections, handovers and the
pause of the service core. -/

namespace Sys2Proof.Machine

/-! ## Masters (14 R392) -/

/-- The CAN client of a master identifier (14 Table DIC-11). -/
def isCanMaster (m : Nat) : Bool := decide (0x101 ≤ m ∧ m ≤ 0x17F) || decide (0x201 ≤ m ∧ m ≤ 0x27F)

/-- The CXL host. -/
def hostMaster : Nat := 0x300

/-- The debug port. -/
def debugMaster : Nat := 0x400

/-- A master identifier of 14 Table DIC-11. -/
def isMaster (m : Nat) : Bool := isCanMaster m || decide (m = hostMaster) || decide (m = debugMaster)

/-- The owner, 0 when there is none (0x3101.07). -/
def ownerOf (s : State) : Nat := getObj s (key 0x3101 7)

/-- The ownership state (0x3101.09). -/
def ownState (s : State) : Nat := getObj s (key 0x3101 9)

/-- The named successor (0x3101.03). -/
def successorOf (s : State) : Nat := getObj s (key 0x3101 3)

/-- A CAN client is in the master table. -/
def inMasterTable (s : State) (m : Nat) : Bool := s.own.masters.any fun e => decide (e.1 = m)

/-- The private copies of a master at their defaults (14 R377). -/
def dropCopies (m : Nat) (s : State) : State :=
  { s with copies := mapEraseRange s.copies (m * 2 ^ 24) ((m + 1) * 2 ^ 24) }

/-- A CAN client enters the table, or its request is noted there; a full table admits none (14 R392). -/
def enterMaster (m : Nat) (s : State) : Option State :=
  if !isCanMaster m then some s
  else if inMasterTable s m then
    some { s with own := { s.own with
      masters := s.own.masters.map fun e => if e.1 = m then (m, s.now) else e } }
  else if 127 ≤ s.own.masters.length then none
  else some (dropCopies m { s with own := { s.own with masters := s.own.masters ++ [(m, s.now)] } })

/-- MASTER_TABLE_TIMEOUT (14 R392): a CAN client without a request for 60 s leaves the table, unless it is owner or
successor. -/
def execMasterTableTimeout (m : Nat) (s : State) : Out :=
  if isMaster m then
    .next (match s.own.masters.find? fun e => decide (e.1 = m) with
      | none => s
      | some e =>
        if m = ownerOf s ∨ m = successorOf s then s
        else
          let s := advanceTo s (e.2 + 60000 * msClk)
          dropCopies m { s with own := { s.own with masters := s.own.masters.filter fun x => decide (x.1 ≠ m) } })
  else .fault .noSuchUnit

/-! ## The pause of the service core (14 R399, 15 R424, R425) -/

/-- The clocks go on from where they stopped. -/
def resumeClocks (d : Nat) (s : State) : State :=
  { s with own := { s.own with lease := s.own.lease.map (· + d), election := s.own.election.map (· + d),
                               handover := s.own.handover.map (· + d), frozen := none } }

/-- A result of a verify or an activation has been written (16 Table HST-3, vector 4). -/
def firmwareSignal (s : State) : State := if getObj s (key 0x3003 2) = 1 then signalVector 4 s else s

/-- An activation that has succeeded (15 R425, 16 R447): the staged slot is the active slot from now on. -/
def activationDone (pause : Nat) (s : State) : State :=
  let s := setObj (setObj s (key 0x2E30 3) (pause / msClk)) (key 0x2E30 2) 0
  let s := addObj s (key 0x2E30 4) 1
  let slot := 1 - s.boot.active
  firmwareSignal { s with boot := { s.boot with active := slot, running := slot, staged := false, activating := none } }

/-- The service core serves accesses again: the clocks resume, and a new image that has resumed is activated. The
instant at which it does is not stated beyond its bound, so it is that of the first access served (log 31). -/
def resumeService (s : State) : State :=
  match s.own.frozen with
  | none => s
  | some t =>
    let d := s.now - t
    let s := resumeClocks d s
    if s.boot.activating.isSome then activationDone d s else s

/-! ## Owner and lease (14 R393 to R396) -/

/-- The lease length in clk (0x3100.01). -/
def leaseClk (s : State) : Nat := getObj s (key 0x3100 1) * msClk

/-- The handover, if one is pending, ends (14 R397). -/
def endHandover (s : State) : State :=
  let s := { setObj s (key 0x3101 3) 0 with own := { s.own with handover := none } }
  if ownState s = 3 then setObj s (key 0x3101 9) 2 else s

/-- A master becomes owner with a fresh lease (14 R394, R397, R398); an election or handover in progress ends. -/
def becomeOwner (m : Nat) (s : State) : State :=
  let s := endHandover s
  let s := setObj (setObj s (key 0x3101 7) m) (key 0x3101 9) 2
  { s with own := { s.own with claims := [], election := none, lease := some (s.now + leaseClk s) } }

/-- The requests that wait for a used edge, as 14 R396 lists them, with those of 15 R425. -/
def edgeRequests : List Nat :=
  [key 0x2110 1, key 0x2200 4, key 0x2611 2, key 0x2611 3, key 0x2B01 5, key 0x2C01 2, key 0x2D02 3, key 0x2E30 1]

/-- A request waits and has not been started: a bank switch or clear that some gang has deferred has. -/
def requestWaits (s : State) (k : Nat) : Bool :=
  decide (getObj s k = 1) &&
    !(decide (k = key 0x2611 2) && decide (s.requests.switchDeferred ≠ [])) &&
    !(decide (k = key 0x2611 3) && decide (s.requests.clearDeferred ≠ []))

/-- The requests that wait for a used edge are cancelled and read 0; each is counted (14 R396, 0x3130.09). A power state
requested that waits for its edge is one of them; one that waits for a transition's end is not. -/
def cancelRequests (s : State) : State :=
  let s := forEach edgeRequests (fun k s =>
    if requestWaits s k then addObj (setObj s k 0) (key 0x3130 9) 1 else s) s
  if s.power.request.isSome ∧ getObj s (key 0x2F00 3) = 0 then
    addObj (setObj { s with power := { s.power with request := none } } (key 0x2F00 1) 0) (key 0x3130 9) 1
  else s

/-- Ownership ends by expiry or release (14 R396, 01 R30): vacant, requests cancelled, the staged tree discarded. -/
def vacate (s : State) : State :=
  let s := endHandover s
  let s := setObj (setObj s (key 0x3101 7) 0) (key 0x3101 9) 0
  restage (cancelRequests { s with own := { s.own with lease := none } })

/-- The lease ends (14 R395): counted, with source 57, and ownership ends. -/
def expireLease (s : State) : State := raise 57 .chip (vacate (addObj s (key 0x3130 5) 1))

/-- The lease of the CXL host ends when its link goes down or PERST_N is asserted (14 R395). -/
def endHostLease (s : State) : State := if ownerOf s = hostMaster then expireLease s else s

/-- The clocks of ownership run: the service core serves accesses (14 R399). -/
def clocksRun (s : State) : Bool := s.own.frozen.isNone

/-- LEASE_EXPIRY (14 R395, R396): the lease time has passed without a refresh. -/
def execLeaseExpiry (s : State) : Out :=
  .next (match s.own.lease with
    | some t => if clocksRun s && decide (ownerOf s ≠ 0) then expireLease (advanceTo s t) else s
    | none => s)

/-- Claims in the order of 14 R394: the highest priority, then the lowest identifier. -/
def bestClaim : List (Nat × Nat) → Option (Nat × Nat)
  | [] => none
  | c :: cs =>
    match bestClaim cs with
    | none => some c
    | some b => if b.2 < c.2 ∨ (b.2 = c.2 ∧ c.1 < b.1) then some c else some b

/-- ELECTION_CLOSE (14 R394): the window has passed and the best claim wins. -/
def execElectionClose (s : State) : Out :=
  .next (match s.own.election with
    | some t =>
      if !clocksRun s then s
      else
        let s := addObj (advanceTo s t) (key 0x3130 8) 1
        match bestClaim s.own.claims with
        | some c => becomeOwner c.1 s
        | none => setObj { s with own := { s.own with election := none } } (key 0x3101 9) 0
    | none => s)

/-- HANDOVER_TIMEOUT (14 R397): the handover ends and the owner keeps its lease. -/
def execHandoverTimeout (s : State) : Out :=
  .next (match s.own.handover with
    | some t => if clocksRun s then endHandover (advanceTo s t) else s
    | none => s)

/-! ## What the ownership objects do when they are written -/

/-- A claim (14 R394): it opens an election in the vacant state and competes in an open one. -/
def claimEffect (m priority : Nat) (s : State) : State :=
  let s := if ownState s = 0 then
      setObj { s with own := { s.own with election := some (s.now + getObj s (key 0x3100 2) * msClk), claims := [] } }
        (key 0x3101 9) 1
    else s
  { s with own := { s.own with claims := s.own.claims.filter (fun c => decide (c.1 ≠ m)) ++ [(m, priority)] } }

/-- A refresh of the lease (14 R395). -/
def refreshLease (s : State) : State := { s with own := { s.own with lease := some (s.now + leaseClk s) } }

/-- A master may be named as successor (14 R397). -/
def maySucceed (s : State) (m : Nat) : Bool :=
  isMaster m && decide (m ≠ ownerOf s) && (!isCanMaster m || inMasterTable s m)

/-- The owner names a successor, or ends the handover by writing 0 (14 R397). -/
def nameSuccessor (m : Nat) (s : State) : State :=
  if m = 0 then endHandover s
  else
    setObj { setObj s (key 0x3101 3) m with
      own := { s.own with handover := some (s.now + getObj s (key 0x3100 3) * msClk) } } (key 0x3101 9) 3

/-- The successor accepts (14 R397). -/
def acceptHandover (m : Nat) (s : State) : State := becomeOwner m (addObj s (key 0x3130 6) 1)

/-- The debug port seizes ownership (14 R398); requests and the staged tree stay as they stand. -/
def seizeOwnership (s : State) : State := raise 57 .chip (becomeOwner debugMaster (addObj s (key 0x3130 7) 1))

end Sys2Proof.Machine
end

