-- ==== Sys2Proof/Machine/CanBase.lean ====
section
/-! DEFINITION. What the CAN ports share (14 R380 to R382, R400): frames, the state of a port, and reset
communication. -/

namespace Sys2Proof.Machine

/-- A frame, classical or CAN FD, sent on a port that is open (14 R381, R384, Table DIC-5). -/
def sendFrame (fd : Bool) (port id : Nat) (data : List Byte) (s : State) : State :=
  if portOpen s port then sendCan port (.can fd port id data) s else s

/-- A frame sent on both ports. -/
def sendBoth (fd : Bool) (id : Nat) (data : List Byte) (s : State) : State :=
  sendFrame fd 1 id data (sendFrame fd 0 id data s)

/-- The state of a port as 0x3111.02 and 0x3112.02 show it: disabled, silent without a node-ID, else as ISO 11898-1 has
it. -/
def portState (s : State) (port : Nat) : Nat :=
  if getObj s (key (0x3111 + port) 1) = 0 then 3 else if nodeId s = 0 then 4 else getObj s (key (0x3111 + port) 2)

/-- USDO sessions open on a port (14 R383). -/
def sessionsOn (s : State) (port : Nat) : Nat := (s.can.sessions.filter fun x => decide (x.port = port)).length

/-- The session of a client on a port. -/
def sessionOf (s : State) (port client : Nat) : Option Session :=
  s.can.sessions.find? fun x => decide (x.port = port ∧ x.client = client)

/-- A request that opens a session while four are open on the port is aborted (14 R383). -/
def sessionFree (s : State) (port client : Nat) : Bool :=
  (sessionOf s port client).isSome || decide (sessionsOn s port < 4)

/-- The node-ID of 14 R381: the straps, else the node-ID set in the dictionary. -/
def chosenNode (s : State) : Nat :=
  let straps := getObj s (key 0x3110 2)
  if straps = 0 then getObj s (key 0x3110 3) else straps

/-- The defaults of the communication objects that contain the node-ID (14 Table DIC-13). -/
def nodeDefaults (n : Nat) (s : State) : State :=
  let s := setObj s (key 0x1014 0) (0x80 + n)
  forUpTo 4 (fun i s => setObj s (key (0x1800 + i) 1) (0x180 + 0x100 * i + n)) s

/-- Reset communication (14 R381, R382, R400): the objects 0x1000 to 0x1FFF return to their defaults, the node-ID is
and the data rate are taken anew, the ports' work is dropped, and after the boot-up message the device is pre-operational, or operational
when 0x3110.06 is set. -/
def resetComm (s : State) : State :=
  let s := { s with dict := mapEraseRange s.dict (0x1000 * 256) (0x2000 * 256),
                    can := { Can.start with tpdoSeen := s.can.tpdoSeen, rate := getObj s (key 0x3110 4) } }
  let n := chosenNode s
  let s := nodeDefaults n (setObj s (key 0x3110 1) n)
  let s := setObj { s with can := { s.can with heartbeatAt := s.now } } (key 0x3110 7) 0
  let s := sendBoth false (0x700 + n) [0] s
  setObj s (key 0x3110 7) (if getObj s (key 0x3110 6) = 1 then 5 else 0x7F)

end Sys2Proof.Machine
end

