-- ==== Sys2Proof/Machine/DictView.lean ====
section
/-! DEFINITION. What a read of an object gives (14 R373 to R378): values held in the dictionary, values captured at the
last used edge, private copies, and values that other parts of the state hold. -/

namespace Sys2Proof.Machine

/-! ## Values computed from the state -/

/-- Code of a pond state (01 Table PND-2). -/
def pondCode : PondState → Nat
  | .fused => 0
  | .spareIdle => 1
  | .spareLoading => 2
  | .active => 3
  | .retired => 4

/-- The fuse map of ponds `base … base + 63` (0x2080.08 to .0A). -/
def fuseMap (s : State) (base : Nat) : Nat :=
  (List.range 64).foldl (fun w i => if base + i ∈ s.nvm.fused then w + 2 ^ i else w) 0

/-- Futures in a state (0x2701). -/
def futuresIn (s : State) (st : Nat) : Nat := (s.seq.futures.filter fun e => decide (e.2.state = st)).length

/-- Sets or packages that count as in service (0x2A02). -/
def groupsCounted (s : State) (tier : Nat) : Nat :=
  ((List.range (memberGroups tier)).filter (groupCounted s tier)).length

/-- Tier-0 sets out of service, r of 15 R419 (0x2E00.08). -/
def setsOut (s : State) : Nat := 64 - groupsCounted s 0

/-- Mapped extents that satisfy a test. -/
def extentsWhere (s : State) (f : Extent → Bool) : Nat :=
  (s.tiers.extents.filter fun e => decide (e.2.tier < 3) && f e.2).length

/-- The ponds that are halted or halting (16 R454). -/
def haltedPonds (s : State) : Nat := (s.ponds.filter fun e => e.2.halt.isSome).length

/-- The suspension flags 0x2202.04 (02 Table TCK-10). -/
def suspension (s : State) : Nat :=
  (if inSetup s then 1 else 0) + (if haltedPonds s = 0 ∧ !s.tick.haltSeen then 0 else 2) + (if s.tick.lostSource then 4 else 0) +
    (if isActive s then 0 else 8)

/-- A time in clk as milliseconds, rounded up. -/
def asMs (n : Nat) : Nat := ceilDiv n msClk

/-- The lease time left in whole milliseconds (0x3101.08); it stands still with its clock (14 R399). -/
def leaseLeft (s : State) : Nat :=
  match s.own.lease with
  | some t => (t - s.own.frozen.getD s.now) / msClk
  | none => 0

/-- The escalation time left of a source (0x52ii.0B). -/
def timerLeft (s : State) (i : Nat) : Nat := asMs (mapFind 0 s.weir.timers i - 1 - s.now)

/-- The context state of 0x2910 (09). -/
def contextWord (x : IntakeCtx) : Nat :=
  if x.opened then (if x.awaiting then 2 else 1) + (x.codec % 2) * 4 + x.owner * 256 else 0

/-- The firmware image in a flash slot (16 R441, R447). -/
def slotImage (s : State) (k : Nat) : List Byte :=
  match s.boot.slots.find? fun e => decide (e.1 = k) with
  | some e => e.2.image
  | none => Config.shippedImage k

/-- A little-endian field of an image. -/
def imageField (bs : List Byte) (off n : Nat) : Nat := leValue ((bs.drop off).take n)

/-- The member that a master has selected (0x2A30.01, .02; 14 R377). -/
def copyOf (s : State) (m k : Nat) : Nat := mapFind (objDefault k) s.copies (m * 2 ^ 24 + k)

/-- Where the captured counters of a member stand (0x2A30.04, .05, .08). -/
def memberKey (tier i sub : Nat) : Nat := key (0x30000 + tier * 1024 + i) sub

/-- Tasks of a share class that are not free (0x51cc.05). -/
def classTasks (s : State) (c : Nat) : Nat :=
  if tasksEnabled s then
    ((List.range 256).filter fun t => decide (taskState s t ≠ 0) && decide (taskField s t 2 1 = c)).length
  else 0

/-- Worst route class of a group in force; 0xFF when undefined (0x2C06, 0x2C07). -/
def groupWorst (s : State) (g : Nat) : Nat :=
  match groupInForce s g with
  | some x => x.worst
  | none => 0xFF

/-- Objects of a physical pond's record (01, 0x40pp). -/
def pondView (s : State) (ph sub : Nat) : Option Nat :=
  match sub with
  | 1 => some (pondCode (pondState s ph))
  | 2 => some ((logicalOf s ph).getD 0xFF)
  | 3 => some (dieOf ph)
  | 4 => some (match logicalOf s ph with
      | some l => homeBasin s.tree l
      | none => 0xFF)
  | _ => none

/-- Objects of a basin's record (01, 0x50bb). -/
def basinView (s : State) (b sub : Nat) : Option Nat :=
  match sub with
  | 2 => some (treeObj s.tree (key (0x5000 + b) 1))
  | 7 => some (workEntries (tickNumber s) - 16384 + 64 * b)
  | 8 => some (usableGangs s b).length
  | 9 => some (usablePonds s b)
  | 0x11 => some (mapFind 0xFF s.weir.firstPond b)
  | _ => none

/-- Objects whose value is computed, for the indices of chapters 14 to 17. -/
def viewHigh (s : State) (m index sub : Nat) : Option Nat :=
  match index, sub with
  | 0x2E00, 8 => some (setsOut s)
  | 0x2E01, 1 => some (chipSummary s 0)
  | 0x2E01, 2 => some (chipSummary s 64)
  | 0x2E01, 3 => some (causeSummary s 0)
  | 0x2E01, 4 => some (causeSummary s 64)
  | 0x2E10, 4 => some s.tiers.repairs.length
  | 0x2E10, 8 => some (s.tiers.evacuating.map fun e => framesLeft s e.1 e.2).sum
  | 0x2E10, 0xC => some (if s.requests.retire.isSome && causeActive s 48 then 1 else getObj s (key 0x2E10 0xC))
  | 0x2F10, 6 => some (logicalCount s / 16 * 10)
  | 0x3030, 1 => some s.secure.antiRollback
  | 0x3030, 5 => some s.secure.revoked
  | 0x3040, 1 => some s.secure.level
  | 0x3040, 3 => some s.secure.failures
  | 0x3040, 6 => some (if s.secure.disabled then 1 else 0)
  | 0x3040, 7 => some (haltedPonds s)
  | 0x3101, 8 => some (leaseLeft s)
  | 0x3101, 0xA => some m
  | 0x3111, 2 => some (portState s 0)
  | 0x3111, 8 => some (sessionsOn s 0)
  | 0x3112, 2 => some (portState s 1)
  | 0x3112, 8 => some (sessionsOn s 1)
  | 0x2F20, 1 | 0x2F20, 2 | 0x2F20, 3 | 0x2F20, 4 | 0x2F20, 5 | 0x2F20, 6 =>
      some (Config.sensor (key index sub) (tickNumber s))
  | _, _ => none

/-- Objects whose value is computed, for the indices of chapters 01 to 13. -/
def viewLow (s : State) (m index sub : Nat) : Option Nat :=
  match index, sub with
  | 0x1001, 0 => some (errorRegister s)
  | 0x1018, 2 => some (match s.nvm.grade with
      | .a128 => 0xA01
      | .b96 => 0xB01)
  | 0x1018, 3 => some (s.nvm.silicon * 65536 + s.nvm.rom)
  | 0x1018, 4 => some (s.nvm.serial % 2 ^ 32)
  | 0x2000, 4 => some s.nvm.serial
  | 0x2000, 5 => some s.nvm.silicon
  | 0x2000, 6 => some s.nvm.rom
  | 0x2001, 1 => some (imageField (slotImage s s.boot.running) 16 4)
  | 0x2001, 2 => some (imageField (slotImage s s.boot.running) 12 4)
  | 0x2001, 3 => some s.boot.active
  | 0x2080, 1 => some (match s.nvm.grade with
      | .a128 => 1
      | .b96 => 2)
  | 0x2080, 2 => some (logicalCount s)
  | 0x2080, 4 => some s.nvm.fused.length
  | 0x2080, 5 => some (enginesPresent s)
  | 0x2080, 6 => some (postUnits s)
  | 0x2080, 7 => some (intakeUnits s)
  | 0x2080, 8 => some (fuseMap s 0)
  | 0x2080, 9 => some (fuseMap s 64)
  | 0x2080, 0xA => some (fuseMap s 128)
  | 0x2120, 2 => some (sparesLeft s)
  | 0x2120, 3 => some s.nvm.spareMappings
  | 0x2202, 4 => some (suspension s)
  | 0x2701, 1 => some (allocatedFutures s).length
  | 0x2701, 2 => some (futuresIn s 1)
  | 0x2701, 3 => some (futuresIn s 2)
  | 0x2701, 4 => some (futuresIn s 3)
  | 0x2701, 5 => some (futuresIn s 4)
  | 0x2720, 0xB => some ((outstandingReads s).filter fun e => decide (e = tickNumber s)).length
  | 0x2720, 0xC => some ((outstandingReads s).filter fun e => decide (e < tickNumber s)).length
  | 0x2A02, 1 => some (8 * groupsCounted s 0)
  | 0x2A02, 2 => some (userInService s 0)
  | 0x2A02, 3 => some (freeFrames s 0)
  | 0x2A02, 4 => some (extentsWhere s fun x => decide (x.tier = 0) && x.pinned)
  | 0x2A02, 5 => some (groupsCounted s 1)
  | 0x2A02, 6 => some (userInService s 1)
  | 0x2A02, 7 => some (freeFrames s 1)
  | 0x2A02, 8 => some (extentsWhere s fun x => decide (x.tier = 2))
  | 0x2A04, 6 => some (extentsWhere s (·.poisoned))
  | 0x2A30, 3 => some (memberOf s (copyOf s m (key 0x2A30 1)) (copyOf s m (key 0x2A30 2))).state
  | 0x2A30, 4 | 0x2A30, 5 | 0x2A30, 8 =>
      some (mapFind 0 s.captured (memberKey (copyOf s m (key 0x2A30 1)) (copyOf s m (key 0x2A30 2)) sub))
  | 0x2A30, 6 => some (memberOf s (copyOf s m (key 0x2A30 1)) (copyOf s m (key 0x2A30 2))).eyeWidth
  | 0x2A30, 7 => some (memberOf s (copyOf s m (key 0x2A30 1)) (copyOf s m (key 0x2A30 2))).eyeHeight
  | 0x2B02, 5 => some (recordsIn s fun r => !r.historyValid)
  | 0x2B02, 0xA => some (recordsIn s fun r => r.alarm)
  | 0x2C04, 4 => some (poolOccupancy s)
  | 0x2D01, 2 => some (if tasksEnabled s then 1 else 0)
  | _, _ => none

/-- Objects of the indices with one sub-index for each pond, context or group. -/
def viewArray (s : State) (index sub : Nat) : Option Nat :=
  let n := sub - 1
  if sub = 0 then none
  else if index = 0x2101 then some (physOf s n)
  else if index = 0x2103 then some (homeBasin s.tree n)
  else if index = 0x2503 then
    some (mapFind [] s.map.tables n).length
  else if index = 0x2612 then
    some (if physOf s n = 0xFF then 0xFF else (pondOf s (physOf s n)).core.activeBank)
  else if index = 0x2631 then some (mapFind 0 s.captured (streamStatKey 0 (getObj s (key 0x2630 1)) n))
  else if index = 0x2632 then some (mapFind 0 s.captured (streamStatKey 1 (getObj s (key 0x2630 1)) n))
  else if index = 0x2910 then some (contextWord (ctxOf s n))
  else if index = 0x2C06 then some (groupWorst s n)
  else if index = 0x2C07 then some (groupWorst s (128 + n))
  else if 0x2710 ≤ index ∧ index ≤ 0x2713 ∧ sub = 4 then some (poolFree s (index - 0x2710))
  else if 0x2710 ≤ index ∧ index ≤ 0x2713 ∧ sub = 5 then some (poolInState s (index - 0x2710) 2)
  else if 0x4000 ≤ index ∧ index ≤ 0x408F then pondView s (index - 0x4000) sub
  else if 0x5000 ≤ index ∧ index ≤ 0x50FF then basinView s (index - 0x5000) sub
  else if 0x5100 ≤ index ∧ index ≤ 0x513F ∧ sub = 5 then some (classTasks s (index - 0x5100))
  else if 0x5200 ≤ index ∧ index ≤ 0x527F ∧ sub = 0xB then some (timerLeft s (index - 0x5200))
  else none

/-! ## Rows and values -/

/-- The highest sub-index at an index (14 R373). -/
def highestSub (index : Nat) : Nat :=
  let rows := if 0x5200 ≤ index ∧ index ≤ 0x527F ∧ reservedSource (index - 0x5200) then
      (rowsAt index).filter fun r => decide (r.shi ≤ 3)
    else rowsAt index
  (rows.map (·.shi)).foldl max 0

/-- The row of an implemented object; sub-index 0 is UNSIGNED8 const where no table lists it (14 R373), and reserved
sources implement sub-indices 1 to 3 only (15 Table FLT-8). -/
def objRow (index sub : Nat) : Option ObjRow :=
  if rowsAt index = [] then none
  else if 0x5200 ≤ index ∧ index ≤ 0x527F ∧ reservedSource (index - 0x5200) ∧ 3 < sub then none
  else
    match rowOf index sub with
    | some r => some r
    | none => if sub = 0 then some (row1 index 0 0 .u8 .const (highestSub index) 0 255 false false) else none

/-- An index is implemented (14 Table DIC-4, check 1). -/
def indexImplemented (index : Nat) : Bool := decide (rowsAt index ≠ [])

/-- A power object in Standby, whose counters are captured every 10 ms (17 R478): the model captures it at each read
(DESIGN CHOICE, log 54). -/
def readLive (s : State) (index : Nat) : Bool :=
  decide (0x2F00 ≤ index ∧ index < 0x3000) && decide (getObj s (key 0x2F00 2) = 3)

/-- The value of an object of up to 8 bytes, as master `m` reads it: by its own copy for an rw object, as captured at
the last used edge for a counter (03 R87), and modulo the size of its type. -/
def dictRead (s : State) (m index sub : Nat) (r : ObjRow) : Nat :=
  let k := key index sub
  let v :=
    match viewLow s m index sub, viewHigh s m index sub, viewArray s index sub with
    | some v, _, _ => v
    | none, some v, _ => v
    | none, none, some v => v
    | none, none, none =>
      if rowOf index sub = none then r.default
      else if r.access = .rw then copyOf s m k
      else if r.captured && !readLive s index then mapFind (objDefault k) s.captured k
      else getObj s k
  v % 2 ^ (8 * typeSize r.type)

/-- Characters of a string as bytes (14 Table DIC-2). -/
def asciiBytes (t : String) : List Byte := t.toList.map fun c => BitVec.ofNat 8 c.toNat

/-- The value of a VISIBLE_STRING or DOMAIN object. -/
def dictBytes (s : State) (index sub : Nat) : List Byte :=
  let part := match s.nvm.grade with
    | .a128 => "DW1-A128"
    | .b96 => "DW1-B96"
  match index, sub with
  | 0x1008, 0 => asciiBytes ("Durokin " ++ part)
  | 0x2000, 1 => asciiBytes "Swenkora Systems"
  | 0x2000, 2 => asciiBytes "Durokin DW1"
  | 0x2000, 3 => asciiBytes part
  | 0x2001, 4 => ((slotImage s s.boot.running).drop 24).take 48
  | 0x2010, 1 => s.nvm.record
  | 0x2010, 2 => s.nvm.certificate
  | 0x2010, 3 => Config.attest 0 (s.nvm.certificate ++ ((slotImage s s.boot.running).drop 24).take 48)
  | 0x3040, 2 => Config.nonce s.secure.nonce
  | _, _ => []

end Sys2Proof.Machine
end

