-- ==== Sys2Proof/Machine/Wake.lean ====
section
/-! DEFINITION. Wakes and requests for a power state (17 R460, R463 to R465). -/

namespace Sys2Proof.Machine

/-- The power state in force (0x2F00.02). -/
def powerState (s : State) : Nat := getObj s (key 0x2F00 2)

/-- The transition in progress (0x2F00.03). -/
def transition (s : State) : Nat := getObj s (key 0x2F00 3)

/-- An exit begins (17 R461, R464). -/
def beginExit (s : State) : State :=
  addObj (setObj { s with power := { s.power with wakeStart := s.now } } (key 0x2F00 3) 2) (key 0x2F30 4) 1

/-- The last-wake record (17 R465): source, master, state left and time since power-on; the time to Active follows. -/
def recordWake (code m left : Nat) (s : State) : State :=
  let s := setObj (setObj s (key 0x2F02 1) code) (key 0x2F02 2) (if code = 1 then m else 0)
  let s := setObj (setObj s (key 0x2F02 3) left) (key 0x2F02 4) ((s.now - s.power.poweredAt) / usClk)
  { s with power := { s.power with wake := some (code, m, s.now) } }

/-- A wake of 17 Table PWR-3 whose bit is set in the mask: held during an entry, where the first one is recorded; the
start of the exit in a sleeping state; nothing in Active (17 R463, R464). -/
def wakeEvent (code m : Nat) (s : State) : State :=
  if !bitAt (getObj s (key 0x2F01 1)) (code - 1) then s
  else if transition s = 1 then
    let s := addObj s (key 0x2F02 6) 1
    if s.power.wake.isSome then s else recordWake code m s.power.target s
  else if transition s = 0 ∧ powerState s ≠ 0 then beginExit (recordWake code m (powerState s) s)
  else s

/-- A request for a power state acts (17 R460): a deeper one waits for its edge, a shallower one is an owner wake, after
which Still is entered when it was named; the state in force withdraws a request that still waits. -/
def actPower (v m : Nat) (s : State) : State :=
  let st := powerState s
  if st < v then { s with power := { s.power with request := some (v, m) } }
  else
    let s := { s with power := { s.power with request := none } }
    if v < st then
      let again := decide (v = 1) && bitAt (getObj s (key 0x2F01 1)) 0
      wakeEvent 1 m { s with power := { s.power with thenState := if again then some 1 else none } }
    else s

/-- A write of 0x2F00.01 (17 R460): during a transition it waits until that has ended. -/
def requestPower (v m : Nat) (s : State) : State :=
  let s := setObj s (key 0x2F00 1) v
  if transition s = 0 then actPower v m s
  else { s with power := { s.power with request := some (v, m) } }

end Sys2Proof.Machine
end

