-- ==== Sys2Proof/Machine/Requests.lean ====
section
/-! DEFINITION. What requests and masks written by masters do (10 R308, 15 R405, R406, R420, R425, 16 R446, R447,
R452). -/

namespace Sys2Proof.Machine

/-- Abort codes of 14 Table DIC-4. -/
def abortIndex : Nat := 0x06020000
def abortSub : Nat := 0x06090011
def abortType : Nat := 0x06010000
def abortWo : Nat := 0x06010001
def abortRo : Nat := 0x06010002
def abortOwner : Nat := 0x08000021
def abortLength : Nat := 0x06070010
def abortAbove : Nat := 0x06090031
def abortBelow : Nat := 0x06090032
def abortRange : Nat := 0x06090030
def abortState : Nat := 0x08000022
def abortRefused : Nat := 0x08000020

/-! ## Acknowledging and clearing sources (15 R405, R406) -/

/-- An acknowledgement of a set source stops its timer; one of a clear source has no effect (15 R405). -/
def ackSource (i : Nat) (s : State) : State :=
  if sourceSet s i then setObj (stopTimer i s) (srcKey i 3) 1 else s

/-- The bit of a source cleared in every pond and basin (15 R406). -/
def clearPonds (i : Nat) (s : State) : State :=
  let sub := if i < 64 then 8 else 9
  let s := forUpTo 144 (fun ph s =>
    let k := key (0x4000 + ph) sub
    if bitAt (getObj s k) (i % 64) then setObj s k (withBit (getObj s k) (i % 64) false) else s) s
  { s with weir := { s.weir with
      basins := (s.weir.basins.map fun e => (e.1, withBit e.2 i false)).filter fun e => decide (e.2 ≠ 0) } }

/-- A basin has a pond-level bit (15 R406). -/
def basinFaulty (s : State) (b : Nat) : Bool :=
  (List.range (logicalCount s)).any fun l =>
    inSubtree s.tree b (homeBasin s.tree l) && decide (physOf s l ≠ 0xFF) &&
      (decide (getObj s (key (0x4000 + physOf s l) 8) ≠ 0) || decide (getObj s (key (0x4000 + physOf s l) 9) ≠ 0))

/-- 0x50bb.11 returns to 0xFF where every pond-level bit has cleared (15 R406). -/
def settleFirst (s : State) : State :=
  { s with weir := { s.weir with firstPond := s.weir.firstPond.filter fun e => basinFaulty s e.1 } }

/-- The level of ERR_N: driven until every source that drives it has been cleared (15 R411); a latched pad keeps its level (17
R468). -/
def settleErrN (s : State) : State :=
  if s.power.latched then s else setObj s (key 0x2E00 6) (if s.weir.errN = [] then 0 else 1)

/-- One source of a clear mask (15 R406): refused and counted while a level source's cause is active. -/
def clearSource (i : Nat) (s : State) : State :=
  if !sourceSet s i then s
  else if causeActive s i then addObj (addObj s (srcKey i 0xE) 1) (key 0x2E01 9) 1
  else
    let s := clearPonds i (stopTimer i (setObj (setObj s (srcKey i 1) 0) (srcKey i 3) 0))
    { s with weir := { s.weir with
        errN := s.weir.errN.filter (· ≠ i), trapped := s.weir.trapped.filter (· ≠ i),
        escalated := s.weir.escalated.filter (· ≠ i) } }

/-- A source with its mask bit set is set (14 R386). -/
def maskedSet (s : State) : Bool := (List.range 72).any fun i => sourceSet s i && emcyMasked s i

/-- A clear mask of sources `base … base + 63`; the EMCY of all clear follows the last masked source (14 R386). -/
def clearMask (base mask : Nat) (s : State) : State :=
  let before := maskedSet s
  let s := forUpTo 64 (fun i s => if bitAt mask i then clearSource (base + i) s else s) s
  let s := settleErrN (settleFirst s)
  if before && !maskedSet s then emcyAllClear s else s

/-- An acknowledge mask. -/
def ackMask (base mask : Nat) (s : State) : State :=
  forUpTo 64 (fun i s => if bitAt mask i then ackSource (base + i) s else s) s

/-! ## Memory (10 R308, 15 R420) -/

/-- A margin measurement requested (10 R308): refused in the service regime, and for a member out of service. -/
def requestMargin (s : State) : Nat × State :=
  let tier := getObj s (key 0x2A20 1)
  let i := getObj s (key 0x2A20 2)
  if !inSetup s then (abortRefused, setObj s (key 0x2A20 5) 2)
  else if s.requests.margin.isSome then (0, s)
  else if (tier = 1 ∧ 63 < i) ∨ !memberWorks (memberOf s tier i) then (abortRefused, setObj s (key 0x2A20 5) 3)
  else
    (0, setObj { s with requests := { s.requests with margin := some (tier, i, getObj s (key 0x2A20 3)) } }
      (key 0x2A20 4) 1)

/-- A retirement ordered by the owner (15 R420, 0x2E10.0B). -/
def requestRetire (s : State) : Nat × State :=
  let tier := getObj s (key 0x2E10 9)
  let i := getObj s (key 0x2E10 0xA)
  if s.requests.retire.isSome then (0, s)
  else if tier = 1 ∧ 15 < i then (abortRange, s)
  else
    let g := if tier = 0 then i % 64 else i
    if !groupInService s tier g then (abortRefused, setObj s (key 0x2E10 0xC) 2)
    else
      let s := setObj (setObj s (key 0x2E10 0xB) 1) (key 0x2E10 0xC) 0xFF
      (0, startEvacuation tier g { s with requests := { s.requests with retire := some (tier, g) } })

/-! ## Firmware (15 R425, 16 R446, R447) -/

/-- An activation requested (15 R425): refused while no verified image is staged. -/
def requestActivation (s : State) : Nat × State :=
  if s.boot.activating.isSome then (0, s)
  else if !s.boot.staged then (abortRefused, firmwareSignal (setObj s (key 0x2E30 2) 1))
  else (0, setObj s (key 0x2E30 1) 1)

/-- A verify requested (16 R447): busy while a verify or an activation is pending; else the staged bytes are read. -/
def requestVerify (s : State) : Nat × State :=
  if s.boot.verifying.isSome || s.boot.activating.isSome || decide (getObj s (key 0x2E30 1) = 1) then
    (abortRefused, firmwareSignal (setObj s (key 0x3020 4) 0xC))
  else
    let a := getObj s (key 0x3020 1)
    let n := getObj s (key 0x3020 2)
    let ok := unitMapped s [(a, n)] && !unitPoisoned s [(a, n)]
    (0, setObj { s with boot := { s.boot with verifying := some (if ok then readBytes s a n else []) } }
      (key 0x3020 3) 1)

/-- A burn requested (16 R446): up to the smaller of the target and the SVN of the running image, never down. -/
def requestBurn (s : State) : State :=
  let svn := imageField (slotImage s s.boot.running) 12 4
  let n := max s.secure.antiRollback (min (min (getObj s (key 0x3030 2)) svn) 64)
  setObj { s with secure := { s.secure with antiRollback := n } } (key 0x3030 4) n

/-! ## The debug lock (16 R452) -/

/-- The debug level returns to 0, and with it the cause of source 71. -/
def lockDebug (s : State) : State :=
  endCause 71 { s with secure := { s.secure with level := 0 } }

/-- The permanent disable fuse is burned (16 R452). -/
def burnDisable (s : State) : State := lockDebug { s with secure := { s.secure with disabled := true } }

end Sys2Proof.Machine
end

