-- ==== Sys2Proof/Machine/DictWrite.lean ====
section
/-! DEFINITION. Writes to the dictionary (14 R376 to R379): the checks of Table DIC-4 in its order, and what each object
does when it is written. -/

namespace Sys2Proof.Machine

/-! ## Checks 6 and 8 to 11 -/

/-- The debug port may write: the debug level is 2 (16 R452). -/
def debugWrites (s : State) : Bool := decide (s.secure.level = 2)

/-- A master may write an object of an access code (14 Table DIC-3, check 6): the owner, or the master that a wo object
names. -/
def mayWrite (s : State) (m k : Nat) (a : Access) : Bool :=
  match a with
  | .rw => true
  | .rwo => decide (ownerOf s ≠ 0) && decide (m = ownerOf s)
  | .wo =>
    if k = key 0x3101 1 then true
    else if k = key 0x3101 4 then decide (ownState s = 3) && decide (m = successorOf s)
    else if k = key 0x3101 6 then decide (m = debugMaster) && debugWrites s
    else decide (ownerOf s ≠ 0) && decide (m = ownerOf s)
  | _ => false

/-- The largest value of an object, where it depends on another (02 Table TCK-10, 11 R312). -/
def upperBound (s : State) (k : Nat) (r : ObjRow) : Nat :=
  if k = key 0x2201 2 then getObj s (key 0x2201 1)
  else if k = key 0x2B01 4 then 1024 - getObj s (key 0x2B01 3)
  else r.hi

/-- Sources that have a reset domain (15 Table FLT-4). -/
def hasDomain (i : Nat) : Bool :=
  decide (i < 24) || decide (i ∈ [32, 33, 49, 52, 53, 54, 55, 56, 65, 66, 69])

/-- The stated set of an object's values (check 10). -/
def inSet (s : State) (k v : Nat) : Bool :=
  let index := k / 256
  let sub := k % 256
  if k = key 0x2120 1 then decide (v < logicalCount s) && decide (physOf s v ≠ 0xFF)
  else if k ∈ [key 0x2205 2, key 0x2205 4] then decide (v % 256 = 0)
  else if k = key 0x2702 2 then decide (v % 4096 = 0)
  else if 0x2710 ≤ index ∧ index ≤ 0x2713 ∧ sub = 1 then decide (v % 4096 = 0)
  else if k ∈ [key 0x2A00 9, key 0x2B01 1, key 0x2C01 1, key 0x2D01 1] then decide (v % 2097152 = 0)
  else if k = key 0x2B10 1 then decide (v = 0) || decide (16 ≤ v)
  else if k = key 0x2D02 2 then decide (v = 1 ∨ v = 2)
  else if k = key 0x3001 1 then decide (v % 64 = 0)
  else if k = key 0x3110 4 then decide (v ∈ [1000, 2000, 4000, 5000])
  else if k = key 0x3101 3 then decide (v = 0) || maySucceed s v
  else if 0x5200 ≤ index ∧ index ≤ 0x527F ∧ sub = 7 then
    let i := index - 0x5200
    !(decide (v = 2) && decide (i ∉ [5, 12, 45, 46, 47])) && !(decide (v = 3) && decide (i < 40))
  else if 0x5200 ≤ index ∧ index ≤ 0x527F ∧ sub = 8 then !(decide (v = 3) && !hasDomain (index - 0x5200))
  else true

/-- A binary32 NaN (14 Table DIC-2). -/
def isNan32 (v : Nat) : Bool := decide (bits v 30 23 = 255) && decide (v % 2 ^ 23 ≠ 0)

/-- Checks 8 to 10 of 14 Table DIC-4; none on the staged basin table (01 R28). -/
def rangeCode (s : State) (k v : Nat) (r : ObjRow) : Nat :=
  if isTreeKey k then 0
  else if r.type = .bool then (if 1 < v then abortRange else 0)
  else if r.type = .r32 then (if isNan32 v then abortRange else 0)
  else if upperBound s k r < v then abortAbove
  else if v < r.lo then abortBelow
  else if inSet s k v then 0 else abortRange

/-- The device state that an object's chapter asks for (check 11: 06 R169, 07 R199, R205, 10 R277). -/
def stateCode (s : State) (k v : Nat) (r : ObjRow) : Nat :=
  let index := k / 256
  let ok :=
    (!r.setup || inSetup s) &&
    (if k = key 0x2702 2 then decide (allocatedFutures s = [])
     else if 0x2710 ≤ index ∧ index ≤ 0x2713 ∧ k % 256 ∈ [1, 2, 3, 6] then !poolBusy s (index - 0x2710)
     else if k ∈ [key 0x2A00 9, key 0x2A00 0xA] then decide (extentsWhere s (fun x => decide (x.tier = 2)) = 0)
     else if k ∈ [key 0x2611 2, key 0x2611 3] then decide (v = 0) || decide (getObj s k = 0)
     else true)
  if ok then 0 else abortState

/-! ## Effects -/

/-- A write to a request object: 1 makes the request, 0 has no effect (log 33). -/
def requestWrite (k v : Nat) (s : State) : State := if v = 1 then setObj s k 1 else s

/-- A write of 0x2200.01 (02 R35): while the internal generator is in use it makes or
withdraws a re-adopt request; while TICK_IN is, a 0 waits for the next used edge (02 R36). -/
def selectSource (v : Nat) (s : State) : State :=
  let s := setObj s (key 0x2200 1) v
  if getObj s (key 0x2200 2) = 0 then setObj s (key 0x2200 4) (if v = 1 then 1 else 0)
  else { s with tick := { s.tick with dropSource := decide (v = 0) } }

/-- A write of 0x2200.04 (02 R35). -/
def readopt (v : Nat) (s : State) : State :=
  if v = 0 then setObj s (key 0x2200 4) 0
  else if getObj s (key 0x2200 2) = 1 then s
  else setObj s (key 0x2200 4) 1

/-- A load requested (06 R167): refused with result 0x0C while one is pending. -/
def requestLoad (s : State) : Nat × State :=
  if getObj s (key 0x2610 3) = 1 then (abortRefused, setObj s (key 0x2610 4) 0xC)
  else
    (0, setObj { s with requests := { s.requests with
      loadProgram := getObj s (key 0x2610 1), loadBasin := getObj s (key 0x2610 2) } } (key 0x2610 3) 1)

/-- A brook begins to train when the fabric is enabled (12, 16 Table HST-4). -/
def trainBrooks (s : State) : State :=
  forUpTo 18 (fun k s => if brookState s k = 0 then setObj s (brookKey k 1) 1 else s) s

/-- 0x2C00.02 written: after the boot, enabling starts the training that B8 starts otherwise (log 34). -/
def enableFabric (v : Nat) (s : State) : State :=
  let s := setObj s (key 0x2C00 2) v
  if v = 1 ∧ s.tick.running then trainBrooks s else s

/-- Requests with a result object of their own (check 12). -/
def resultRequest (k v : Nat) (s : State) : Option (Nat × State) :=
  if v ≠ 1 then none
  else if k = key 0x2610 3 then some (requestLoad s)
  else if k = key 0x2A20 4 then some (requestMargin s)
  else if k = key 0x2E10 0xB then some (requestRetire s)
  else if k = key 0x2E30 1 then some (requestActivation s)
  else if k = key 0x3020 3 then some (requestVerify s)
  else none

/-- The objects whose value 1 makes a request, or acts, and whose value 0 has no effect. -/
def oneShot (k : Nat) : Bool :=
  decide (k ∈ [key 0x2110 1, key 0x2610 3, key 0x2611 2, key 0x2611 3, key 0x2A20 4, key 0x2B01 5, key 0x2C01 2,
    key 0x2D02 3, key 0x2E10 0xB, key 0x2E30 1, key 0x3020 3, key 0x3030 3, key 0x3040 4, key 0x3040 5, key 0x3101 4,
    key 0x3101 5, key 0x3101 6, key 0x3110 5]) ||
    (decide (0x5300 ≤ k / 256 ∧ k / 256 ≤ 0x5311) && decide (k % 256 = 0xD))

/-- What a value of 1 does at the objects of `oneShot` that have no result object. -/
def actOne (m k : Nat) (s : State) : State :=
  if k = key 0x2611 2 then
    setObj { s with requests := { s.requests with switchBasin := getObj s (key 0x2611 1) } } k 1
  else if k = key 0x2611 3 then
    setObj { s with requests := { s.requests with clearBasin := getObj s (key 0x2611 1) } } k 1
  else if k = key 0x3030 3 then requestBurn s
  else if k = key 0x3040 4 then lockDebug s
  else if k = key 0x3040 5 then burnDisable s
  else if k = key 0x3101 4 then acceptHandover m s
  else if k = key 0x3101 5 then vacate s
  else if k = key 0x3101 6 then seizeOwnership s
  else if k = key 0x3110 5 then resetComm s
  else if 0x5300 ≤ k / 256 ∧ k / 256 ≤ 0x5311 then raise 53 (.brook (k / 256 - 0x5300)) (retrainBrook (k / 256 - 0x5300) s)
  else setObj s k 1

/-- An accepted write takes effect (14 R376, R379): the abort code of check 12, and the state. -/
def applyWrite (m k v : Nat) (a : Access) (s : State) : Nat × State :=
  match resultRequest k v s with
  | some r => r
  | none =>
    if oneShot k then (0, if v = 1 then actOne m k s else s)
    else if a = .rw then
      (0, { s with copies := mapPut (objDefault k) s.copies (m * 2 ^ 24 + k) v })
    else if k = key 0x2120 1 then (0, failPond raise (physOf s v) (setObj s k v))
    else if k = key 0x2200 1 then (0, selectSource v s)
    else if k = key 0x2200 4 then (0, readopt v s)
    else if k = key 0x2B01 1 then (0, followArea (readRecords (setObj s k v)))
    else if k = key 0x2C00 2 then (0, enableFabric v s)
    else if k = key 0x2D01 1 then (0, setShareArea v s)
    else if k = key 0x2620 4 then (0, setObj s k (v % 512))
    else if k = key 0x2E01 5 then (0, ackMask 0 v s)
    else if k = key 0x2E01 6 then (0, ackMask 64 v s)
    else if k = key 0x2E01 7 then (0, clearMask 0 v s)
    else if k = key 0x2E01 8 then (0, clearMask 64 v s)
    else if k = key 0x2F00 1 then (0, requestPower v m s)
    else if k = key 0x3101 1 then
      (if ownState s ≤ 1 then (0, claimEffect m v s) else (abortOwner, addObj s (key 0x3130 4) 1))
    else if k = key 0x3101 2 then (0, refreshLease s)
    else if k = key 0x3101 3 then (0, nameSuccessor v s)
    else (0, setObj s k v)

/-! ## The checks in order -/

/-- A boot that stopped at B2 serves only the objects of 0x2000 to 0x207F and 0x3000 to 0x30FF (16 R441). -/
def servedIndex (s : State) (index : Nat) : Bool :=
  !s.boot.stopped || decide (0x2000 ≤ index ∧ index ≤ 0x207F) || decide (0x3000 ≤ index ∧ index ≤ 0x30FF)

/-- Checks 1 and 2: the row of an object, or the abort code. -/
def lookup (s : State) (index sub : Nat) : Except Nat ObjRow :=
  if !indexImplemented index || !servedIndex s index then .error abortIndex
  else
    match objRow index sub with
    | none => .error abortSub
    | some r => .ok r

/-- The objects of varying length (14 Table DIC-2). -/
def longType (r : ObjRow) : Bool := decide (typeSize r.type = 0)

/-- A write through the checks of 14 Table DIC-4: the abort code, or 0 and the state after the write. `wide` tells
whether the transport reaches objects of varying length. -/
def dictWrite (wide : Bool) (m index sub len v : Nat) (s : State) : Nat × State :=
  match lookup s index sub with
  | .error c => (c, s)
  | .ok r =>
    let k := key index sub
    if longType r && !wide then (abortType, s)
    else if r.access = .const ∨ r.access = .ro then (abortRo, s)
    else if !mayWrite s m k r.access then (abortOwner, addObj s (key 0x3130 3) 1)
    else if len ≠ typeSize r.type then (abortLength, s)
    else if rangeCode s k v r ≠ 0 then (rangeCode s k v r, s)
    else if stateCode s k v r ≠ 0 then (stateCode s k v r, s)
    else applyWrite m k v r.access s

/-- A read through the checks: the abort code, or 0 and the value's bytes. -/
def dictFetch (wide : Bool) (m index sub : Nat) (s : State) : Nat × List Byte :=
  match lookup s index sub with
  | .error c => (c, [])
  | .ok r =>
    if longType r && !wide then (abortType, [])
    else if r.access = .wo then (abortWo, [])
    else if longType r then (0, dictBytes s index sub)
    else (0, leBytes (dictRead s m index sub r) (typeSize r.type))

/-- An access counted (0x3130.01, .02). -/
def countAccess (code : Nat) (s : State) : State :=
  let s := addObj s (key 0x3130 1) 1
  if code = 0 then s else addObj s (key 0x3130 2) 1

/-! ## Who is served -/

/-- The dictionary is served: from boot stage B3 on (16 Table HST-4), or by the boot ROM after a stop at B2. -/
def dictServed (s : State) : Bool := decide (3 ≤ getObj s (key 0x3010 1)) || s.boot.stopped

/-- The NMT state permits USDO (14 Table DIC-6) and the port is open. -/
def usdoOpen (s : State) (port : Nat) : Bool :=
  portOpen s port && decide (getObj s (key 0x3110 7) = 0x7F ∨ getObj s (key 0x3110 7) = 5) && !s.boot.stopped

/-- A master's access arrives where it is served: over an open port, an up link, or a debug port whose level permits the
direction (14 R378, R382, R391, 16 R452). -/
def reaches (s : State) (m : Nat) (write : Bool) : Bool :=
  dictServed s &&
    (if m = hostMaster then linkUp s
     else if m = debugMaster then decide ((if write then 2 else 1) ≤ s.secure.level)
     else usdoOpen s (m / 256 - 1))

/-- The result cell after a refused cell access (14 Table DIC-9). -/
def noteCell (code index sub : Nat) (s : State) : State :=
  { s with cells := { s.cells with cellAbort := code, cellIndex := index, cellSub := sub,
                                   cellCount := min 255 (s.cells.cellCount + 1) } }

/-- An access to a cell starts at its start and is 4 or 8 bytes wide (14 R389). -/
def cellAligned (off width : Nat) : Bool := decide (off = 0) && decide (width ∈ [4, 8])

/-- The shape of a store to a cell (14 R389): at least as wide as the type, and zero beyond it. -/
def cellShape (r : ObjRow) (width v : Nat) : Nat :=
  if width < typeSize r.type then abortLength
  else if 2 ^ (8 * typeSize r.type) ≤ v then abortRange
  else 0

/-- An access through a cell that has been judged: every refusal is recorded in the result cell (14 R389). -/
def cellDone (code index sub : Nat) (s : State) : State := if code = 0 then s else noteCell code index sub s

/-- A store of the host to a cell of the window, `off` bytes from the cell's start (14 R389). -/
def windowWrite (index sub off width v : Nat) (s : State) : Nat × State :=
  let (code, s) :=
    if !cellAligned off width then (abortLength, s)
    else
      match lookup s index sub with
      | .error c => (c, s)
      | .ok r =>
        if longType r then (abortType, s)
        else if cellShape r width v ≠ 0 then (cellShape r width v, s)
        else dictWrite false hostMaster index sub (typeSize r.type) v s
  (code, cellDone code index sub s)

/-- The 8 bytes of an object's cell: its value, zero-extended, or sign-extended for INTEGER32 (14 R389). -/
def cellValue (r : ObjRow) (bs : List Byte) : Nat :=
  let v := leValue bs
  if r.type = .i32 ∧ 2 ^ 31 ≤ v then v + (2 ^ 64 - 2 ^ 32) else v

/-- A read of `width` bytes by the host, `off` bytes from a cell's start (14 R389): the abort code with the value read, all
ones where it is refused. No row of the opcode table is a read (log 54). -/
def windowRead (index sub off width : Nat) (s : State) : (Nat × Nat) × State :=
  let code := if cellAligned off width then (dictFetch false hostMaster index sub s).1 else abortLength
  let value :=
    match lookup s index sub with
    | .ok r => if code = 0 then cellValue r (dictFetch false hostMaster index sub s).2 else 2 ^ 64 - 1
    | .error _ => 2 ^ 64 - 1
  ((code, value % 2 ^ (8 * width)), cellDone code index sub (countAccess code s))

/-- The mailbox serves an access (14 Table DIC-9). -/
def mailboxBusy (s : State) : Bool := decide (s.now < s.cells.busyUntil)

/-- The cell of abort and busy (14 Table DIC-9). -/
def mailboxStatus (s : State) : Nat := s.cells.abort % 2 ^ 32 + (if mailboxBusy s then 2 ^ 32 else 0)

/-- A read of the result cell (14 Table DIC-9): its word; the count is cleared by the read. -/
def readResultCell (s : State) : Nat × State :=
  let c := s.cells
  (c.cellAbort % 2 ^ 32 + c.cellIndex % 65536 * 2 ^ 32 + c.cellSub % 256 * 2 ^ 48 + c.cellCount % 256 * 2 ^ 56,
   { s with cells := { s.cells with cellCount := 0 } })

/-- A write through the debug port's register (14 R391): 64 bits, of which the type takes its size. -/
def debugWrite (index sub v : Nat) (s : State) : Nat × State :=
  match lookup s index sub with
  | .error c => (c, s)
  | .ok r =>
    if longType r then (abortType, s)
    else dictWrite false debugMaster index sub (typeSize r.type) v s

/-- A write by a master over its own transport: the access is counted, a CAN client is noted in the master table or turned
away when it is full (14 R392) or finds four sessions open (14 R383), and the client gets its answer. `off` is the place of
a host's store in its cell. -/
def masterWrite (m index sub off len v : Nat) (s : State) : State :=
  if !reaches s m true then s
  else
    let s := resumeService s
    if m = hostMaster then
      let r := windowWrite index sub off len v s
      countAccess r.1 r.2
    else if m = debugMaster then
      let r := debugWrite index sub v s
      let s := countAccess r.1 r.2
      { s with debugPort := { s.debugPort with dictIndex := index, dictSub := sub, dictOp := 2, dictAbort := r.1 } }
    else
      let port := m / 256 - 1
      let client := m % 128
      match enterMaster m s with
      | none => sendUsdo port client (.abort 0x05040005) (countAccess 0x05040005 s)
      | some s =>
        if !sessionFree s port client then sendUsdo port client (.abort 0x05040005) (countAccess 0x05040005 s)
        else
          let r := dictWrite true m index sub len v s
          sendUsdo port client (if r.1 = 0 then .done else .abort r.1) (countAccess r.1 r.2)

/-- The width in which a master writes an object of a table row: the host stores 4 bytes, or 8 where the type has them. -/
def naturalWidth (m index sub : Nat) : Nat :=
  match objRow index sub with
  | some r => if m = hostMaster ∧ typeSize r.type < 4 then 4 else typeSize r.type
  | none => 4

/-- A write of one object by a master (14 R376). -/
def writeObject (m index sub v : Nat) (s : State) : Out :=
  if isMaster m then .next (masterWrite m index sub 0 (naturalWidth m index sub) v s) else .fault .noSuchUnit

end Sys2Proof.Machine
end

