-- ==== Sys2Proof/Machine/Can.lean ====
section
/-! DEFINITION. The CAN ports (14 R380 to R388): USDO sessions, NMT, heartbeat, EMCY, status PDOs and bus-off. -/

namespace Sys2Proof.Machine

/-- A command about a CAN port that exists. -/
def onPort (port : Nat) (s : State) (f : State → State) : Out :=
  if port < 2 then .next (f s) else .fault .noSuchUnit

/-- A frame addressed to the device (0x3111.07). -/
def countReceived (port : Nat) (s : State) : State := addObj s (key (0x3111 + port) 7) 1

/-! ## USDO (14 R383) -/

/-- Bytes of one segment of a read (PRESUMED, log 36: the frame's 64 bytes less the header). -/
def segmentSize : Nat := 56

/-- The sessions without that of a client. -/
def endSession (port client : Nat) (s : State) : State :=
  { s with can := { s.can with
      sessions := s.can.sessions.filter fun x => !(decide (x.port = port) && decide (x.client = client)) } }

/-- A session opened or moved on. -/
def putSession (x : Session) (s : State) : State :=
  let s := endSession x.port x.client s
  { s with can := { s.can with sessions := s.can.sessions ++ [x] } }

/-- An abort sent to a client; its session ends. -/
def abortSession (port client code : Nat) (s : State) : State :=
  sendUsdo port client (.abort code) (endSession port client s)

/-- The end of an access: counted, and answered. -/
def answer (port client code : Nat) (o : UsdoAnswer) (s : State) : State :=
  let s := countAccess code s
  if code = 0 then sendUsdo port client o s else abortSession port client code s

/-- A write of an object by a client, checked and applied whole. -/
def clientWrite (port client index sub : Nat) (data : List Byte) (s : State) : State :=
  let m := (port + 1) * 256 + client
  let r := dictWrite true m index sub data.length (leValue data) s
  answer port client r.1 .done r.2

/-- The next segment of an open read. -/
def nextSegment (port client : Nat) (x : Session) (s : State) : State :=
  let part := x.data.take segmentSize
  let rest := x.data.drop segmentSize
  let s := if rest = [] then endSession port client s else putSession { x with data := rest, last := s.now } s
  sendUsdo port client (.data part) s

/-- One segment of an open write; the write is checked and applied when the last one arrives (14 R383). -/
def takeSegment (port client : Nat) (x : Session) (data : List Byte) (last : Bool) (s : State) : State :=
  let all := x.data ++ data
  if x.len < all.length ∨ (last ∧ all.length ≠ x.len) then
    abortSession port client 0x05030000 (countAccess 0x05030000 s)
  else if last then clientWrite port client x.index x.sub all (endSession port client s)
  else sendUsdo port client .done (putSession { x with data := all, last := s.now } s)

/-- A USDO frame of a client that is in the master table. -/
def serveUsdo (port client : Nat) (frame : Usdo) (s : State) : State :=
  let m := (port + 1) * 256 + client
  let opening (f : State → State) : State :=
    if sessionFree s port client then f s
    else abortSession port client 0x05040005 (countAccess 0x05040005 s)
  match frame with
  | .read index sub =>
    opening fun s =>
      let r := dictFetch true m index sub s
      answer port client r.1 (.data r.2) s
  | .write index sub data => opening fun s => clientWrite port client index sub data s
  | .readOpen index sub =>
    opening fun s =>
      let r := dictFetch true m index sub s
      let x : Session := { port := port, client := client, index := index, sub := sub, writing := false,
                           len := r.2.length, data := r.2, last := s.now }
      if r.1 = 0 then nextSegment port client x (countAccess 0 s)
      else abortSession port client r.1 (countAccess r.1 s)
  | .writeOpen index sub len =>
    opening fun s =>
      let x : Session := { port := port, client := client, index := index, sub := sub, writing := true,
                           len := len, data := [], last := s.now }
      sendUsdo port client .done (putSession x s)
  | .readNext =>
    match sessionOf s port client with
    | some x => if x.writing then abortSession port client 0x05030000 s else nextSegment port client x s
    | none => abortSession port client 0x05030000 (countAccess 0x05030000 s)
  | .writeNext data last =>
    match sessionOf s port client with
    | some x =>
      if x.writing then takeSegment port client x data last s else abortSession port client 0x05030000 s
    | none => abortSession port client 0x05030000 (countAccess 0x05030000 s)
  | .abort => endSession port client s
  | .unknown => abortSession port client 0x05040001 (countAccess 0x05040001 s)

/-- USDO_REQUEST (14 R383, R392): a client enters the master table with its first request, or is aborted when the table is
full. -/
def execUsdoRequest (port client : Nat) (frame : Usdo) (s : State) : Out :=
  if port < 2 ∧ 1 ≤ client ∧ client ≤ 127 then
    .next (if !reaches s ((port + 1) * 256 + client) true then s
      else
        let s := countReceived port (resumeService s)
        match enterMaster ((port + 1) * 256 + client) s with
        | none => abortSession port client 0x05040005 (countAccess 0x05040005 s)
        | some s => serveUsdo port client frame s)
  else .fault .noSuchUnit

/-- USDO_SESSION_TIMEOUT (14 R383): more than 1,000 ms without a frame; the abort is sent where the NMT state permits USDO
(Table DIC-6). -/
def execUsdoSessionTimeout (port client : Nat) (s : State) : Out :=
  onPort port s fun s =>
    match sessionOf s port client with
    | none => s
    | some x =>
      let s := countAccess 0x05040000 (advanceTo s (x.last + 1000 * msClk + 1))
      if usdoOpen s port then abortSession port client 0x05040000 s else endSession port client s

/-! ## NMT (14 R382) -/

/-- An NMT command received on a port that takes part in its bus, silent or not (14 R381, R382). -/
def onNmt (port : Nat) (s : State) (f : State → State) : Out :=
  onPort port s fun s => if portListens s port && dictServed s && !s.boot.stopped then f (countReceived port s) else s

/-- NMT_START: operational. -/
def execNmtStart (port : Nat) (s : State) : Out := onNmt port s fun s => setObj s (key 0x3110 7) 5

/-- NMT_STOP: stopped. -/
def execNmtStop (port : Nat) (s : State) : Out := onNmt port s fun s => setObj s (key 0x3110 7) 4

/-- NMT_ENTER_PREOPERATIONAL. -/
def execNmtEnterPreoperational (port : Nat) (s : State) : Out := onNmt port s fun s => setObj s (key 0x3110 7) 0x7F

/-- NMT_RESET_NODE: as reset communication (14 R382). -/
def execNmtResetNode (port : Nat) (s : State) : Out := onNmt port s resetComm

/-- NMT_RESET_COMMUNICATION (14 R382, R400). -/
def execNmtResetCommunication (port : Nat) (s : State) : Out := onNmt port s resetComm

/-! ## Heartbeat and EMCY (14 R385, R386) -/

/-- HEARTBEAT: every producer time both ports carry the NMT state; a time of 0 stops it. -/
def execHeartbeat (s : State) : Out :=
  .next (
    let t := getObj s (key 0x1017 0)
    if t = 0 ∨ !dictServed s then s
    else
      let s := advanceTo s (s.can.heartbeatAt + t * msClk)
      sendBoth false (0x700 + nodeId s) [BitVec.ofNat 8 (getObj s (key 0x3110 7))]
        { s with can := { s.can with heartbeatAt := s.now } })

/-- EMCY_INHIBIT_EXPIRY: the next waiting message is sent and the inhibit time starts again; a port that may send none
keeps it. -/
def execEmcyInhibitExpiry (port : Nat) (s : State) : Out :=
  onPort port s fun s =>
    match mapFind [] s.can.emcy port with
    | [] => s
    | e :: rest =>
      if !portOpen s port || decide (getObj s (key 0x3110 7) ≠ 0x7F ∧ getObj s (key 0x3110 7) ≠ 5) then s
      else
      let s := advanceTo s (mapFind 0 s.can.emcyFree port)
      let s := { s with can := { s.can with emcy := mapPut [] s.can.emcy port [] } }
      let s := emcyOn port e s
      { s with can := { s.can with emcy := mapPut [] s.can.emcy port rest } }

/-! ## Status PDOs (14 R388) -/

/-- The mapped objects of a TPDO: index, sub-index and bytes (14 Table DIC-8). -/
def tpdoMap (n : Nat) : List (Nat × Nat × Nat) :=
  match n with
  | 0 => [(0x2202, 1, 8), (0x2203, 1, 8), (0x2203, 2, 8), (0x2203, 3, 8), (0x2203, 9, 8), (0x2203, 0xA, 8)]
  | 1 => [(0x5000, 0xF, 8), (0x5000, 0x10, 8), (0x2202, 4, 1), (0x3101, 7, 2), (0x3101, 8, 4)]
  | 2 => [(0x2A04, 6, 4), (0x2A02, 1, 2), (0x2A02, 5, 1), (0x2120, 2, 1), (0x2A04, 0xA, 8), (0x2A04, 8, 8)]
  | _ => [(0x2C05, 7, 8), (0x2C05, 8, 8), (0x2C05, 9, 8), (0x2C05, 0xB, 8)]

/-- The mapped values as they are. -/
def tpdoValues (s : State) (n : Nat) : List Nat :=
  (tpdoMap n).map fun x =>
    match objRow x.1 x.2.1 with
    | some r => dictRead s 0 x.1 x.2.1 r
    | none => 0

/-- The 64 bytes of a TPDO with the values of the latest used edge; before the first one, as they are. -/
def tpdoBytes (s : State) (n : Nat) : List Byte :=
  let seen := mapFind [] s.can.tpdoSeen n
  let bs := ((tpdoMap n).zip (if seen = [] then tpdoValues s n else seen)).flatMap fun x => leBytes x.2 x.1.2.2
  bs ++ List.replicate (64 - bs.length) 0

/-- A TPDO sent on both ports. -/
def sendTpdo (n : Nat) (s : State) : State :=
  let id := getObj s (key (0x1800 + n) 1)
  let s := { s with can := { s.can with tpdoLast := mapPut 0 s.can.tpdoLast n (s.now + 1),
                                        tpdoHeld := mapPut false s.can.tpdoHeld n false } }
  sendBoth true (id % 2048) (tpdoBytes s n) s

/-- A TPDO may be sent: operational, and not disabled by its COB-ID. -/
def tpdoOn (s : State) (n : Nat) : Bool :=
  decide (getObj s (key 0x3110 7) = 5) && !bitAt (getObj s (key (0x1800 + n) 1)) 31

/-- The instant at which the inhibit time of a TPDO ends. -/
def inhibitEnd (s : State) (n : Nat) : Nat :=
  match mapFind 0 s.can.tpdoLast n with
  | 0 => 0
  | t + 1 => t + getObj s (key (0x1800 + n) 3) * 125000

/-- TPDO_SEND (14 R388): sent, or held back by its inhibit time. -/
def triggerTpdo (n : Nat) (s : State) : State :=
  if !tpdoOn s n then s
  else if s.now < inhibitEnd s n then
    { s with can := { s.can with tpdoHeld := mapPut false s.can.tpdoHeld n true } }
  else sendTpdo n s

/-- The mapped values of the used edge; TPDO2 to TPDO4 are due when one has changed. -/
def tpdoEdge (s : State) : State :=
  forUpTo 4 (fun n s =>
    let vs := tpdoValues s n
    let old := mapFind [] s.can.tpdoSeen n
    let s := { s with can := { s.can with tpdoSeen := mapPut [] s.can.tpdoSeen n vs } }
    if n = 0 ∨ vs = old then s else triggerTpdo n s) s

/-- TPDO_INHIBIT_EXPIRY: a TPDO that was held back is sent. -/
def execTpdoInhibitExpiry (n : Nat) (s : State) : Out :=
  if n < 4 then
    .next (if mapFind false s.can.tpdoHeld n then
      let s := advanceTo s (inhibitEnd s n)
      if tpdoOn s n then sendTpdo n s
      else { s with can := { s.can with tpdoHeld := mapPut false s.can.tpdoHeld n false } }
    else s)
  else .fault .noSuchUnit

/-- TPDO_EVENT_TIMER: the event timer of a TPDO has passed since it was last sent: it is sent
subject to its inhibit time; 0 disables it. -/
def execTpdoEventTimer (n : Nat) (s : State) : Out :=
  if n < 4 then
    .next (
      let t := getObj s (key (0x1800 + n) 5)
      if t = 0 ∨ !tpdoOn s n then s
      else triggerTpdo n (advanceTo s (mapFind 0 s.can.tpdoLast n - 1 + t * msClk)))
  else .fault .noSuchUnit

/-! ## Bus-off (14 R384) -/

/-- Source 56's cause while both ports are bus-off. -/
def followBus (s : State) : State :=
  followCause 56 (decide (getObj s (key 0x3111 2) = 2) && decide (getObj s (key 0x3112 2) = 2)) s

/-- BUS_OFF: the port stops; the event is counted. -/
def execBusOff (port : Nat) (s : State) : Out :=
  onPort port s fun s =>
    if getObj s (key (0x3111 + port) 2) = 2 then s
    else followBus (addObj (setObj s (key (0x3111 + port) 2) 2) (key (0x3111 + port) 5) 1)

/-- BUS_OFF_RECOVERY: 128 occurrences of 11 recessive bits have passed; the error counts start again. -/
def execBusOffRecovery (port : Nat) (s : State) : Out :=
  onPort port s fun s =>
    if getObj s (key (0x3111 + port) 2) = 2 then
      let s := setObj (setObj s (key (0x3111 + port) 3) 0) (key (0x3111 + port) 4) 0
      followBus (setObj s (key (0x3111 + port) 2) 0)
    else s

end Sys2Proof.Machine
end

