-- ==== Sys2Proof/Machine/Faults.lean ====
section
/-! DEFINITION. Escalation, watchdogs and repairs (15 R409, R413, R417 to R425; 01 R12 to R15, R173 of 06). -/

namespace Sys2Proof.Machine

/-! ## Row repair (15 R421, R422) -/

/-- The bank of a row: pseudo-channel and bank within it (15 R421). -/
def bankKey (row : Nat) : Nat :=
  let pc := row / 2 ^ 40
  pc * 2 ^ 20 + Config.bankOf pc (row % 2 ^ 40) % 2 ^ 20

/-- A row repair asked for: it waits in order of request (15 R421). -/
def requestRowRepair (row : Nat) (s : State) : State :=
  if row ∈ s.tiers.repairs then s
  else { s with tiers := { s.tiers with repairs := s.tiers.repairs ++ [row] } }

/-- A bank without a spare row left: its pseudo-channel becomes degraded (15 R421, R422). -/
def rowsExhausted (row : Nat) (s : State) : State := degrade 0 (row / 2 ^ 40) (addObj s (key 0x2E10 6) 1)

/-- One row repaired with a spare row of its bank (15 R421); with none left it stays as it is. -/
def repairRow (row : Nat) (s : State) : State :=
  let k := bankKey row
  let spare := Config.spareRows (row / 2 ^ 40) (k % 2 ^ 20)
  let used := mapFind 0 s.tiers.spareRows k
  let s := { s with tiers := { s.tiers with repairs := s.tiers.repairs.filter (· ≠ row) } }
  let use (s : State) : State :=
    { s with tiers := { s.tiers with spareRows := mapPut 0 s.tiers.spareRows k (used + 1) } }
  if used < spare then
    let s := addObj { use s with tiers := { (use s).tiers with rows := mapErase s.tiers.rows row } } (key 0x2E10 3) 1
    if used + 1 = spare then rowsExhausted row s else s
  else if used = 0 then rowsExhausted row (use s)
  else s

/-- The guard band of the tick in progress (02 R37). -/
def guardBand (s : State) : Nat := getObj s (key 0x2201 4) - getObj s (key 0x2201 6)

/-- ROW_REPAIR (15 R421): one each tick at its D_s when the guard band suffices; at once in the setup regime. -/
def execRowRepair (s : State) : Out :=
  .next (match s.tiers.repairs with
    | [] => s
    | row :: _ =>
      if inSetup s then repairRow row s
      else if s.tick.committed && !s.tick.repaired && decide (162500 ≤ guardBand s) then
        repairRow row { s with tick := { s.tick with repaired := true } }
      else s)

/-! ## Escalation (15 R409, Table FLT-2) -/

/-- The repair of a source (15 Table FLT-2). -/
def repairSource (i : Nat) (s : State) : State :=
  if i = 5 ∨ i = 12 then failPond raise (getObj s (srcKey i 0xD)) s
  else if i = 45 then
    let k := mapFind 0 s.weir.memberOf 45
    startEvacuation (k / 1024) (groupOf (k / 1024) (k % 1024)) s
  else if i = 46 then
    forEach s.tiers.degraded (fun k s => startEvacuation (k / 1024) (groupOf (k / 1024) (k % 1024)) s) s
  else if i = 47 then requestRowRepair (mapFind 0 s.weir.rowOf 47) s
  else s

/-- An escalation of source 45 leaves its member degraded, whatever the target (15 R422). -/
def noteEscalation (i : Nat) (s : State) : State :=
  let k := mapFind 0 s.weir.memberOf 45
  if i = 45 then degrade (k / 1024) (k % 1024) s else s

/-- The reset cause of a chip reset for a source (15 Table FLT-7): a service core that was lost has its own. -/
def causeOfReset (s : State) (i : Nat) : Nat := if i = 67 ∧ 3 ≤ s.weir.restarts.length then 4 else 3

/-- The service target of a source at the expiry of its timer. -/
def serviceTarget (i : Nat) (s : State) : State :=
  match getObj s (srcKey i 7) with
  | 1 => driveErrN i s
  | 2 => driveErrN i (repairSource i s)
  | 3 => chipReset (causeOfReset s i) i true s
  | _ => s

/-- ESCALATION_EXPIRY (15 R409): a set source that is not acknowledged escalates, once for each time it is set. While the
service core is away its escalations wait (15 R424). -/
def execEscalationExpiry (i : Nat) (s : State) : Out :=
  if i < 128 then
    .next (
      let t := mapFind 0 s.weir.timers i
      if t = 0 ∨ !sourceSet s i ∨ getObj s (srcKey i 3) = 1 ∨ i ∈ s.weir.escalated ∨ s.own.frozen.isSome then s
      else
        let s := stopTimer i (advanceTo s (t - 1))
        let s := { s with weir := { s.weir with escalated := i :: s.weir.escalated } }
        serviceTarget i (noteEscalation i (addObj (addObj s (srcKey i 0xC) 1) (key 0x2E01 0xA) 1)))
  else .fault .noSuchUnit

/-! ## The pond watchdog (15 R417) -/

/-- A running command that the pond watchdog watches: of classes 0x1 to 0x7 and 0xB, but no PFMARK that waits. -/
def watched (r : Running) : Bool :=
  (decide (1 ≤ classOf r.cmd ∧ classOf r.cmd ≤ 7) || decide (classOf r.cmd = 0xB)) &&
    !(decide (classOf r.cmd = 4 ∧ opcodeOf r.cmd = 2) && pfWait r.cmd)

/-- A running command has writes that wait for the link (15 R417). -/
def heldByLink (s : State) (ph : Nat) (r : Running) : Bool :=
  s.host.waiting.any fun p => decide (p.owner = some (ph, r.id)) && decide (p.cause = 3)

/-- The instant from which a running command's watchdog time counts: clk of exempt waits are left out (15 R417). -/
def watchStart (r : Running) : Nat := r.started + r.exempt

/-- POND_WATCHDOG_TIMEOUT (15 R417): a command that has run for the watchdog time, and does not wait for the link, sets source 14, which declares the pond
failed; it stands still while a member of the gang is halted (16 R454). -/
def execPondWatchdogTimeout (p : Nat) (s : State) : Out :=
  onPond p s fun ph =>
    match minBy watchStart ((pondOf s ph).running.filter fun r => watched r && !heldByLink s ph r) with
    | none => s
    | some r =>
      if (gangMembers s p).any fun l => (pondOf s (physOf s l)).halt.isSome then s
      else raise 14 (.pond ph) (advanceTo s (watchStart r + getObj s (key 0x2E00 4) * msClk))

/-! ## Spare copies and reloads (01 R12, R15; 06 R173; 15 R413) -/

/-- The bank contents as the images give them (01 R12). -/
def imageBanks (pd : Pond) : NMap (List Resident) :=
  pd.banks.map fun e => (e.1, e.2.map fun r => { r with damaged := [] })

/-- The registers of a pond that takes a logical number (06 R173): image values of every resident program, then the
staging record's values for every register of the applied mask. -/
def spareRegisters (s : State) (l : Nat) (k : Core) (banks : NMap (List Resident)) : Core :=
  let rs := (banks.flatMap (·.2)).map fun r => { r with image := { r.image with flags := withBit r.image.flags 2 false } }
  let k := initRegisters k rs
  let a := stagingAt l
  if !mappedAt s a then k
  else
    let mask := readLe s (a + 2080) 32
    ((List.range 256).filter fun r => bitAt mask r && decide (24 ≤ r)).foldl
      (fun k r => setParam k r (BitVec.ofNat 64 (readLe s (a + 8 * r) 8))) k

/-- One table of the copy: valid when its image can be read and is valid (01 R12, 05 R131). -/
def copyTable (l ph t : Nat) (s : State) : State :=
  let run : Run := (tableSlot l t, 1024)
  let bs := readBytes s run.1 1024
  if !unitMapped s [run] || unitPoisoned s [run] || imageInvalid bs then noteTable l t false s
  else modPond s ph fun pd => { pd with tables := mapPut Table.invalid pd.tables t { valid := true, bytes := bs } }

/-- The copy of R12 into a pond: banks, registers and the tables of a logical number that its record names (05 R131). -/
def copyInto (l src dst : Nat) (s : State) : State :=
  let banks := imageBanks (pondOf s src)
  let bank := (pondOf s src).core.activeBank
  let s := setPond s dst { Pond.reset with
    banks := banks, core := spareRegisters s l { Core.reset with activeBank := bank } banks, powered := true }
  forEach (mapFind [] s.map.tables l) (copyTable l dst) s

/-- A replacement in the list replaced by another. -/
def setReplacement (r r' : Replacement) (s : State) : State :=
  { s with map := { s.map with replacements := s.map.replacements.map fun q => if q = r then r' else q } }

/-- SPARE_COPY_DONE (01 R12, R15): the copy that runs, the oldest one not complete, ends; a spare that fails its
self-check retires and the replacement starts again. -/
def execSpareCopyDone (ok : Bool) (s : State) : Out :=
  .next (match s.map.replacements.find? fun r => !r.copied with
    | none => s
    | some r =>
      match r.spare with
      | none => s
      | some sp =>
        if ok then setReplacement r { r with copied := true } (copyInto r.logical r.failed sp s)
        else if r.reload then s
        else spareFailed raise sp s)

/-- A replacement whose copy is complete, at a used edge (01 R12): the map entry switches, the spare becomes active and
the failed pond retires; without a spare its number becomes absent (01 R14); a reloaded pond returns to service (15
R413). -/
def finishReplacement (r : Replacement) (s : State) : State :=
  let s := { s with map := { s.map with replacements := s.map.replacements.filter fun q => decide (q ≠ r) } }
  match r.spare with
  | none => makeAbsent r.logical (setPond (retirePond r.failed (settlePond r.failed s)) r.failed Pond.reset)
  | some sp =>
    if r.reload then s
    else
      let s := setPond (retirePond r.failed (settlePond r.failed s)) r.failed Pond.reset
      let s := setPondState s sp .active
      let s := closeContexts r.logical { s with map := { s.map with toPhys := mapPut 0xFF s.map.toPhys r.logical sp } }
      { s with nvm := { s.nvm with spareMappings := s.nvm.spareMappings + 1 } }

/-- SPARE_MAP_SWITCH and BLOCK_RESET_RETURN at a used edge; residence follows the ponds in service. -/
def switchSpares (s : State) : State :=
  let done := s.map.replacements.filter (·.copied)
  if done = [] then s else settleDirectories (forEach done finishReplacement s)

/-! ## Power phases, service core and units (15 R418, R423 to R425) -/

/-- POWER_PHASE_FAILURE (15 R423). -/
def execPowerPhaseFailure (s : State) : Out :=
  .next (
    let p := getObj s (key 0x2E20 3)
    if p = 0 then s
    else
      let s := raise 61 .chip (addObj (setObj s (key 0x2E20 3) (p - 1)) (key 0x2E20 4) 1)
      if p - 1 < 22 then raiseCause 62 .chip s else s)

/-- SERVICE_CORE_WATCHDOG (15 R424): the service core restarts; a third restart within 60 s is treated as source 67. -/
def execServiceCoreWatchdog (s : State) : Out :=
  .next (
    let recent := s.now :: s.weir.restarts.filter fun t => decide (s.now < t + 60000 * msClk)
    let s := pauseService { s with weir := { s.weir with restarts := recent } }
    let s := raise 65 .chip (addObj s (key 0x2E02 6) 1)
    if 3 ≤ recent.length then
      let s := raise 67 .chip s
      if s.weir.restarts = [] then setObj s (key 0x2E02 1) 4 else s
    else s)

/-- ACTIVATION_TIMEOUT (15 R425): the new image has not resumed within 200 ms, or fails its self-check; the previous image
is restarted and the staged slot is marked empty (16 R447). -/
def execActivationTimeout (s : State) : Out :=
  .next (match s.boot.activating with
    | none => s
    | some t =>
      let s := advanceTo s (t + 200 * msClk)
      let s := match s.own.frozen with
        | some f => setObj (resumeClocks (s.now - f) s) (key 0x2E30 3) ((s.now - f) / msClk)
        | none => s
      let s := { s with boot := { s.boot with
        activating := none, staged := false, slots := mapInsert s.boot.slots (1 - s.boot.active) { image := [] } } }
      firmwareSignal (raise 66 .chip (setObj s (key 0x2E30 2) 2)))

/-- CHIP_ENGINE_UNIT_FAILED (15 R418): a unit of a chip-level class goes out of service; source 69 is active while any
is. -/
def execChipEngineUnitFailed (cls unit : Nat) (s : State) : Out :=
  if 8 ≤ cls ∧ cls ≤ 0xA ∧ unit < unitsOf s cls then
    .next (
      if (cls, unit) ∈ s.weir.units then s
      else
        let s := { s with weir := { s.weir with units := s.weir.units ++ [(cls, unit)] } }
        let s := raiseCause 69 (.unit cls unit) s
        if s.weir.units = [] ∧ causeActive s 69 = true then endCause 69 s else s)
  else .fault .noSuchUnit

end Sys2Proof.Machine
end

