-- ==== Sys2Proof/Machine/Commit.lean ====
section
/-! DEFINITION. The end of serving: late and stopped steps, the output commit, and the tick completion record (02 R43,
R57, R60; 07 R200 to R202, R216; 16 R435). -/

namespace Sys2Proof.Machine

/-! ## Unfinished steps (02 R57) -/

/-- The certified cost of entries that were not fetched: C_step for each, and C_fix where one is the first of its program
on the gang (02 R49). -/
def unfetchedCost (s : State) (es : List WorkEntry) : Nat :=
  (es.map fun e => (dirOf s e.program).cStep + (if e.first then (dirOf s e.program).cFix else 0)).sum

/-- The certified remaining cost of the group that a gang runs (02 R57). -/
def remainingCost (s : State) (gg : Gang) : Nat :=
  match gg.group with
  | [] => 0
  | e :: _ =>
    let d := dirOf s e.program
    (if e.first then d.cFix else 0) + gg.group.length * d.cStep - gg.offset

/-- What a gang has not completed at D_s is carried over (02 R57): the group that it runs, and the entries that it has not
fetched, laid out behind one another from the start of the tick to come; their remaining cost is the carry. -/
def carryOver (s : State) (gg : Gang) (rest : List WorkEntry) : Gang :=
  let left := remainingCost s gg
  let head := match gg.group ++ rest with
    | e :: _ => gg.firstIndex + e.position
    | [] => 0
  let k : Carry := { index := head, first := gg.firstIndex, bank := tickNumber s % 2, tick := tickNumber s,
                     remaining := left + unfetchedCost s rest, base := gg.offset }
  { gg with carry := some k, carryRunning := decide (gg.group ≠ []), next := gg.entries.length,
            group := gg.group.map (fun e => { e with planned := 0 }), late := replan (scaled s left) rest }

/-- A step is late (02 R57): carried, counted, with source 32. -/
def markLate (g f : Nat) (s : State) : State :=
  let s := setStep s f { stepOf s f with carried := true }
  let s := setFuture s f { futureOf s f with carried := true }
  raise 32 (.gang g) (countStep f 0xD (addObj s (key 0x2203 9) 1))

/-- Every step of a gang that has not completed is carried over; entries that a failed prologue or a repair has dropped
receive status 0x0B (02 R57, 06 R176). -/
def carryGang (g : Nat) (s : State) : State :=
  let gg := gangOf s g
  let rest := gg.entries.drop gg.next
  let s := giveAbortedAll raise g ((rest.filter (·.dropped)).map (·.future)) s
  let kept := rest.filter fun e => !e.dropped
  if gg.group = [] ∧ kept = [] then setGang s g { gg with next := gg.entries.length }
  else
    forEach ((gg.group ++ kept).map (·.future)) (markLate g) (setGang s g (carryOver s gg kept))

/-- What D_s does on one gang (02 R57): steps that were carried already are stopped or, unfetched, receive status 0x0B; every
other step that has not completed is carried over. -/
def endServing (g : Nat) (s : State) : State :=
  let gg := gangOf s g
  let s := if gg.carryRunning then stopGang raise g s else s
  let s := giveAbortedAll raise g (gg.late.map (·.future)) (setGang s g { gangOf s g with late := [] })
  carryGang g s

/-! ## Output headers (02 R43, Tables TCK-4, TCK-5) -/

/-- The status that a future's header gets in this commit. -/
def commitStatus (s : State) (r : StepRec) : Nat :=
  if r.status = 0x0B then 0x0B
  else if r.carried then
    if !r.done then 8 else if r.tick = tickNumber s then 8 else if r.status = 1 then 9 else 0xA
  else r.status

/-- A status with a payload, which advances its future (02 Table TCK-5). -/
def advances (st : Nat) : Bool := decide (st ∈ [1, 2, 3, 9, 0xA])

/-- The header of a future: what Table TCK-4 does not give for its status is a free value (log 10). -/
def headerBytes (s : State) (r : StepRec) (st : Nat) (v w : W64) : List Byte :=
  let admitted := advances st || decide (st = 8 ∨ st = 0x0B)
  let tick := if admitted then r.tick else w.toNat
  let selector := if advances st then r.selector else bits v.toNat 15 8
  let finish := if advances st then (2 ^ 32 + r.finish - s.tick.lastEdge % 2 ^ 32) % 2 ^ 32 else bits v.toNat 63 32
  leBytes (tick % 2 ^ 32 * 2 ^ 32 + bits v.toNat 31 16 * 2 ^ 16 + selector % 256 * 2 ^ 8 + st) 8 ++
    leBytes r.tag 8 ++ leBytes finish 4 ++ leBytes (tick / 2 ^ 32) 4 ++ leBytes 0 40

/-- The dictionary counter of a status (0x2203). -/
def statusCounter (st : Nat) : Option Nat :=
  match st with
  | 1 => some 1
  | 2 => some 2
  | 3 => some 3
  | 4 => some 4
  | 5 => some 5
  | 6 => some 6
  | 0xC => some 7
  | 7 => some 8
  | _ => none

/-- A future whose PAPPEND met the context limit is halted at the commit of that tick (07 R216). -/
def contextHalt (f : Nat) (r : StepRec) (s : State) : State :=
  if r.contextHit then
    let s := setStep s f { stepOf s f with contextHit := false }
    addObj (setFuture s f { futureOf s f with state := 3 }) (key 0x2720 4) 1
  else s

/-- The commit of one allocated future: header, counters, advance or drop (02 R43, 07 R200 to R202, R216). -/
def commitFuture (f : Nat) (s : State) : State :=
  let r := stepOf s f
  let st := commitStatus s r
  let (v, s) := freeWord s
  let (w, s) := freeWord s
  let s := deviceWrite s (outputBank s + f * getObj s (key 0x2205 4)) (headerBytes s r st v w)
  let s := match statusCounter st with
    | some sub => addObj s (key 0x2203 sub) 1
    | none => s
  let s := if st = 2 ∨ st = 0xA ∧ r.status = 2 then countStep f 0xB s else s
  let s := if advances st then advanceFuture f s else if st = 0 ∨ st = 8 then s else dropPending f s
  let s := if st = 8 then s
    else
      let s := setFuture s f { futureOf s f with carried := false }
      setStep s f { stepOf s f with carried := false }
  contextHalt f r s

/-- The commit of every allocated future, ascending. -/
def commitAll (s : State) : State := forEach (allocatedFutures s) commitFuture s

/-! ## The completion record (02 R60, Table TCK-9) -/

/-- Futures whose header in this commit carries one of the given statuses. -/
def statusCount (st : List Nat) (sts : List Nat) : Nat := (sts.filter fun x => decide (x ∈ st)).length

/-- Clk from E to the latest gang's last serving entry (02 Table TCK-9). -/
def lastFinish (s : State) : Nat :=
  (s.gangs.map fun e => e.2.finish - s.tick.lastEdge).foldl max 0

/-- The flags of the record. -/
def recordFlags (s : State) : Nat :=
  (if inSetup s then 1 else 0) + (if s.tick.haltSeen then 2 else 0) + (if s.tick.lostSource then 4 else 0) +
    (if isActive s then 0 else 8) + (if s.tick.firstRecord then 16 else 0)

/-- The record of a commit with the given statuses. -/
def completionBytes (s : State) (sts : List Nat) : List Byte :=
  leBytes (tickNumber s) 8 ++ leBytes (statusCount [1] sts) 4 ++ leBytes (statusCount [2, 3] sts) 4 ++
    leBytes (statusCount [4, 5, 6, 0xC] sts) 4 ++ leBytes (statusCount [9, 0xA] sts) 4 ++
    leBytes (statusCount [0xB] sts) 4 ++ leBytes (statusCount [7] sts) 4 ++ leBytes (lastFinish s) 4 ++
    leBytes s.tick.build 4 ++ leBytes (recordFlags s) 1 ++ leBytes 0 23

/-- A mirror write is counted, and counted again where the host rejects it, which is a free value (log 54). -/
def countMirror (s : State) : State :=
  let u := addObj { s with fresh := s.fresh + 1 } (key 0x3001 3) 1
  if Config.mirrorRejected s.fresh then addObj u (key 0x3001 4) 1 else u

/-- COMPLETION_MIRROR_WRITE (16 R435). -/
def mirrorRecord (i : Nat) (bs : List Byte) (s : State) : State :=
  if getObj s (key 0x3001 2) = 1 ∧ linkUp s then
    countMirror (send s (.mirror (getObj s (key 0x3001 1) + i % 256 * 64) bs))
  else s

/-- COMPLETION_RECORD (02 R60): the record, its mirror, the write index, and the interrupt. -/
def writeRecord (sts : List Nat) (s : State) : State :=
  let i := getObj s (key 0x2205 8)
  let bs := completionBytes s sts
  let s := deviceWrite s (0xFF02AB400000 + 64 * i) bs
  let s := setObj { s with tick := { s.tick with firstRecord := false } } (key 0x2205 8) ((i + 1) % 256)
  let s := mirrorRecord i bs s
  if getObj s (key 0x2207 1) = 1 then signalVector 0 s else s

/-- Row repairs that this tick's guard band leaves waiting (15 R421). -/
def deferRepairs (s : State) : State :=
  if !inSetup s && decide (s.tiers.repairs ≠ []) && decide (guardBand s < 162500) then addObj s (key 0x2E10 5) 1
  else s

/-- SERVING_END (02 R57, R43, R60): at D_s unfinished steps are carried over or stopped; then the commit and, 12,500 clk
after D_s, the completion record and TPDO1. -/
def execServingEnd (s : State) : Out :=
  .next (
    if !s.tick.latched || s.tick.committed then s
    else
      let s := advanceTo s (s.tick.lastEdge + servingEndAt s)
      let s := forEach (mapKeys s.gangs) endServing s
      let sts := (allocatedFutures s).map fun f => commitStatus s (stepOf s f)
      let s := commitAll { s with tick := { s.tick with committed := true } }
      let s := deferRepairs (advanceTo s (s.tick.lastEdge + servingEndAt s + 12500))
      triggerTpdo 0 (writeRecord sts s))

end Sys2Proof.Machine
end

