-- ==== Sys2Proof/Machine/Edge.lean ====
section
/-! DEFINITION. The used edge: where tick edges come from (02 R32 to R36, 16 R442) and all that waits for one (01 R28,
R29; 06 R155, R169, R183; 07 R210, R214; 10; 11 R316; 12 R341; 13 R360 to R362; 15 R408, R410, R419, R420, R425; 17
R461, R470). -/

namespace Sys2Proof.Machine

/-! ## Counters captured at the edge (03 R87, 01 R27) -/

/-- The logical numbers in service that a basin contains (01 R27). -/
def basinPonds (s : State) (b : Nat) : List Nat :=
  (List.range (logicalCount s)).filter fun l =>
    inSubtree s.tree b (homeBasin s.tree l) && decide (physOf s l ≠ 0xFF)

/-- The busy counter of a basin: the sum over its ponds (01 R27, 0x50bb.0E). -/
def basinBusy (s : State) (b : Nat) : Nat :=
  ((basinPonds s b).map fun l => getObj s (key (0x4000 + physOf s l) 5)).sum

/-- The pond-level sources of a basin, with the basin-level ones raised against it (01 R27, 0x50bb.0F, .10). -/
def basinFaults (s : State) (b sub : Nat) : Nat :=
  (basinPonds s b).foldl (fun w l => w ||| getObj s (key (0x4000 + physOf s l) sub))
    (if sub = 8 then mapFind 0 s.weir.basins b else 0)

/-- The counts of a member, for the edge (0x2A30.04, .05, .08). -/
def memberCounts (e : Nat × Member) : List (Nat × Nat) :=
  let k := memberKey (e.1 / 1024) (e.1 % 1024)
  [(k 4, e.2.corrected), (k 5, e.2.uncorrectable), (k 8, e.2.recals)]

/-- The busy counter and the source masks of a basin, which are sums over the ponds it contains: a disabled basin contains
none (01 R27). -/
def captureBasin (b : Nat) (s : State) : State :=
  if basinEnabled s.tree b then
    setObj (setObj (setObj s (key (0x5000 + b) 0xE) (basinBusy s b)) (key (0x5000 + b) 0xF) (basinFaults s b 8))
      (key (0x5000 + b) 0x10) (basinFaults s b 9)
  else
    setObj (setObj (setObj s (key (0x5000 + b) 0xE) 0) (key (0x5000 + b) 0xF) (mapFind 0 s.weir.basins b))
      (key (0x5000 + b) 0x10) 0

/-- A wait goes on from an instant at which it has been counted. -/
def resumeWait (now : Nat) (w : Option (Nat × Nat)) : Option (Nat × Nat) := w.map fun a => (now, a.2)

/-- The waits of readers from outside, of the loader and of parked writes, counted up to the edge. -/
def settleWaits (s : State) : State :=
  let s := countWait s.requests.loadWaiting (forEach s.tiers.reads (fun r => countWait r.waiting) s)
  let s := forEach s.fabric.creditSince (fun e s => addObj s (key 0x2C05 5) (s.now + 1 - e.2))
    (forEach s.host.waiting countPark s)
  { s with requests := { s.requests with loadWaiting := resumeWait s.now s.requests.loadWaiting },
           tiers := { s.tiers with reads := s.tiers.reads.map fun r => { r with waiting := resumeWait s.now r.waiting } },
           fabric := { s.fabric with creditSince := s.fabric.creditSince.map fun e => (e.1, s.now + 1) },
           host := { s.host with waiting := s.host.waiting.map fun p => { p with since := s.now } } }

/-- The clk of what is under way at the edge, counted before the counters are captured and the settings change: waits, busy
engines, the charges of sections and tasks, and dispatch that waits for a switch-out (03 R87, 13 R357, R363, R368). -/
def settleEdge (s : State) : State :=
  let s := forEach (mapKeys s.ponds) (fun ph s => chargeSection ph (settlePond ph s)) (settleWaits s)
  let s := forEach (mapKeys s.shares.runs) (fun g s =>
    chargeTask g (match runOf s g with
      | some r => r.saving || r.restoring
      | none => false) s) s
  moversAtEdge (forEach (mapKeys s.gangs) (fun g s => countDispatchWait g true s) s)

/-- Every counter captured at the edge (R87): after the edge's own work, so that what the edge did is in it (DEDUCED,
log 42). -/
def captureCounters (s : State) : State :=
  let s := forUpTo 256 captureBasin s
  let counts := s.tiers.members.flatMap memberCounts
  { s with captured := counts.foldl (fun m e => mapPut 0 m e.1 e.2) s.dict }

/-! ## Tick parameters (02 R36, R37) -/

/-- The phases of a tick of arithmetic period `t` and guard band `g` (02 R37). -/
def setPhases (t g : Nat) (s : State) : State :=
  let ds := t - guardOf t g
  setObj (setObj (setObj s (key 0x2201 4) t) (key 0x2201 5) (ds - serveStart)) (key 0x2201 6) ds

/-- TICK_PARAMETER_APPLY (02 R36): the settings come into force, a source select of 0 among them. -/
def applyParameters (s : State) : State :=
  let s := if s.tick.dropSource && decide (getObj s (key 0x2200 2) = 1) then setObj s (key 0x2200 2) 0 else s
  let s := { s with inForce := s.dict, tick := { s.tick with dropSource := false } }
  let us := if getObj s (key 0x2200 2) = 1 then getObj s (key 0x2201 2) else getObj s (key 0x2201 1)
  setPhases (us * usClk) (getObj s (key 0x2201 3)) s

/-! ## Regime, derating, power and firmware -/

/-- DERATE_UPDATE (15 R419). -/
def updateDerate (s : State) : State :=
  setObj s (key 0x2E00 7) (derateOf (setsOut s) (getObj s (key 0x2E20 3)))

/-- A regime comes into force (15 R408): timers stop, and on entry to the service regime every set source that is not
acknowledged starts a fresh one. -/
def enterRegime (v : Nat) (s : State) : State :=
  let s := { setObj s (key 0x2E00 1) v with weir := { s.weir with timers := [] } }
  if v = 0 then
    forUpTo 72 (fun i s => if sourceSet s i && decide (getObj s (srcKey i 3) = 0) then startTimer i s else s) s
  else s

/-- REGIME_CHANGE at a used edge. -/
def changeRegime (s : State) : State :=
  let v := getObj s (key 0x2E00 2)
  if v = getObj s (key 0x2E00 1) then s else enterRegime v s

/-- Every running task is asked to stop (17 R461). -/
def stopAllTasks (s : State) : State := forEach (mapKeys s.shares.runs) requestStop s

/-- POWER_ENTRY_BEGIN (17 R461): a requested entry to a deeper state waits for carried steps, is refused while WAKE_N is
asserted, or begins. -/
def beginEntry (s : State) : State :=
  match s.power.request with
  | none => s
  | some (v, _) =>
    if getObj s (key 0x2F00 3) ≠ 0 ∨ v ≤ getObj s (key 0x2F00 2) then s
    else if s.gangs.any fun e => holdsCarried e.2 then setObj s (key 0x2F00 4) 2
    else if getObj s (key 0x2F00 6) = 1 then
      let s := { s with power := { s.power with request := none } }
      setObj (addObj (setObj s (key 0x2F00 4) 1) (key 0x2F00 5) 1) (key 0x2F00 1) (getObj s (key 0x2F00 2))
    else
      let s := { s with power := { s.power with request := none, target := v, wakeStart := s.now } }
      stopAllTasks (setObj (setObj s (key 0x2F00 4) 0) (key 0x2F00 3) 1)

/-- FIRMWARE_HANDOVER (15 R425): the service core hands over to the staged image. -/
def handover (s : State) : State :=
  if getObj s (key 0x2E30 1) = 1 then
    pauseService { setObj s (key 0x2E30 1) 0 with boot := { s.boot with activating := some s.now } }
  else s

/-! ## The used edge (02, 01 R29) -/

/-- Peer counters of every gang on which no section is in progress (06 R155). -/
def clearPeers (s : State) : State :=
  let gs := (enabledBasins s).flatMap fun b => (basinGangs s b).map (·.headD 0)
  forEach gs (fun g s => if gangQuiet s g then zeroPeers g s else s) s

/-- The holds of the array-start stagger released (17 R470). -/
def releaseGates (s : State) : State :=
  forEach (s.map.toPhys.map (·.2)) (fun ph s =>
    if (pondOf s ph).gated then modPond s ph fun pd => { pd with gated := false } else s) s

/-- What waits for the edge, in order (01 R29; 06 R169). -/
def edgeWork (s : State) : State :=
  let s := switchSpares s
  let s := basinCommit s
  let s := rewriteSlots (bankClear (bankSwitch s))
  let s := checkWatermarks (forUpTo 4 settlePool (returnPages (tickNumber s) s))
  let s := stopServingTasks s
  let s := fabricCommit (numericsEdge s)
  let s := updateHolds (applyTaskRequest s)
  let s := changeRegime (updateDerate s)
  let s := handover (beginEntry s)
  clearPeers (retryEvacuation s)

/-- The pulse on TICK_OUT (02 R32): it starts within 8 clk of the edge, at an instant that is a free value (log 10), and is
high for 1,250 clk; none while the pads are latched (17 R468). -/
def pulseTickOut (s : State) : State :=
  if s.power.latched then s
  else
    let (v, s) := freeWord s
    let at_ := s.now + v.toNat % 9
    send { s with pins := { s.pins with tickOut := at_ } } (.tickOut at_ (at_ + 1250))

/-- USED_EDGE at instant `t`; `f` is what the edge's origin does once the tick number has advanced (02 R34, R35). -/
def usedEdge (t : Nat) (f : State → State) (s : State) : State :=
  let s := settleEdge (advanceTo s t)
  let s := match s.own.frozen with
    | some t0 => if t0 + 200 * msClk ≤ s.now then resumeService s else s
    | none => s
  let s := setObj s (key 0x2202 1) (tickNumber s + 1)
  let s := { s with
    tick := { s.tick with lastEdge := s.now, anyEdge := true, latched := false, committed := false, repaired := false,
                          staggered := false, haltSeen := decide (haltedPonds s ≠ 0) },
    weir := { s.weir with trapEdge := decide (s.weir.trapped ≠ []) },
    gangs := mapGangs clearGang s.gangs }
  let s := applyParameters (f s)
  tpdoEdge (captureCounters (edgeWork (releaseGates (pulseTickOut s))))

/-- The nominal period in force (0x2201.01). -/
def nominalClk (s : State) : Nat := forceObj s (key 0x2201 1) * usClk

/-- A re-adopt request is pending (02 R35). -/
def readoptPending (s : State) : Bool := decide (getObj s (key 0x2200 4) = 1)

/-- TICK_IN is the source in use (0x2200.02). -/
def tickInUsed (s : State) : Bool := decide (getObj s (key 0x2200 2) = 1)

/-- INTERNAL_GENERATOR_EDGE (02 R32, R35): T_nom after the last used edge, or at once when that instant has passed. -/
def execInternalGeneratorEdge (s : State) : Out :=
  .next (if s.tick.running && !tickInUsed s && !readoptPending s then
    usedEdge (s.tick.lastEdge + nominalClk s) id s else s)

/-- A switch of the source counted with its tick (0x2200.06, .07). -/
def noteSwitch (s : State) : State := setObj (addObj s (key 0x2200 6) 1) (key 0x2200 7) (tickNumber s)

/-- TICK_IN is adopted (02 R35). -/
def adoptTickIn (s : State) : State :=
  let s := setObj (setObj (setObj s (key 0x2200 2) 1) (key 0x2200 4) 0) (key 0x2200 5) 0
  followCause 40 false (noteSwitch { s with tick := { s.tick with lostSource := false } })

/-- TICK_IN_EDGE (02 R33, R35): an edge of the polarity in force, which crosses its threshold at `t`, while TICK_IN is in
use or a re-adopt request is pending. Sooner than P_min after the last used edge it is ignored and counted; else it
becomes the used edge 23 to 25 clk later, a free value (log 10). -/
def execTickInEdge (t : Nat) (rising : Bool) (s : State) : Out :=
  .next (
    let mine := if forceObj s (key 0x2200 3) = 0 then rising else !rising
    if !s.tick.running || !mine || !(tickInUsed s || readoptPending s) then s
    else
      let s := advanceTo s t
      if s.now < s.tick.lastEdge + forceObj s (key 0x2201 2) * usClk then addObj s (key 0x2200 8) 1
      else
        let (v, s) := freeWord s
        usedEdge (s.now + 23 + v.toNat % 3) (if readoptPending s then adoptTickIn else id) s)

/-- The internal generator takes over (02 R34). -/
def takeOver (s : State) : State :=
  raiseCause 40 .chip
    (noteSwitch (setObj { s with tick := { s.tick with lostSource := true } } (key 0x2200 2) 0))

/-- TICK_SOURCE_TAKEOVER (02 R34): 2 × T_nom have passed without an accepted edge. -/
def execTickSourceTakeover (s : State) : Out :=
  .next (if s.tick.running && tickInUsed s then usedEdge (s.tick.lastEdge + 2 * nominalClk s) takeOver s else s)

/-- READOPT_FALLBACK (02 R35): no TICK_IN edge within 2 × T_nom, and the internal generator stays in use. -/
def execReadoptFallback (s : State) : Out :=
  .next (if s.tick.running && readoptPending s && !tickInUsed s then
    usedEdge (s.tick.lastEdge + 2 * nominalClk s)
      (fun s => setObj (setObj s (key 0x2200 4) 0) (key 0x2200 5) 1) s else s)

/-! ## The stagger of array starts (17 R470) -/

/-- The matrix, vector and gate engines of a pond are idle. -/
def arraysIdle (pd : Pond) : Bool := classIdle pd 1 && classIdle pd 2 && classIdle pd 3

/-- At E + 15,000 clk every pond whose arrays are idle is held. -/
def beginStagger (s : State) : State :=
  if s.tick.staggered then s
  else
    let s := advanceTo { s with tick := { s.tick with staggered := true } } (s.tick.lastEdge + 15000)
    forEach (s.map.toPhys.map (·.2)) (fun ph s =>
      if arraysIdle (pondOf s ph) then modPond s ph fun pd => { pd with gated := true } else s) s

/-- ARRAY_START_STAGGER_RELEASE (17 R470): the hold of a pond ends 16 clk per logical number later; the first release of
a tick begins the holds. -/
def execArrayStartStaggerRelease (p : Nat) (s : State) : Out :=
  onPond p s fun ph =>
    if !s.tick.anyEdge then s
    else
      let s := advanceTo (beginStagger s) (s.tick.lastEdge + 15000 + 16 * p)
      modPond s ph fun pd => { pd with gated := false }

end Sys2Proof.Machine
end

