-- ==== Sys2Proof/Machine/Boot.lean ====
section
/-! DEFINITION. Boot (16 R440 to R442, 10 R279, R306, 01 R10, R480, 15 R479, 17 R469) and signed images (16 R443 to
R447). -/

namespace Sys2Proof.Machine

/-- Time moves on to an instant not stated, at most `hi` (log 10). -/
def advanceWithin (hi : Nat) (s : State) : State :=
  if hi ≤ s.now then s
  else
    let (v, s) := freeWord s
    advanceTo s (s.now + v.toNat % (hi + 1 - s.now))

/-! ## Signed images (16 R443 to R446) -/

/-- Bytes `a` to `b` of an image. -/
def imageBytes (bs : List Byte) (a b : Nat) : List Byte := (bs.drop a).take (b + 1 - a)

/-- Every byte of a range is zero. -/
def zeroBytes (bs : List Byte) (a b : Nat) : Bool := (imageBytes bs a b).all fun x => decide (x = 0)

/-- The header of an image and its length fit 16 Table HST-5. -/
def imageShaped (bs : List Byte) : Bool :=
  decide (imageField bs 0 4 = 0x4B525753) && decide (imageField bs 4 2 = 1) && decide (imageField bs 6 1 = 1) &&
    decide (imageField bs 7 1 ≤ 3) && decide (imageField bs 8 1 ≤ 3) &&
    decide (1 ≤ imageField bs 12 4 ∧ imageField bs 12 4 ≤ 64) &&
    decide (1 ≤ imageField bs 20 4 ∧ imageField bs 20 4 ≤ 16777216) &&
    decide (bs.length = 2048 + imageField bs 20 4) &&
    zeroBytes bs 9 11 && zeroBytes bs 72 127 && zeroBytes bs 1996 2047

/-- A key slot of a kind is revoked (0x3030.05): bit `slot` for ECDSA, bit 4 + `slot` for LMS. -/
def keyRevoked (s : State) (ecdsa lms : Nat) : Bool := bitAt s.secure.revoked ecdsa || bitAt s.secure.revoked (4 + lms)

/-- What the checks of R444 and R446 find, by the codes of R447: 0 for a valid image; the lowest code otherwise. -/
def imageCode (s : State) (bs : List Byte) : Nat :=
  let signed := imageBytes bs 0 127
  if !imageShaped bs then 1
  else if !Config.ecdsaValid (imageField bs 7 1) signed (imageBytes bs 128 223) then 2
  else if !Config.lmsValid (imageField bs 8 1) signed (imageBytes bs 224 1995) then 3
  else if Config.sha384 (bs.drop 2048) ≠ imageBytes bs 24 71 then 4
  else if imageField bs 12 4 < s.secure.antiRollback then 5
  else if keyRevoked s (imageField bs 7 1) (imageField bs 8 1) then 6
  else 0

/-- The codes that set source 70 (16 R445). -/
def imageAlarm (code : Nat) : Bool := decide (code = 2 ∨ code = 3 ∨ code = 4 ∨ code = 6)

/-- What verification finds in a flash slot at B2: a slot named in `fails` fails its signature; the image that a slot
holds since shipment is taken as well formed and validly signed (log 6); any other is checked. -/
def slotCode (s : State) (fails : List Nat) (k : Nat) : Nat :=
  if k ∈ fails then 2
  else if s.boot.slots.any fun e => decide (e.1 = k) then imageCode s (slotImage s k)
  else
    let bs := Config.shippedImage k
    if imageField bs 12 4 < s.secure.antiRollback then 5
    else if s.secure.revoked ≠ 0 && keyRevoked s (imageField bs 7 1) (imageField bs 8 1) then 6
    else 0

/-- The state with an image in a flash slot. -/
def writeSlot (k : Nat) (bs : List Byte) (s : State) : State :=
  { s with boot := { s.boot with slots := mapInsert s.boot.slots k { image := bs } } }

/-! ## The stages (16 Table HST-4) -/

/-- The stage in progress (0x3010.01). -/
def bootStage (s : State) : Nat := getObj s (key 0x3010 1)

/-- Boot is in progress. -/
def booting (s : State) : Bool :=
  s.boot.begun.isSome && !s.boot.stopped && !s.tick.running && isActive s

/-- The latest end of a stage in ms from the start of boot, cold or preserved. -/
def stageEnd (preserved : Bool) (k : Nat) : Nat :=
  ((if preserved then [0, 2, 14, 24, 86, 86, 146, 156, 164, 164]
    else [0, 2, 14, 24, 86, 826, 886, 896, 904, 904] : List Nat)).getD k 0

/-- The latest end of the stage in progress; reading the other slot adds at most 12 ms (16 R441). -/
def stageBy (s : State) : Nat :=
  let ms : Nat := stageEnd s.boot.preserved (bootStage s) + (if s.boot.running = s.boot.active then 0 else 12)
  s.boot.begun.getD 0 + ms * msClk

/-- The next stage. -/
def enterStage (k : Nat) (s : State) : State := setObj s (key 0x3010 1) k

/-- A stage that fails leaves its code in 0x3010.02 (16 R441). -/
def noteFailure (k : Nat) (bad : Bool) (s : State) : State :=
  if bad && decide (getObj s (key 0x3010 2) = 0) then setObj s (key 0x3010 2) k else s

/-- B2: the image of the active slot, else of the other one (16 R441); when both fail, boot stops. -/
def bootFirmware (fails : List Nat) (s : State) : State :=
  let a := s.boot.active
  let c0 := slotCode s fails a
  if c0 = 0 then enterStage 3 { s with boot := { s.boot with running := a } }
  else
    let c1 := slotCode s fails (1 - a)
    if c1 = 0 then
      let s := if imageAlarm c0 then raise 70 .chip s else s
      enterStage 3 { s with boot := { s.boot with running := 1 - a } }
    else
      let s := raise 70 .chip s
      setObj { s with boot := { s.boot with stopped := true } } (key 0x3010 2) 2

/-- The compute dies stay unpowered at B3 (17 R474, R476). -/
def diesHeld (s : State) : Bool := s.pins.coolHold || s.pins.supplyStopped || s.pins.stagesOff

/-- B3: communication is reset (14 R381, R382), and the sources 60, 63 and 64 are set while their conditions hold (15
R479). -/
def startFirmware (s : State) : State :=
  let s := resetComm s
  followCause 64 s.pins.tempCritical (followCause 63 s.pins.tempHigh (followCause 60 s.pins.supplyOut s))

/-- A member of a tier by tier × 1024 + number. -/
def isMember (k : Nat) : Bool := decide (k < 512) || decide (1024 ≤ k ∧ k < 1088)

/-- Members that fail training take their set or package out of service (10 R306), so every member of it reads as failed
(DEDUCED, log 11). -/
def failMembers (fails : List Nat) (s : State) : State :=
  forEach (fails.filter isMember) (fun k s =>
    forEach (groupMembers (k / 1024) (groupOf (k / 1024) (k % 1024)))
      (fun i s => setMember s (k / 1024) i { memberOf s (k / 1024) i with state := 1 }) s) s

/-- The eye that the margin screen of step 7 finds: at the minima of 10 Table MEM-16 or above them, or below in width
or in height for a member that fails; a free value otherwise (log 10). -/
def screenMember (fails : List Nat) (k : Nat) (s : State) : State :=
  let tier := k / 1024
  let i := k % 1024
  let w := Config.eye s.fresh tier i 0
  let h := Config.eye s.fresh tier i 1
  let wMin := if tier = 0 then 26 else 23
  let hMin := if tier = 0 then 16 else 20
  let m := memberOf s tier i
  let m := if k ∈ fails then
      (if Config.eye s.fresh tier i 2 % 2 = 0 then { m with eyeWidth := w % wMin, eyeHeight := h % 65536 }
       else { m with eyeWidth := wMin + w % (65536 - wMin), eyeHeight := h % hMin })
    else { m with eyeWidth := wMin + w % (65536 - wMin), eyeHeight := hMin + h % (65536 - hMin) }
  setMember s tier i m

/-- B6: step 7 of 10 Table MEM-15 on every member in service. -/
def screenMembers (fails : List Nat) (s : State) : State :=
  let ks := (List.range 512 ++ List.range' 1024 64).filter fun k => decide ((memberOf s (k / 1024) (k % 1024)).state = 0)
  let s := forEach ks (screenMember fails) s
  failMembers (fails.filter (· ∈ ks)) { s with fresh := s.fresh + 1 }

/-- The areas that the device places, with their extents (10 Table MEM-3): 607 in all. -/
def deviceAreas : List (Nat × Nat) :=
  [(0xFF0280000000, 256), (0xFF02A0000000, 64), (0xFF02A8000000, 16), (0xFF02AA000000, 8), (0xFF02AB000000, 1),
   (0xFF02AB200000, 1), (0xFF02AB400000, 1), (0xFF0300000000, 258), (0xFF0340000000, 1), (0xFF0340200000, 1)]

/-- One extent placed by the device: pinned, in tier 0, of no object (10 R279, Table MEM-4). -/
def placeExtent (uda : Nat) (s : State) : State :=
  match extentIndex uda, nextFrame s 0 with
  | some e, some fr =>
    setExtent (takeFrame s 0 fr) e { Extent.unmapped with tier := 0, pinned := true, frame := fr }
  | _, _ => s

/-- The device region built by a cold boot, in ascending UDA (10 R279). -/
def buildRegion (s : State) : State :=
  forEach deviceAreas (fun a s => forUpTo a.2 (fun i s => placeExtent (a.1 + i * extentSize) s) s) s

/-- B7: the device region built or kept, Memory_Active set, the migrations of a directive that had started before the
reset resumed (15 R415), and the records of the numerics area read (11 R314). -/
def openMemory (s : State) : State :=
  let s := if s.boot.preserved then s else buildRegion s
  readRecords (pumpMigrations { s with host := { s.host with memoryActive := true } })

/-! ## B8 (01 R10, R480) -/

/-- One replacement completed at boot: its spare, chosen now when it had none, passes its self-test and takes the number,
or retires and the replacement starts again (01 R480). -/
def replaceAtBoot (fails : List Nat) : Nat → Replacement → State → State
  | 0, _, s => s
  | fuel + 1, r, s =>
    let pick := match r.spare with
      | some sp => some sp
      | none => chooseSpare s (dieOf r.failed)
    match pick with
    | none => makeAbsent r.logical (retirePond r.failed s)
    | some sp =>
      if sp ∈ fails then replaceAtBoot fails fuel { r with spare := none } (retirePond sp s)
      else
        let s := setPondState (retirePond r.failed s) sp .active
        { s with map := { s.map with toPhys := mapPut 0xFF s.map.toPhys r.logical sp },
                 nvm := { s.nvm with spareMappings := s.nvm.spareMappings + 1 } }

/-- Logical numbers in ascending order to the active ponds, die 0 first (01 R10); mappings in force are kept. -/
def numberPonds (s : State) : State :=
  if s.map.toPhys = [] then
    let active := (List.range 144).filter fun p => decide (pondState s p = .active)
    { s with map := { s.map with toPhys := (List.range active.length).zip active } }
  else s

/-- Every pond with a logical number is powered. -/
def powerPonds (s : State) : State :=
  forEach (s.map.toPhys.map (·.2)) (fun ph s => modPond s ph fun pd => { pd with powered := true }) s

/-- B8: pond self-test, spare map and logical numbering; brooks start training. -/
def mapPonds (fails : List Nat) (s : State) : State :=
  let rs := s.map.replacements
  let s := { s with map := { s.map with replacements := [] } }
  let s := forEach rs (replaceAtBoot fails 17) s
  let s := if sparesLeft s = 0 then raiseCause 68 .chip s else s
  let s := powerPonds (numberPonds s)
  if getObj s (key 0x2C00 2) = 1 then trainBrooks s else s

/-! ## B9 (16 R442) -/

/-- Edges run from now on, the regime asked for is entered, and vector 5 is signalled. -/
def openTicks (s : State) : State :=
  let s := { s with tick := { s.tick with running := true, lastEdge := s.now } }
  signalVector 5 (enterRegime (getObj s (key 0x2E00 2)) s)

/-- The end of boot with its duration. -/
def endBoot (s : State) : State :=
  setObj (openTicks s) (key 0x3010 3) (asMs (s.now - s.boot.begun.getD s.now))

/-- What a stage does, and the stage that follows it; `fails` names what fails in it: flash slots at B2, members at B4 and
B6, physical ponds at B8, and anything at the other stages. -/
def runStage (fails : List Nat) (s : State) : State :=
  match bootStage s with
  | 1 => enterStage 2 (noteFailure 1 (decide (fails ≠ [])) (setObj s (key 0x3110 2) s.pins.straps))
  | 2 => bootFirmware fails s
  | 3 => enterStage 4 (startFirmware (noteFailure 3 (decide (fails ≠ [])) s))
  | 4 => enterStage (if s.boot.preserved then 6 else 5) (failMembers fails (noteFailure 4 (fails.any (!isMember ·)) s))
  | 5 => enterStage 6 (noteFailure 5 (decide (fails ≠ [])) s)
  | 6 => enterStage 7 (screenMembers fails (noteFailure 6 (fails.any (!isMember ·)) s))
  | 7 => enterStage 8 (openMemory (noteFailure 7 (decide (fails ≠ [])) s))
  | 8 =>
    let spares := fails.filter fun p => decide (pondState s p = .spareIdle ∨ pondState s p = .spareLoading)
    enterStage 9 (mapPonds fails (noteFailure 8 (decide (spares ≠ fails)) s))
  | 9 => endBoot (noteFailure 9 (decide (fails ≠ [])) s)
  | _ => s

/-- BOOT_STAGE_END (16 R440). -/
def execBootStageEnd (fails : List Nat) (s : State) : Out :=
  .next (
    if !booting s || (decide (bootStage s = 3) && diesHeld s) then s
    else runStage fails (advanceWithin (stageBy s) s))

/-- MODRST_N_RELEASE (16 R440, 14 R381): the straps are sampled, and boot begins while PWR_OK is high. -/
def execModrstNRelease (straps : Nat) (s : State) : Out :=
  .next (
    if s.pins.modrst then s
    else
      let s := { s with pins := { s.pins with modrst := true, straps := straps % 128 } }
      if s.pins.pwrOk then startBoot s else s)

/-- MODRST_N_ASSERT (15 R412, R414): a reset of the chip domain, with no boot before the release. -/
def execModrstNAssert (s : State) : Out :=
  .next (chipReset 1 0xFF false { s with pins := { s.pins with modrst := false } })

/-! ## Staging an image (16 R447) -/

/-- The bytes of an image staged in a flash slot; a boot that had stopped at B2 goes on there (16 R441, R447). -/
def stageImage (bs : List Byte) (s : State) : State :=
  let s := setObj (setObj s (key 0x3020 5) (imageField bs 16 4)) (key 0x3020 6) (imageField bs 12 4)
  if s.boot.stopped then
    let s := writeSlot s.boot.active bs s
    setObj { s with boot := { s.boot with stopped := false } } (key 0x3010 2) 0
  else
    let s := writeSlot (1 - s.boot.active) bs s
    { s with boot := { s.boot with staged := true } }

/-- VERIFY_DONE (16 R445 to R447): the result of the check, and of the flash write of a valid image. -/
def execVerifyDone (s : State) : Out :=
  .next (match s.boot.verifying with
    | none => s
    | some bs =>
      let s := { s with boot := { s.boot with verifying := none } }
      let checked : Nat := if bs = [] then 7 else imageCode s bs
      let (code, s) : Nat × State :=
        if checked ≠ 0 then (checked, s)
        else (if Config.flashFails s.fresh then 8 else 0, { s with fresh := s.fresh + 1 })
      let s := if imageAlarm code then raise 70 .chip s else s
      let s := setObj (setObj s (key 0x3020 3) 0) (key 0x3020 4) code
      let s := if code = 0 then stageImage bs s else s
      firmwareSignal s)

end Sys2Proof.Machine
end

