-- ==== Sys2Proof/Machine/Complete.lean ====
section
/-! DEFINITION. The completion of a running command (06 R151 to R154), with what each engine does at it: the
activation expander and taps (04 R96, R110), stream arrivals (06 R185), appends (07 R213), the holds of attention (07
R221), units of the chip-level classes (09 R266, R271, R272) and waits for a schedule (10 R295). -/

namespace Sys2Proof.Machine

/-- A running command of a pond has nothing left to wait for: it waits for no expander, its writes have all landed (10 R297), its tap has captured every row,
its schedule has reached the mark, and a fabric command is done. -/
def mayComplete (s : State) (ph : Nat) (r : Running) : Bool :=
  let pd := pondOf s ph
  decide (r.id ∉ mapFind [] pd.expanders 0) &&
    !(s.host.waiting.any fun p => decide (p.owner = some (ph, r.id))) &&
    (match pd.tap with
     | some t => decide (t.id ≠ r.id) || decide (t.captured.length = t.expected)
     | none => true) &&
    (decide (classOf r.cmd ≠ 0x4) || decide (r.waits = 0) || marksReached s ((r.waits - 1) / 4096 % 16) ((r.waits - 1) % 4096)) &&
    (decide (classOf r.cmd ≠ 0x8) ||
      (match findFab s ph r.id with
       | some f => f.done
       | none => true))

/-- The pond without a completed command: out of the running list, its results all stored, its expander released, its tap
disarmed. -/
def endRunning (r : Running) (pd : Pond) : Pond :=
  let holder := mapFind [] pd.expanders 1
  { pd with
    running := pd.running.filter fun x => decide (x.id ≠ r.id),
    landing := pd.landing.filter fun o => decide (o.id ≠ r.id),
    expanders := if holder.headD 0 = r.id + 1 then mapPut [] pd.expanders 1 (0 :: holder.drop 1) else pd.expanders,
    tap := match pd.tap with
      | some t => if t.id = r.id then none else some t
      | none => none }

/-- The tap fault's exit will set the command-fault source in its step 4 (06 R179): not inside an error-exit section. -/
def noted (ph : Nat) (s : State) : Bool :=
  match (pondOf s ph).core.exiting, (pondOf s ph).core.sect with
  | some e, some sec => decide (e.cause = 0x04) && decide (sec.kind ≠ .error)
  | _, _ => false

/-- TAP_FAULT (04 R110): the tapped MMA has completed without an armed row, so the armed command ends without a signal
and the program takes its error exit. -/
def tapFault (ph : Nat) (r : Running) (s : State) : State :=
  match (pondOf s ph).tap with
  | none => s
  | some t =>
    if classOf r.cmd = 0x1 ∧ opcodeOf r.cmd = 1 ∧ t.program = r.program ∧ tapIndex t.cmd = indexOf r.cmd ∧
        t.captured.length ≠ t.expected
    then
      let u := startExit ph 0x04 (markOf t.cmd) (dropTap ph s)
      if noted ph u then u else raise 0 (.pond ph) u
    else s

/-- The clk that the heads of the matrix, vector and gate queues waited behind an attention command (07 R221,
0x2720.0A). -/
def countAttention (ph : Nat) (r : Running) (s : State) : State :=
  if classOf r.cmd = 0x6 ∧ 3 ≤ opcodeOf r.cmd then
    forEach [0x1, 0x2, 0x3] (fun cls s =>
      match queueOf (pondOf s ph) cls with
      | [] => s
      | q :: _ => addObj s (key 0x2720 0xA) (s.now - max r.started q.pushed)) s
  else s

/-- A command of a chip-level class gives its unit back; the duration is written to its record and the excess over the
bound counted (09 R266, R270 to R272). -/
def finishUnit (ph : Nat) (r : Running) (s : State) : State :=
  match s.intake.uses.find? fun u => decide (u.cls = classOf r.cmd ∧ u.pond = ph ∧ u.run = some r.id) with
  | none => s
  | some u =>
    let n := s.now - r.started
    let s := setUses s (s.intake.uses.filter (· ≠ u))
    if u.cls = 0x9 then
      addObj (if mappedAt s u.report then deviceWrite s (u.report + 16) (leBytes n 4) else s) (key 0x2902 1) 1
    else
      let s := addObj s (key 0x2901 1) 1
      if u.bound = 0 then s
      else
        let s := deviceWrite s (u.report + 4) (leBytes n 4)
        if n ≤ u.bound then s
        else
          let f := readLe s (u.report + 1) 1
          deviceWrite (addObj s (key 0x2901 5) (n - u.bound)) (u.report + 1) (leBytes (withBit f 2 true) 1)

/-- What the engine of a command does at its completion. -/
def finishEngine (ph : Nat) (r : Running) (s : State) : State :=
  match classOf r.cmd with
  | 0x4 => if r.waits = 0 then s else addObj s (key (0x2A10 + (r.waits - 1) / 65536) 1) (s.now - r.started)
  | 0x6 => if opcodeOf r.cmd = 2 then completeAppend ph r.cmd s else countAttention ph r s
  | 0x8 => setFabCmds s (s.fabric.cmds.filter fun f => !(decide (f.pond = ph) && decide (f.run = r.id)))
  | 0x9 | 0xA => finishUnit ph r s
  | 0xB => arriveAt ph r.cmd r.arrival s
  | _ => s

/-- COMMAND_COMPLETE (06 R153): the running command numbered `i` of a pond reaches its completion instant. -/
def execCommandComplete (p i t : Nat) (s : State) : Out :=
  onPond p s fun ph =>
    match (pondOf s ph).running.find? fun r => decide (r.id = i) with
    | none => s
    | some r =>
      if !mayComplete s ph r then s
      else
        let s := advanceTo s t
        let cls := classOf r.cmd
        let s := modPond s ph (endRunning r)
        let s := traceInfo ph 0x0005 2 (tagOf r.cmd) cls ((s.now - r.started) % 2 ^ 32) (some r.program) s
        let s := tapFault ph r (finishEngine ph r s)
        signalDone ph r.cmd (countIdle ph cls s)

end Sys2Proof.Machine
end

