-- ==== Sys2Proof/Machine/HostLink.lean ====
section
/-! DEFINITION. The CXL link and host accesses (16 R431 to R439, 17 R467, 10 R280, R302). -/

namespace Sys2Proof.Machine

/-! ## The function (16 R429, R430) -/

/-- Vendor ID, device ID and class code of function 0 (16 R429). -/
def functionIds (s : State) : Nat × Nat × Nat :=
  (0x1F5D, match s.nvm.grade with
    | .a128 => 0x0A01
    | .b96 => 0x0B01, 0x120000)

/-- The BARs of the function and their sizes in bytes (16 Table HST-2): the dictionary window, the CXL component registers, and
the MSI-X table with its pending bits. -/
def functionBars : List (Nat × Nat) := [(0, 67108864), (2, 1048576), (4, 65536)]

/-- The pending bit array of BAR4, with one bit for each vector (16 R436). -/
def pendingBits (s : State) : Nat := s.host.msixPending

/-! ## The weir and the sleeping module -/

/-- Boot has begun, so the weir runs (15 R479). -/
def weirRuns (s : State) : Bool := s.boot.begun.isSome

/-- The condition of a level source outside the chip: its cause follows while the weir runs (15 R479). -/
def watchLevel (i : Nat) (c : Bool) (s : State) : State := if weirRuns s then followCause i c s else s

/-- The device is asleep to host accesses: in Dormant or Standby (17 R467). -/
def asleep (s : State) : Bool := decide (2 ≤ powerState s)

/-! ## The link (16 R437 to R439) -/

/-- The link goes down (16 R437, R438): it no longer runs degraded; source 59 unless Standby took it down, and the end
of the host's lease. -/
def dropLink (quiet : Bool) (s : State) : State :=
  if s.host.downSince.isSome then setObj s (key 0x3000 1) 0
  else
    let s := { setObj s (key 0x3000 1) 0 with host := { s.host with downSince := some s.now } }
    let s := watchLevel 58 false s
    let s := if quiet then s else watchLevel 59 true s
    endHostLease s

/-- LINK_TRAINED (16 R437): at 16 lanes, or at 8 on the half that works; fewer lanes leave it down. -/
def execLinkTrained (lanes speed : Nat) (s : State) : Out :=
  .next (
    if !s.pins.perst || powerState s = 3 || lanes < 8 then s
    else
      let width := if lanes < 16 then 8 else 16
      let s := setObj (setObj (setObj s (key 0x3000 1) 2) (key 0x3000 2) width) (key 0x3000 3) speed
      let s := { s with host := { s.host with downSince := none } }
      let s := watchLevel 59 false (watchLevel 58 (decide (width < 16 ∨ speed < 64)) s)
      wakeAccesses (releaseVectors s))

/-- CXL_LINK_DOWN (16 R438). -/
def execCxlLinkDown (s : State) : Out :=
  .next (if s.host.downSince.isSome then s else dropLink false (addObj s (key 0x3000 4) 1))

/-- LINK_RETRAIN_TIMER (16 R438): every 100 ms while it is down, the link trains. -/
def execLinkRetrainTimer (s : State) : Out :=
  .next (
    match s.host.downSince with
    | none => s
    | some t =>
      if !s.pins.perst || powerState s = 3 then s
      else setObj (advanceTo s (t + 100 * msClk)) (key 0x3000 1) 1)

/-- HOT_RESET (16 R439): decoder commits, MSI-X state and the snoop filter are reset and the link retrains; it has not gone
down, so the host's lease goes on (14 R395). -/
def execHotReset (s : State) : Out :=
  .next (
    if linkUp s then
      let s := addObj (setObj s (key 0x3000 1) 1) (key 0x3000 5) 1
      wakeAccesses { s with host := { s.host with msixMask := 0xFF, msixPending := 0, decoders := 0, lines := [] } }
    else s)

/-- MSIX_UNMASK (16 R436): the pending message of the vector follows. -/
def execMsixUnmask (v : Nat) (s : State) : Out :=
  if v < 8 then
    .next (releaseVectors { s with host := { s.host with msixMask := withBit s.host.msixMask v false } })
  else .fault .noSuchUnit

/-- PERST_N_ASSERT (16 R439): while PWR_OK is high, a chip reset with cause 0x02; the link goes down. -/
def execPerstNAssert (s : State) : Out :=
  .next (
    let s := { s with pins := { s.pins with perst := false } }
    if !s.pins.pwrOk then s
    else
      let s := dropLink true s
      chipReset 2 0xFF s.pins.modrst s)

/-! ## Requests that wait on tier 2 (16 R438) -/

/-- What the command at the head of an engine queue reads in the unified range. -/
def headReads (s : State) (l ph : Nat) (c : Cmd) : List Run :=
  let pd := pondOf s ph
  match classOf c, opcodeOf c with
  | 0x4, 1 => copyReads c
  | 0x6, 3 => attRuns s (attOf pd c)
  | 0x6, 4 => attRuns s (attOf pd c)
  | 0x8, 1 => putReads c
  | 0x8, 3 => collReads (collOf s l ph c)
  | 0x8, 6 =>
    let f := permOf s l ph c
    [(permBuffer f.fields, permK f.fields * permBlock f.fields)]
  | 0x9, _ => boxReads (boxOf pd c)
  | 0xA, 2 => [(decodeUnit c, decodeLength c)]
  | _, _ => []

/-- The reads that wait on a pond: the heads of its queues with their waits satisfied, and a LOAD. -/
def pondReads (s : State) (l : Nat) : List (List Run) :=
  let ph := physOf s l
  if ph = 0xFF then []
  else
    let pd := pondOf s ph
    let heads := pd.queues.filterMap fun e =>
      match e.2 with
      | q :: _ => if waitMet pd q.cmd then some (headReads s l ph q.cmd) else none
      | [] => none
    let load := match canFetch pd, fetchPoint pd with
      | true, some (_, _, c) =>
        if classOf c = 0 ∧ opcodeOf c = 3 then [[(accessAddr pd.core c, 8)]] else []
      | _, _ => []
    heads ++ load

/-- Every read that waits on tier 2: by programs, from outside, and by the debug port. -/
def tier2Reads (s : State) : List (List Run) :=
  let all := (List.range (logicalCount s)).flatMap (pondReads s) ++ (s.tiers.reads.map fun r => [(r.uda, r.len)]) ++
    (s.debugPort.memWait.toList.map fun a => [(a, 8)])
  all.filter fun r => unitMapped s r && tier2Waits s r

/-- The extents of tier 2 that copies and re-fetches under way read. -/
def tier2Copies (s : State) : List Nat :=
  let froms := (s.tiers.migrations.filter fun m => m.toFrame.isSome).map (·.extent) ++ s.tiers.refetches.map (·.backup)
  froms.filter fun e => decide ((extentOf s e).tier = 2) && !(extentOf s e).poisoned

/-- LINK_LOSS_TIMEOUT (16 R438): reads that still wait complete poisoned, waiting writes and copies into tier 2 are
discarded; each is counted. -/
def execLinkLossTimeout (s : State) : Out :=
  .next (
    match s.host.downSince with
    | none => s
    | some t =>
      let s := advanceTo s (t + getObj s (key 0x3000 7) * msClk)
      let reads := tier2Reads s
      let copies := tier2Copies s
      let es := (reads.flatMap fun r => unitExtents s r fun x => decide (x.tier = 2) && !x.poisoned) ++ copies
      let lost := s.host.waiting.filter fun e => tier2Waits s [(e.uda, e.bytes.length)]
      let into := s.tiers.migrations.filter fun m => decide (m.toTier = 2) && m.toFrame.isSome
      let s := { s with host := { s.host with waiting := s.host.waiting.filter fun e => decide (e ∉ lost) } }
      let s := addObj s (key 0x3000 6) (reads.length + copies.length + lost.length + into.length)
      let s := forEach lost countPark s
      let s := forEach into dropMigration s
      serveReads (forEach es.dedup (fun e s => poisonExtent (extentUda e) e s) s))

/-! ## Host accesses (16 R431 to R434, 17 R467) -/

/-- Lines that the snoop filter lists (16 R433). -/
def filterLines : Nat := 2097152

/-- The host holds the lines of a run from now on, `mode` 1 shared, 2 exclusive or modified; a full filter evicts its
oldest entry (16 R433). -/
def holdLines (uda n mode : Nat) (s : State) : State :=
  if mode = 0 then s
  else
    forEach (linesOf uda n) (fun l s =>
      let rest := s.host.lines.filter fun e => decide (e.1 ≠ l)
      let s := { s with host := { s.host with lines := rest } }
      let s := if rest.length < filterLines then s
        else match rest with
          | old :: more =>
            addObj (snoopLine old.1 { s with host := { s.host with lines := more } }) (key 0x3002 3) 1
          | [] => s
      { s with host := { s.host with lines := s.host.lines ++ [(l, decide (mode = 2))] } }) s

/-- A host CXL.mem request that Dormant or Standby answers (17 R467): counted, and a wake. -/
def sleepAccess (s : State) : State := wakeEvent 3 0 (addObj s (key 0x2F04 1) 1)

/-- The decoder of a UDA (16 R431). -/
def decoderOf (uda : Nat) : Nat := if uda < 2 ^ 47 then 0 else 1

/-- A host request reaches the device: the link is up, the memory is active, a decoder maps its addresses. -/
def hostReaches (s : State) (uda n : Nat) : Bool :=
  linkUp s && (s.host.memoryActive || asleep s) && decide (0 < n) &&
    (decide (uda + n ≤ 2 ^ 47) || decide (0xFF0000000000 ≤ uda ∧ uda + n ≤ 2 ^ 48))

/-- The run lies in mapped extents of which some are in tier 2 (16 R434). -/
def hostTier2 (s : State) (uda n : Nat) : Bool :=
  unitMapped s [(uda, n)] && decide (unitExtents s [(uda, n)] (fun x => decide (x.tier = 2)) ≠ [])

/-- A host access uses a decoder, which the host has committed (16 R439). -/
def useDecoder (uda : Nat) (s : State) : State :=
  { s with host := { s.host with decoders := withBit s.host.decoders (decoderOf uda) true } }

/-- HOST_MEM_READ (16 R431, R434; 10 R280, R302; 17 R467). `hold` says how the host holds the lines afterwards: 0 not at
all, 1 shared, 2 exclusive. -/
def execHostMemRead (uda len hold : Nat) (s : State) : Out :=
  .next (
    if !hostReaches s uda len then s
    else
      let s := useDecoder uda s
      let bad := Output.hostData true (List.replicate len 0xFF)
      if asleep s then sleepAccess (send s bad)
      else if hostTier2 s uda len then addObj (send s bad) (key 0x3002 4) 1
      else if unitMapped s [(uda, len)] && waitsRefetch s [(uda, len)] then
        { s with tiers := { s.tiers with reads := s.tiers.reads ++
          [{ host := true, uda := uda, len := len, peer := 0, msg := 0, transfer := 0, waiting := waitNote s [(uda, len)] }] } }
      else
        let held := unitMapped s [(uda, len)] && !unservable s [(uda, len)]
        answerHost uda len (if held then holdLines uda len hold s else s))

/-- Bytes that the host writes: counted where the write is performed (10 R280, R286, R309). -/
def hostWrite (s : State) (uda : Nat) (bs : List Byte) : State :=
  externalWrite (if externalLands s uda bs.length then countBytes true [(uda, bs.length)] s else s) uda bs

/-- HOST_MEM_WRITE (16 R432, R434; 10 R280, R286; 02 R42; 17 R467): a write that holds no ownership. -/
def execHostMemWrite (uda : Nat) (data : List Byte) (s : State) : Out :=
  .next (
    if !hostReaches s uda data.length then s
    else
      let s := useDecoder uda s
      if asleep s then sleepAccess (send s .hostWritten)
      else if hostTier2 s uda data.length then addObj (send s .hostWritten) (key 0x3002 4) 1
      else
        let ls := linesOf uda data.length
        let s := { s with host := { s.host with lines := s.host.lines.filter fun e => decide (e.1 ∉ ls) } }
        wakeAccesses (send (hostWrite s uda data) .hostWritten))

/-- SNOOP_RESPONSE (16 R433): the host gives a line up, with its data when it had modified it; writes that waited for it
are performed. -/
def execSnoopResponse (line : Nat) (data : List Byte) (s : State) : Out :=
  .next (
    let s := { s with host := { s.host with lines := s.host.lines.filter fun e => decide (e.1 ≠ line) } }
    wakeAccesses (if data = [] then s else hostWrite s (line * 64) (data.take 64)))

/-! ## The end of a margin measurement (10 R308) -/

/-- A value below its minimum sets source 45 for the member (10 R308). -/
def noteMargin (tier i : Nat) (low : Bool) (s : State) : State :=
  if low then
    raise 45 .chip { s with weir := { s.weir with memberOf := mapPut 0 s.weir.memberOf 45 (tier * 1024 + i) } }
  else s

/-- MARGIN_DONE (10 R308, Table MEM-16): the eye as measured, by mode; what a measurement finds is a free value. -/
def execMarginDone (s : State) : Out :=
  .next (match s.requests.margin with
    | none => s
    | some (tier, i, mode) =>
      let n := s.fresh
      let timing := decide (mode ≠ 1)
      let voltage := decide (mode ≠ 0)
      let w := Config.eye n tier i 0 % 65536
      let h := Config.eye n tier i 1 % 65536
      let s := { s with fresh := n + 1, requests := { s.requests with margin := none } }
      let s := setObj s (key 0x2A20 4) 0
      let s := if timing then setObj (setObj s (key 0x2A20 6) w) (key 0x2A20 8) (Config.eye n tier i 2 % 2 ^ 32) else s
      let s := if voltage then setObj (setObj s (key 0x2A20 7) h) (key 0x2A20 9) (Config.eye n tier i 3 % 2 ^ 32) else s
      let m := memberOf s tier i
      let s := setMember s tier i { m with eyeWidth := if timing then w else m.eyeWidth,
                                           eyeHeight := if voltage then h else m.eyeHeight }
      let low := (timing && decide (w < (if tier = 0 then 26 else 23))) ||
        (voltage && decide (h < (if tier = 0 then 16 else 20)))
      wakeAccesses (noteMargin tier i low (setObj s (key 0x2A20 5) (if low then 1 else 0))))

end Sys2Proof.Machine
end

