-- ==== Sys2Proof/Machine/Debug.lean ====
section
/-! DEFINITION. The debug port (16 R451 to R456, 14 R391). A row of the table is one scan: the instruction is selected, the
data register captured and sent, and Update-DR acts. -/

namespace Sys2Proof.Machine

/-! ## Instructions (16 R451, Table HST-7) -/

/-- An instruction is selected; leaving UNLOCK discards a token that is not complete (16 R453). -/
def selectTap (code : Nat) (s : State) : State :=
  { s with debugPort := { s.debugPort with instruction := code },
           secure := { s.secure with words := if code = 0x0A then s.secure.words else [] } }

/-- One scan of an instruction that needs a debug level: below it, zeros are captured and Update-DR is ignored. -/
def scan (code level : Nat) (s : State) (f : State → State) : State :=
  let s := selectTap code s
  if s.secure.level < level then send s (.tdo 0) else f s

/-- TAP_RESET: TRST_N or Test-Logic-Reset resets the TAP only and selects IDCODE. -/
def execTapReset (s : State) : Out := .next (selectTap 0x02 s)

/-- Pin levels as the boundary register captures them: its length and order are not stated (log 10). -/
def capturePins (s : State) : State :=
  let (v, s) := freeWord s
  send s (.tdo v.toNat)

/-- EXTEST: the boundary register drives the pins, only while MODRST_N is low. -/
def execExtest (pins : Nat) (s : State) : Out :=
  .next (
    let s := selectTap 0x00 s
    if s.pins.modrst then send s (.tdo 0)
    else
      let s := capturePins s
      { s with debugPort := { s.debugPort with boundary := pins } })

/-- SAMPLE/PRELOAD: pin values captured, and the boundary register loaded. -/
def execSamplePreload (pins : Nat) (s : State) : Out :=
  .next (
    let s := capturePins (selectTap 0x01 s)
    { s with debugPort := { s.debugPort with boundary := pins } })

/-- The IDCODE of the grade. -/
def idcodeOf (s : State) : Nat :=
  match s.nvm.grade with
  | .a128 => 0x1A12855D
  | .b96 => 0x1B09655D

/-- IDCODE. -/
def execIdcode (s : State) : Out :=
  .next (
    let s := selectTap 0x02 s
    send s (.tdo (idcodeOf s)))

/-- BYPASS: one bit, which captures 0. -/
def execBypass (s : State) : Out := .next (send (selectTap 0xFF s) (.tdo 0))

/-! ## The debug lock (16 R452, R453) -/

/-- What LOCKSTAT captures: level, permanent disable, failures since the chip reset. -/
def lockWord (s : State) : Nat :=
  s.secure.level % 4 + (if s.secure.disabled then 4 else 0) + s.secure.failures % 8 * 8

/-- LOCKSTAT. -/
def execLockstat (s : State) : Out :=
  .next (
    let s := selectTap 0x08 s
    send s (.tdo (lockWord s)))

/-- NONCE: the current nonce, 256 bits. -/
def execNonce (s : State) : Out :=
  .next (
    let s := selectTap 0x09 s
    send s (.tdo (leValue ((Config.nonce s.secure.nonce).take 32))))

/-- Words of a complete token (16 Table HST-8). -/
def tokenWords : Nat := 483

/-- UNLOCK: one word of a token; the last one starts the verification. Tokens are ignored after three failures and while
one is verified. -/
def execUnlock (word : F32) (s : State) : Out :=
  .next (
    let s := selectTap 0x0A s
    if 3 ≤ s.secure.failures ∨ s.secure.checking.isSome then s
    else
      let ws := s.secure.words ++ [word]
      if ws.length < tokenWords then { s with secure := { s.secure with words := ws } }
      else { s with secure := { s.secure with
        words := [], checking := some (ws.flatMap fun w => leBytes w.toNat 4) } })

/-- A token is valid for this device and the current nonce (16 R453). -/
def tokenValid (s : State) (bs : List Byte) : Bool :=
  let signed := imageBytes bs 0 63
  let e := imageField bs 6 1
  let l := imageField bs 7 1
  decide (imageField bs 0 4 = 0x4B4F5444) && decide (imageField bs 4 1 = 1) &&
    decide (imageField bs 5 1 = 1 ∨ imageField bs 5 1 = 2) && decide (e ≤ 3) && decide (l ≤ 3) &&
    decide (imageField bs 8 8 = s.nvm.serial) && decide (imageBytes bs 16 47 = (Config.nonce s.secure.nonce).take 32) &&
    zeroBytes bs 48 63 && !keyRevoked s e l &&
    Config.ecdsaValid e signed (imageBytes bs 64 159) && Config.lmsValid l signed (imageBytes bs 160 1931)

/-- The debug level raised by a token; with the disable fuse burned it is 0 forever (16 R452). -/
def unlockTo (level : Nat) (s : State) : State :=
  if s.secure.disabled then s
  else raiseCause 71 .chip { s with secure := { s.secure with level := level } }

/-- UNLOCK_VERIFY_DONE: the level rises, or a failure is counted; the nonce is drawn anew after each attempt. -/
def execUnlockVerifyDone (s : State) : Out :=
  .next (match s.secure.checking with
    | none => s
    | some bs =>
      let ok := tokenValid s bs
      let s := { s with secure := { s.secure with checking := none, nonce := s.secure.nonce + 1 } }
      if ok then unlockTo (imageField bs 5 1) s
      else { s with secure := { s.secure with failures := s.secure.failures + 1 } })

/-! ## Dictionary access (14 R391, Table DIC-10; 16 R452) -/

/-- What Capture-DR returns: the latest access, which is complete by then. -/
def dictCapture (s : State) : Nat :=
  let d := s.debugPort
  d.dictIndex * 2 ^ 112 + d.dictSub * 2 ^ 104 + d.dictOp * 2 ^ 102 + d.dictAbort * 2 ^ 64 + d.dictValue % 2 ^ 64

/-- A read through the register; the value of a refused access is not stated. -/
def debugRead (index sub : Nat) (s : State) : State :=
  let s := resumeService s
  let r := dictFetch false debugMaster index sub s
  let s := countAccess r.1 s
  let (v, s) := if r.1 = 0 then (leValue r.2, s) else ((freeWord s).1.toNat, (freeWord s).2)
  { s with debugPort := { s.debugPort with dictIndex := index, dictSub := sub, dictOp := 1, dictAbort := r.1, dictValue := v } }

/-- A write through the register; the read value captured after it is not stated. -/
def debugStore (index sub v : Nat) (s : State) : State :=
  let s := masterWrite debugMaster index sub 0 8 v s
  let (x, s) := freeWord s
  { s with debugPort := { s.debugPort with dictValue := x.toNat } }

/-- DICT: the latest access captured, and the next one started: 1 reads, 2 writes, which needs level 2. -/
def execDict (dr : Nat) (s : State) : Out :=
  .next (scan 0x10 1 s fun s =>
    let s := send s (.tdo (dictCapture s))
    let index := bits dr 127 112
    let sub := bits dr 111 104
    let op := bits dr 103 102
    if !dictServed s then s
    else if op = 1 then debugRead index sub s
    else if op = 2 ∧ s.secure.level = 2 then debugStore index sub (dr % 2 ^ 64) s
    else s)

/-! ## Halting (16 R454) -/

/-- The debug state of a logical pond: running, halting, halted, absent. -/
def debugState (s : State) (p : Nat) : Nat :=
  if logicalCount s ≤ p ∨ physOf s p = 0xFF then 3
  else
    match (pondOf s (physOf s p)).halt with
    | none => 0
    | some h => h

/-- What DBGCTL captures of the pond named last: pond, state, command index and program; the last two are not stated
where no section is in progress. -/
def controlCapture (s : State) : State :=
  let p := s.debugPort.pollPond
  let (x, s) : Nat × State :=
    match if debugState s p = 3 then none else (pondOf s (physOf s p)).core.sect with
    | some sec => (sec.pc % 65536 * 2 ^ 32 + sec.program * 2 ^ 24, s)
    | none => ((freeWord s).1.toNat % 2 ^ 24 * 2 ^ 24, (freeWord s).2)
  send s (.tdo (p * 2 ^ 56 + debugState s p * 2 ^ 48 + x))

/-- The logical ponds that a pond field names: one, or every one (0xFF). -/
def namedPonds (s : State) (p : Nat) : List Nat :=
  (if p = 0xFF then List.range (logicalCount s) else [p]).filter fun l => decide (debugState s l ≠ 3)

/-- One DBGCTL scan with an action on the ponds that it names. -/
def control (p level : Nat) (s : State) (f : Nat → State → State) : State :=
  scan 0x11 1 s fun s =>
    let s := controlCapture s
    let s := { s with debugPort := { s.debugPort with pollPond := p } }
    if s.secure.level < level then s else forEach (namedPonds s p) f s

/-- DEBUG_STATUS: action 0. -/
def execDebugStatus (p : Nat) (s : State) : Out := .next (control p 1 s fun _ s => s)

/-- DEBUG_HALT: the control core stops fetching before its next command. -/
def execDebugHalt (p : Nat) (s : State) : Out := .next (control p 2 s fun l s => haltPond (physOf s l) s)

/-- The command at a core's fetch point passes the breakpoints once: it is the one that a resume or step goes on with. -/
def passBreak (pd : Pond) : Pond :=
  match pd.core.sect with
  | some sec => { pd with unhalted := sec.pc + 1 }
  | none => pd

/-- DEBUG_RESUME: the control core continues fetching. -/
def execDebugResume (p : Nat) (s : State) : Out :=
  .next (control p 2 s fun l s =>
    unhalt l (modPond s (physOf s l) fun pd => if pd.halt.isSome then passBreak pd else pd))

/-- DEBUG_STEP: a halted pond fetches one command and stays halted. -/
def execDebugStep (p : Nat) (s : State) : Out :=
  .next (control p 2 s fun l s =>
    modPond s (physOf s l) fun pd =>
      if pd.halt = some 2 then { passBreak pd with stepping := true } else pd)

/-- DEBUG_HALT_GANG: every pond of the gang halts. -/
def execDebugHaltGang (p : Nat) (s : State) : Out := .next (control p 2 s fun l s => haltGang l s)

/-- DEBUG_RELOCK: the debug level returns to 0 (16 R452), at level 1 too (DEDUCED, log 38). -/
def execDebugRelock (p : Nat) (s : State) : Out :=
  .next (scan 0x11 1 s fun s =>
    let s := controlCapture s
    lockDebug { s with debugPort := { s.debugPort with pollPond := p } })

/-- POND_HALTED: every command that the pond had pushed has completed, and it is halted (16 R454). -/
def execPondHalted (p : Nat) (s : State) : Out :=
  onPond p s fun ph =>
    let pd := pondOf s ph
    if pd.halt = some 1 ∧ pd.running = [] ∧ pd.queues = [] then modPond s ph fun pd => { pd with halt := some 2 }
    else s

/-- BRKPT: the hit count of the comparator named last is captured, and a comparator is set (16 R455). -/
def execBrkpt (dr : W64) (s : State) : Out :=
  .next (scan 0x12 2 s fun s =>
    let n := dr.toNat
    let s := send s (.tdo ((mapFind Breakpoint.off s.debugPort.brk s.debugPort.brkSel).hits % 2 ^ 32))
    let i := bits n 63 61
    let b : Breakpoint := { enabled := bitAt n 60, gang := bitAt n 59, pond := bits n 55 48, mask := bits n 47 24,
                            value := bits n 23 0, hits := (mapFind Breakpoint.off s.debugPort.brk i).hits }
    { s with debugPort := { s.debugPort with brkSel := i, brk := mapPut Breakpoint.off s.debugPort.brk i b } })

/-! ## Memory access (16 R456) -/

/-- What DBGMEM captures: busy, status and data of the latest access. -/
def memCapture (s : State) : Nat :=
  (if s.debugPort.memWait.isSome then 2 ^ 67 else 0) + s.debugPort.memStatus * 2 ^ 64 + s.debugPort.memData % 2 ^ 64

/-- The latest access noted: status, and data where a read ended with status 0. -/
def noteMem (status data : Nat) (s : State) : State :=
  { s with debugPort := { s.debugPort with memStatus := status, memData := data } }

/-- The pond whose buffer an access names, and whether it can be accessed: it is halted, and the 8 bytes exist. -/
def bufferStatus (s : State) (p a : Nat) : Nat :=
  if debugState s p ≠ 2 then 5 else if bufSize < a + 8 then 1 else 0

/-- A read that does not end with status 0 leaves data that is not stated. -/
def noRead (status : Nat) (s : State) : State :=
  let (v, s) := freeWord s
  noteMem status v.toNat s

/-- A read of 8 bytes of the unified range (10 R280, R302): it waits where an I/O-die request waits. -/
def readMem (a : Nat) (s : State) : State :=
  if !unitMapped s [(a, 8)] then noRead 1 (unmappedAccess s)
  else if waitsRefetch s [(a, 8)] then { s with debugPort := { s.debugPort with memWait := some a } }
  else if unitPoisoned s [(a, 8)] then noRead 3 s
  else noteMem 0 (readLe s a 8) (countBytes false [(a, 8)] s)

/-- A read that waited is performed once it no longer waits. -/
def settleMem (s : State) : State :=
  match s.debugPort.memWait with
  | none => s
  | some a => readMem a { s with debugPort := { s.debugPort with memWait := none } }

/-- One DBGMEM scan: the latest access captured, and another one started when none waits (DESIGN CHOICE, log 38: the spec does
not say what an access shifted in while busy does). -/
def memScan (s : State) (f : State → State) : State :=
  scan 0x13 1 s fun s =>
    let s := settleMem s
    let s := send s (.tdo (memCapture s))
    if s.debugPort.memWait.isSome then s else f s

/-- DBGMEM_POLL. -/
def execDbgmemPoll (s : State) : Out := .next (memScan s id)

/-- DBGMEM_READ: 8 bytes at an 8-byte-aligned address. -/
def execDbgmemRead (space p addr : Nat) (s : State) : Out :=
  .next (memScan s fun s =>
    let a := addr - addr % 8
    if space = 0 then readMem a s
    else if space = 1 then
      if bufferStatus s p a = 0 then noteMem 0 (leValue (bufRead (pondOf s (physOf s p)) a 8)) s
      else noRead (bufferStatus s p a) s
    else s)

/-- The status of a write to the unified range; a write to a poisoned extent is performed (10 R302). -/
def memWriteStatus (s : State) (a : Nat) : Nat :=
  if !unitMapped s [(a, 8)] then 1
  else if unitReadOnly s [(a, 8)] then 2
  else 0

/-- DBGMEM_WRITE: as a read; below level 2 it ends with status 6. Where a space without a stated meaning addresses the
instruction banks, which is a free value, the write is aimed at the active one and blocked (06 R168; log 38). -/
def execDbgmemWrite (space p addr : Nat) (data : W64) (s : State) : Out :=
  .next (memScan s fun s =>
    let a := addr - addr % 8
    let bs := leBytes data.toNat 8
    if s.secure.level < 2 then (if 1 < space then s else noRead 6 s)
    else if 1 < space then
      (if Config.bankSpace space && decide (p < logicalCount s ∧ physOf s p ≠ 0xFF)
       then noRead 4 (blockBankWrite (physOf s p) (addr % 2 ^ 48) s) else s)
    else if space = 0 then noRead (memWriteStatus s a) (hostWrite s a bs)
    else
      let st := bufferStatus s p a
      noRead st (if st = 0 then modPond s (physOf s p) fun pd => bufWrite pd a bs else s))

end Sys2Proof.Machine
end

