-- ==== Sys2Proof/Machine/DictRows.lean ====
section
/-! DEFINITION. The commands by which masters write objects (14 R376 and the rules of each object), and the mailbox (14
R390). -/

namespace Sys2Proof.Machine

/-- The byte of its cell at which a host's store begins (14 R389): `len` spells it above the four bits of the width. -/
def storeByte (m len : Nat) : Nat := if m = hostMaster then len / 16 else 0

/-- The bytes of a write: of a host's store those that the four low bits of `len` spell. -/
def storeWidth (m len : Nat) : Nat := if m = hostMaster then len % 16 else len

/-- REGISTER_WRITE (14 R376, R389): a write of `len` bytes of value `v` to an object; a host's `len` is the width of its
store plus 16 times the byte of the cell at which the store begins. -/
def execRegisterWrite (m index sub len v : Nat) (s : State) : Out :=
  if isMaster m then .next (masterWrite m index sub (storeByte m len) (storeWidth m len) v s) else .fault .noSuchUnit

/-- SOURCE_SELECT_WRITE (02 R35). -/
def execSourceSelectWrite (m v : Nat) (s : State) : Out := writeObject m 0x2200 1 v s

/-- READOPT_REQUEST (02 R35). -/
def execReadoptRequest (m : Nat) (s : State) : Out := writeObject m 0x2200 4 1 s

/-- READOPT_WITHDRAW (02 R35). -/
def execReadoptWithdraw (m : Nat) (s : State) : Out := writeObject m 0x2200 4 0 s

/-- STAGED_BASIN_WRITE (01 R28): only objects of the staged table are written so. -/
def execStagedBasinWrite (m index sub v : Nat) (s : State) : Out :=
  if isTreeKey (key index sub) then writeObject m index sub v s else .next s

/-- BASIN_COMMIT_REQUEST (01 R28). -/
def execBasinCommitRequest (m : Nat) (s : State) : Out := writeObject m 0x2110 1 1 s

/-- TEST_SPARE_REQUEST (01 R11, 0x2120.01). -/
def execTestSpareRequest (m v : Nat) (s : State) : Out := writeObject m 0x2120 1 v s

/-- LOAD_REQUEST (06 R167). -/
def execLoadRequest (m : Nat) (s : State) : Out := writeObject m 0x2610 3 1 s

/-- BANK_SWITCH_REQUEST (06 R169). -/
def execBankSwitchRequest (m : Nat) (s : State) : Out := writeObject m 0x2611 2 1 s

/-- CLEAR_BANK_REQUEST (06 R169). -/
def execClearBankRequest (m : Nat) (s : State) : Out := writeObject m 0x2611 3 1 s

/-- STATE_STRIDE_WRITE (07 R199). -/
def execStateStrideWrite (m v : Nat) (s : State) : Out := writeObject m 0x2702 2 v s

/-- POOL_CONFIG_WRITE (07 R205): an object of one of the four pools. -/
def execPoolConfigWrite (m q sub v : Nat) (s : State) : Out :=
  if q < 4 then writeObject m (0x2710 + q) sub v s else .fault .noSuchUnit

/-- ADOPT_REQUEST (11 R312). -/
def execAdoptRequest (m : Nat) (s : State) : Out := writeObject m 0x2B01 5 1 s

/-- FABRIC_COMMIT_REQUEST (12 R341). -/
def execFabricCommitRequest (m : Nat) (s : State) : Out := writeObject m 0x2C01 2 1 s

/-- A task request (13 R360): number, action, request. -/
def taskRequest (m task action : Nat) (s : State) : Out :=
  if isMaster m then
    .next (masterWrite m 0x2D02 3 0 (naturalWidth m 0x2D02 3) 1
      (masterWrite m 0x2D02 2 0 (naturalWidth m 0x2D02 2) action
        (masterWrite m 0x2D02 1 0 (naturalWidth m 0x2D02 1) task s)))
  else .fault .noSuchUnit

/-- TASK_START (13 R360). -/
def execTaskStart (m task : Nat) (s : State) : Out := taskRequest m task 1 s

/-- TASK_END (13 R360). -/
def execTaskEnd (m task : Nat) (s : State) : Out := taskRequest m task 2 s

/-- ACKNOWLEDGE_SOURCES (15 R405): a mask of sources 0 to 63, or of 64 to 127 with `high`. -/
def execAcknowledgeSources (m : Nat) (high : Bool) (mask : Nat) (s : State) : Out :=
  writeObject m 0x2E01 (if high then 6 else 5) mask s

/-- CLEAR_SOURCES (15 R406). -/
def execClearSources (m : Nat) (high : Bool) (mask : Nat) (s : State) : Out :=
  writeObject m 0x2E01 (if high then 8 else 7) mask s

/-- REGIME_REQUEST (15 R408). -/
def execRegimeRequest (m v : Nat) (s : State) : Out := writeObject m 0x2E00 2 v s

/-- RETIRE_REQUEST (15 R420). -/
def execRetireRequest (m : Nat) (s : State) : Out := writeObject m 0x2E10 0xB 1 s

/-- ACTIVATION_REQUEST (15 R425). -/
def execActivationRequest (m : Nat) (s : State) : Out := writeObject m 0x2E30 1 1 s

/-- VERIFY_REQUEST (16 R447). -/
def execVerifyRequest (m : Nat) (s : State) : Out := writeObject m 0x3020 3 1 s

/-- BURN_REQUEST (16 R446). -/
def execBurnRequest (m : Nat) (s : State) : Out := writeObject m 0x3030 3 1 s

/-- RELOCK (16 R452). -/
def execRelock (m : Nat) (s : State) : Out := writeObject m 0x3040 4 1 s

/-- PERMANENT_DEBUG_DISABLE (16 R452). -/
def execPermanentDebugDisable (m : Nat) (s : State) : Out := writeObject m 0x3040 5 1 s

/-- MARGIN_REQUEST (10 R308). -/
def execMarginRequest (m : Nat) (s : State) : Out := writeObject m 0x2A20 4 1 s

/-- POWER_STATE_REQUEST (17 R460). -/
def execPowerStateRequest (m v : Nat) (s : State) : Out := writeObject m 0x2F00 1 v s

/-- CLAIM (14 R394). -/
def execClaim (m priority : Nat) (s : State) : Out := writeObject m 0x3101 1 priority s

/-- LEASE_HEARTBEAT (14 R395). -/
def execLeaseHeartbeat (m : Nat) (s : State) : Out := writeObject m 0x3101 2 1 s

/-- RELEASE (14 R396). -/
def execRelease (m : Nat) (s : State) : Out := writeObject m 0x3101 5 1 s

/-- SUCCESSOR (14 R397). -/
def execSuccessor (m id : Nat) (s : State) : Out := writeObject m 0x3101 3 id s

/-- ACCEPT (14 R397). -/
def execAccept (m : Nat) (s : State) : Out := writeObject m 0x3101 4 1 s

/-- SEIZE (14 R398). -/
def execSeize (m : Nat) (s : State) : Out := writeObject m 0x3101 6 1 s

/-- RESET_COMMUNICATION (14 R381, 0x3110.05). -/
def execResetCommunication (m : Nat) (s : State) : Out := writeObject m 0x3110 5 1 s

/-- One access of the mailbox by the host (14 R390), with its vector (16 R436); it completes after a free time of at most
2 ms, until which the mailbox is busy. -/
def mailboxAccess (index sub : Nat) (wr : Bool) (data : List Byte) (s : State) : State :=
  let set (code n : Nat) (d : List Byte) (s : State) : State :=
    { s with cells := { s.cells with index := index, sub := sub, write := wr, length := n, abort := code, data := d } }
  let s :=
    if wr then
      let r := dictWrite true hostMaster index sub data.length (leValue data) s
      set r.1 data.length data (countAccess r.1 r.2)
    else
      let r := dictFetch true hostMaster index sub s
      set r.1 r.2.length r.2 (countAccess r.1 s)
  let s := { s with fresh := s.fresh + 1,
                    cells := { s.cells with busyUntil := s.now + Config.mailboxTime s.fresh % (2 * msClk + 1) } }
  if getObj s (key 0x3003 1) = 1 then signalVector 3 s else s

/-- MAILBOX_GO (14 R390): one access of any type; while one is in progress the write is discarded and counted
(log 35). -/
def execMailboxGo (index sub : Nat) (wr : Bool) (data : List Byte) (s : State) : Out :=
  .next (if !reaches s hostMaster wr then s
    else if mailboxBusy s then addObj s (key 0x3130 0xB) 1
    else mailboxAccess index sub wr data (resumeService s))

end Sys2Proof.Machine
end

