-- ==== Sys2Proof/Machine/Power.lean ====
section
/-! DEFINITION. Power states, wakes, pads, pacing, supply and temperature (17 R459 to R477). -/

namespace Sys2Proof.Machine

/-! ## Entry and exit times (17 Table PWR-2) -/

/-- A_max: the largest A_bg among the programs resident in any bank, in clk (17 R461). -/
def aMax (s : State) : Nat :=
  ((s.programs.filter fun e => bitAt e.2.state 0).map fun e => e.2.aBg).foldl max 0

/-- An entry that ends within `ms` when A_max is at most 1 ms, else within `ms` − 1 ms + A_max. -/
def entryClk (s : State) (ms : Nat) : Nat :=
  if aMax s ≤ msClk then ms * msClk else (ms - 1) * msClk + aMax s

/-- The longest entry into a state. -/
def entryBound (s : State) (v : Nat) : Nat :=
  match v with
  | 1 => aMax s + 1250
  | 2 => entryClk s 6
  | _ => entryClk s 10

/-- The longest exit from a state. -/
def exitBound (v : Nat) : Nat :=
  match v with
  | 1 => 20 * usClk
  | 2 => 30 * msClk
  | _ => 145 * msClk

/-! ## What a state loses (17 Table PWR-1) -/

/-- The lost values that differ from 0, from an index on. -/
def lostValues (n ph base count : Nat) : NMap F32 :=
  (List.range count).filterMap fun i =>
    let v := Config.lostValue n ph (base + i)
    if v = 0 then none else some (i, v)

/-- A pond at retention: accumulators and vector registers hold values that are not stated (log 10). -/
def retain (n ph : Nat) (pd : Pond) : Pond :=
  { pd with powered := false, acc := lostValues n ph 0 524288, vregs := lostValues n ph (2 ^ 20) 8192 }

/-- The core rail falls to retention (17 R461, Table PWR-1). -/
def retainPonds (s : State) : State :=
  let s' := forEach (s.map.toPhys.map (·.2)) (fun ph t => modPond t ph (retain s.fresh ph)) s
  { s' with fresh := s.fresh + 1 }

/-- The compute dies latch their pond-facing interfaces (17 R468). -/
def latchDies (s : State) : State := { s with power := { s.power with diesLatched := true } }

/-- The compute dies and the I/O die outside the always-on island go off (17 R461, R467, R468): contents of ponds are
lost, the link and the brooks go down, no edge is used, TICK_OUT is latched low and ERR_N at its level. -/
def enterStandby (s : State) : State :=
  let s := forUpTo 18 (fun k s => setObj s (brookKey k 1) 0) (dropLink true (latchDies s))
  { s with ponds := [], tick := { s.tick with running := false },
           host := { s.host with memoryActive := false }, boot := { s.boot with preserved := true },
           power := { s.power with latched := true } }

/-- What the state entered does to the module. -/
def enterState (v : Nat) (s : State) : State :=
  match v with
  | 2 => retainPonds (latchDies s)
  | 3 => enterStandby s
  | _ => s

/-- Switch-outs have ended, and for the deeper states migrations and directives in progress are complete (17 Table
PWR-2). -/
def entryReady (s : State) : Bool :=
  s.shares.runs.all (fun e => e.2.isNone) &&
    (decide (s.power.target < 2) || (decide (s.tiers.migrations = []) && s.tiers.directives.all (·.complete)))

/-- The request that waited for the end of a transition acts (17 R460). -/
def heldRequest (s : State) : State :=
  match s.power.request with
  | some (v, m) => actPower v m s
  | none => s

/-- POWER_ENTRY_DONE (17 R461, R464): the state is entered, and a wake held during the entry begins the exit. -/
def execPowerEntryDone (s : State) : Out :=
  .next (
    if transition s ≠ 1 ∨ !entryReady s then s
    else
      let v := s.power.target
      let s := advanceWithin (s.power.wakeStart + entryBound s v) s
      let s := enterState v s
      let s := addObj (setObj (setObj s (key 0x2F00 2) v) (key 0x2F00 3) 0) (key 0x2F30 v) 1
      let s := { s with power := { s.power with entered := some s.now } }
      if s.power.wake.isSome then beginExit s else heldRequest s)

/-! ## Exits (17 R461, R462, R465) -/

/-- Objects that an exit from Standby keeps beside those of R415 (17 R462). -/
def standbyKey (k : Nat) : Bool :=
  let index := k / 256
  decide (0x1000 ≤ index ∧ index ≤ 0x1FFF) || decide (0x2F00 ≤ index ∧ index ≤ 0x2FFF) ||
    decide (0x3100 ≤ index ∧ index ≤ 0x31FF) || decide (k = key 0x2E02 1)

/-- The chip reset that an exit from Standby acts as (17 R462): the tier contents are kept, the service core is not reset,
and ownership, CAN and power objects keep their values. -/
def standbyReset (s : State) : State :=
  let r := resetChip true s
  let r := { r with
    dict := (s.dict.filter fun e => standbyKey e.1).foldl (fun m e => mapInsert m e.1 e.2) r.dict,
    own := s.own, can := s.can, copies := s.copies.filter (fun e => standbyKey (e.1 % 2 ^ 24)), cells := s.cells, power := s.power,
    boot := { s.boot with preserved := true } }
  weirStart (addObj (setObj r (key 0x2E02 3) 1) (key 0x2E02 4) 1)

/-- The stages B4 to B9 of an exit from Standby, in the preserved column (17 Table PWR-2); a die at 110 °C resets the chip
instead (17 R476). -/
def leaveStandby (s : State) : State :=
  let s := standbyReset s
  let s := followCause 63 s.pins.tempHigh (followCause 60 s.pins.supplyOut s)
  if s.pins.tempCritical then followCause 64 true s
  else openTicks (enterStage 9 (mapPonds [] (openMemory (screenMembers [] s))))

/-- Pads released at the end of an exit: ERR_N takes the level of 15 R411 (17 R468). -/
def releasePads (s : State) : State :=
  let s := { s with power := { s.power with latched := false, diesLatched := false } }
  settleErrN s

/-- Open channels get back the flits that were withheld while the module slept (17 R467, 12 R339). -/
def restoreCredit (s : State) : State :=
  forEach ((mapKeys s.fabric.routes).filter fun i => routeAccepts s i && decide (i ≠ ownId s))
    (fun i s => grant i (reserveFlits s - openCredit s i) s)
    { s with fabric := { s.fabric with owedGrants := [] } }

/-- POWER_EXIT_DONE (17 R461, R462, R465): the module is Active; a request that waited acts, and Still is entered when the
wake's request named it. -/
def execPowerExitDone (s : State) : Out :=
  .next (
    if transition s ≠ 2 then s
    else
      let from_ := powerState s
      let s := advanceWithin (s.power.wakeStart + exitBound from_) s
      let s := if from_ = 3 then leaveStandby s else if from_ = 2 then powerPonds s else s
      let s := setObj (setObj s (key 0x2F00 2) 0) (key 0x2F00 3) 0
      let s := match s.power.wake with
        | some (_, _, t) => setObj s (key 0x2F02 5) ((s.now - t) / usClk)
        | none => s
      let next := s.power.thenState
      let s := { s with power := { s.power with wake := none, entered := none, thenState := none } }
      let s := if from_ = 2 then pumpMigrations (restoreCredit s) else s
      let s := releasePads s
      match s.power.request, next with
      | none, some v => { s with power := { s.power with request := some (v, 0) } }
      | _, _ => heldRequest s)

/-! ## Wakes (17 R463 to R466) -/

/-- WAKE_N_ASSERT: the filtered level is asserted, and acts as a wake. -/
def execWakeNAssert (t : Nat) (s : State) : Out :=
  .next (
    let s := advanceTo s (t + usClk)
    if getObj s (key 0x2F00 6) = 1 then s else wakeEvent 2 0 (setObj s (key 0x2F00 6) 1))

/-- WAKE_N_RELEASE. -/
def execWakeNRelease (s : State) : Out := .next (setObj s (key 0x2F00 6) 0)

/-- WAKE_N_PULSE_FILTERED (17 R466): a low level of less than 1 µs changes nothing and is counted. -/
def execWakeNPulseFiltered (s : State) : Out :=
  .next (if getObj s (key 0x2F00 6) = 1 then s else addObj s (key 0x2F02 7) 1)

/-- WAKE_TIMER_EXPIRY (17 R463): the time at 0x2F01.02 has passed since the end of the entry. -/
def execWakeTimerExpiry (s : State) : Out :=
  .next (match s.power.entered with
    | none => s
    | some t =>
      let ms := getObj s (key 0x2F01 2)
      if ms = 0 ∨ transition s ≠ 0 then s else wakeEvent 4 0 (advanceTo s (t + ms * msClk)))

/-! ## Pacing (17 R469) -/

/-- Ponds may power up: boot has reached B3 with no hold on the dies, and the core rail is not at retention or off. -/
def powerAllowed (s : State) : Bool :=
  s.boot.begun.isSome && decide (3 ≤ bootStage s) && !(decide (bootStage s = 3) && diesHeld s) &&
    (decide (powerState s < 2) || decide (transition s = 2))

/-- The ponds that take logical numbers in ascending order, then spares being loaded in ascending physical number. -/
def powerOrder (s : State) : List Nat :=
  let numbered := (numberPonds s).map.toPhys.map (·.2)
  let spares := (List.range 144).filter fun p => decide (pondState s p = .spareLoading)
  numbered ++ spares.filter (· ∉ numbered)

/-- POND_POWER_UP: in an interval of 10 µs at most 16 more ponds begin to power up. -/
def execPondPowerUp (s : State) : Out :=
  .next (
    let go := ((powerOrder s).filter fun ph => !(pondOf s ph).powered).take 16
    if !powerAllowed s || decide (go = []) then s
    else
      let s := if s.power.interval = 0 then s else advanceTo s (s.power.interval - 1 + 10 * usClk)
      let s := { s with power := { s.power with interval := s.now + 1 } }
      forEach go (fun ph s => modPond s ph fun pd => { pd with powered := true }) s)

/-! ## Supply and temperature (17 R473, R474, R476, R477) -/

/-- The weir sets the causes of sources 60, 63 and 64: from the end of stage B3 on (15 R479). -/
def watchesAlerts (s : State) : Bool := s.boot.begun.isSome && decide (4 ≤ bootStage s)

/-- The cause of a source of supply or temperature follows its condition; one that becomes active is a wake (17 R463). -/
def followAlert (i : Nat) (c : Bool) (s : State) : State :=
  if !watchesAlerts s then s
  else
    let was := causeActive s i
    let s := followCause i c s
    if c && !was && decide (i ≠ 64) then wakeEvent 5 0 s else s

/-- ALERT_N is driven low (17 R477). -/
def alertN (s : State) : Bool :=
  causeActive s 60 || causeActive s 62 || causeActive s 63 || causeActive s 64 ||
    (s.boot.begun.isSome && decide (bootStage s ≤ 3) &&
      (s.pins.supplyOut || s.pins.tempHigh || s.pins.tempCritical))

/-- SUPPLY_OUT_OF_RANGE (17 R474). -/
def execSupplyOutOfRange (out : Bool) (s : State) : Out :=
  .next (followAlert 60 out { s with pins := { s.pins with supplyOut := out } })

/-- The stop of 15 R414 for the supply: a reset of the chip domain that keeps its cause record, after which boot goes on
at B3 once the supply has recovered (17 R474). -/
def stopForSupply (s : State) : State :=
  let begun := s.boot.begun.isSome
  let keep := contentsKept s
  let cause := getObj s (key 0x2E02 1)
  let r := resetChip keep s
  let r := setObj (setObj r (key 0x2E02 1) cause) (key 0x2E02 2) (getObj s (key 0x2E02 2))
  let r := addObj (setObj r (key 0x2E02 3) (if keep then 1 else 0)) (key 0x2E02 4) 1
  if begun then
    enterStage (min 3 (bootStage s)) (setObj (startBoot r) (key 0x3110 2) (getObj s (key 0x3110 2)))
  else r

/-- SUPPLY_STOP (17 R474): the input below 44.0 V for 1 ms, or above 58.0 V. -/
def execSupplyStop (s : State) : Out :=
  .next (
    if s.pins.supplyStopped then s
    else
      let s := stopForSupply s
      { s with pins := { s.pins with supplyStopped := true, supplyOut := true } })

/-- SUPPLY_RECOVERED (17 R474): the input has stayed within its limits for 100 ms, and the dies boot from B3. -/
def execSupplyRecovered (s : State) : Out :=
  .next (followAlert 60 false
    { s with pins := { s.pins with supplyStopped := false, stagesOff := false, supplyOut := false } })

/-- The tiers are in self-refresh: after a stop that preserved them until B4 ends, in Dormant and in Standby (17 R461, 15
R414). -/
def inSelfRefresh (s : State) : Bool :=
  (decide (2 ≤ powerState s) && decide (transition s = 0)) ||
    (s.boot.preserved && !s.host.memoryActive && decide (bootStage s ≤ 4))

/-- POWER_STAGES_OFF (17 R474): below 40.0 V the power stages go off, and tiers that are not in self-refresh lose their
contents. -/
def execPowerStagesOff (s : State) : Out :=
  .next (
    let s := if inSelfRefresh s then s
      else { s with host := { s.host with memoryActive := false }, boot := { s.boot with preserved := false } }
    let s := stopForSupply s
    { s with pins := { s.pins with supplyStopped := true, supplyOut := true, stagesOff := true } })

/-- TEMPERATURE_HIGH (17 R476): a sensor reaches the threshold, or every sensor is 5 °C below it, and so below 110 °C. -/
def execTemperatureHigh (hot : Bool) (s : State) : Out :=
  .next (
    if hot then followAlert 63 true { s with pins := { s.pins with tempHigh := true } }
    else
      followAlert 64 false (followAlert 63 false
        { s with pins := { s.pins with tempHigh := false, tempCritical := false } }))

/-- TEMPERATURE_CRITICAL (17 R476): a sensor at 110 °C or above, which is at the high threshold too. -/
def execTemperatureCritical (s : State) : Out :=
  .next (followAlert 64 true (followAlert 63 true
    { s with pins := { s.pins with tempHigh := true, tempCritical := true } }))

/-- COOL_DOWN_RELEASE (17 R476): every sensor is below 90 °C. -/
def execCoolDownRelease (s : State) : Out :=
  .next (followAlert 64 false { s with pins := { s.pins with tempCritical := false, coolHold := false } })

/-- PWR_OK_FALL (17 R473): acts as an assertion of MODRST_N. -/
def execPwrOkFall (s : State) : Out :=
  .next (chipReset 1 0xFF false { s with pins := { s.pins with pwrOk := false, modrst := false } })

/-- PERST_N_RELEASE (16 R439): the link trains independently from here on. -/
def execPerstNRelease (s : State) : Out :=
  .next (
    if s.pins.perst then s
    else
      let s := { s with pins := { s.pins with perst := true } }
      if s.pins.pwrOk then setObj s (key 0x3000 1) 1 else s)

/-- POWER_UP (17 R473): the input enters 48 V to 54 V at insertion, and PWR_OK rises within 25 ms. What manufacture and
the fuses hold remains, and so do the flash slots and the states of the ponds; everything else starts anew. -/
def execPowerUp (s : State) : Out :=
  .next (
    let t := advanceWithin (s.now + 25 * msClk) s
    { State.reset with
      pending := s.pending, now := t.now, fresh := t.fresh, nvm := s.nvm, map := s.map, mem := hostBytes s.mem,
      boot := { State.reset.boot with slots := s.boot.slots, active := s.boot.active, running := s.boot.active },
      secure := { State.reset.secure with disabled := s.secure.disabled, nonce := s.secure.nonce + 1,
                                          antiRollback := s.secure.antiRollback, revoked := s.secure.revoked },
      host := { State.reset.host with downSince := some t.now },
      power := { State.reset.power with poweredAt := t.now },
      sent := s.sent })

end Sys2Proof.Machine
end

