-- ==== Sys2Proof/Machine/Spdm.lean ====
section
/-! DEFINITION. Identity and attestation over SPDM (16 R448 to R450). Response codes, and the code of UnsupportedRequest,
are those of the DMTF specification that R449 names (PRESUMED, log 40); signatures and certificates are free values. -/

namespace Sys2Proof.Machine

/-- The DOE mailbox answers: the link is up and configuration space is answered (16 R449, Table HST-4). -/
def doeServed (s : State) : Bool := linkUp s && decide (3 ≤ bootStage s)

/-- One SPDM request answered, and counted (0x3050.01). -/
def spdmAnswer (code : Nat) (payload : State → List Byte) (s : State) : State :=
  if doeServed s then send (addObj s (key 0x3050 1) 1) (.spdm code (payload s)) else s

/-- The error codes InvalidRequest and UnsupportedRequest. -/
def invalidRequest : Nat := 1
def unsupportedRequest : Nat := 7

/-- An ERROR response, counted at 0x3050.02. -/
def spdmError (reason : Nat) (s : State) : State :=
  if doeServed s then
    send (addObj (addObj s (key 0x3050 1) 1) (key 0x3050 2) 1) (.spdm 0x7F [BitVec.ofNat 8 reason])
  else s

/-- The alias certificate of this boot (0x2010.03). -/
def aliasCertificate (s : State) : List Byte := dictBytes s 0x2010 3

/-- The chain of certificate slot 0: CA root, identity certificate, alias certificate (16 R449). -/
def certificateChain (s : State) : List Byte := Config.attest 1 [] ++ s.nvm.certificate ++ aliasCertificate s

/-- Bytes with the signature of the alias key over them. -/
def signedByAlias (s : State) (bs : List Byte) : List Byte := bs ++ Config.attest 2 (aliasCertificate s ++ bs)

/-- The measurement blocks (16 Table HST-6). -/
def measurement (s : State) (i : Nat) : List Byte :=
  match i with
  | 1 => Config.attest 3 (leBytes s.nvm.rom 2)
  | 2 => dictBytes s 0x2001 4 ++ leBytes (imageField (slotImage s s.boot.running) 16 4) 4
  | 3 => leBytes s.secure.antiRollback 1 ++ leBytes s.secure.revoked 1
  | 4 =>
    leBytes (match s.nvm.grade with
      | .a128 => 1
      | .b96 => 2) 1 ++
      Config.sha384 (leBytes (fuseMap s 0) 8 ++ leBytes (fuseMap s 64) 8 ++ leBytes (fuseMap s 128) 8) ++
      leBytes s.secure.level 1 ++ leBytes (if s.secure.disabled then 1 else 0) 1
  | 5 => Config.sha384 ((List.range 256).flatMap fun n => (dirWords (dirOf s n)).flatMap fun w => leBytes w 8)
  | _ => []

/-- GET_VERSION. -/
def execGetVersion (s : State) : Out := .next (spdmAnswer 0x04 (fun _ => Config.attest 4 []) s)

/-- GET_CAPABILITIES, with the CT exponent 18 of R449. -/
def execGetCapabilities (s : State) : Out := .next (spdmAnswer 0x61 (fun _ => 18 :: Config.attest 5 []) s)

/-- NEGOTIATE_ALGORITHMS: ECDSA P-384 and SHA-384 only. -/
def execNegotiateAlgorithms (s : State) : Out := .next (spdmAnswer 0x63 (fun _ => Config.attest 6 []) s)

/-- GET_DIGESTS: the digest of the chain of slot 0. -/
def execGetDigests (s : State) : Out := .next (spdmAnswer 0x01 (fun s => Config.sha384 (certificateChain s)) s)

/-- GET_CERTIFICATE: slot 0 only. -/
def execGetCertificate (slot : Nat) (s : State) : Out :=
  .next (if slot = 0 then spdmAnswer 0x02 certificateChain s else spdmError invalidRequest s)

/-- CHALLENGE: signed with the alias key, over a nonce of the device; slot 0 only. -/
def execChallenge (slot : Nat) (s : State) : Out :=
  .next (
    if slot = 0 then
      let s' := { s with fresh := s.fresh + 1 }
      spdmAnswer 0x03 (fun t =>
        signedByAlias t (Config.sha384 (certificateChain t) ++ leBytes (Config.freeWord s.fresh).toNat 8)) s'
    else spdmError invalidRequest s)

/-- GET_MEASUREMENTS: 0 asks for their number, 0xFF for all of them, 1 to 5 for one (16 Table HST-6). -/
def execGetMeasurements (index : Nat) (s : State) : Out :=
  .next (
    if index = 0 then spdmAnswer 0x60 (fun s => signedByAlias s [5]) s
    else if index = 0xFF then
      spdmAnswer 0x60 (fun s => signedByAlias s ([1, 2, 3, 4, 5].flatMap (measurement s))) s
    else if index ≤ 5 then spdmAnswer 0x60 (fun s => signedByAlias s (measurement s index)) s
    else spdmError invalidRequest s)

/-- SPDM_UNSUPPORTED_REQUEST: any other request receives ERROR with UnsupportedRequest (16 R449). -/
def execSpdmUnsupportedRequest (s : State) : Out := .next (spdmError unsupportedRequest s)

end Sys2Proof.Machine
end

