-- ==== Sys2Proof/Machine/Dispatch.lean ====
section
/-! DEFINITION. One arm for each command: a direct call of its meaning. -/

namespace Sys2Proof.Machine

def exec (i : Instr) (s : State) : Host.Outcome State Fault Refusal :=
  match i with
  | .internalGeneratorEdge => Sys2Proof.Machine.execInternalGeneratorEdge s
  | .tickInEdge t rising => Sys2Proof.Machine.execTickInEdge t rising s
  | .tickSourceTakeover => Sys2Proof.Machine.execTickSourceTakeover s
  | .readoptFallback => Sys2Proof.Machine.execReadoptFallback s
  | .inputLatch => Sys2Proof.Machine.execInputLatch s
  | .arrayStartStaggerRelease p => Sys2Proof.Machine.execArrayStartStaggerRelease p s
  | .servingDispatchStart g => Sys2Proof.Machine.execServingDispatchStart g s
  | .groupFetch g t => Sys2Proof.Machine.execGroupFetch g t s
  | .servingEnd => Sys2Proof.Machine.execServingEnd s
  | .rowRepair => Sys2Proof.Machine.execRowRepair s
  | .costExceeded g => Sys2Proof.Machine.execCostExceeded g s
  | .registerWrite m index sub len v => Sys2Proof.Machine.execRegisterWrite m index sub len v s
  | .sourceSelectWrite m v => Sys2Proof.Machine.execSourceSelectWrite m v s
  | .readoptRequest m => Sys2Proof.Machine.execReadoptRequest m s
  | .readoptWithdraw m => Sys2Proof.Machine.execReadoptWithdraw m s
  | .stagedBasinWrite m index sub v => Sys2Proof.Machine.execStagedBasinWrite m index sub v s
  | .basinCommitRequest m => Sys2Proof.Machine.execBasinCommitRequest m s
  | .testSpareRequest m v => Sys2Proof.Machine.execTestSpareRequest m v s
  | .loadRequest m => Sys2Proof.Machine.execLoadRequest m s
  | .programLoadDone => Sys2Proof.Machine.execProgramLoadDone s
  | .bankSwitchRequest m => Sys2Proof.Machine.execBankSwitchRequest m s
  | .clearBankRequest m => Sys2Proof.Machine.execClearBankRequest m s
  | .stateStrideWrite m v => Sys2Proof.Machine.execStateStrideWrite m v s
  | .poolConfigWrite m q sub v => Sys2Proof.Machine.execPoolConfigWrite m q sub v s
  | .adoptRequest m => Sys2Proof.Machine.execAdoptRequest m s
  | .fabricCommitRequest m => Sys2Proof.Machine.execFabricCommitRequest m s
  | .taskStart m task => Sys2Proof.Machine.execTaskStart m task s
  | .taskEnd m task => Sys2Proof.Machine.execTaskEnd m task s
  | .acknowledgeSources m high mask => Sys2Proof.Machine.execAcknowledgeSources m high mask s
  | .clearSources m high mask => Sys2Proof.Machine.execClearSources m high mask s
  | .regimeRequest m v => Sys2Proof.Machine.execRegimeRequest m v s
  | .retireRequest m => Sys2Proof.Machine.execRetireRequest m s
  | .activationRequest m => Sys2Proof.Machine.execActivationRequest m s
  | .verifyRequest m => Sys2Proof.Machine.execVerifyRequest m s
  | .burnRequest m => Sys2Proof.Machine.execBurnRequest m s
  | .relock m => Sys2Proof.Machine.execRelock m s
  | .permanentDebugDisable m => Sys2Proof.Machine.execPermanentDebugDisable m s
  | .marginRequest m => Sys2Proof.Machine.execMarginRequest m s
  | .marginDone => Sys2Proof.Machine.execMarginDone s
  | .powerStateRequest m v => Sys2Proof.Machine.execPowerStateRequest m v s
  | .claim m priority => Sys2Proof.Machine.execClaim m priority s
  | .leaseHeartbeat m => Sys2Proof.Machine.execLeaseHeartbeat m s
  | .release m => Sys2Proof.Machine.execRelease m s
  | .successor m id => Sys2Proof.Machine.execSuccessor m id s
  | .accept m => Sys2Proof.Machine.execAccept m s
  | .seize m => Sys2Proof.Machine.execSeize m s
  | .resetCommunication m => Sys2Proof.Machine.execResetCommunication m s
  | .electionClose => Sys2Proof.Machine.execElectionClose s
  | .leaseExpiry => Sys2Proof.Machine.execLeaseExpiry s
  | .handoverTimeout => Sys2Proof.Machine.execHandoverTimeout s
  | .masterTableTimeout id => Sys2Proof.Machine.execMasterTableTimeout id s
  | .commandPush p t ecc => Sys2Proof.Machine.execCommandPush p t ecc s
  | .queueSlotFreed p t => Sys2Proof.Machine.execQueueSlotFreed p t s
  | .commandComplete p id t => Sys2Proof.Machine.execCommandComplete p id t s
  | .errorHandlerEntry p => Sys2Proof.Machine.execErrorHandlerEntry p s
  | .gangErrorNotify p => Sys2Proof.Machine.execGangErrorNotify p s
  | .set p => Sys2Proof.Machine.execSet p s
  | .alu p => Sys2Proof.Machine.execAlu p s
  | .load p => Sys2Proof.Machine.execLoad p s
  | .store p => Sys2Proof.Machine.execStore p s
  | .loop p => Sys2Proof.Machine.execLoop p s
  | .endloop p => Sys2Proof.Machine.execEndloop p s
  | .cmp p => Sys2Proof.Machine.execCmp p s
  | .br p => Sys2Proof.Machine.execBr p s
  | .sigpeer p => Sys2Proof.Machine.execSigpeer p s
  | .peerSignalArrival p => Sys2Proof.Machine.execPeerSignalArrival p s
  | .fence p => Sys2Proof.Machine.execFence p s
  | .ret p => Sys2Proof.Machine.execRet p s
  | .err p => Sys2Proof.Machine.execErr p s
  | .nop p => Sys2Proof.Machine.execNop p s
  | .resume p => Sys2Proof.Machine.execResume p s
  | .sconf p => Sys2Proof.Machine.execSconf p s
  | .ssend p => Sys2Proof.Machine.execSsend p s
  | .sfree p => Sys2Proof.Machine.execSfree p s
  | .creditReturn p st => Sys2Proof.Machine.execCreditReturn p st s
  | .mma p => Sys2Proof.Machine.execMma p s
  | .watchSampleDone p => Sys2Proof.Machine.execWatchSampleDone p s
  | .wload p => Sys2Proof.Machine.execWload p s
  | .expanderGrant p => Sys2Proof.Machine.execExpanderGrant p s
  | .add p => Sys2Proof.Machine.execAdd p s
  | .sub p => Sys2Proof.Machine.execSub p s
  | .mul p => Sys2Proof.Machine.execMul p s
  | .fma p => Sys2Proof.Machine.execFma p s
  | .min p => Sys2Proof.Machine.execMin p s
  | .max p => Sys2Proof.Machine.execMax p s
  | .abs p => Sys2Proof.Machine.execAbs p s
  | .neg p => Sys2Proof.Machine.execNeg p s
  | .sel p => Sys2Proof.Machine.execSel p s
  | .vectorCmp p => Sys2Proof.Machine.execVectorCmp p s
  | .cvt p => Sys2Proof.Machine.execCvt p s
  | .div p => Sys2Proof.Machine.execDiv p s
  | .rcp p => Sys2Proof.Machine.execRcp p s
  | .sqrt p => Sys2Proof.Machine.execSqrt p s
  | .rsqrt p => Sys2Proof.Machine.execRsqrt p s
  | .exp2 p => Sys2Proof.Machine.execExp2 p s
  | .log2 p => Sys2Proof.Machine.execLog2 p s
  | .exp p => Sys2Proof.Machine.execExp p s
  | .log p => Sys2Proof.Machine.execLog p s
  | .tanh p => Sys2Proof.Machine.execTanh p s
  | .sigmoid p => Sys2Proof.Machine.execSigmoid p s
  | .silu p => Sys2Proof.Machine.execSilu p s
  | .gelu p => Sys2Proof.Machine.execGelu p s
  | .softplus p => Sys2Proof.Machine.execSoftplus p s
  | .rrow p => Sys2Proof.Machine.execRrow p s
  | .rcol p => Sys2Proof.Machine.execRcol p s
  | .gate p => Sys2Proof.Machine.execGate p s
  | .pool p => Sys2Proof.Machine.execPool p s
  | .sstep p => Sys2Proof.Machine.execSstep p s
  | .scan p => Sys2Proof.Machine.execScan p s
  | .sfix p => Sys2Proof.Machine.execSfix p s
  | .tload p => Sys2Proof.Machine.execTload p s
  | .create f a b => Sys2Proof.Machine.execCreate f a b s
  | .fork f c a b => Sys2Proof.Machine.execFork f c a b s
  | .park f a b => Sys2Proof.Machine.execPark f a b s
  | .unpark f a b => Sys2Proof.Machine.execUnpark f a b s
  | .retire f a b => Sys2Proof.Machine.execRetire f a b s
  | .setFuture f a b => Sys2Proof.Machine.execSetFuture f a b s
  | .truncate f a b => Sys2Proof.Machine.execTruncate f a b s
  | .shift f a b => Sys2Proof.Machine.execShift f a b s
  | .setuser f a b => Sys2Proof.Machine.execSetuser f a b s
  | .pwalk p => Sys2Proof.Machine.execPwalk p s
  | .pappend p => Sys2Proof.Machine.execPappend p s
  | .attf p => Sys2Proof.Machine.execAttf p s
  | .attb p => Sys2Proof.Machine.execAttb p s
  | .ictx p => Sys2Proof.Machine.execIctx p s
  | .decode p => Sys2Proof.Machine.execDecode p s
  | .flush p => Sys2Proof.Machine.execFlush p s
  | .boxsel p => Sys2Proof.Machine.execBoxsel p s
  | .chipUnitDispatch cls => Sys2Proof.Machine.execChipUnitDispatch cls s
  | .directiveRingRead => Sys2Proof.Machine.execDirectiveRingRead s
  | .define n => Sys2Proof.Machine.execDefine n s
  | .place n => Sys2Proof.Machine.execPlace n s
  | .free n => Sys2Proof.Machine.execFree n s
  | .setbackup n => Sys2Proof.Machine.execSetbackup n s
  | .clean n => Sys2Proof.Machine.execClean n s
  | .setmask n => Sys2Proof.Machine.execSetmask n s
  | .directiveComplete n => Sys2Proof.Machine.execDirectiveComplete n s
  | .frameRelease tier frame => Sys2Proof.Machine.execFrameRelease tier frame s
  | .migrationDone e => Sys2Proof.Machine.execMigrationDone e s
  | .copy p => Sys2Proof.Machine.execCopy p s
  | .fp32Add p => Sys2Proof.Machine.execFp32Add p s
  | .zeroFill p => Sys2Proof.Machine.execZeroFill p s
  | .pfmark p => Sys2Proof.Machine.execPfmark p s
  | .uncorrectableMemoryError uda => Sys2Proof.Machine.execUncorrectableMemoryError uda s
  | .refetchDone e => Sys2Proof.Machine.execRefetchDone e s
  | .correctedError uda => Sys2Proof.Machine.execCorrectedError uda s
  | .hbmRecentre c => Sys2Proof.Machine.execHbmRecentre c s
  | .shoreWckCheck c drift => Sys2Proof.Machine.execShoreWckCheck c drift s
  | .shoreRetrainDone c => Sys2Proof.Machine.execShoreRetrainDone c s
  | .flitReceive k head payload crc => Sys2Proof.Machine.execFlitReceive k head payload crc s
  | .brookRetrainDone k ok => Sys2Proof.Machine.execBrookRetrainDone k ok s
  | .laneErrorWindow k lane ratio => Sys2Proof.Machine.execLaneErrorWindow k lane ratio s
  | .ack k seq => Sys2Proof.Machine.execAck k seq s
  | .creditGrant k peer flits => Sys2Proof.Machine.execCreditGrant k peer flits s
  | .spareRequest k lane => Sys2Proof.Machine.execSpareRequest k lane s
  | .spareConfirm k lane => Sys2Proof.Machine.execSpareConfirm k lane s
  | .widthChange k group => Sys2Proof.Machine.execWidthChange k group s
  | .endToEndAck k peer msg => Sys2Proof.Machine.execEndToEndAck k peer msg s
  | .identity k peer => Sys2Proof.Machine.execIdentity k peer s
  | .write src msg uda data => Sys2Proof.Machine.execWrite src msg uda data s
  | .writeLastSignal src msg uda counter data => Sys2Proof.Machine.execWriteLastSignal src msg uda counter data s
  | .readRequest src msg uda len transfer => Sys2Proof.Machine.execReadRequest src msg uda len transfer s
  | .readResponse src msg transfer poisoned data => Sys2Proof.Machine.execReadResponse src msg transfer poisoned data s
  | .collectivePart src msg group seq stamp part data => Sys2Proof.Machine.execCollectivePart src msg group seq stamp part data s
  | .endToEndTimeout dst msg => Sys2Proof.Machine.execEndToEndTimeout dst msg s
  | .put p => Sys2Proof.Machine.execPut p s
  | .get p => Sys2Proof.Machine.execGet p s
  | .allreduce p => Sys2Proof.Machine.execAllreduce p s
  | .reducescatter p => Sys2Proof.Machine.execReducescatter p s
  | .allgather p => Sys2Proof.Machine.execAllgather p s
  | .broadcast p => Sys2Proof.Machine.execBroadcast p s
  | .alltoall p => Sys2Proof.Machine.execAlltoall p s
  | .stampchk p => Sys2Proof.Machine.execStampchk p s
  | .waitf p => Sys2Proof.Machine.execWaitf p s
  | .waitfTimeout p => Sys2Proof.Machine.execWaitfTimeout p s
  | .collectiveTimeout p => Sys2Proof.Machine.execCollectiveTimeout p s
  | .permute p => Sys2Proof.Machine.execPermute p s
  | .permuteRoundEnd p => Sys2Proof.Machine.execPermuteRoundEnd p s
  | .sliceExpiry g => Sys2Proof.Machine.execSliceExpiry g s
  | .schedulerDecision g => Sys2Proof.Machine.execSchedulerDecision g s
  | .restoreDone g => Sys2Proof.Machine.execRestoreDone g s
  | .forcedStop p => Sys2Proof.Machine.execForcedStop p s
  | .switchOutSave g => Sys2Proof.Machine.execSwitchOutSave g s
  | .switchOutDone g => Sys2Proof.Machine.execSwitchOutDone g s
  | .mailboxGo index sub wr data => Sys2Proof.Machine.execMailboxGo index sub wr data s
  | .usdoRequest port client frame => Sys2Proof.Machine.execUsdoRequest port client frame s
  | .usdoSessionTimeout port client => Sys2Proof.Machine.execUsdoSessionTimeout port client s
  | .nmtStart port => Sys2Proof.Machine.execNmtStart port s
  | .nmtStop port => Sys2Proof.Machine.execNmtStop port s
  | .nmtEnterPreoperational port => Sys2Proof.Machine.execNmtEnterPreoperational port s
  | .nmtResetNode port => Sys2Proof.Machine.execNmtResetNode port s
  | .nmtResetCommunication port => Sys2Proof.Machine.execNmtResetCommunication port s
  | .heartbeat => Sys2Proof.Machine.execHeartbeat s
  | .emcyInhibitExpiry port => Sys2Proof.Machine.execEmcyInhibitExpiry port s
  | .tpdoInhibitExpiry n => Sys2Proof.Machine.execTpdoInhibitExpiry n s
  | .tpdoEventTimer n => Sys2Proof.Machine.execTpdoEventTimer n s
  | .busOff port => Sys2Proof.Machine.execBusOff port s
  | .busOffRecovery port => Sys2Proof.Machine.execBusOffRecovery port s
  | .escalationExpiry n => Sys2Proof.Machine.execEscalationExpiry n s
  | .pondWatchdogTimeout p => Sys2Proof.Machine.execPondWatchdogTimeout p s
  | .spareCopyDone ok => Sys2Proof.Machine.execSpareCopyDone ok s
  | .memberEvacuationDone tier member => Sys2Proof.Machine.execMemberEvacuationDone tier member s
  | .powerPhaseFailure => Sys2Proof.Machine.execPowerPhaseFailure s
  | .serviceCoreWatchdog => Sys2Proof.Machine.execServiceCoreWatchdog s
  | .activationTimeout => Sys2Proof.Machine.execActivationTimeout s
  | .perstNAssert => Sys2Proof.Machine.execPerstNAssert s
  | .hotReset => Sys2Proof.Machine.execHotReset s
  | .linkTrained lanes speed => Sys2Proof.Machine.execLinkTrained lanes speed s
  | .cxlLinkDown => Sys2Proof.Machine.execCxlLinkDown s
  | .linkRetrainTimer => Sys2Proof.Machine.execLinkRetrainTimer s
  | .linkLossTimeout => Sys2Proof.Machine.execLinkLossTimeout s
  | .hostMemRead uda len hold => Sys2Proof.Machine.execHostMemRead uda len hold s
  | .hostMemWrite uda data => Sys2Proof.Machine.execHostMemWrite uda data s
  | .snoopResponse line data => Sys2Proof.Machine.execSnoopResponse line data s
  | .modrstNRelease straps => Sys2Proof.Machine.execModrstNRelease straps s
  | .bootStageEnd fails => Sys2Proof.Machine.execBootStageEnd fails s
  | .verifyDone => Sys2Proof.Machine.execVerifyDone s
  | .getVersion => Sys2Proof.Machine.execGetVersion s
  | .getCapabilities => Sys2Proof.Machine.execGetCapabilities s
  | .negotiateAlgorithms => Sys2Proof.Machine.execNegotiateAlgorithms s
  | .getDigests => Sys2Proof.Machine.execGetDigests s
  | .getCertificate slot => Sys2Proof.Machine.execGetCertificate slot s
  | .challenge slot => Sys2Proof.Machine.execChallenge slot s
  | .getMeasurements index => Sys2Proof.Machine.execGetMeasurements index s
  | .tapReset => Sys2Proof.Machine.execTapReset s
  | .extest pins => Sys2Proof.Machine.execExtest pins s
  | .samplePreload pins => Sys2Proof.Machine.execSamplePreload pins s
  | .idcode => Sys2Proof.Machine.execIdcode s
  | .lockstat => Sys2Proof.Machine.execLockstat s
  | .nonce => Sys2Proof.Machine.execNonce s
  | .unlock word => Sys2Proof.Machine.execUnlock word s
  | .unlockVerifyDone => Sys2Proof.Machine.execUnlockVerifyDone s
  | .dict dr => Sys2Proof.Machine.execDict dr s
  | .debugStatus p => Sys2Proof.Machine.execDebugStatus p s
  | .debugHalt p => Sys2Proof.Machine.execDebugHalt p s
  | .debugResume p => Sys2Proof.Machine.execDebugResume p s
  | .debugStep p => Sys2Proof.Machine.execDebugStep p s
  | .debugHaltGang p => Sys2Proof.Machine.execDebugHaltGang p s
  | .debugRelock p => Sys2Proof.Machine.execDebugRelock p s
  | .pondHalted p => Sys2Proof.Machine.execPondHalted p s
  | .brkpt dr => Sys2Proof.Machine.execBrkpt dr s
  | .dbgmemPoll => Sys2Proof.Machine.execDbgmemPoll s
  | .dbgmemRead space p addr => Sys2Proof.Machine.execDbgmemRead space p addr s
  | .dbgmemWrite space p addr data => Sys2Proof.Machine.execDbgmemWrite space p addr data s
  | .bypass => Sys2Proof.Machine.execBypass s
  | .powerEntryDone => Sys2Proof.Machine.execPowerEntryDone s
  | .powerExitDone => Sys2Proof.Machine.execPowerExitDone s
  | .wakeNAssert t => Sys2Proof.Machine.execWakeNAssert t s
  | .wakeNRelease => Sys2Proof.Machine.execWakeNRelease s
  | .wakeTimerExpiry => Sys2Proof.Machine.execWakeTimerExpiry s
  | .pondPowerUp => Sys2Proof.Machine.execPondPowerUp s
  | .supplyOutOfRange out => Sys2Proof.Machine.execSupplyOutOfRange out s
  | .supplyStop => Sys2Proof.Machine.execSupplyStop s
  | .supplyRecovered => Sys2Proof.Machine.execSupplyRecovered s
  | .temperatureHigh hot => Sys2Proof.Machine.execTemperatureHigh hot s
  | .temperatureCritical => Sys2Proof.Machine.execTemperatureCritical s
  | .coolDownRelease => Sys2Proof.Machine.execCoolDownRelease s
  | .pwrOkFall => Sys2Proof.Machine.execPwrOkFall s
  | .modrstNAssert => Sys2Proof.Machine.execModrstNAssert s
  | .perstNRelease => Sys2Proof.Machine.execPerstNRelease s
  | .powerUp => Sys2Proof.Machine.execPowerUp s
  | .powerStagesOff => Sys2Proof.Machine.execPowerStagesOff s
  | .wakeNPulseFiltered => Sys2Proof.Machine.execWakeNPulseFiltered s
  | .msixUnmask v => Sys2Proof.Machine.execMsixUnmask v s
  | .spdmUnsupportedRequest => Sys2Proof.Machine.execSpdmUnsupportedRequest s
  | .chipEngineUnitFailed cls unit => Sys2Proof.Machine.execChipEngineUnitFailed cls unit s

end Sys2Proof.Machine
end

