-- ==== Sys2Proof/Safety.lean ====
section
/-! DEFINITION. What counts as a good state and a safe run, and when a command has its normal effect, in the terms that
the claims use. -/

namespace Sys2Proof.Safety

open Sys2Proof.Machine

/-- A burned debug-disable fuse keeps the debug level at 0 (16 R452). -/
def DebugFuse (s : State) : Prop := s.secure.disabled = true → s.secure.level = 0

/-- The tables of the state are in their canonical form: keys strictly rising, and memory without a listed byte that
equals an unlisted one. A state whose tables are not in this form is no contents of the block. -/
structure Canonical (s : State) : Prop where
  mem : memWf s.mem = true
  dict : MapSorted s.dict
  inForce : MapSorted s.inForce
  copies : MapSorted s.copies
  tree : MapSorted s.tree
  gangs : MapSorted s.gangs
  steps : MapSorted s.steps
  ponds : MapSorted s.ponds
  programs : MapSorted s.programs
  futures : MapSorted s.seq.futures
  extents : MapSorted s.tiers.extents
  objects : MapSorted s.tiers.objects

/-- A step that answers a next state. -/
def Completes (o : Host.Outcome State Fault Refusal) : Prop := ∃ t, o = .next t

/-! ## The units that commands name -/

/-- The units that the operands of a command name exist. -/
def UnitsExist (c : Instr) (s : State) : Prop :=
  match c with
  | .arrayStartStaggerRelease p | .commandPush p _ _ | .queueSlotFreed p _ | .commandComplete p _ _
  | .errorHandlerEntry p | .gangErrorNotify p | .peerSignalArrival p | .creditReturn p _ | .watchSampleDone p
  | .expanderGrant p | .waitfTimeout p | .collectiveTimeout p | .permuteRoundEnd p | .forcedStop p
  | .pondWatchdogTimeout p | .pondHalted p
  | .set p | .alu p | .load p | .store p | .loop p | .endloop p | .cmp p | .br p | .sigpeer p | .fence p | .ret p
  | .err p | .nop p | .resume p | .sconf p | .ssend p | .sfree p | .mma p | .wload p | .add p | .sub p | .mul p
  | .fma p | .min p | .max p | .abs p | .neg p | .sel p | .vectorCmp p | .cvt p | .div p | .rcp p | .sqrt p
  | .rsqrt p | .exp2 p | .log2 p | .exp p | .log p | .tanh p | .sigmoid p | .silu p | .gelu p | .softplus p
  | .rrow p | .rcol p | .gate p | .pool p | .sstep p | .scan p | .sfix p | .tload p | .pwalk p | .pappend p
  | .attf p | .attb p | .ictx p | .decode p | .flush p | .boxsel p | .copy p | .fp32Add p | .zeroFill p | .pfmark p
  | .put p | .get p | .allreduce p | .reducescatter p | .allgather p | .broadcast p | .alltoall p | .stampchk p
  | .waitf p | .permute p => p < logicalCount s
  | .servingDispatchStart g | .groupFetch g _ | .costExceeded g | .sliceExpiry g | .schedulerDecision g
  | .restoreDone g | .switchOutSave g | .switchOutDone g => g < logicalCount s
  | .registerWrite m _ _ _ _ | .sourceSelectWrite m _ | .readoptRequest m | .readoptWithdraw m
  | .basinCommitRequest m | .testSpareRequest m _ | .loadRequest m | .bankSwitchRequest m
  | .clearBankRequest m | .stateStrideWrite m _ | .adoptRequest m | .fabricCommitRequest m | .taskStart m _
  | .taskEnd m _ | .acknowledgeSources m _ _ | .clearSources m _ _ | .regimeRequest m _ | .retireRequest m
  | .activationRequest m | .verifyRequest m | .burnRequest m | .relock m | .permanentDebugDisable m
  | .marginRequest m | .powerStateRequest m _ | .claim m _ | .leaseHeartbeat m | .release m | .successor m _
  | .accept m | .seize m | .resetCommunication m | .masterTableTimeout m => isMaster m = true
  | .stagedBasinWrite m index sub _ => isTreeKey (key index sub) = true → isMaster m = true
  | .poolConfigWrite m q _ _ => q < 4 ∧ isMaster m = true
  | .create f _ _ | .park f _ _ | .unpark f _ _ | .retire f _ _ | .setFuture f _ _ | .truncate f _ _ | .shift f _ _
  | .setuser f _ _ => f < 32768
  | .fork f c _ _ => f < 32768 ∧ c < 32768
  | .chipUnitDispatch cls => cls = 0x9 ∨ cls = 0xA
  | .hbmRecentre c => c < 512
  | .shoreWckCheck c _ | .shoreRetrainDone c => c < 64
  | .flitReceive k _ _ _ | .brookRetrainDone k _ | .identity k _ => k < 18
  | .laneErrorWindow k lane _ => k < 18 ∧ lane ≤ 8
  | .ack k q => k < 18 ∧ q < 4096
  | .creditGrant k peer _ | .endToEndAck k peer _ => k < 18 ∧ peer < 4096
  | .spareRequest k lane | .spareConfirm k lane => k < 18 ∧ lane < 8
  | .widthChange k group => k < 18 ∧ group < 2
  | .write src _ _ data | .collectivePart src _ _ _ _ _ data =>
      src < 4096 ∧ 1 ≤ data.length ∧ data.length ≤ 65536
  | .writeLastSignal src _ _ counter data => counter < 256 ∧ src < 4096 ∧ 1 ≤ data.length ∧ data.length ≤ 65536
  | .readRequest src _ _ len _ => src < 4096 ∧ 1 ≤ len ∧ len ≤ 65536
  | .readResponse src _ _ _ data => src < 4096 ∧ data.length ≤ 65536
  | .usdoRequest port client _ => port < 2 ∧ 1 ≤ client ∧ client ≤ 127
  | .usdoSessionTimeout port _ | .nmtStart port | .nmtStop port | .nmtEnterPreoperational port | .nmtResetNode port
  | .nmtResetCommunication port | .emcyInhibitExpiry port | .busOff port | .busOffRecovery port => port < 2
  | .tpdoInhibitExpiry n | .tpdoEventTimer n => n < 4
  | .escalationExpiry n => n < 128
  | .memberEvacuationDone tier member => tier < 2 ∧ member < memberGroups tier
  | .msixUnmask v => v < 8
  | .chipEngineUnitFailed cls unit => 8 ≤ cls ∧ cls ≤ 0xA ∧ unit < unitsOf s cls
  | .internalGeneratorEdge | .tickInEdge _ _ | .tickSourceTakeover | .readoptFallback | .inputLatch | .servingEnd
  | .rowRepair | .programLoadDone | .marginDone | .electionClose | .leaseExpiry | .handoverTimeout
  | .directiveRingRead | .define _ | .place _ | .free _ | .setbackup _ | .clean _ | .setmask _
  | .directiveComplete _ | .frameRelease _ _ | .migrationDone _ | .uncorrectableMemoryError _ | .refetchDone _
  | .correctedError _ | .endToEndTimeout _ _ | .mailboxGo _ _ _ _ | .heartbeat | .spareCopyDone _
  | .powerPhaseFailure | .serviceCoreWatchdog | .activationTimeout | .perstNAssert | .hotReset | .linkTrained _ _
  | .cxlLinkDown | .linkRetrainTimer | .linkLossTimeout | .hostMemRead _ _ _ | .hostMemWrite _ _
  | .snoopResponse _ _ | .modrstNRelease _ | .bootStageEnd _ | .verifyDone | .getVersion | .getCapabilities
  | .negotiateAlgorithms | .getDigests | .getCertificate _ | .challenge _ | .getMeasurements _ | .tapReset | .extest _
  | .samplePreload _ | .idcode | .lockstat | .nonce | .unlock _ | .unlockVerifyDone | .dict _ | .debugStatus _
  | .debugHalt _ | .debugResume _ | .debugStep _ | .debugHaltGang _ | .debugRelock _ | .brkpt _ | .dbgmemPoll
  | .dbgmemRead _ _ _ | .dbgmemWrite _ _ _ _ | .bypass | .powerEntryDone | .powerExitDone | .wakeNAssert _
  | .wakeNRelease | .wakeTimerExpiry | .pondPowerUp | .supplyOutOfRange _ | .supplyStop | .supplyRecovered
  | .temperatureHigh _ | .temperatureCritical | .coolDownRelease | .pwrOkFall | .modrstNAssert | .perstNRelease
  | .powerUp | .powerStagesOff | .wakeNPulseFiltered | .spdmUnsupportedRequest => True

/-! ## Commands of a program -/

/-- Logical pond `p` stands on physical pond `ph`. -/
structure OnPond (s : State) (p ph : Nat) : Prop where
  inGrade : p < logicalCount s
  mapped : physOf s p = ph
  present : ph ≠ 0xFF

/-- The command `q` at the head of the queue of class `cls` of a pond may start as far as its wait, which no
lower class takes, and the pond are concerned (06 R152, R153); `rest` waits behind it. -/
structure AtHead (s : State) (p ph cls : Nat) (q : Queued) (rest : List Queued) : Prop extends OnPond s p ph where
  queue : queueOf (pondOf s ph) cls = q :: rest
  wait : waitMet (pondOf s ph) q.cmd = true
  free : mayStart (pondOf s ph) q cls = true
  granted : granted s ph cls q.cmd = true

/-- The stream command `q` is the oldest one that may start on a pond, is legal and meets no stream fault (06 R184 to
R187). -/
structure AtStream (s : State) (p ph op : Nat) (q : Queued) (rest : List Queued) : Prop extends OnPond s p ph where
  pick : pickStream s p [] [] (queueOf (pondOf s ph) 0xB) = some (q, rest)
  opcode : opcodeOf q.cmd = op
  valid : streamValid (gangMembers s p).length q.cmd = true
  sound : streamFaults s p q.cmd = false
  granted : granted s ph 0xB q.cmd = true

/-- The state that a starting command acts on: it has left its queue, its wait is subtracted, what it waited for
re-fetches or arrivals is counted, and its start is traced (06 R152, R153, 10 R301). -/
def dequeued (ph : Nat) (q : Queued) (rest : List Queued) (s : State) : State :=
  let s := modPond (countWait q.waiting s) ph fun pd => takeWait (setQueue pd (classOf q.cmd) rest) q.cmd
  traceInfo ph 0x0004 2 (tagOf q.cmd) (classOf q.cmd) ((s.now - q.pushed) % 2 ^ 32) (some q.program) s

/-- The command `q` of a pond, taken from its queue in state `u`, has started with the effect `r`: nothing changes beside
that effect but the pond's record of running commands, of busy engines and of who waits for the expander, and the writes
of the effect that wait, which are the command's; the command is the youngest running one, with the next number, from
this instant on (06 R152, R153, 04 R96). -/
structure Starts (u t : State) (ph : Nat) (q : Queued) (r : Started) : Prop where
  rest : ∃ pd, t = setPond (ownWrites ph (pondOf r.state ph).nextId u.host.waiting.length r.state) ph pd ∧
    { pd with running := (pondOf r.state ph).running, nextId := (pondOf r.state ph).nextId,
              busySince := (pondOf r.state ph).busySince, expanders := (pondOf r.state ph).expanders } =
      pondOf r.state ph ∧
    (r.expander = false → pd.expanders = (pondOf r.state ph).expanders) ∧
    pd.nextId = (pondOf r.state ph).nextId + 1 ∧
    pd.running = (pondOf r.state ph).running ++
      [{ id := (pondOf r.state ph).nextId, cmd := q.cmd, program := q.program, started := u.now, arrival := r.arrival,
         epochReads := r.epochReads, waits := r.waits, number := q.number }]

/-- The element-wise vector operations of 04 Table VEC-4: the command, its opcode, and what it does in each lane with the
function field and the three sources. -/
def vectorRows : List ((Nat → Instr) × Nat × (Nat → F32 → F32 → F32 → F32)) :=
  [(.add, 0x01, fun _ a b _ => add32 a b), (.sub, 0x02, fun _ a b _ => sub32 a b),
   (.mul, 0x03, fun _ a b _ => mul32 a b), (.fma, 0x04, fun _ a b c => fma32 a b c),
   (.min, 0x05, fun _ a b _ => min32 a b), (.max, 0x06, fun _ a b _ => max32 a b),
   (.abs, 0x07, fun _ a _ _ => abs32 a), (.neg, 0x08, fun _ a _ _ => neg32 a),
   (.sel, 0x09, fun _ a b c => if isZero (flOf32 c) then b else a),
   (.vectorCmp, 0x0A, fun func a b _ => if relation func a b then one32 else 0), (.cvt, 0x0B, fun _ a _ _ => a),
   (.div, 0x10, fun _ a b _ => div32 a b), (.sqrt, 0x12, fun _ a _ _ => sqrt32 a)]

/-- The functions of 04 Table VEC-4 with what they return at the infinities and at zero (04 R98): the command, its
opcode, and those values; elsewhere a function's value is free within its stated accuracy (log 10). -/
def functionRows : List ((Nat → Instr) × Nat × FnEdges) :=
  [(.rcp, 0x11, { atPosInf := 0, atNegInf := 0x80000000, negative := false,
                  atZero := fun z => some (if z = 0 then posInf32 else negInf32) }),
   (.rsqrt, 0x13, { atPosInf := 0, atNegInf := 0x7FC00000, atZero := atPlusZero posInf32, negative := true }),
   (.exp2, 0x14, { atPosInf := posInf32, atNegInf := 0, atZero := fun _ => some one32, negative := false }),
   (.log2, 0x15, { atPosInf := posInf32, atNegInf := 0x7FC00000, atZero := atPlusZero negInf32, negative := true }),
   (.exp, 0x16, { atPosInf := posInf32, atNegInf := 0, atZero := fun _ => some one32, negative := false }),
   (.log, 0x17, { atPosInf := posInf32, atNegInf := 0x7FC00000, atZero := atPlusZero negInf32, negative := true }),
   (.tanh, 0x18, { atPosInf := one32, atNegInf := 0xBF800000, atZero := sameZero, negative := false }),
   (.sigmoid, 0x19, { atPosInf := one32, atNegInf := 0, atZero := fun _ => some 0x3F000000, negative := false }),
   (.silu, 0x1A, { atPosInf := posInf32, atNegInf := 0x80000000, atZero := sameZero, negative := false }),
   (.gelu, 0x1B, { atPosInf := posInf32, atNegInf := 0x80000000, atZero := sameZero, negative := false }),
   (.softplus, 0x1C, { atPosInf := posInf32, atNegInf := 0, atZero := fun _ => none, negative := false })]

/-- The control command `c` of opcode `op` stands at the fetch point of a pond whose core may fetch, or has started
before a forced stop, in section `sec`; its fetch, which leaves `s1`, lets it go on, and it has started or its wait is
satisfied (06 R152, R153, R177, 13 R364). -/
structure AtFetch (s : State) (p ph op : Nat) (sec : Section) (c : Cmd) (s1 : State) : Prop extends OnPond s p ph where
  fetch : canFetch (pondOf s ph) = true ∨ endsStarted (pondOf s ph) = true
  point : ∃ r, fetchPoint (pondOf s ph) = some (sec, r, c)
  control : classOf c = 0
  opcode : opcodeOf c = op
  goesOn : fetchControl p ph 0 sec c s = (s1, true)
  wait : 2 ≤ sec.progress ∨ waitMet (pondOf s1 ph) c = true

/-- The state in which a control command that has been fetched executes: unless it has started before, its wait is
counted and subtracted, and it is counted and traced as it starts (06 R153, R189, 0x2601.02, 09 R260). -/
def begun (ph : Nat) (sec : Section) (c : Cmd) (s1 : State) : State :=
  if 2 ≤ sec.progress then s1 else startControl ph sec c s1

/-- A cell of the trace ring of the logical pond that stands on physical pond `ph` (06 R188). -/
def TraceCell (s : State) (ph k : Nat) : Prop :=
  ∃ l b, logicalOf s ph = some l ∧ b < 131072 ∧ k = cellOf s (traceBase l + b)

/-- No byte of memory differs but those of a pond's trace ring. -/
def MemoryKept (s t : State) (ph : Nat) : Prop :=
  ∀ k, ¬ TraceCell s ph k → mapFind memDefault t.mem k = mapFind memDefault s.mem k

/-- The core of a pond has become `k` at command index `pc`, and nothing else has changed on the way from `s` to `t` but
what the command's completion does (06 R153, R154, R189): its trace record, its counter, and an exit of the program when
the counter overflows. The section is the one before, at the new index. -/
structure Retired (s t : State) (ph pc : Nat) (k : Core) (sec : Section) (c : Cmd) : Prop where
  whole : t = endControl ph sec c (modPond s ph fun pd => setPc pc { pd with core := k })
  params : (pondOf t ph).core.params = k.params
  loops : (pondOf t ph).core.loops = k.loops
  comps : (pondOf t ph).core.comps = k.comps
  index : ∀ x, (pondOf t ph).core.sect = some x → x.pc = pc
  ponds : ∀ i, i ≠ ph → pondOf t i = pondOf s i
  mem : MemoryKept s t ph

/-- The pond with no command held at a full queue (06 R152). -/
def unstalled (pd : Pond) : Pond := { pd with core := { pd.core with stalled := none } }

/-- The command pushed at an instant. -/
def pushedAt (q : Queued) (t : Nat) : Queued := { q with pushed := t }

/-- `n` credits on their way to stream end `st` of a producer, usable from an instant on (06 R185). -/
def addCredits (n st due : Nat) (pd : Pond) : Pond :=
  { pd with core := { pd.core with creditsDue := pd.core.creditsDue ++ List.replicate n (st, due) } }

/-! ## Future operations -/

/-- An operation stands in its slot of the ring, at the consumed count, and is published (07 R193). -/
def ringed (o : FutureOp) (s : State) : State :=
  let i := opConsumed s
  let s := deviceWrite s (opSlot i) (leBytes (futureOpWord o) 8 ++ leBytes o.a 8 ++ leBytes o.b 8)
  if mappedAt s opPublish && decide (readLe s opPublish 8 ≤ i) then deviceWrite s opPublish (leBytes (i + 1) 8) else s

/-- The end of an operation of the ring at count `i` with a result (07 R195, R196): counted, result and tick in its
slot, consumed. -/
def opEnds (i code : Nat) (s : State) : State :=
  let s := addObj s (opCounter code) 1
  setObj (deviceWrite s (opSlot i + 24) (leBytes (code * 2 ^ 56 + tickNumber s % 2 ^ 56) 8)) (key 0x2700 7) (i + 1)

/-! ## Messages -/

/-- A message that has taken effect is noted as received and acknowledged end to end (12 R338). -/
def receipted (src msg : Nat) (seen : List Nat) (s : State) : State :=
  acknowledge src msg { s with fabric := { s.fabric with
    acked := mapPut [] s.fabric.acked src ((msg % 2 ^ 32 :: seen).take 65536) } }

/-! ## Writes of objects -/

/-- The state in which a master's write is checked: the service core serves, and a CAN client is in the master table
(14 R378, R392). -/
def checkedIn (m : Nat) (s : State) : Option State :=
  if m = hostMaster ∨ m = debugMaster then some (resumeService s) else enterMaster m (resumeService s)

/-- A master's write of `v` to an object over its transport arrives and passes every check of 14 Table DIC-4: `r` is
the object's row, `s1` the state in which it takes effect. -/
structure Accepted (s : State) (m index sub len v : Nat) (r : ObjRow) (s1 : State) : Prop where
  master : isMaster m = true
  arrives : reaches s m true = true
  served : checkedIn m s = some s1
  row : lookup s1 index sub = .ok r
  short : longType r = false
  writable : r.access ≠ .const ∧ r.access ≠ .ro
  owner : mayWrite s1 m (key index sub) r.access = true
  shape : m = hostMaster → storeByte m len = 0 ∧ cellAligned 0 (storeWidth m len) = true ∧
    cellShape r (storeWidth m len) v = 0
  length : m ≠ hostMaster → m ≠ debugMaster → len = typeSize r.type
  session : isCanMaster m = true → sessionFree s1 (m / 256 - 1) (m % 128) = true
  range : rangeCode s1 (key index sub) v r = 0
  state : stateCode s1 (key index sub) v r = 0

/-- `Accepted` for a command that writes one object in the width of its type. -/
abbrev AcceptedAs (s : State) (m index sub v : Nat) (r : ObjRow) (s1 : State) : Prop :=
  Accepted s m index sub (naturalWidth m index sub) v r s1

/-- The end of a write that has been accepted: the access is counted, and the master gets its answer (14 R383, R389,
R391, 0x3130.01). -/
def answered (m index sub : Nat) (s : State) : State :=
  let s := countAccess 0 s
  if m = hostMaster then s
  else if m = debugMaster then
    { s with debugPort := { s.debugPort with dictIndex := index, dictSub := sub, dictOp := 2, dictAbort := 0 } }
  else sendUsdo (m / 256 - 1) (m % 128) .done s

end Sys2Proof.Safety
end

