-- ==== Sys2Proof/Certificates/Slice0/Obligations.lean ====
section
/-! DEFINITION. The statements for the provers. Each docstring names the rules of spec/ that the statement rests on, and
says where a clause is the model's own choice. -/

set_option Elab.async false

open Sys2Proof Sys2Proof.Machine Sys2Proof.Safety

/-! ## The block as a machine -/

/-- A step takes the command at the front of the queue and executes it on the state with the queue's rest. -/
def Obligations.StepRunsFrontCommand : Prop :=
  ∀ (s : State) (c : Instr) (rest : List Instr), s.pending = c :: rest → step s = exec c { s with pending := rest }

/-- Every command whose operands name units that the device has completes, in every state; none is refused. A command
that names a unit that the device does not have ends in the fault of that name (the model's choice, log 53). -/
def Obligations.CommandsComplete : Prop :=
  (∀ (c : Instr) (s : State), UnitsExist c s → Completes (exec c s)) ∧
  (∀ (c : Instr) (s : State), ¬ UnitsExist c s → exec c s = .fault .noSuchUnit)

/-- A step removes the front command from the queue and adds none. With no command waiting the block idles (the model's
choice, log 1). -/
def Obligations.StepTakesOneCommand : Prop :=
  (∀ s t : State, step s = .next t → t.pending = s.pending.tail) ∧
  (∀ s : State, s.pending = [] → step s = .next s)

/-- Every step keeps the tables of the state in their canonical form. -/
def Obligations.StepKeepsCanonical : Prop :=
  ∀ s t : State, Canonical s → step s = .next t → Canonical t

/-- Once the debug-disable fuse is burned it stays burned, and no step raises the debug level (16 R452). -/
def Obligations.StepKeepsDebugFuse : Prop :=
  ∀ s t : State, DebugFuse s → step s = .next t →
    DebugFuse t ∧ (s.secure.disabled = true → t.secure.disabled = true ∧ t.secure.level = 0)

/-- No step moves time back, uses a nonce or a free value again, lowers the anti-rollback fuses, takes back what was
sent, or changes the grade (16 R446, R453; 00 R2). -/
def Obligations.StepOnlyGoesOn : Prop :=
  ∀ s t : State, step s = .next t →
    s.now ≤ t.now ∧ s.fresh ≤ t.fresh ∧ s.secure.nonce ≤ t.secure.nonce ∧
      s.secure.antiRollback ≤ t.secure.antiRollback ∧ s.sent <:+ t.sent ∧ t.nvm.grade = s.nvm.grade

/-- The state after power-up is in canonical form, meets the fuse rule, and its ponds, futures, extents and queues are
those of a reset (06 Table CMD-1, 05 R130, 07 R207, 10 R285, 14 R393). -/
def Obligations.ResetState : Prop :=
  Canonical State.reset ∧ DebugFuse State.reset ∧ State.reset.pending = [] ∧ State.reset.secure.level = 0 ∧
    ownerOf State.reset = 0 ∧ State.reset.tick.running = false ∧
    ∀ i : Nat, (pondOf State.reset i).core = Core.reset ∧ (pondOf State.reset i).running = [] ∧
      (pondOf State.reset i).tables = [] ∧ (pondOf State.reset i).streams = [] ∧
      futureOf State.reset i = Future.free ∧ extentOf State.reset i = Extent.unmapped

/-! ## Reading back what was written -/

/-- A parameter register reads the value written last; P0 reads 0 and a write to it is ignored (06 Table CMD-1). An
object reads the value written last, and writing it leaves every other object and all of the rest of the state as it was
(14 R376). A byte of a frame that is written reads back at every UDA of that byte, every other byte reads as before, and
nothing but memory changes (10 R275, R281; 00 R4). -/
def Obligations.StateReadsBack : Prop :=
  (∀ (k : Core) (d i : Nat) (v : W64), MapSorted k.params →
    getParam (setParam k d v) i = (if i = 0 then 0 else if i = d then v else getParam k i) ∧
      MapSorted (setParam k d v).params ∧ { setParam k d v with params := k.params } = k) ∧
  (∀ (s : State) (k j v : Nat), Canonical s →
    getObj (setObj s k v) j = (if j = k then v else getObj s j) ∧ { setObj s k v with dict := s.dict } = s ∧
      Canonical (setObj s k v)) ∧
  (∀ (s : State) (uda j : Nat) (b : Byte), Canonical s → deviceByte s uda = none → deviceByte s j = none →
    readByte (writeByte s uda b) j = (if cellOf s j = cellOf s uda then b else readByte s j) ∧
      { writeByte s uda b with mem := s.mem } = s ∧ Canonical (writeByte s uda b))

/-! ## Writes of objects (14 R376 to R379) -/

/-- A write that passes every check takes effect and is answered (14 R376). -/
def Obligations.AcceptedWriteTakesEffect : Prop :=
  ∀ (s s1 s2 : State) (m index sub len v : Nat) (r : ObjRow), Accepted s m index sub len v r s1 →
    applyWrite m (key index sub) v r.access s1 = (0, s2) →
    exec (.registerWrite m index sub len v) s = .next (answered m index sub s2)

/-- A write of a private object changes the writer's copy and no other master's, and no object of the device (14 R377).
-/
def Obligations.PrivateCopies : Prop :=
  ∀ (s s1 : State) (m n index sub len v j : Nat) (r : ObjRow), Canonical s1 →
    Accepted s m index sub len v r s1 → r.access = .rw → oneShot (key index sub) = false →
    resultRequest (key index sub) v s1 = none → m < 2 ^ 24 → key index sub < 2 ^ 24 → j < 2 ^ 24 →
    ∃ t, exec (.registerWrite m index sub len v) s = .next (answered m index sub t) ∧
      copyOf t m (key index sub) = v ∧ (n ≠ m ∨ j ≠ key index sub → copyOf t n j = copyOf s1 n j) ∧
      t.dict = s1.dict

/-- A write by a CAN master that is not the owner to an object of the owner is refused: nothing changes beside the counters,
and the master is answered with abort code 0x08000021 (14 Table DIC-4 check 6, 0x3130.03). -/
def Obligations.StrangerIsRefused : Prop :=
  ∀ (s s1 : State) (m index sub v : Nat) (r : ObjRow), isCanMaster m = true → reaches s m true = true →
    checkedIn m s = some s1 → sessionFree s1 (m / 256 - 1) (m % 128) = true → lookup s1 index sub = .ok r →
    r.access = .rwo → m ≠ ownerOf s1 →
    exec (.registerWrite m index sub (typeSize r.type) v) s =
      .next (sendUsdo (m / 256 - 1) (m % 128) (.abort 0x08000021)
        (countAccess 0x08000021 (addObj s1 (key 0x3130 3) 1)))

/-- An accepted write of one setting or one request of the tick, the basins, the programs or the memory completes, with its
answer (01 R28; 02 R35, R36; 06 R167, R169; 07 R199, R205; 10 R308): a source selected, a re-adopt requested or withdrawn,
a staged basin setting or a pool setting held, a commit, load, bank switch, clear or margin measurement requested with the
operands in force, and a pond under test failed. -/
def Obligations.DeviceRequestsComplete : Prop :=
  ∀ (s s1 : State) (m v : Nat) (r : ObjRow),
    (AcceptedAs s m 0x2200 1 v r s1 → exec (.sourceSelectWrite m v) s = .next (answered m 0x2200 1 (
      if getObj (setObj s1 (key 0x2200 1) v) (key 0x2200 2) = 0
      then setObj (setObj s1 (key 0x2200 1) v) (key 0x2200 4) (if v = 1 then 1 else 0)
      else { setObj s1 (key 0x2200 1) v with tick := { s1.tick with dropSource := decide (v = 0) } }))) ∧
    (AcceptedAs s m 0x2200 4 1 r s1 → exec (.readoptRequest m) s = .next (answered m 0x2200 4 (
      if getObj s1 (key 0x2200 2) = 1 then s1 else setObj s1 (key 0x2200 4) 1))) ∧
    (AcceptedAs s m 0x2200 4 0 r s1 →
      exec (.readoptWithdraw m) s = .next (answered m 0x2200 4 (setObj s1 (key 0x2200 4) 0))) ∧
    (∀ index sub, isTreeKey (key index sub) = true → index < 65536 → sub < 256 → AcceptedAs s m index sub v r s1 →
      exec (.stagedBasinWrite m index sub v) s = .next (answered m index sub (setObj s1 (key index sub) v))) ∧
    (AcceptedAs s m 0x2110 1 1 r s1 →
      exec (.basinCommitRequest m) s = .next (answered m 0x2110 1 (setObj s1 (key 0x2110 1) 1))) ∧
    (AcceptedAs s m 0x2120 1 v r s1 → exec (.testSpareRequest m v) s = .next (answered m 0x2120 1
      (failPond raise (physOf s1 v) (setObj s1 (key 0x2120 1) v)))) ∧
    (AcceptedAs s m 0x2610 3 1 r s1 → getObj s1 (key 0x2610 3) ≠ 1 →
      exec (.loadRequest m) s = .next (answered m 0x2610 3 (setObj { s1 with requests := { s1.requests with
        loadProgram := getObj s1 (key 0x2610 1), loadBasin := getObj s1 (key 0x2610 2) } } (key 0x2610 3) 1))) ∧
    (AcceptedAs s m 0x2611 2 1 r s1 → exec (.bankSwitchRequest m) s = .next (answered m 0x2611 2
      (setObj { s1 with requests := { s1.requests with switchBasin := getObj s1 (key 0x2611 1) } } (key 0x2611 2) 1))) ∧
    (AcceptedAs s m 0x2611 3 1 r s1 → exec (.clearBankRequest m) s = .next (answered m 0x2611 3
      (setObj { s1 with requests := { s1.requests with clearBasin := getObj s1 (key 0x2611 1) } } (key 0x2611 3) 1))) ∧
    (AcceptedAs s m 0x2702 2 v r s1 →
      exec (.stateStrideWrite m v) s = .next (answered m 0x2702 2 (setObj s1 (key 0x2702 2) v))) ∧
    (∀ q sub, q < 4 → 1 ≤ sub → sub ≤ 3 → AcceptedAs s m (0x2710 + q) sub v r s1 →
      exec (.poolConfigWrite m q sub v) s =
        .next (answered m (0x2710 + q) sub (setObj s1 (key (0x2710 + q) sub) v))) ∧
    (AcceptedAs s m 0x2A20 4 1 r s1 → inSetup s1 = true → s1.requests.margin = none →
      ¬ (getObj s1 (key 0x2A20 1) = 1 ∧ 63 < getObj s1 (key 0x2A20 2)) →
      memberWorks (memberOf s1 (getObj s1 (key 0x2A20 1)) (getObj s1 (key 0x2A20 2))) = true →
      exec (.marginRequest m) s = .next (answered m 0x2A20 4 (setObj { s1 with requests := { s1.requests with
        margin := some (getObj s1 (key 0x2A20 1), getObj s1 (key 0x2A20 2), getObj s1 (key 0x2A20 3)) } }
        (key 0x2A20 4) 1)))

/-- The commands that write one request or mask of the fabric, the numerics, the tasks, the weir, the firmware, the
debug lock and the power state (11 R312; 12 R341; 13 R360; 14 R381; 15 R405, R406, R408, R420, R425; 16 R446, R447,
R452; 17 R460). -/
def Obligations.ServiceRequestsComplete : Prop :=
  ∀ (s s1 : State) (m v : Nat) (r : ObjRow),
    (AcceptedAs s m 0x2B01 5 1 r s1 →
      exec (.adoptRequest m) s = .next (answered m 0x2B01 5 (setObj s1 (key 0x2B01 5) 1))) ∧
    (AcceptedAs s m 0x2C01 2 1 r s1 →
      exec (.fabricCommitRequest m) s = .next (answered m 0x2C01 2 (setObj s1 (key 0x2C01 2) 1))) ∧
    (∀ sa sb (ra rb : ObjRow) (x : Nat), AcceptedAs s m 0x2D02 1 v ra sa →
      AcceptedAs (answered m 0x2D02 1 (setObj sa (key 0x2D02 1) v)) m 0x2D02 2 x rb sb →
      AcceptedAs (answered m 0x2D02 2 (setObj sb (key 0x2D02 2) x)) m 0x2D02 3 1 r s1 →
      (x = 1 → exec (.taskStart m v) s = .next (answered m 0x2D02 3 (setObj s1 (key 0x2D02 3) 1))) ∧
      (x = 2 → exec (.taskEnd m v) s = .next (answered m 0x2D02 3 (setObj s1 (key 0x2D02 3) 1)))) ∧
    (∀ high : Bool, AcceptedAs s m 0x2E01 (if high then 6 else 5) v r s1 →
      exec (.acknowledgeSources m high v) s =
        .next (answered m 0x2E01 (if high then 6 else 5) (ackMask (if high then 64 else 0) v s1))) ∧
    (∀ high : Bool, AcceptedAs s m 0x2E01 (if high then 8 else 7) v r s1 →
      exec (.clearSources m high v) s =
        .next (answered m 0x2E01 (if high then 8 else 7) (clearMask (if high then 64 else 0) v s1))) ∧
    (AcceptedAs s m 0x2E00 2 v r s1 →
      exec (.regimeRequest m v) s = .next (answered m 0x2E00 2 (setObj s1 (key 0x2E00 2) v))) ∧
    (AcceptedAs s m 0x2E10 0xB 1 r s1 → (requestRetire s1).1 = 0 →
      exec (.retireRequest m) s = .next (answered m 0x2E10 0xB (requestRetire s1).2)) ∧
    (AcceptedAs s m 0x2E30 1 1 r s1 → s1.boot.activating = none → s1.boot.staged = true →
      exec (.activationRequest m) s = .next (answered m 0x2E30 1 (setObj s1 (key 0x2E30 1) 1))) ∧
    (AcceptedAs s m 0x3020 3 1 r s1 → (requestVerify s1).1 = 0 →
      exec (.verifyRequest m) s = .next (answered m 0x3020 3 (requestVerify s1).2)) ∧
    (AcceptedAs s m 0x3030 3 1 r s1 → exec (.burnRequest m) s = .next (answered m 0x3030 3 (requestBurn s1))) ∧
    (AcceptedAs s m 0x3040 4 1 r s1 → exec (.relock m) s = .next (answered m 0x3040 4 (lockDebug s1))) ∧
    (AcceptedAs s m 0x3040 5 1 r s1 →
      exec (.permanentDebugDisable m) s = .next (answered m 0x3040 5 (burnDisable s1))) ∧
    (AcceptedAs s m 0x2F00 1 v r s1 →
      exec (.powerStateRequest m v) s = .next (answered m 0x2F00 1 (requestPower v m s1))) ∧
    (AcceptedAs s m 0x3110 5 1 r s1 →
      exec (.resetCommunication m) s = .next (answered m 0x3110 5 (resetComm s1)))

/-! ## Ownership (14 R392 to R399) -/

/-- The ownership commands of masters: a claim opens or joins an election, a refresh restarts the lease, a successor is
named and accepts, the owner releases, and the debug port seizes (14 R394 to R398). An owner that has won, accepted or
seized: its identifier, the owned state, a fresh lease, no election, no handover and no successor; every object but
those three keeps its value (14 R394, R397, R398). -/
def Obligations.OwnershipCommandsComplete : Prop :=
  (∀ (s s1 : State) (m v : Nat) (r : ObjRow),
    (AcceptedAs s m 0x3101 1 v r s1 → ownState s1 ≤ 1 →
      exec (.claim m v) s = .next (answered m 0x3101 1 (claimEffect m v s1))) ∧
    (AcceptedAs s m 0x3101 2 1 r s1 → exec (.leaseHeartbeat m) s = .next (answered m 0x3101 2
      { s1 with own := { s1.own with lease := some (s1.now + getObj s1 (key 0x3100 1) * msClk) } })) ∧
    (AcceptedAs s m 0x3101 3 v r s1 → exec (.successor m v) s = .next (answered m 0x3101 3 (nameSuccessor v s1))) ∧
    (AcceptedAs s m 0x3101 4 1 r s1 → exec (.accept m) s = .next (answered m 0x3101 4
      (becomeOwner m (addObj s1 (key 0x3130 6) 1)))) ∧
    (AcceptedAs s m 0x3101 5 1 r s1 → exec (.release m) s = .next (answered m 0x3101 5 (vacate s1))) ∧
    (AcceptedAs s m 0x3101 6 1 r s1 → exec (.seize m) s = .next (answered m 0x3101 6
      (raise 57 .chip (becomeOwner debugMaster (addObj s1 (key 0x3130 7) 1)))))) ∧
  (∀ (s : State) (m j : Nat), Canonical s →
    ownerOf (becomeOwner m s) = m ∧ ownState (becomeOwner m s) = 2 ∧ successorOf (becomeOwner m s) = 0 ∧
      (becomeOwner m s).own.lease = some (s.now + getObj s (key 0x3100 1) * msClk) ∧
      (becomeOwner m s).own.election = none ∧ (becomeOwner m s).own.handover = none ∧
      (becomeOwner m s).own.claims = [] ∧
      (j ∉ [key 0x3101 3, key 0x3101 7, key 0x3101 9] → getObj (becomeOwner m s) j = getObj s j) ∧
      { becomeOwner m s with own := s.own, dict := s.dict } = s)

/-- The times of ownership: the lease expires at its instant, a handover ends at its own, and a CAN client without a
request for 60 s leaves the master table with its private copies, unless it is owner or successor (14 R392, R395 to
R397); the two clocks stand still while the service core is paused (14 R399). The election window closes: the claim of
the highest priority wins, among equals that of the lowest identifier (14 R394); with no claim the device stays vacant.
-/
def Obligations.OwnershipTimers : Prop :=
  (∀ (s : State) (t m : Nat),
    (s.own.lease = some t → s.own.frozen = none → ownerOf s ≠ 0 → exec .leaseExpiry s = .next
      (raise 57 .chip (vacate (addObj (advanceTo s t) (key 0x3130 5) 1)))) ∧
    (s.own.handover = some t → s.own.frozen = none →
      exec .handoverTimeout s = .next (endHandover (advanceTo s t))) ∧
    (s.own.frozen ≠ none → exec .leaseExpiry s = .next s ∧ exec .handoverTimeout s = .next s ∧
      exec .electionClose s = .next s) ∧
    (isMaster m = true → s.own.masters.find? (fun e => decide (e.1 = m)) = some (m, t) → m ≠ ownerOf s →
      m ≠ successorOf s → exec (.masterTableTimeout m) s = .next (dropCopies m
        { advanceTo s (t + 60000 * msClk) with
          own := { s.own with masters := s.own.masters.filter fun x => decide (x.1 ≠ m) } })) ∧
    (isMaster m = true → m = ownerOf s ∨ m = successorOf s → exec (.masterTableTimeout m) s = .next s)) ∧
  (∀ (s : State) (t : Nat), s.own.election = some t → s.own.frozen = none →
    (∀ c, c ∈ s.own.claims → (∀ x ∈ s.own.claims, x ≠ c → x.2 < c.2 ∨ (x.2 = c.2 ∧ c.1 < x.1)) →
      exec .electionClose s = .next (becomeOwner c.1 (addObj (advanceTo s t) (key 0x3130 8) 1))) ∧
    (s.own.claims = [] → exec .electionClose s = .next (setObj { addObj (advanceTo s t) (key 0x3130 8) 1 with
      own := { s.own with election := none } } (key 0x3101 9) 0)))

/-! ## The tick and serving (02, 06, 17 R470) -/

/-- Where used edges come from (02 R32 to R35): the internal generator, T_nom after the last used edge; an accepted
TICK_IN edge, 23 to 25 clk after it crossed the threshold (a free value, log 10), unless it comes sooner than P_min; the
takeover and the end of a re-adopt request, 2 × T_nom after the last used edge. Without its condition each changes
nothing. The switch of the tick source (02 R34, R35): a takeover puts the internal generator in use, counts the switch
and flags the lost source; an adoption puts TICK_IN in use, ends the request and counts the switch. -/
def Obligations.TickEdges : Prop :=
  (∀ (s : State) (t : Nat) (rising : Bool),
    (s.tick.running = true → tickInUsed s = false → readoptPending s = false →
      exec .internalGeneratorEdge s = .next (usedEdge (s.tick.lastEdge + nominalClk s) id s)) ∧
    (s.tick.running = true → (tickInUsed s = true ∨ readoptPending s = true) →
      (forceObj s (key 0x2200 3) = 0 ↔ rising = true) →
      (max s.now t < s.tick.lastEdge + forceObj s (key 0x2201 2) * 1250 →
        exec (.tickInEdge t rising) s = .next (addObj (advanceTo s t) (key 0x2200 8) 1)) ∧
      (s.tick.lastEdge + forceObj s (key 0x2201 2) * 1250 ≤ max s.now t →
        ∃ d, 23 ≤ d ∧ d ≤ 25 ∧ exec (.tickInEdge t rising) s = .next (usedEdge (max s.now t + d)
          (if readoptPending s then adoptTickIn else id) { advanceTo s t with fresh := s.fresh + 1 }))) ∧
    (s.tick.running = true → tickInUsed s = true →
      exec .tickSourceTakeover s = .next (usedEdge (s.tick.lastEdge + 2 * nominalClk s) takeOver s)) ∧
    (s.tick.running = true → tickInUsed s = false → readoptPending s = true →
      exec .readoptFallback s = .next (usedEdge (s.tick.lastEdge + 2 * nominalClk s)
        (fun u => setObj (setObj u (key 0x2200 4) 0) (key 0x2200 5) 1) s)) ∧
    (s.tick.running = false → exec .internalGeneratorEdge s = .next s ∧ exec (.tickInEdge t rising) s = .next s ∧
      exec .tickSourceTakeover s = .next s ∧ exec .readoptFallback s = .next s)) ∧
  (∀ (s : State), Canonical s →
    (noteSwitch s).tick = s.tick ∧ getObj (noteSwitch s) (key 0x2200 6) = getObj s (key 0x2200 6) + 1 ∧
      getObj (noteSwitch s) (key 0x2200 7) = tickNumber s ∧
      ∃ u, takeOver s = raiseCause 40 .chip u ∧ u.tick.lostSource = true ∧ getObj u (key 0x2200 2) = 0 ∧
        getObj u (key 0x2200 6) = getObj s (key 0x2200 6) + 1 ∧ u.mem = s.mem ∧ u.ponds = s.ponds)

/-- The phases of a tick (02 R37): with length t and guard band g the guard is the larger of floor(t × g / 1,000) and
12,500 clk, D_s is t less the guard, S is 17,500 clk and W is D_s − S; t, D_s and W are the objects 0x2201.04, .06 and
.05. At the defaults D_s is 11,875,000 clk and W 11,857,500 clk. -/
def Obligations.TickPhases : Prop :=
  (∀ (s : State) (t g : Nat), Canonical s →
    let guard := max (t * g / 1000) 12500
    12500 ≤ guard ∧ guardOf t g = guard ∧ serveStart = 17500 ∧ getObj (setPhases t g s) (key 0x2201 4) = t ∧
      getObj (setPhases t g s) (key 0x2201 6) = t - guard ∧
      getObj (setPhases t g s) (key 0x2201 5) = t - guard - serveStart) ∧
  ∀ s : State, Canonical s →
    (∃ t u, applyParameters s = setPhases t (getObj s (key 0x2201 3)) u) ∧
    getObj (setPhases 12500000 50 s) (key 0x2201 6) = 11875000 ∧ guardOf 12500000 50 = 625000 ∧
      getObj (setPhases 12500000 50 s) (key 0x2201 5) = 11857500

/-- The events of a tick on a gang and the device (02 R38, R40, R45, R57; 06 R174, R176; 13 R368; 15 R421). The latch, at
its instant, applies operations and staged values, admits the futures and writes the work list. Serving dispatch begins
at S + A_sw with the carried step, or, behind a switch-out in progress, is counted once as waiting with source 17. A
fetch with no entry left to run only gives the lost leading entries their status. A group that exceeds its
cost is counted once per entry, with source 13. At D_s the steps of every gang end or are carried, each allocated future
is committed, and 12,500 clk later the record and TPDO1 go out. A row is repaired in setup, or once
after D_s of a tick when the guard band holds the repair. -/
def Obligations.ServingEvents : Prop :=
  ∀ (s : State) (g t row : Nat) (rows : List Nat), g < logicalCount s →
    (s.tick.anyEdge = true → s.tick.latched = false → exec .inputLatch s = .next
      (noteBuild (writeWorkList (admitAll (applyAllStaged (applyOperations (numericsLatch
        { advanceTo s (s.tick.lastEdge + 64) with
          tick := { s.tick with latched := true }, steps := keptSteps s.steps }))))))) ∧
    (s.tick.latched = true → (gangOf s g).dispatched = false → s.tick.committed = false →
      let due := s.tick.lastEdge + 17500 + (gangOf s g).aSw
      let u := advanceTo s due
      let v := countDispatchWait g false u
      (servingGang u g = false ∨ runOf u g = none → exec (.servingDispatchStart g) s = .next (runCarried g
        (modCore (setGang v g { gangOf v g with dispatched := true }) (physOf v g) fun k =>
          { k with ran := carriedProgram (gangOf s g) }))) ∧
      (servingGang u g = true → runOf u g ≠ none → (gangOf s g).dispatchAt = 0 →
        exec (.servingDispatchStart g) s = .next (raise 17 (.pond (physOf u g))
          (addObj (setGang u g { gangOf s g with dispatchAt := due + 1 }) (key 0x2D03 5) 1))) ∧
      (servingGang u g = true → runOf u g ≠ none → (gangOf s g).dispatchAt ≠ 0 →
        exec (.servingDispatchStart g) s = .next u)) ∧
    (mayFetchGroup s g = true →
      let u := skipDropped g (advanceTo s t)
      groupAt u (gangOf u g) = [] → exec (.groupFetch g t) s = .next u) ∧
    (s.tick.latched = true → s.tick.committed = false →
      let u := forEach (mapKeys s.gangs) endServing (advanceTo s (s.tick.lastEdge + servingEndAt s))
      let sts := (allocatedFutures u).map fun f => commitStatus u (stepOf u f)
      let v := commitAll { u with tick := { u.tick with committed := true } }
      exec .servingEnd s = .next (triggerTpdo 0 (writeRecord sts
        (deferRepairs (advanceTo v (v.tick.lastEdge + servingEndAt v + 12500)))))) ∧
    ((gangOf s g).group ≠ [] → (gangOf s g).costFlagged = false →
      exec (.costExceeded g) s = .next (raise 13 (.pond (physOf s g))
        (addObj (setGang (advanceTo s ((gangOf s g).sectionStart +
          ((gangOf s g).group.map (·.charge)).foldl (· + ·) 0 + 1)) g { gangOf s g with costFlagged := true })
          (key 0x2204 5) (gangOf s g).group.length))) ∧
    (s.tiers.repairs = row :: rows → inSetup s = true → exec .rowRepair s = .next (repairRow row s)) ∧
    (s.tiers.repairs = row :: rows → inSetup s = false → s.tick.committed = true → s.tick.repaired = false →
      162500 ≤ guardBand s →
      exec .rowRepair s = .next (repairRow row { s with tick := { s.tick with repaired := true } }))

/-- A group is fetched (02 R55, R57; 06 R174, R175): the entries that a gang has to fetch begin with it, its entries
have one program and one fallback flag, none but the first may be dropped, and they are at most the batch width. The gang then holds them as its
group; the step of each has the program that runs, and status 0x03 where the monitor had switched it; and every member
of the gang starts the same section of that program: its prologue where the program has one and has not run on the gang
in the tick and no carried step runs, else its step section. -/
def Obligations.GroupFetched : Prop :=
  ∀ (s u : State) (g t : Nat) (e : WorkEntry) (es : List WorkEntry), g < logicalCount s → Canonical s →
    mayFetchGroup s g = true → skipDropped g (advanceTo s t) = u → groupAt u (gangOf u g) = e :: es →
    (∀ x ∈ es, x.program = e.program ∧ x.fallback = e.fallback ∧ x.dropped = false) ∧
      es.length + 1 ≤ max (dirOf u e.program).batch 1 ∧ (e :: es) <+: toFetch (gangOf u g) ∧
      ∃ v kind, exec (.groupFetch g t) s = .next (forEach (gangMembers v g) (fun l w => startMember g l kind w) v) ∧
        (gangOf v g).group = e :: es ∧
        (∀ x ∈ e :: es, (stepOf v x.future).selector = x.program ∧
          (x.switched = true → (stepOf v x.future).status = 3)) ∧
        (kind = .prologue ↔ e.program ∉ (pondOf u (physOf u g)).core.ran ∧ (gangOf v g).carryRunning = false ∧
          ∃ i, imageOn u (physOf u g) e.program = some i ∧ i.prologue ≠ 0xFFFF) ∧
        (kind = .prologue ∨ kind = .step)

/-- A pond's hold of the array-start stagger ends 16 clk per logical number after E + 15,000 clk (17 R470). A stalled push
enters its queue, youngest, once that has room, and the stalled clk are counted (06 R152). The oldest credit on its way
to an open producer end becomes usable at its instant, which ends and counts a wait for it (06 R185). The first peer
signal that waits for no write is delivered at its instant and no longer on its way (06 R156). A pond that halts has
halted once nothing runs or waits on it (16 R454). -/
def Obligations.PondEvents : Prop :=
  ∀ (s : State) (p ph t st due : Nat) (q : Queued) (sig : PeerSignal), OnPond s p ph →
    (s.tick.anyEdge = true → exec (.arrayStartStaggerRelease p) s = .next
      (modPond (advanceTo (beginStagger s) (s.tick.lastEdge + 15000 + 16 * p)) ph fun pd => { pd with gated := false })) ∧
    ((pondOf s ph).core.stalled = some (q, t) → (queueOf (pondOf s ph) (classOf q.cmd)).length < 64 →
      ∀ n, exec (.queueSlotFreed p n) s = .next
        (addObj (addObj (setPond (advanceTo s n) ph (setQueue (unstalled (pondOf s ph)) (classOf q.cmd)
          (queueOf (pondOf s ph) (classOf q.cmd) ++ [pushedAt q (max s.now n)])))
          (key 0x2601 1) 1) (key 0x2601 3) (max s.now n - t))) ∧
    ((pondOf s ph).core.creditsDue.find? (fun e => decide (e.1 = st)) = some (st, due) →
      (streamOf (pondOf s ph) st).opened = true → (streamOf (pondOf s ph) st).consumer = false →
      exec (.creditReturn p st) s = .next
        (modPond (countStall p ph st (streamOf (pondOf s ph) st).waitSince (advanceTo s due)) ph fun pd =>
          setStream { pd with core := { pd.core with creditsDue := pd.core.creditsDue.erase (st, due) } } st
            { streamOf pd st with credits := (streamOf pd st).credits + 1, waitSince := 0 })) ∧
    (nextSignal s ph = some sig →
      sig ∈ (pondOf s ph).core.signals ∧ writeUnderWay s ph sig = false ∧
      (∀ x ∈ (pondOf s ph).core.signals, writeUnderWay s ph x = false →
        (pondOf s ph).core.signals.find? (fun y => decide (y.sender = x.sender)) = some x → sig.visible ≤ x.visible) ∧
      exec (.peerSignalArrival p) s = .next (signalPond ph sig.counter sig.count sig.sender sig.tag
        (modPond (advanceTo s sig.visible) ph fun pd =>
          { pd with core := { pd.core with signals := pd.core.signals.erase sig } }))) ∧
    ((pondOf s ph).halt = some 1 → (pondOf s ph).running = [] → (pondOf s ph).queues = [] →
      exec (.pondHalted p) s = .next (modPond s ph fun pd => { pd with halt := some 2 }))

/-! ## The control core (06) -/

/-- The control commands that only change registers and the command index (06 R160): SET, ALU, LOOP, ENDLOOP, CMP, BR,
NOP and RESUME complete, give the registers the values that the rules state, move on or branch, and change nothing else
but what the completion of a command does: its trace record and its signal (06 R153, R189). -/
def Obligations.RegisterCommands : Prop :=
  ∀ (s s1 : State) (p ph op : Nat) (sec : Section) (c : Cmd), Canonical s1 → AtFetch s p ph op sec c s1 →
    let u := begun ph sec c s1
    let k := (pondOf u ph).core
    let y := if fieldImm c then c.w2 else getParam k (fieldB c)
    let n := fieldLoop c
    let z := (mapFind 0 k.loops n + (2 ^ 32 - 1)) % 2 ^ 32
    (op = 0x01 → ∃ t, exec (.set p) s = .next t ∧ Retired u t ph (sec.pc + 1) (setParam k (fieldD c) c.w2) sec c) ∧
    (op = 0x02 → ∃ t, exec (.alu p) s = .next t ∧ Retired u t ph (sec.pc + 1)
      (setParam k (fieldD c) (aluResult (fieldFunc c) (getParam k (fieldA c)) y)) sec c) ∧
    (op = 0x05 → ∃ t, exec (.loop p) s = .next t ∧ Retired u t ph
      (if y.toNat % 2 ^ 32 = 0 then fieldTarget c else sec.pc + 1)
      { k with loops := mapPut 0 k.loops n (y.toNat % 2 ^ 32) } sec c) ∧
    (op = 0x06 → ∃ t, exec (.endloop p) s = .next t ∧ Retired u t ph
      (if z = 0 then sec.pc + 1 else fieldTarget c) { k with loops := mapPut 0 k.loops n z } sec c) ∧
    (op = 0x07 → ∃ t, exec (.cmp p) s = .next t ∧ Retired u t ph (sec.pc + 1)
      { k with comps := mapPut false k.comps (fieldN c) (cmpResult (fieldFunc c) (getParam k (fieldA c)) y) } sec c) ∧
    (op = 0x08 → ∃ t, exec (.br p) s = .next t ∧ Retired u t ph
      (if fieldFunc c = 0 ∨ (fieldFunc c = 1 ∧ mapFind false k.comps (fieldN c) = true) ∨
          (2 ≤ fieldFunc c ∧ mapFind false k.comps (fieldN c) = false) then fieldTarget c else sec.pc + 1) k sec c) ∧
    (op = 0x0D → ∃ t, exec (.nop p) s = .next t ∧ Retired u t ph (sec.pc + 1) k sec c) ∧
    (op = 0x0E → ∃ t, exec (.resume p) s = .next t ∧ Retired u t ph sec.resume k sec c)

/-- LOAD and STORE (06 R160, R162): an aligned access to mapped bytes completes: a LOAD gives its register the 8 bytes, and
a STORE the bytes its register; a store into a read-only extent moves nothing and is counted (10 R286). A LOAD of bytes
that are lost ends its program with cause 0x0B (10 R302, R304), and one of bytes under re-fetch waits (10 R301, R303). -/
def Obligations.LoadAndStore : Prop :=
  ∀ (s s1 : State) (p ph op : Nat) (sec : Section) (c : Cmd), Canonical s1 → AtFetch s p ph op sec c s1 →
    let u := begun ph sec c s1
    let k := (pondOf u ph).core
    let a := (getParam k (fieldA c) + c.w2).toNat
    a % 8 = 0 → a < 2 ^ 48 → unitMapped u [(a, 8)] = true →
    (op = 0x03 → unservable u [(a, 8)] = false → waitsRefetch u [(a, 8)] = false → ∃ t, exec (.load p) s = .next t ∧
      Retired (countBytes false [(a, 8)] (countWait (sectionWait u ph) u)) t ph (sec.pc + 1)
        (setParam k (fieldD c) (BitVec.ofNat 64 (readLe u a 8))) sec c) ∧
    (op = 0x03 → unservable u [(a, 8)] = true → exec (.load p) s = .next (startExit ph 0x0B (markOf c) u)) ∧
    (op = 0x03 → unservable u [(a, 8)] = false → waitsRefetch u [(a, 8)] = true →
      exec (.load p) s = .next (waitSection ph (waitNote u [(a, 8)]) u)) ∧
    (op = 0x04 → unitReadOnly u [(a, 8)] = false → ∃ t, exec (.store p) s = .next t ∧
      Retired (deviceAgentWrite (countBytes true [(a, 8)] u) a (leBytes (getParam k (fieldB c)).toNat 8)) t ph
        (sec.pc + 1) k sec c) ∧
    (op = 0x04 → unitReadOnly u [(a, 8)] = true → ∃ t, exec (.store p) s = .next t ∧
      Retired (addObj u (key 0x2A04 0xC) 1) t ph (sec.pc + 1) k sec c)

/-- A LOAD or STORE whose address is not a multiple of 8, or that lies outside the mapped UDA, performs no access: no
register changes, nor any byte of memory but those of the pond's own trace ring, and the program takes its error exit with
cause 0x0C (06 R162). -/
def Obligations.MisalignedAccess : Prop :=
  ∀ (s s1 : State) (p ph op : Nat) (sec : Section) (c : Cmd), Canonical s1 → AtFetch s p ph op sec c s1 →
    op = 0x03 ∨ op = 0x04 →
    let u := begun ph sec c s1
    let a := (getParam (pondOf u ph).core (fieldA c) + c.w2).toNat
    a % 8 ≠ 0 ∨ 2 ^ 48 ≤ a ∨ unitMapped u [(a, 8)] = false →
    ∃ t v, exec (if op = 0x03 then .load p else .store p) s = .next t ∧
      t = startExit ph 0x0C (markOf c) v ∧ v.ponds = u.ponds ∧ MemoryKept u t ph ∧
      (∀ i, i ≠ ph → pondOf t i = pondOf u i) ∧ (pondOf t ph).core.params = (pondOf u ph).core.params ∧
      (∀ x, (pondOf u ph).core.sect = some x → (pondOf u ph).core.exiting = none →
        (pondOf u ph).core.exited = false ∨ x.kind = .error →
        (pondOf t ph).core.exiting = some { cause := 0x0C, tag := markOf c })

/-- FENCE, SIGPEER and ERR (06 R156, R160, R161): a fence completes when every command that its program pushed has, and
waits before; SIGPEER completes with func + 1 on its way to counter d of the member of rank Y, visible after the halo
latency and behind what its pond has pushed, while a rank outside the gang ends the program with cause 0x01; ERR ends the
program with cause 0x80 + func. RET (06 R160, R174, R181; 13 R357, R363, R371): after its fence, with its signal given,
the section returns: a step's group ends when it is the last, a prologue goes on to the step section, an error-exit section
ends, each with its serving time charged, and the section of a background step stops at its end. -/
def Obligations.SignalCommands : Prop :=
  (∀ (s s1 : State) (p ph op : Nat) (sec : Section) (c : Cmd), Canonical s1 → AtFetch s p ph op sec c s1 →
    let u := begun ph sec c s1
    let k := (pondOf u ph).core
    let y := (if fieldImm c then c.w2 else getParam k (fieldB c)).toNat
    (op = 0x0A → fenced (pondOf u ph) sec.program = true → ∃ t, exec (.fence p) s = .next t ∧
      Retired u t ph (sec.pc + 1) k sec c) ∧
    (op = 0x0A → fenced (pondOf u ph) sec.program = false → exec (.fence p) s = .next u) ∧
    (op = 0x09 → ∀ l, (gangMembers u p)[y]? = some l → physOf u l ≠ 0xFF → ∃ v t, exec (.sigpeer p) s = .next t ∧
      Retired v t ph (sec.pc + 1) (pondOf v ph).core sec c ∧
      v = modPond u (physOf u l) (fun pd => { pd with core := { pd.core with signals := pd.core.signals ++
        [{ counter := fieldD c, count := fieldFunc c + 1, visible := u.now + haloLatency ph (physOf u l), sender := ph,
           after := (pondOf u ph).pushes, tag := tagOf c }] } })) ∧
    (op = 0x09 → (gangMembers u p)[y]? = none → exec (.sigpeer p) s = .next (startExit ph 0x01 (markOf c) u)) ∧
    (op = 0x0C → exec (.err p) s = .next (startExit ph (0x80 + fieldFunc c % 128) (markOf c) u))) ∧
  (∀ (s s1 : State) (p ph : Nat) (sec : Section) (c : Cmd), Canonical s1 → AtFetch s p ph 0x0B sec c s1 →
    let u := begun ph sec c s1
    let v := signalDone ph c (traceInfo ph 0x0002 0 (tagOf c) 0 (kindCode sec.kind) (some sec.program) u)
    let g := rank0Of u p
    (fenced (pondOf u ph) sec.program = false → exec (.ret p) s = .next u) ∧
    (fenced (pondOf u ph) sec.program = true → (pondOf v ph).core.sect ≠ none → (pondOf v ph).core.exiting = none →
      (sec.kind = .step → exec (.ret p) s = .next (endGroup g (chargeServing sec (leaveSection ph v)))) ∧
      (sec.kind = .prologue →
        exec (.ret p) s = .next (startMember g p .step (chargeServing sec (leaveSection ph v)))) ∧
      (sec.kind = .error → sec.task = false → exec (.ret p) s = .next (chargeServing sec (leaveSection ph v))) ∧
      (sec.kind = .error → sec.task = true → exec (.ret p) s = .next (taskFaulted g (leaveSection ph v))) ∧
      (sec.kind = .background → exec (.ret p) s = .next (returnTask g ph v))) ∧
    (fenced (pondOf u ph) sec.program = true → (pondOf v ph).core.exiting ≠ none → exec (.ret p) s = .next v))

/-- The start of a command subtracts its wait count from its counter, and a completed command raises the counter that it
signals, up to 65,535 (06 R153, R154). -/
def Obligations.WaitsAndSignals : Prop :=
  ∀ (pd : Pond) (k : Core) (c : Cmd) (n m i : Nat), MapSorted pd.core.sync → MapSorted k.sync →
    (waits c = true → waitMet pd c = true →
      getSync (takeWait pd c).core (waitCounter c) + waitCount c = getSync pd.core (waitCounter c) ∧
      (i ≠ waitCounter c → getSync (takeWait pd c).core i = getSync pd.core i)) ∧
    (waits c = false → takeWait pd c = pd) ∧
    getSync (signalCounter k n m).1 n = min (getSync k n + m) 65535 ∧
    ((signalCounter k n m).2 = true ↔ 65535 < getSync k n + m) ∧
    (i ≠ n → getSync (signalCounter k n m).1 i = getSync k i)

/-- A signal that would take a counter above 65,535 leaves the counter at 65,535, and the signalling program takes its
error exit with cause 0x03 while it runs; any other signal adds its count, and no program exits (06 R154). -/
def Obligations.SignalOverflow : Prop :=
  ∀ (s : State) (ph n m sender mark : Nat) (sec : Section), Canonical s → MapSorted (pondOf s ph).core.sync →
    let t := signalPond ph n m sender mark s
    (65535 < getSync (pondOf s ph).core n + m →
      getSync (pondOf t ph).core n = 65535 ∧
      ((pondOf s sender).core.sect = some sec → sec.program = tagProgram mark → (pondOf s sender).core.exiting = none →
        (pondOf s sender).core.exited = false ∨ sec.kind = .error →
        (pondOf t sender).core.exiting = some { cause := 0x03, tag := mark }) ∧
      (∀ i, i ≠ sender → (pondOf t i).core.exiting = (pondOf s i).core.exiting)) ∧
    (getSync (pondOf s ph).core n + m ≤ 65535 →
      getSync (pondOf t ph).core n = getSync (pondOf s ph).core n + m ∧
      (∀ i, (pondOf t i).core.exiting = (pondOf s i).core.exiting) ∧ t.mem = s.mem)

/-- COMMAND_PUSH (06 R150, R152, R157, R182, R481): an engine command at the fetch point of a core that may fetch goes, with
its registers patched in, to the end of the queue of its class, or stalls the core at a full queue; a command of an absent
engine is discarded and ends its program with cause 0x02; a fetch past the section ends the program with cause 0x0D. -/
def Obligations.CommandPush : Prop :=
  (∀ (s : State) (p ph t ecc : Nat) (sec : Section) (r : Resident) (c : Cmd), OnPond s p ph →
    canFetch (pondOf s ph) = true → fetchPoint (pondOf s ph) = some (sec, r, c) → classOf c ≠ 0 →
    fetchEnds p ph ecc sec c (advanceTo s t) = none →
    let u := fetchMarks p ph ecc sec c (advanceTo s t)
    let cls := classOf c
    let pd := { setPc (sec.pc + 1) (pondOf u ph) with pushes := (pondOf u ph).pushes + 1 }
    let q : Queued := { cmd := patched (pondOf u ph).core c, program := sec.program, pushed := u.now,
                        number := (pondOf u ph).pushes }
    (engineAbsent u cls = false → (queueOf (pondOf u ph) cls).length < 64 → exec (.commandPush p t ecc) s =
      .next (addObj (setPond u ph (setQueue pd cls (queueOf pd cls ++ [q]))) (key 0x2601 1) 1)) ∧
    (engineAbsent u cls = false → 64 ≤ (queueOf (pondOf u ph) cls).length → exec (.commandPush p t ecc) s =
      .next (setPond u ph { pd with core := { pd.core with stalled := some (q, u.now) } })) ∧
    (engineAbsent u cls = true → exec (.commandPush p t ecc) s = .next (startExit ph 0x02 (markOf c)
      (traceFault ph 0x0010 (tagOf c) cls 0x02 (addObj u (key 0x2601 5) 1))))) ∧
  (∀ (s : State) (p ph t ecc : Nat) (sec : Section) (r : Resident), OnPond s p ph → canFetch (pondOf s ph) = true →
    (pondOf s ph).core.sect = some sec → residentOf (pondOf s ph) sec.program = some r →
    fetchPoint (pondOf s ph) = none → exec (.commandPush p t ecc) s =
      .next (startExit ph 0x0D (slotTag sec.program sec.pc) (advanceTo s t)))

/-- An error exit (06 R179 steps 1 and 2, R181): the program stops, its unstarted commands leave every queue and are
counted, one inside an error-exit section is counted at once, the cause and the tag are held, and neither another pond nor
any byte of memory but those of the pond's own trace ring changes. -/
def Obligations.ErrorExit : Prop :=
  ∀ (s : State) (ph cause tag : Nat) (sec : Section), Canonical s → (pondOf s ph).core.sect = some sec →
    (pondOf s ph).core.exiting = none → (pondOf s ph).core.exited = false ∨ sec.kind = .error →
    let t := startExit ph cause tag s
    (pondOf t ph).core.exiting = some { cause := cause, tag := tag } ∧ canFetch (pondOf t ph) = false ∧
      (∀ e ∈ (pondOf t ph).queues, ∀ q ∈ e.2, q.program ≠ sec.program) ∧
      getObj t (key 0x2601 7) = getObj s (key 0x2601 7) + unstarted (pondOf s ph) sec.program ∧
      getObj t (key 0x2601 6) = getObj s (key 0x2601 6) + (if sec.kind = .error then 1 else 0) ∧
      (∀ i, i ≠ ph → pondOf t i = pondOf s i) ∧ MemoryKept s t ph

/-- ERROR_HANDLER_ENTRY (06 R179 steps 3 to 5, R180, R181): once no started command of the program runs, the source of the
cause is set, the exit is recorded with its cause and tag, the group of a step is failed, and the error-exit section
begins, or the program returns at once when it has none; an exit inside an error-exit section ends that section.
GANG_ERROR_NOTIFY (06 R180): when a member takes its error exit, every other member that runs takes one with cause 0x08,
and one with nothing in progress counts as having entered; with no member in an exit nothing happens. -/
def Obligations.ErrorHandlerEntered : Prop :=
  (∀ (s : State) (p ph : Nat) (e : Exiting) (sec : Section), OnPond s p ph → (pondOf s ph).tap = none →
    (pondOf s ph).core.exiting = some e → (pondOf s ph).core.sect = some sec →
    (∀ r ∈ (pondOf s ph).running, r.program ≠ sec.program) →
    let g := rank0Of s p
    let tag := e.tag % 2 ^ 24
    let s0 := match causeSource e.cause with
      | some i => raise i (.pond ph) s
      | none => s
    let s1 := addObj (traceFault ph 0x0011 tag (e.tag / 2 ^ 24) (e.cause + rankIn s0 p * 2 ^ 8) s0) (key 0x2601 6) 1
    let s2 := setObj (setObj s1 (key 0x2602 1) (ph * 2 ^ 56 + e.cause * 2 ^ 48 + tag)) (key 0x2602 2) (tickNumber s1)
    let s3 := if sec.task then s2 else failGroup g sec (chargeServing sec s2)
    let s4 := modCore s3 ph fun k => { k with exiting := none, exited := true }
    let s5 := allEntered g s4
    (∀ i, sec.kind ≠ .error → imageOn s4 ph sec.program = some i → i.errorExit ≠ 0xFFFF →
      exec (.errorHandlerEntry p) s =
        .next (startSection p ph .error sec.program sec.epoch sec.carried
          { group := sec.group, flags := (if sec.task then 24 else 8) + (if sec.carried then 2 else 0),
            index := (getParam (pondOf s5 ph).core 13).toNat, cause := e.cause, tag := tag } s5)) ∧
    (∀ i, sec.kind ≠ .error → imageOn s4 ph sec.program = some i → i.errorExit = 0xFFFF →
      exec (.errorHandlerEntry p) s =
        .next (if sec.task then taskFaulted g (leaveSection ph s5) else leaveSection ph s5)) ∧
    (sec.kind = .error → exec (.errorHandlerEntry p) s =
      .next (if sec.task then taskFaulted g (leaveSection ph s) else chargeServing sec (leaveSection ph s)))) ∧
  (∀ (s : State) (p ph : Nat), OnPond s p ph → Canonical s →
    ((pondOf s ph).core.exiting ≠ none ∨ (pondOf s ph).core.exited = true →
      ∃ t, exec (.gangErrorNotify p) s = .next t ∧
        ∀ l ∈ gangMembers s (rank0Of s p), l ≠ p → physOf s l ≠ 0xFF →
          ((pondOf s (physOf s l)).core.sect = none → (pondOf t (physOf s l)).core.exited = true) ∧
          ((pondOf s (physOf s l)).core.sect ≠ none → (pondOf s (physOf s l)).core.exiting = none →
            (pondOf s (physOf s l)).core.exited = false →
            (pondOf t (physOf s l)).core.exiting = some { cause := 0x08, tag := 0 })) ∧
    ((pondOf s ph).core.exiting = none → (pondOf s ph).core.exited = false →
      exec (.gangErrorNotify p) s = .next s))

/-! ## Streams (06 R184 to R187) -/

/-- SCONF opens a stream end: a producer with one credit for each slot, a consumer with no filled slot, each with the peer,
slots and counter of the command; credits on their way to the end that it replaces are gone, and a wait of that end is
counted (06 R184). SSEND takes one credit, counts a wait for it and the bytes, and copies its bytes into the next slot of
the consumer's buffer; SFREE gives slots free and sends their credits back, usable after the credit-return latency (06
R185). Each starts when it is the oldest startable command of the stream queue (06 R186). -/
def Obligations.StreamCommands : Prop :=
  (∀ (s : State) (p ph : Nat) (q : Queued) (rest : List Queued), AtStream s p ph 0x01 q rest →
    let u := dequeued ph q rest s
    let st := sconfStream q.cmd
    ∃ t, exec (.sconf p) s = .next t ∧
      Starts u t ph q (ran (modPond (countStall p ph st (streamOf (pondOf u ph) st).waitSince u) ph fun pd =>
        setStream (dropCredits st pd) st
          (if sconfConsumer q.cmd then
            { StreamEnd.closed with opened := true, consumer := true, peerRank := sconfRank q.cmd,
                                    peerStream := sconfPeerStream q.cmd, counter := sconfCounter q.cmd }
          else
            { StreamEnd.closed with opened := true, consumer := false, peerRank := sconfRank q.cmd,
                                    peerStream := sconfPeerStream q.cmd, slotBase := bits q.cmd.w2.toNat 63 40,
                                    slotSize := bits q.cmd.w2.toNat 39 22, slotCount := bits q.cmd.w2.toNat 21 16 + 1,
                                    credits := bits q.cmd.w2.toNat 21 16 + 1, filled := 0 })))) ∧
  (∀ (s : State) (p ph peer : Nat) (q : Queued) (rest : List Queued) (pe : StreamEnd),
    let u := dequeued ph q rest s
    let st := sconfStream q.cmd
    let e := streamOf (pondOf u ph) st
    peerEnd u p st = some (peer, pe) →
    (AtStream s p ph 0x02 q rest →
      let w := modPond (countStall p ph st e.waitSince u) ph fun pd =>
        setStream pd st { e with credits := e.credits - 1, next := (e.next + 1) % e.slotCount, waitSince := 0 }
      let x := modPond w peer fun pd => bufWrite pd (e.slotBase + e.next * e.slotSize * 64)
        (bufRead (pondOf u ph) (ssendSource q.cmd * 64) (ssendLength q.cmd * 64))
      ∃ t, exec (.ssend p) s = .next (noteCreditWaits ph t) ∧
        Starts u t ph q { ran (addObj x (streamStatKey 1 p st) (ssendLength q.cmd * 64)) with
          arrival := some (peer, e.peerStream * 32 + pe.counter) }) ∧
    (AtStream s p ph 0x03 q rest → ∃ t, exec (.sfree p) s = .next t ∧
      Starts u t ph q (ran (modPond (modPond u ph fun pd =>
        setStream pd st { e with filled := e.filled - sfreeCount q.cmd }) peer
          (addCredits (sfreeCount q.cmd) e.peerStream (u.now + creditLatency ph peer))))))

/-! ## Engines (03, 04, 05, 08) -/

/-- MMA and WLOAD at the head of the matrix queue start when they are legal, an MMA when no tap holds it: an MMA asks for
the activation expander, and the clk of its hold are counted (03 R61, R80, 04 R96, R109). The reductions and the window
reducer start when they are legal: RROW row by row, RCOL over ascending rows with one row written, POOL over every output
position (04 R99, R113). -/
def Obligations.MatrixCommands : Prop :=
  (∀ (s : State) (p ph : Nat) (q : Queued) (rest : List Queued), AtHead s p ph 0x1 q rest →
    let u := dequeued ph q rest s
    (opcodeOf q.cmd = 1 → mmaReady s ph q = true → mmaLegal (pondOf s ph) q.cmd = true →
      ∃ t, exec (.mma p) s = .next t ∧
        Starts u t ph q { ran (runMma p ph q (countHold ph u)) with expander := true }) ∧
    (opcodeOf q.cmd = 2 → wloadLegal (pondOf s ph) q.cmd = true →
      ∃ t, exec (.wload p) s = .next t ∧ Starts u t ph q (ran (bringWeights ph q false u)))) ∧
  (∀ (s : State) (p ph cls : Nat) (q : Queued) (rest : List Queued), AtHead s p ph cls q rest →
    let u := dequeued ph q rest s
    let c := q.cmd
    let row (j : Nat) := readRow (pondOf u ph) (vecInstant u ph c j) (vecA c) (vecCols (pondOf u ph) c j) j
    let v := noteDecoded ph c ((List.range (vecRows c)).flatMap fun j => (row j).2.toList) u
    let start := if bitAt (vecFunc c) 7 then some (vreg (pondOf u ph) ((vecDst c).addr % 32)) else none
    let sums := (List.range (vecRows c)).foldl
      (fun a j => some (rcolStep (vecRounding u p c 0xFFFE) (vecFunc c % 128) j a (row j).1)) start
    (cls = 0x2 → opcodeOf c = 0x20 → vecLegal c = true → ∃ t, exec (.rrow p) s = .next t ∧
      Starts u t ph q (vecStart c (forUpTo (vecRows c) (rrowRow p ph c) u))) ∧
    (cls = 0x2 → opcodeOf c = 0x21 → vecLegal c = true → ∃ t, exec (.rcol p) s = .next t ∧
      Starts u t ph q (vecStart c (writeRow ph c (vecDst c) (vecRounding v p c 0xFFFF) 0
        ((List.range (vecRows c)).foldl (fun n j => max n (vecCols (pondOf u ph) c j)) 0)
        ((sums.getD []).map canon32) v))) ∧
    (cls = 0x7 → opcodeOf c = 0x01 → poolLegal c = true → ∃ t, exec (.pool p) s = .next t ∧
      Starts u t ph q { ran (forUpTo (poolHo c * poolWo c) (poolPosition ph c) (addObj u (key 0x2403 1) 1)) with
        expander := decide ((poolSrc c).sel = 3) }))

/-- Every element-wise vector command and every function at the head of its queue starts when it is legal, and does in each
row what 04 Table VEC-4 says of its opcode: its operation in each of the 256 lanes, made canonical, stored in the row's
valid columns (04 R97). A canonical lane is 0x7FC0_0000 for a NaN and unchanged for every other value. A function gives
NaN for a NaN and, where negative arguments lie outside its domain, for these; at the infinities and at a zero where the
rule states a limit, it gives that limit (04 R98). -/
def Obligations.VectorCommands : Prop :=
  (∀ (s : State) (p ph : Nat) (q : Queued) (rest : List Queued), AtHead s p ph 0x2 q rest →
    vecLegal q.cmd = true →
    let u := dequeued ph q rest s
    (∀ row ∈ vectorRows, opcodeOf q.cmd = row.2.1 → ∃ t, exec (row.1 p) s = .next t ∧
      Starts u t ph q (vecStart q.cmd (forUpTo (vecRows q.cmd) (vecRow p ph q.cmd (row.2.2 (vecFunc q.cmd))) u))) ∧
    (∀ row ∈ functionRows, opcodeOf q.cmd = row.2.1 → ∃ t, exec (row.1 p) s = .next t ∧
      Starts u t ph q (vecStart q.cmd (forUpTo (vecRows q.cmd)
        (vecRow p ph q.cmd fun a _ _ => vecFn row.2.1 row.2.2 a) u)))) ∧
  (∀ (l ph j : Nat) (c : Cmd) (f : F32 → F32 → F32 → F32) (s : State),
    let pd := pondOf s ph
    let src (o : Opnd) := readRow pd (vecInstant s ph c j) o (vecCols pd c j) j
    let v := noteDecoded ph c ((src (vecA c)).2.toList ++ (src (vecB c)).2.toList) s
    ∃ out : List F32, vecRow l ph c f j s =
        writeRow ph c (vecDst c) (vecRounding v l c 0xFFFF) j (vecCols pd c j) out v ∧
      out.length = 256 ∧ ∀ i, i < 256 → out.getD i 0 =
        canon32 (f ((src (vecA c)).1.getD i 0) ((src (vecB c)).1.getD i 0) ((src (vecC c)).1.getD i 0))) ∧
  (∀ (x : F32), (isNan (flOf32 x) = true → canon32 x = 0x7FC00000) ∧ (isNan (flOf32 x) = false → canon32 x = x) ∧
    ∀ row ∈ functionRows,
      (isNan (flOf32 x) = true → vecFn row.2.1 row.2.2 x = 0x7FC00000) ∧
      vecFn row.2.1 row.2.2 posInf32 = row.2.2.atPosInf ∧ vecFn row.2.1 row.2.2 negInf32 = row.2.2.atNegInf ∧
      (∀ w, isZero (flOf32 x) = true → row.2.2.atZero x = some w → vecFn row.2.1 row.2.2 x = w) ∧
      (∀ m e, row.2.2.negative = true → flOf32 x = .num true m e → m ≠ 0 → vecFn row.2.1 row.2.2 x = 0x7FC00000))

/-- The commands of the gate pipeline start when they are legal and no tap is armed: GATE, SSTEP and SCAN arm their tap with
a copy of the vector registers, or process every row at its instant, with those registers; SFIX joins every row with its
lane's carry and then updates the carries where it is asked to (04 R91, R105, R107, R108, 08 R233, R238, R241, R243,
R244). One lane of a state update (04 R107, 08 R233): a marked row takes its new value exactly and a compensation of +0;
an unmarked plain row is one fused multiply-add of coefficient, state and term. -/
def Obligations.GateCommands : Prop :=
  (∀ (s : State) (p ph : Nat) (q : Queued) (rest : List Queued), AtHead s p ph 0x3 q rest →
    (pondOf s ph).tap = none →
    let u := dequeued ph q rest s
    let c := q.cmd
    let regs := (pondOf u ph).vregs
    (opcodeOf c = 0x01 → gateLegal c = true →
      let v := addObj u (key 0x2402 1) 1
      let row (j : Nat) (w : State) : State := gateRow ph c regs (w.now + j * gatePeriod c) j
        (readRow (withCopy regs (pondOf w ph)) (w.now + j * gatePeriod c) (gateX c) 256 j).1 w
      ∃ t, exec (.gate p) s = .next t ∧
        Starts u t ph q (ran (if gateTap c then armTap ph q (gateRows c) v else forUpTo (gateRows c) row v))) ∧
    (opcodeOf c = 0x10 → scanLegal c = true →
      let v := addObj u (key 0x2801 1) 1
      let row (j : Nat) (w : State) : State := sstepRow ph c regs (w.now + j * scanPeriod c) j
        (readRow (pondOf w ph) (w.now + j * scanPeriod c) (scanA c) 256 j).1 w
      ∃ t, exec (.sstep p) s = .next t ∧
        Starts u t ph q (ran (if scanTap c then armTap ph q (sstepRows c) v else forUpTo (sstepRows c) row v))) ∧
    (opcodeOf c = 0x11 → scanLegal c = true →
      let v := addObj (addObj u (key 0x2801 2) 1) (key 0x2801 8) (scanStall c)
      let at_ (i : Nat) := scanInstant v.now c (if scanReverse c then scanT c * scanR c - 1 - i else i)
      let rows := (scanOrder c).foldl
        (fun a i => scanRow ph c regs (at_ i) i (readRow (pondOf a.2 ph) (at_ i) (scanA c) 256 i).1 a)
        (startLanes (pondOf v ph) c, v)
      ∃ t, exec (.scan p) s = .next t ∧ Starts u t ph q
        (ran (if scanTap c then armTap ph q (scanT c * scanR c) v else finishScan ph c rows))) ∧
    (opcodeOf c = 0x12 → sfixLegal c = true →
      let carries := (List.range (scanR c)).map fun j => rowAt (pondOf u ph) (sfixCarry c + j * 1024)
      ∃ t, exec (.sfix p) s = .next t ∧ Starts u t ph q (ran (finishSfix ph c
        ((List.range (scanT c * scanR c)).foldl (fun a i => sfixRow ph c carries i a)
          (carries, addObj u (key 0x2801 3) 1)))))) ∧
  (∀ (comp : Bool) (form i : Nat) (as vs hs cs : List F32), i < 256 →
    ((updateRow comp form true as vs hs cs).1.getD i 0 = canon32 (vs.getD i 0) ∧
      (updateRow comp form true as vs hs cs).2.getD i 0 = 0) ∧
    (updateRow false form false as vs hs cs).1.getD i 0 =
      fma32 (as.getD i 0) (hs.getD i 0) (formTerm form (as.getD i 0) (vs.getD i 0)))

/-- TLOAD starts when no other command of its class runs and no slot that it reads is under re-fetch, and loads its tables
in order, each from its own slot of the pond's image area (05 R130, R146). A table load is counted; a valid image replaces
the table whole; an invalid one, or one in an unmapped or unservable slot, leaves the number invalid, is counted, and
sets source 6 (05 R130). -/
def Obligations.TableLoads : Prop :=
  (∀ (s : State) (p ph : Nat) (q : Queued) (rest : List Queued), AtHead s p ph 0x5 q rest → opcodeOf q.cmd = 0x01 →
    classIdle (pondOf s ph) 0x5 = true → tloadLegal q.cmd = true →
    waitsRefetch s [(tableSlot p (tloadFirst q.cmd), 1024 * tloadCount q.cmd)] = false →
    let u := dequeued ph q rest s
    ∃ t, exec (.tload p) s = .next t ∧ Starts u t ph q (ran
      (forEach ((List.range (tloadCount q.cmd)).map (tloadFirst q.cmd + ·)) (loadTable p ph) u))) ∧
  (∀ (s : State) (l ph n : Nat), Canonical s →
    let bs := readBytes s (tableSlot l n) 1024
    let good := unitMapped s [(tableSlot l n, 1024)] = true ∧ unservable s [(tableSlot l n, 1024)] = false ∧
      imageInvalid bs = false
    (good → (pondOf (loadTable l ph n s) ph).tables =
        mapPut Table.invalid (pondOf s ph).tables n { valid := true, bytes := bs } ∧
      getObj (loadTable l ph n s) (key 0x2501 0xA) = getObj s (key 0x2501 0xA) + 1 ∧
      (loadTable l ph n s).mem = s.mem ∧ (∀ i, i ≠ ph → pondOf (loadTable l ph n s) i = pondOf s i)) ∧
    (¬ good → ∃ v, loadTable l ph n s = raise 6 (.pond ph) v ∧
      (pondOf v ph).tables = mapPut Table.invalid (pondOf s ph).tables n Table.invalid ∧
      getObj v (key 0x2501 0xA) = getObj s (key 0x2501 0xA) + 1 ∧
      getObj v (key 0x2501 0xB) = getObj s (key 0x2501 0xB) + 1))

/-- A running command that has nothing left to wait for completes at its instant: its completion is traced, it leaves the
running commands, its engine does what it does at a completion, and its counter is signalled (06 R151 to R153, R189). A
sample of the tile watch whose columns are all good ends: it is counted, the largest deviation follows it, and the pond's
count of consecutive mismatches returns to 0 (11 R324 to R326). The oldest waiting command gets the activation expander,
begins to issue, and the clk of its wait are counted (04 R96). -/
def Obligations.CommandCompletes : Prop :=
  (∀ (s : State) (p ph i t : Nat) (r : Running), OnPond s p ph →
    (pondOf s ph).running.find? (fun x => decide (x.id = i)) = some r → mayComplete s ph r = true →
    let u := traceInfo ph 0x0005 2 (tagOf r.cmd) (classOf r.cmd) ((max s.now t - r.started) % 2 ^ 32) (some r.program)
      (modPond (advanceTo s t) ph (endRunning r))
    (∀ x ∈ (endRunning r (pondOf s ph)).running, x.id ≠ r.id) ∧
      exec (.commandComplete p i t) s =
        .next (signalDone ph r.cmd (countIdle ph (classOf r.cmd) (tapFault ph r (finishEngine ph r u))))) ∧
  (∀ (s : State) (p ph id : Nat) (ids : List Nat) (w : WatchSample) (r : Running), OnPond s p ph →
    ((pondOf s ph).watch = some w → (∀ c ∈ w.cols, c.good = true) →
      let u := addObj (modPond s ph fun pd => { pd with watch := none }) (key 0x2B11 1) 1
      let top := w.cols.foldl (fun (m : Nat) c =>
        if flCompare (flOf32 (BitVec.ofNat 32 m)) (flOf32 c.d) = -1 then c.d.toNat else m) (getObj u (key 0x2B11 4))
      exec (.watchSampleDone p) s = .next (setObj (setObj u (key 0x2B11 4) top) (key 0x2B13 (p + 1)) 0)) ∧
    (mapFind [] (pondOf s ph).expanders 0 = id :: ids →
      (pondOf s ph).running.find? (fun x => decide (x.id = id)) = some r →
      let before := (mapFind [] (pondOf s ph).expanders 1).getD 1 0
      let u := setPond s ph (noteBusy s.now (classOf r.cmd) { pondOf s ph with
        expanders := mapPut [] (mapPut [] (pondOf s ph).expanders 0 ids) 1 [id + 1, classOf r.cmd] })
      (classOf r.cmd ≠ 1 → exec (.expanderGrant p) s = .next (addObj u (key 0x2401 3) (s.now - r.started))) ∧
      (classOf r.cmd = 1 → before = 1 → exec (.expanderGrant p) s = .next (beginStream ph id u)) ∧
      (classOf r.cmd = 1 → before ≠ 1 → exec (.expanderGrant p) s = .next
        (addObj (beginStream ph id u) (key 0x2401 4) ((beginStream ph id u).now - r.started)))))

/-! ## Futures and pages (07) -/

/-- Every accepted future operation completes with the effect that 07 Table FUT-4 gives it, is counted as accepted, gets
result 0 with the tick in its slot, and is consumed (07 R193 to R197). A refused one completes as well: it has no effect,
is counted by its result, gets that result with the tick in its slot, and is consumed (07 R195, R482). An accepted
CREATE, PARK, SET, TRUNCATE, SHIFT or SETUSER leaves every other future, every pond and the memory tiers as they were. -/
def Obligations.FutureOperations : Prop :=
  (∀ (s : State) (f c : Nat) (a b : W64), f < 32768 → c < 32768 →
    let i := opConsumed s
    let done (o : FutureOp) (effect : State → State) : State := opEnds i 0 (effect (ringed o s))
    let ok (o : FutureOp) : Prop := opResult (ringed o s) o = 0
    (ok (opOf 1 f a b) → exec (.create f a b) s = .next (done (opOf 1 f a b) fun u => setFuture u f
      { Future.free with
        state := if a.toNat.testBit 30 then 2 else 1, basin := bits a.toNat 7 0, model := bits a.toNat 15 8,
        fallback := bits a.toNat 23 16, fallbackEligible := a.toNat.testBit 24, inputRequired := a.toNat.testBit 25,
        priority := bits a.toNat 27 26, pool := bits a.toNat 29 28, window := bits a.toNat 44 32, base := b,
        source := f, user := (futureOf u f).user, stateRead := bankUda u f 0, stateWrite := bankUda u f 1 })) ∧
    (ok { opOf 2 f a b with c := c } → exec (.fork f c a b) s = .next (done { opOf 2 f a b with c := c } fun u =>
      let e := futureOf u f
      let shared := e.pages.take (ceilDiv e.length 64)
      let v := setFuture (forEach shared refPage u) c
        { e with state := if a.toNat.testBit 0 then 2 else 1, pending := 0, steps := 0, user := 0, hasParent := true,
                 parent := f, pages := shared, borrowed := true, sharers0 := 0, sharers1 := 0,
                 stateWrite := bankUda (forEach shared refPage u) c 0 }
      let src := futureOf v e.source
      settleLent e.source (setFuture v e.source (withSharers src e.readBank (sharersOf src e.readBank + 1))))) ∧
    (ok (opOf 3 f a b) → exec (.park f a b) s =
      .next (done (opOf 3 f a b) fun u => setFuture u f { futureOf u f with state := 2 })) ∧
    (ok (opOf 4 f a b) → exec (.unpark f a b) s =
      .next (done (opOf 4 f a b) fun u => settleLent f (setFuture u f { futureOf u f with state := 1 }))) ∧
    (ok (opOf 5 f a b) → exec (.retire f a b) s = .next (done (opOf 5 f a b) fun u =>
      let v := releaseBorrow f (dropPages (futureOf u f).pages u)
      setFuture v f { futureOf v f with state := 0, pages := [] })) ∧
    (ok (opOf 6 f a b) → exec (.setFuture f a b) s = .next (done (opOf 6 f a b) fun u =>
      let e := futureOf u f
      let on (i : Nat) : Bool := b.toNat.testBit i
      setFuture u f { e with
        basin := if on 0 then bits a.toNat 7 0 else e.basin,
        model := if on 1 then bits a.toNat 15 8 else e.model,
        fallback := if on 1 then bits a.toNat 23 16 else e.fallback,
        fallbackEligible := if on 2 then a.toNat.testBit 24 else e.fallbackEligible,
        inputRequired := if on 2 then a.toNat.testBit 25 else e.inputRequired,
        priority := if on 3 then bits a.toNat 27 26 else e.priority,
        window := if on 4 then bits a.toNat 44 32 else e.window })) ∧
    (ok (opOf 7 f a b) → exec (.truncate f a b) s = .next (done (opOf 7 f a b) fun u =>
      setFuture (dropPages ((futureOf u f).pages.drop (ceilDiv a.toNat 64)) u) f
        { futureOf u f with length := a.toNat, pending := 0, pages := (futureOf u f).pages.take (ceilDiv a.toNat 64) })) ∧
    (ok (opOf 8 f a b) → exec (.shift f a b) s = .next (done (opOf 8 f a b) fun u =>
      setFuture (dropPages ((futureOf u f).pages.take a.toNat) u) f
        { futureOf u f with length := (futureOf u f).length - 64 * a.toNat, pages := (futureOf u f).pages.drop a.toNat,
                            base := (futureOf u f).base + BitVec.ofNat 64 (64 * a.toNat) })) ∧
    (ok (opOf 9 f a b) → exec (.setuser f a b) s =
      .next (done (opOf 9 f a b) fun u => setFuture u f { futureOf u f with user := a })) ∧
    (∀ row ∈ [(Instr.create f a b, opOf 1 f a b), (.fork f c a b, { opOf 2 f a b with c := c }),
        (.park f a b, opOf 3 f a b), (.unpark f a b, opOf 4 f a b), (.retire f a b, opOf 5 f a b),
        (.setFuture f a b, opOf 6 f a b), (.truncate f a b, opOf 7 f a b), (.shift f a b, opOf 8 f a b),
        (.setuser f a b, opOf 9 f a b)],
      ¬ ok row.2 → exec row.1 s = .next (opEnds i (opResult (ringed row.2 s) row.2) (ringed row.2 s)))) ∧
  (∀ (s : State) (o : FutureOp) (slot g : Nat), Canonical s → o.op ∈ [1, 3, 6, 7, 8, 9] → g ≠ o.f →
    futureOf (applyOp slot o s) g = futureOf s g ∧ (applyOp slot o s).ponds = s.ponds ∧
      (applyOp slot o s).tiers = s.tiers)

/-- The commands of the attention-page engine start when they are legal, their future may be named, its pages are valid,
and what they read and write is mapped, servable and writable (07 R212 to R219, R221, R228): PWALK writes its descriptors;
PAPPEND, within the context limit and the free pages of its pool, prepares every entry that needs a page and writes its
descriptors; ATTF and ATTB count what they move and run with the activation expander asked for. A PAPPEND that completes
makes its tokens pending, and nothing else (07 R213). -/
def Obligations.PageCommands : Prop :=
  (∀ (s : State) (p ph : Nat) (q : Queued) (rest : List Queued), AtHead s p ph 0x6 q rest →
    classIdle (pondOf s ph) 0x6 = true →
    let u := dequeued ph q rest s
    let c := q.cmd
    let f := pageFuture (pondOf u ph) c
    let e := futureOf u f
    mayName u ph f = true →
    (let xs := (List.range (walkCount c)).map (walkFirst c + ·)
     opcodeOf c = 0x01 → pwalkLegal c = true → xs.all (entryValid u f) = true →
      ∃ t, exec (.pwalk p) s = .next t ∧ Starts u t ph q (ran (writeDescriptors ph (descOff c) (xs.map fun x =>
        descriptor u f x (e.length + e.pending) (decide (1 < (pageRecord u (e.pages.getD x 0)).count))
          (preparedEntry e x)) (addObj u (key 0x2720 1) 1)))) ∧
    (let n := appendTokens c
     let xs := touchedEntries e n
     let need := neededEntries u f n
     let src := appendReads u f n
     let dst := appendWrites u f n
     let v := forEach need (prepareEntry f) (addObj (tierMiss ph q.program (src ++ dst) u) (key 0x2720 3) 1)
     let tokens := (futureOf v f).length + (futureOf v f).pending + n
     opcodeOf c = 0x02 → pappendLegal s c = true →
      waitsRefetch s (appendReads s (pageFuture (pondOf s ph) c) n) = false →
      (xs.filter (· < e.pages.length)).all (entryValid u f) = true →
      e.length + e.pending + n ≤ getObj u (key 0x2700 8) → (xs.map (· + 1)).foldl max 0 ≤ 4096 →
      need.length ≤ poolFree u e.pool → unitMapped u (src ++ dst) = true → unitReadOnly u dst = false →
      unservable u src = false →
      ∃ t, exec (.pappend p) s = .next t ∧ Starts u t ph q { ran (writeDescriptors ph (descOff c) (xs.map fun x =>
        descriptor v f x tokens (decide (1 < (pageRecord v ((futureOf v f).pages.getD x 0)).count)) true) v) with
          epochReads := epochOf v ph src }) ∧
    (let a := attOf (pondOf u ph) c
     let v (k : Nat) (reads writes : List Run) : State :=
       countBytes true writes (countBytes false reads (tierMiss ph q.program (reads ++ writes) (addObj u k 1)))
     attReady s ph q = true → (attEntries u a).all (entryValid u a.future) = true →
     (let w := v (key 0x2720 7) (attRuns u a) []
      opcodeOf c = 0x03 → attfLegal s ph c = true → waitsRefetch s (attRuns s (attOf (pondOf s ph) c)) = false →
        unitMapped u (attRuns u a) = true → unservable u (attRuns u a) = false →
        ∃ t, exec (.attf p) s = .next t ∧ Starts u t ph q
          { ran (runAttf ph c a (scratchSlots ph a.base (2 * a.m / 256) w)) with
            epochReads := epochOf w ph (attRuns u a), expander := true }) ∧
     (let w := v (key 0x2720 8) (backReads u a) (gradRuns u a)
      opcodeOf c = 0x04 → attbLegal s ph c = true → waitsRefetch s (backReads s (attOf (pondOf s ph) c)) = false →
        unitMapped u (backReads u a ++ gradRuns u a) = true → unitReadOnly u (gradRuns u a) = false →
        unservable u (backReads u a) = false →
        ∃ t, exec (.attb p) s = .next t ∧ Starts u t ph q
          { ran (runAttb ph c a (scratchSlots ph a.base (3 * a.m / 256 + 2) w)) with
            epochReads := epochOf w ph (backReads u a), expander := true }))) ∧
  (∀ (s : State) (ph g : Nat) (c : Cmd), Canonical s →
    (futureOf (completeAppend ph c s) (pageFuture (pondOf s ph) c)).pending =
      (futureOf s (pageFuture (pondOf s ph) c)).pending + appendTokens c ∧
    (futureOf (completeAppend ph c s) (pageFuture (pondOf s ph) c)).length =
      (futureOf s (pageFuture (pondOf s ph) c)).length ∧
    (g ≠ pageFuture (pondOf s ph) c → futureOf (completeAppend ph c s) g = futureOf s g) ∧
    { completeAppend ph c s with seq := s.seq } = s)

/-! ## Frames (09) -/

/-- The commands of the intake decoders and of the post-processing units start when they are legal on the unit given to
their pond, which passes to the running command: ICTX opens or closes its context; DECODE and FLUSH run on an open context
of their own pond, and BOXSEL over its candidates, when what they read is mapped and servable (09 R262, R263, R268 to
R272). A free unit is given to the oldest head that waits for one, whose wait is counted; with none free every such head
waits (09 R272). Greedy suppression keeps at most the number asked for, keeps only candidates, and keeps no box that an
earlier kept one suppresses (09 R270). -/
def Obligations.UnitCommands : Prop :=
  (∀ (s : State) (p ph cls n l : Nat) (q : Queued) (rest : List Queued),
    let u := dequeued ph q rest s
    let c := q.cmd
    (AtHead s p ph 0xA q rest → hasUnit 0xA s ph q = true →
      (opcodeOf c = 0x01 → ictxLegal c = true → ∃ v, exec (.ictx p) s = .next (settleUse 0xA ph s v) ∧
        Starts u v ph q (ran (setCtx u (ictxContext c)
          (if ictxSize c = 0 then IntakeCtx.closed
           else { IntakeCtx.closed with
             opened := true, codec := ictxCodec c, wMax := ictxW c, hMax := ictxH c, owner := p,
             area := bits c.w2.toNat 47 0, size := ictxSize c })))) ∧
      (decodeLegal s ph c = true → waitsRefetch s (decodeReads s c) = false →
        (ctxOf u (ictxContext c)).opened = true → (ctxOf u (ictxContext c)).owner = p →
        unitMapped u (decodeReads u c) = true → unservable u (decodeReads u c) = false →
        (opcodeOf c = 0x02 → ∃ v, exec (.decode p) s = .next (settleUse 0xA ph s v) ∧
          Starts u v ph q (runDecode p ph q u)) ∧
        (opcodeOf c = 0x03 → ∃ v, exec (.flush p) s = .next (settleUse 0xA ph s v) ∧
          Starts u v ph q (runDecode p ph q u)))) ∧
    (AtHead s p ph 0x9 q rest → hasUnit 0x9 s ph q = true → opcodeOf c = 0x01 → boxLegal s ph c = true →
      waitsRefetch s (boxReads (boxOf (pondOf s ph) c)) = false →
      unservable u (boxReads (boxOf (pondOf u ph) c)) = false →
      ∃ v, exec (.boxsel p) s = .next (settleUse 0x9 ph s v) ∧ Starts u v ph q (runBoxsel ph q u)) ∧
    (let heads := (List.range (logicalCount s)).filterMap fun l => (dispatchable s cls l).map fun q => (l, q)
     cls = 0x9 ∨ cls = 0xA →
     (freeUnit s cls = some n → minBy (fun e => e.2.pushed) heads = some (l, q) →
      exec (.chipUnitDispatch cls) s = .next (setUses (endUnitWait cls (physOf s l) s)
        (liveUses s ++ [{ cls := cls, unit := n, pond := physOf s l, run := none, report := 0, bound := 0,
                          context := if cls = 0xA then some (ictxContext q.cmd) else none }]))) ∧
     (freeUnit s cls = none → exec (.chipUnitDispatch cls) s =
        .next (forEach heads (fun e v => noteUnitWait cls (physOf v e.1) v) s)))) ∧
  (∀ (a : BoxArgs) (bs : List Box),
    (suppress a [] bs).length ≤ a.out ∧ (suppress a [] bs).Sublist bs ∧
      (suppress a [] bs).Pairwise fun k b => suppresses a k b = false)

/-! ## Memory tiers (10) -/

/-- A directive that passes its checks is performed with its effect; a refused one only gets its result (10 R283, R284,
Table MEM-7): DEFINE takes, zeroes and maps a frame for each extent and records the object, PLACE moves the object's
extents, FREE unmaps them and the object, SETBACKUP, CLEAN and SETMASK change the object's backup, poison and mask. -/
def Obligations.DirectivesPerformed : Prop :=
  ∀ (s : State) (i op : Nat) (d : Directive), op ∈ [1, 2, 3, 4, 5, 6] →
    s.tiers.directives.find? (fun d => decide (d.index = i) && decide (d.op = op) && !d.performed) = some d →
    let en := { directiveAt s i with op := op, obj := d.obj }
    let r := directiveResult s en
    let u := { s with tiers := { s.tiers with directives := s.tiers.directives.map fun x =>
      if x = d then { d with result := r, performed := true } else x } }
    let o := objOf u d.obj
    let new : Obj := { state := 1, tier := en.tier, pinned := en.pinned, readOnly := en.readOnly, poisoned := false,
                       base := en.base, count := en.count, backup := en.backup, mask := en.mask }
    (r = 0 →
      (op = 1 → exec (.define i) s =
        .next (setObject (forEach (objExtents new) (defineExtent en) u) d.obj new)) ∧
      (op = 2 → exec (.place i) s = .next (placeEffect i en u)) ∧
      (op = 3 → exec (.free i) s = .next (setObject (forEach (objExtents o) unmapExtent u) d.obj Obj.free)) ∧
      (op = 4 → exec (.setbackup i) s = .next (setObject u d.obj { o with backup := en.backup })) ∧
      (op = 5 → exec (.clean i) s = .next (setObject
        (forEach (objExtents o) (fun e v => setExtent v e { extentOf v e with poisoned := false }) u) d.obj
        { o with poisoned := false })) ∧
      (op = 6 → exec (.setmask i) s = .next (setObject u d.obj { o with mask := en.mask }))) ∧
    (r ≠ 0 → (op = 1 → exec (.define i) s = .next u) ∧ (op = 2 → exec (.place i) s = .next u) ∧
      (op = 3 → exec (.free i) s = .next u) ∧ (op = 4 → exec (.setbackup i) s = .next u) ∧
      (op = 5 → exec (.clean i) s = .next u) ∧ (op = 6 → exec (.setmask i) s = .next u))

/-- The events of the tiers (10 R283, R284, R287, 15 R420): the ring is read and its directives start; a performed directive
without a move left completes, its result is written and counted, and an accepted PLACE leaves its tier and pinned flag on
the object and on the extents in that tier; a frame without outstanding transactions is free again; a copy that ends
switches its extent over, releases the old frame and is counted with its bytes; and a member without frames is retired, a
retirement that was asked for ending with result 0. -/
def Obligations.TierEvents : Prop :=
  ∀ (s : State) (i tier n fr e : Nat) (d : Directive) (m : Migration),
    (mappedAt s directivePublish = true → tiersAsleep s = false →
      exec .directiveRingRead s = .next (startDirectives (readLe s directivePublish 8) 16 s)) ∧
    (s.tiers.directives.find? (fun d => decide (d.index = i) && d.performed && !d.complete) = some d →
      (∀ m ∈ s.tiers.migrations, m.directive ≠ some i) →
      let en := directiveAt s i
      let placed := forEach (objExtents (objOf s d.obj)) (fun e v =>
        if (extentOf v e).tier = en.tier then setExtent v e { extentOf v e with pinned := en.pinned } else v)
        (setObject s d.obj { objOf s d.obj with tier := en.tier, pinned := en.pinned })
      let finish (v : State) : State := advanceConsumed 1024 (addObj (writeResult i d.result
        { v with tiers := { v.tiers with directives := v.tiers.directives.map fun q =>
          if q = d then { d with complete := true } else q } }) (key 0x2A03 (if d.result = 0 then 1 else 2)) 1)
      (¬ (d.op = 2 ∧ d.result = 0) → exec (.directiveComplete i) s = .next (finish s)) ∧
      (d.op = 2 → d.result = 0 → exec (.directiveComplete i) s = .next (finish placed))) ∧
    ((tier, fr) ∈ s.tiers.releasing → exec (.frameRelease tier fr) s = .next (pumpMigrations (markFrame
      { s with tiers := { s.tiers with releasing := s.tiers.releasing.erase (tier, fr) } } tier fr false))) ∧
    (s.tiers.migrations.find? (fun m => decide (m.extent = e) && m.toFrame.isSome) = some m →
      m.toFrame = some fr → (linkUp s = true ∨ ((extentOf s e).tier ≠ 2 ∧ m.toTier ≠ 2)) →
      let x := extentOf s e
      let u := addObj (addObj (copyFrame s x.tier x.frame m.toTier fr) (key 0x2A05 (2 * x.tier + 1)) extentSize)
        (key 0x2A05 (2 * m.toTier + 2)) extentSize
      let v := releaseFrame x.tier x.frame { u with tiers := { u.tiers with migrations := u.tiers.migrations.erase m } }
      exec (.migrationDone e) s = .next (retryEvacuation (noteEntry m.schedule (addObj (setExtent v e
        { x with tier := m.toTier, frame := fr, migrating := false, pinned := pinnedAfter v m x }) (key 0x2A03 3) 1)))) ∧
    (tier < 2 → n < memberGroups tier → (tier, n) ∈ s.tiers.evacuating → framesLeft s tier n = 0 →
      let u := forEach (groupMembers tier n) (fun i v => setMember v tier i { memberOf v tier i with state := 2 }) s
      let w := followDegraded (addObj { u with tiers := { u.tiers with
        evacuating := u.tiers.evacuating.erase (tier, n),
        degraded := u.tiers.degraded.filter fun k =>
          !(decide (k / 1024 = tier) && decide (groupOf tier (k % 1024) = n)) } } (key 0x2E10 7) 1)
      (w.requests.retire ≠ some (tier, n) → exec (.memberEvacuationDone tier n) s = .next w) ∧
      (w.requests.retire = some (tier, n) → exec (.memberEvacuationDone tier n) s =
        .next (setObj (setObj { w with requests := { w.requests with retire := none } } (key 0x2E10 0xB) 0)
          (key 0x2E10 0xC) 0)))

/-- Errors, recalibration and re-fetches of memory members (10 R276, R302, R303, R307; 15 R422): an uncorrectable error
poisons its extent; a corrected one is counted at its tier and member, degrades the member at its threshold, and in tier 0
is noted at its row, with source 47 at that threshold; a re-centring and a retraining are counted at the member, and
accesses that waited for the channel go on; a re-fetch whose backup is good ends with the extent in its new frame and no
longer poisoned, counted with its bytes, and one whose backup is lost fails. -/
def Obligations.MemberEvents : Prop :=
  ∀ (s : State) (uda e c : Nat) (r : Refetch),
    (extentIndex uda = some e → (extentOf s e).tier < 3 →
      exec (.uncorrectableMemoryError uda) s = .next (serveReads (poisonExtent uda e s))) ∧
    ((extentAt s uda).tier < 2 →
      let tier := (extentAt s uda).tier
      let i := memberOfByte (extentAt s uda) (uda % extentSize)
      let u := addObj s (key 0x2A04 (1 + tier)) 1
      let recent := s.now :: (memberOf u tier i).recent.filter fun t => decide (s.now < t + hourClk)
      let v := setMember u tier i
        { memberOf u tier i with corrected := (memberOf u tier i).corrected + 1, recent := recent }
      let w := if getObj v (key 0x2E10 1) ≤ recent.length then degrade tier i v else v
      let row := rowOfByte (extentAt s uda) (uda % extentSize)
      let hits := w.now :: (mapFind [] w.tiers.rows row).filter fun t => decide (w.now < t + hourClk)
      let x := { w with tiers := { w.tiers with rows := mapPut [] w.tiers.rows row hits } }
      (tier = 1 → exec (.correctedError uda) s = .next w) ∧
      (tier = 0 → exec (.correctedError uda) s =
        .next (if getObj x (key 0x2E10 2) ≤ hits.length then rowEvent row x else x))) ∧
    (c < 512 → memberWorks (memberOf s 0 c) = true → exec (.hbmRecentre c) s =
      .next (setMember s 0 c { memberOf s 0 c with recals := (memberOf s 0 c).recals + 1 })) ∧
    (c < 64 → memberWorks (memberOf s 1 c) = true → exec (.shoreWckCheck c true) s =
      .next (setMember s 1 c { memberOf s 1 c with retraining := true }) ∧ exec (.shoreWckCheck c false) s = .next s) ∧
    (c < 64 → (memberOf s 1 c).retraining = true → exec (.shoreRetrainDone c) s = .next (serveReads (flushWrites
      (setMember s 1 c { memberOf s 1 c with retraining := false, recals := (memberOf s 1 c).recals + 1 })))) ∧
    (s.tiers.refetches.find? (fun r => decide (r.extent = e)) = some r →
      let x := extentOf s e
      let b := extentOf s r.backup
      let u := { s with tiers := { s.tiers with refetches := s.tiers.refetches.erase r } }
      linkUp s = true ∨ (b.tier ≠ 2 ∧ x.tier ≠ 2) →
      (b.tier < 3 → b.poisoned = false →
        let v := addObj (addObj (copyFrame u b.tier b.frame x.tier r.toFrame) (key 0x2A05 (2 * b.tier + 1)) extentSize)
          (key 0x2A05 (2 * x.tier + 2)) extentSize
        let w := setExtent v e { x with frame := r.toFrame, poisoned := false }
        let z := match objectOfExtent w e with
          | none => w
          | some o => setObject w o { objOf w o with
              poisoned := (objExtents (objOf w o)).any fun k => (extentOf w k).poisoned }
        exec (.refetchDone e) s = .next (retryEvacuation (serveReads (addObj z (key 0x2A04 7) 1)))) ∧
      (3 ≤ b.tier ∨ b.poisoned = true → exec (.refetchDone e) s =
        .next (serveReads (refetchFailed e (markFrame u x.tier r.toFrame false)))))

/-- The DMA commands start while fewer than four are in flight, when they are legal and every byte is there: COPY, FP32
add and zero fill count what they move and move their rows in ascending order; PFMARK marks its schedule, and waits for
the mark where it asks to (10 R280, R286, R292, R295 to R297, R304). -/
def Obligations.DmaCommands : Prop :=
  ∀ (s : State) (p ph : Nat) (q : Queued) (rest : List Queued), AtHead s p ph 0x4 q rest →
    dmaFree (pondOf s ph) = true →
    let u := dequeued ph q rest s
    let c := q.cmd
    (opcodeOf c = 0x01 → copyLegal (gangMembers s p).length c = true → waitsRefetch s (copyReads c) = false →
      unitMapped u (copyReads c ++ copyWrites c) = true → unitReadOnly u (copyWrites c) = false →
      unservable u (copyReads c) = false →
      let v := countBytes true (copyWrites c) (countBytes false (copyReads c)
        (tierMiss ph q.program (copyReads c ++ copyWrites c) u))
      let w := if copyOp c = 1 then addObj v (key 0x2A05 7) ((copyWrites c).map granulesOf).sum else v
      ∃ t, (copyOp c = 0 → exec (.copy p) s = .next t) ∧ (copyOp c = 1 → exec (.fp32Add p) s = .next t) ∧
        (copyOp c = 2 → exec (.zeroFill p) s = .next t) ∧
        Starts u t ph q { ran (forUpTo (copyRows c) (moveRow p ph c) w) with
          epochReads := epochOf u ph (copyReads c) }) ∧
    (opcodeOf c = 0x02 → pfmarkLegal s c = true →
      let v := markSchedule (pfSchedule c) (pfMark c) u
      let awaited := markTier v (pfSchedule c) (pfMark c) * 65536 + pfSchedule c * 4096 + pfMark c + 1
      ∃ t, exec (.pfmark p) s = .next t ∧
        Starts u t ph q { ran v with waits := if pfWait c then awaited else 0 })

/-! ## The fabric (12) -/

/-- The commands of the fabric engine at the head of their queue start when they are legal, fit among those in progress, can
reach their peers and read no data that an error has taken: their effect enters them among the fabric commands in progress
(12 R342, R344, R345, R351; 12 Table FAB-5). A PUT of one message to another module counts the bytes that it reads and
sends them; a PUT to the module itself lands its data at once and then gives its signal. The collectives start likewise and
take the parts that have come early; a PERMUTE likewise (12 R346 to R349, R354). -/
def Obligations.FabricCommands : Prop :=
  (∀ (s : State) (p ph : Nat) (q : Queued) (rest : List Queued), AtHead s p ph 0x8 q rest → fabRoom s ph = true →
    let u := dequeued ph q rest s
    let c := q.cmd
    (opcodeOf c = 0x01 → putLegal s ph q = true → waitsRefetch s (putReads c) = false →
      reachable u (fabPeer c) = true → unservable u (putReads c) = false →
      let v := countBytes false (putReads c) { u with fabric := { u.fabric with
        nextTransfer := (u.fabric.nextTransfer + 1) % 2 ^ 32 } }
      let f := withRoutes v [fabPeer c] (newFab v p ph c)
      let m := putMessage u ph c true (0, fabLength c)
      let ep := epochOf v ph (putReads c)
      ∃ t, exec (.put p) s = .next t ∧ Starts u t ph q (runPut p ph q u) ∧
        (fabLength c ≤ 65536 → fabPeer c ≠ ownId v → runPut p ph q u = { enterFab { f with
          acks := [(fabPeer c, (sendOf f m v).1)] } (sendOf f m v).2 with epochReads := ep }) ∧
        (fabLength c ≤ 65536 → fabPeer c = ownId v → (fabricWrite v m.uda m.data).2 = true →
          let w := (fabricWrite v m.uda m.data).1
          runPut p ph q u = { enterFab { f with done := true }
            (if fabSignal c then bumpCounter (fabCounter c) w else w) with epochReads := ep })) ∧
    (opcodeOf c = 0x02 → getLegal s ph q = true →
      waitsRefetch s (if fabPeer c = ownId s then [(fabSource c, fabLength c)] else []) = false →
      reachable u (fabPeer c) = true →
      fabPeer c ≠ ownId u ∨ unservable u [(fabSource c, fabLength c)] = false →
      ∃ t, exec (.get p) s = .next t ∧ Starts u t ph q (runGet p ph q u)) ∧
    (opcodeOf c = 0x05 → bits c.w1.toNat 55 0 = 0 → bits c.w3.toNat 63 32 = 0 →
      ∃ t, exec (.waitf p) s = .next t ∧ Starts u t ph q (enterFab { newFab u p ph c with
        done := decide (c.w2.toNat ≤ mapFind 0 u.fabric.counters (waitfCounter c)) } u)) ∧
    (opcodeOf c = 0x04 → stampLegal s ph q = true → groupReachable u (stampGroup c) = true →
      2 ≤ groupSize u (stampGroup c) ∨ stampsMatch u (stampKeep c) [ownStamp u (stampSlot c)] = true →
      ∃ t, exec (.stampchk p) s = .next t ∧ Starts u t ph q (runStampchk p ph q u))) ∧
  (∀ (s : State) (p ph : Nat) (q : Queued) (rest : List Queued), AtHead s p ph 0x8 q rest → fabRoom s ph = true →
    let u := dequeued ph q rest s
    let run := (pondOf s ph).nextId
    let op := collOp (fabFields (pondOf s ph) q.cmd)
    let settle (f : State → State) (v : State) : State := if (pondOf v ph).nextId = run then v else f v
    (opcodeOf q.cmd = 0x03 → collLegal p s ph q = true →
      waitsRefetch s (collReads (collOf s p ph q.cmd)) = false →
      groupReachable u (collGroup (collOf u p ph q.cmd).fields) = true →
      unservable u (collReads (collOf u p ph q.cmd)) = false →
      ∃ v, Starts u v ph q (runColl p ph q u) ∧
        (op = 0 → exec (.allreduce p) s = .next (settle (settleColl ph run) v)) ∧
        (op = 1 → exec (.reducescatter p) s = .next (settle (settleColl ph run) v)) ∧
        (op = 2 → exec (.allgather p) s = .next (settle (settleColl ph run) v)) ∧
        (op = 3 → exec (.broadcast p) s = .next (settle (settleColl ph run) v)) ∧
        (op = 4 → exec (.alltoall p) s = .next (settle (settleColl ph run) v))) ∧
    (opcodeOf q.cmd = 0x06 → permLegal p s ph q = true →
      let f := permOf u p ph q.cmd
      waitsRefetch s [(permBuffer (permOf s p ph q.cmd).fields,
        permK (permOf s p ph q.cmd).fields * permBlock (permOf s p ph q.cmd).fields)] = false →
      groupReachable u (permGroup f.fields) = true →
      unservable u [(permBuffer f.fields, permK f.fields * permBlock f.fields),
        (permPlan f.fields, f.members.length * permK f.fields * 8)] = false →
      2 ≤ f.members.length ∨ permChecks u f = true →
      ∃ v, Starts u v ph q (runPermute p ph q u) ∧
        exec (.permute p) s = .next (settle (settlePerm ph run) v)))

/-- Messages of a source whose channel is open take effect once (12 R338 to R340, R345): a message not seen before has
its effect, is noted, counted and acknowledged; one seen before is only counted and acknowledged again. A read whose extent
a re-fetch restores is held (10 R302). A part of a collective goes to the command of its group and sequence; one whose
command has not started is kept for it (12 R346). Without an open channel a message is discarded, its flits are counted, and
source 55 is set (12 R339). -/
def Obligations.MessagesTakeEffectOnce : Prop :=
  ∀ (s : State) (src msg uda n x y z w : Nat) (poisoned : Bool) (data : List Byte) (f : FabCmd), src < 4096 →
    1 ≤ data.length → data.length ≤ 65536 → 1 ≤ n → n ≤ 65536 → fabricOn s = true →
    let seen := mapFind [] s.fabric.acked src
    let u := addObj s (key 0x2C05 2) 1
    let mine (f : FabCmd) : Bool := decide (f.group = x ∧ f.seq % 2 ^ 32 = y % 2 ^ 32) && !f.done &&
      decide (opcodeOf f.cmd = 0x03 ∨ opcodeOf f.cmd = 0x06)
    (routeAccepts s src = true → msg % 2 ^ 32 ∉ seen →
      (exec (.write src msg uda data) s = .next (receipted src msg seen (fabricWrite u uda data).1)) ∧
      (x < 256 → exec (.writeLastSignal src msg uda x data) s = .next (receipted src msg seen
        (if (fabricWrite u uda data).2 then bumpCounter x (fabricWrite u uda data).1
         else (fabricWrite u uda data).1))) ∧
      (unitMapped u [(uda, n)] = false ∨ waitsRefetch u [(uda, n)] = false →
        exec (.readRequest src msg uda n x) s = .next (receipted src msg seen (answerPeer src x uda n u))) ∧
      (unitMapped u [(uda, n)] = true → waitsRefetch u [(uda, n)] = true →
        exec (.readRequest src msg uda n x) s = .next (receipted src msg seen { u with tiers := { u.tiers with
          reads := u.tiers.reads ++ [{ host := false, uda := uda, len := n, peer := src, msg := msg, transfer := x,
                                       waiting := waitNote u [(uda, n)] }] } })) ∧
      ((fabCmds u).find? (fun f => decide (x ∈ f.pieces) && decide (opcodeOf f.cmd = 0x02 ∨ opcodeOf f.cmd = 0x04)) =
        some f → exec (.readResponse src msg x poisoned data) s =
          .next (receipted src msg seen (takeResponse f x poisoned data u))) ∧
      ((fabCmds u).find? mine = some f →
        exec (.collectivePart src msg x y z w data) s = .next (receipted src msg seen
          (if opcodeOf f.cmd = 0x06 then settlePerm f.pond f.run (takePerm f src w data u)
           else takePart f src z w data u))) ∧
      ((fabCmds u).find? mine = none → mapFind 0 u.fabric.seqs x % 2 ^ 32 ≤ y % 2 ^ 32 →
        exec (.collectivePart src msg x y z w data) s = .next (receipted src msg seen { u with
          fabric := { u.fabric with early := u.fabric.early ++
            [{ src := src, group := x, seq := y, stamp := z, part := w, data := data }] } }))) ∧
    (routeAccepts s src = true → msg % 2 ^ 32 ∈ seen →
      let again := acknowledge src msg (addObj s (key 0x2C05 4) 1)
      exec (.write src msg uda data) s = .next again ∧
      (x < 256 → exec (.writeLastSignal src msg uda x data) s = .next again) ∧
      exec (.readRequest src msg uda n x) s = .next again ∧
      exec (.readResponse src msg x poisoned data) s = .next again ∧
      exec (.collectivePart src msg x y z w data) s = .next again) ∧
    (routeAccepts s src = false →
      let dropped (len : Nat) := raise 55 .chip (addObj s (key 0x2C04 6) (flitsOf len))
      exec (.write src msg uda data) s = .next (dropped data.length) ∧
      (x < 256 → exec (.writeLastSignal src msg uda x data) s = .next (dropped data.length)) ∧
      exec (.readRequest src msg uda n x) s = .next (dropped n) ∧
      exec (.readResponse src msg x poisoned data) s = .next (dropped data.length) ∧
      exec (.collectivePart src msg x y z w data) s = .next (dropped data.length))

/-- The events of a brook (12 R336 to R339): a flit with a bad check word is counted and refused, the eighth refusal of one
sequence in a row retrains the brook; a data flit in order is taken and acknowledged; a refusal by the peer has everything
after the acknowledged sequence sent again; acknowledgements, grants and identities; lanes replaced by the spare, a further
lane narrows the brook; training done, or failed for the third time in a row. How many codewords a bad check word makes bad
is a free value (log 59). -/
def Obligations.BrookEvents : Prop :=
  ∀ (s : State) (k lane peer n : Nat) (head crc : W64) (payload : List Byte) (ratio : F32), k < 18 →
    payload.length = 240 →
    (brookUp s k = true → fabricOn s = true → crc64 (leBytes head.toNat 8 ++ payload) ≠ crc.toNat →
      let u := addObj (addObj { s with fresh := s.fresh + 1 } (brookKey k 6) 1) (brookKey k 0xC)
        (Config.badCodewords s.fresh)
      let b := brookOf u k
      let count := if b.nakSeq = b.rxNext then b.nakCount + 1 else 1
      let v := sendNak k (bits head.toNat 49 38) (setBrook u k { b with nakSeq := b.rxNext, nakCount := count % 8 })
      exec (.flitReceive k head payload crc) s = .next (if count = 8 then retrain k v else v)) ∧
    (brookUp s k = true → fabricOn s = true → crc64 (leBytes head.toNat 8 ++ payload) = crc.toNat →
      bitAt head.toNat 13 = false → bits head.toNat 63 62 ∈ [1, 2] → bits head.toNat 37 26 = (brookOf s k).rxNext →
      let b := brookOf (addObj s (brookKey k 5) 1) k
      let u := sendControl k (bits head.toNat 49 38) 1 []
        (setBrook (addObj s (brookKey k 5) 1) k { b with rxNext := (b.rxNext + 1) % 4096, nakCount := 0 })
      bits head.toNat 61 50 = ownId u → exec (.flitReceive k head payload crc) s =
        .next (takeData k (bits head.toNat 49 38) (bits head.toNat 63 62) (bits head.toNat 7 0) payload u)) ∧
    (brookUp s k = true → fabricOn s = true → crc64 (leBytes head.toNat 8 ++ payload) = crc.toNat →
      bitAt head.toNat 13 = true → bitAt head.toNat 12 = true → bits head.toNat 63 62 = 0 →
      let u := ackUpTo k (bits head.toNat 25 14) (addObj s (brookKey k 5) 1)
      let b := brookOf u k
      let first := (bits head.toNat 25 14 + 1) % 4096
      let count := if b.replaySeq = first then b.replayCount + 1 else 1
      let v := setBrook u k { b with replaySeq := first, replayCount := count }
      let w := raise 53 (.brook k) (addObj (replayAll k v) (brookKey k 7) 1)
      exec (.flitReceive k head payload crc) s =
        .next (if 8 ≤ count then retrain k (setBrook w k { brookOf w k with replayCount := 0 }) else w)) ∧
    (n < 4096 → exec (.ack k n) s = .next (ackUpTo k n s)) ∧
    (peer < 4096 → exec (.creditGrant k peer n) s = .next (forUpTo 18 pump { s with fabric := { s.fabric with
      credit := mapPut 0 s.fabric.credit peer (mapFind 0 s.fabric.credit peer + n) } })) ∧
    (peer < 4096 → ∃ u, u = { s with fabric := { s.fabric with
        out := s.fabric.out.filter fun m => !(decide (m.dst = peer ∧ m.id = n)) } } ∧
      exec (.endToEndAck k peer n) s = .next (forEach (fabCmds u) (ackedBy peer n) u)) ∧
    (exec (.identity k peer) s = .next (setObj s (brookKey k 3) (peer % 65536))) ∧
    (lane < 8 → brookUp s k = true → (brookOf s k).spared = none → exec (.spareRequest k lane) s =
      .next (sendControl k (getObj (useSpare k lane s) (brookKey k 3) % 4096) 4 [BitVec.ofNat 8 lane]
        (useSpare k lane s))) ∧
    (lane < 8 → (brookOf s k).asked = some lane →
      exec (.spareConfirm k lane) s = .next (resumeBrook k (useSpare k lane s))) ∧
    (n < 2 → brookUp s k = true → exec (.widthChange k n) s =
      .next (resumeBrook k (showWidth k (setBrook s k { brookOf s k with half := some n, asked := none })))) ∧
    (let v := addObj { s with fresh := s.fresh + 1 } (brookKey k 0xB) (Config.correctedSymbols s.fresh)
     let u := setBrook v k { brookOf v k with failed := (brookOf v k).failed ++ [lane] }
     lane < 8 → brookUp v k = true → lane ∉ (brookOf v k).failed → (brookOf v k).spared ≠ some lane →
      flCompare (flOf32 ratio) (flOf32 (BitVec.ofNat 32 (getObj v (key 0x2C03 5)))) = 1 →
      ((brookOf v k).spared = none → (brookOf v k).asked = none → (brookOf v k).half = none →
        exec (.laneErrorWindow k lane ratio) s = .next (cutOff (askSpare k lane u))) ∧
      ((brookOf v k).spared ≠ none ∨ (brookOf v k).asked ≠ none ∨ (brookOf v k).half ≠ none →
        exec (.laneErrorWindow k lane ratio) s = .next (cutOff (narrow k u)))) ∧
    (brookState s k = 1 →
      let b := brookOf s k
      let u := setBrook s k { b with retrains := 0, replayCount := 0, nakCount := 0, asked := none }
      let v := followBrooks (resumeBrook k (replayAll k (showWidth k (setObj u (brookKey k 1) 2))))
      let w := setBrook s k { b with retrains := b.retrains + 1 }
      exec (.brookRetrainDone k true) s = .next (cutOff (payGrants
        (sendControl k (getObj v (brookKey k 3) % 4096) 7 (leBytes (ownId v) 2) v))) ∧
      (2 ≤ b.retrains → exec (.brookRetrainDone k false) s = .next (cutOff (brookDown k w))) ∧
      (b.retrains < 2 → exec (.brookRetrainDone k false) s = .next (cutOff (retrain k w))))

/-- What ends the waits of fabric commands (12 R338, R345, R346, R355): a message without its acknowledgement is sent
again; of the WAITF commands that wait on a pond the one that expires first ends with cause 0x0B, as does a collective that
waits too long, whose destination holds free values from then on; and a PERMUTE round ends when nothing is outstanding, the
last one ending the command and another beginning the next. -/
def Obligations.FabricTimeouts : Prop :=
  ∀ (s : State) (p ph dst n : Nat) (m : OutMsg) (f : FabCmd), OnPond s p ph →
    (s.fabric.out.find? (fun m => decide (m.dst = dst ∧ m.id = n)) = some m →
      exec (.endToEndTimeout dst n) s = .next (resendAll [m] (advanceTo s (m.sentAt + getObj s (key 0x2C03 1) * 1250)))) ∧
    (let fs := (fabCmds s).filter fun f => decide (f.pond = ph) && decide (opcodeOf f.cmd = 0x05) && !f.done
     fs.find? (fun f => fs.all fun g => decide (waitfEnd s f ≤ waitfEnd s g)) = some f →
      exec (.waitfTimeout p) s = .next (failFab f 0x0B 20 9 (advanceTo s (f.started +
        if bits f.cmd.w3.toNat 31 0 = 0 then collectiveTimeout s else bits f.cmd.w3.toNat 31 0)))) ∧
    ((fabCmds s).find? (fun f => decide (f.pond = ph) && decide (opcodeOf f.cmd = 0x03 ∨ opcodeOf f.cmd = 0x06) &&
        !f.done) = some f → exec (.collectiveTimeout p) s =
      .next (spoilDestination f
        (failFab f 0x0B 21 7 (addObj (advanceTo s (f.started + collectiveTimeout s)) (key 0x2C05 9) 1)))) ∧
    ((fabCmds s).find? (fun f => decide (f.pond = ph) && decide (opcodeOf f.cmd = 0x06) && !f.done) = some f →
      f.acks = [] → f.pieces = [] → ∀ g, findFab (settleRound f s) ph f.run = some g →
      (permK g.fields ≤ g.round + 1 → exec (.permuteRoundEnd p) s =
        .next (addObj (putFab { g with round := g.round + 1, done := true } (settleRound f s)) (key 0x2C05 0xC) 1)) ∧
      (g.round + 1 < permK g.fields → exec (.permuteRoundEnd p) s = .next (settlePerm ph g.run
        (startRound ph g.run (putFab { g with round := g.round + 1 } (settleRound f s))))))

/-! ## Shares (13) -/

/-- The scheduling of background tasks on a gang (13 R360 to R369): a slice that has expired asks the running task to
stop and records which task is next; a stop asked for is forced at its bound, and what the core had fetched and not begun
is fetched again later; a stopped task is saved, leaves the gang, and another one is entered or restored; a task at its own
RET stops when another one is chosen. How long a save or a restore takes is fixed where 13 R366 fixes it, and free between
its bounds elsewhere (log 10). -/
def Obligations.TaskScheduling : Prop :=
  ∀ (s : State) (g p ph t : Nat) (r : TaskRun) (sec : Section), g < logicalCount s →
    (runOf s g = some r → r.stopAt = none → r.saving = false → r.restoring = false →
      let others := (tasksOf s g).filter fun t => eligible s t && decide (t ≠ r.task)
      let u := advanceTo s (r.entered + getObj s (key 0x2D00 7) + 1)
      others ≠ [] → exec (.sliceExpiry g) s = .next (traceTask g 0x0303
        (r.task + (minBy (passOf (chargeTask g false u)) (r.task :: others)).getD 0 * 256) (taskField u r.task 1 1)
        (addObj (requestStop g u) (key 0x2D03 0xA) 1))) ∧
    (OnPond s p ph → runOf s (rank0Of s p) = some r → (pondOf s ph).core.sect = some sec → r.stopAt = some t →
      sec.kind = .background → (pondOf s ph).core.stopped = none → (pondOf s ph).core.exiting = none →
      r.restoring = false → (pondOf s ph).halt = none → exec (.forcedStop p) s =
        .next (modCore (unfetch ph (settlePond ph (advanceTo s (t + taskField s r.task 40 4)))) ph fun k =>
          { k with stopped := some sec.pc, stopKind := 2 })) ∧
    (runOf s g = none → gangQuiet s g = true → backgroundTime s g = true →
      (chooseTask s g = none → exec (.schedulerDecision g) s = .next s) ∧
      (chooseTask s g = some t → bitAt (taskField s t 6 1) 0 = false →
        exec (.schedulerDecision g) s = .next (enterTask g t s)) ∧
      (chooseTask s g = some t → bitAt (taskField s t 6 1) 0 = true →
        exec (.schedulerDecision g) s = .next (beginMove g (setRun (setTaskState s t 2) g
          (some { task := t, since := s.now, entered := s.now, stopAt := none, saving := false,
                  restoring := true, kind := 0, live := restoreLive s g t, ending := false }))))) ∧
    (runOf s g = some r → r.stopAt = none → r.saving = false → r.restoring = false → gangQuiet s g = true →
      allStopped s g = true → backgroundTime s g = true →
      let u := chargeTask g false s
      ∀ x, runOf u g = some x →
        (chooseTask u g = some x.task → exec (.schedulerDecision g) s = .next (enterTask g x.task u)) ∧
        (chooseTask u g ≠ some x.task →
          exec (.schedulerDecision g) s = .next (setRun u g (some { x with stopAt := some u.now })))) ∧
    (runOf s g = some r → r.stopAt ≠ none → r.saving = false → r.restoring = false →
      (gangMembers s g).all (fun l => readyToSave (pondOf s (physOf s l)) (taskField s r.task 1 1)) = true →
      let u := chargeTask g false s
      let a := (gangMembers u g).foldl (fun (a : Nat × State) l =>
        (max a.1 (saveRank r.task l (gangStopKind u g) a.2).1, (saveRank r.task l (gangStopKind u g) a.2).2)) (0, u)
      exec (.switchOutSave g) s = .next (beginMove g (setRun a.2 g (some
        { r with saving := true, kind := gangStopKind u g, live := a.1 })))) ∧
    (runOf s g = some r → r.saving = true → ∃ w,
      let f := { s with fresh := s.fresh + 1 }
      let u := traceSwitchOut g r.task r.kind (chargeTask g true (advanceTo f (r.moved + switchTime f r w)))
      let v := addObj (addObj u (key 0x2D03 (if r.kind = 0 then 1 else if r.kind = 1 then 3 else 2)) 1)
        (key (0x5100 + taskField u r.task 2 1) 7) 1
      let off := if r.kind = 2 then 92 else 88
      let x := setTaskField (setTaskField v r.task off 4 (taskField v r.task off 4 + 1)) r.task 6 1
        (if r.kind = 2 then 3 else 1)
      let y := countDispatchWait g false (zeroPeers g (setRun x g none))
      let z := { y with shares := { y.shares with outAt := mapPut 0 y.shares.outAt r.task (y.now + 1) } }
      exec (.switchOutDone g) s = .next (if r.ending then freeTask r.task z else if mustHold z r.task then holdTask r.task z
        else setTaskState z r.task 3)) ∧
    (runOf s g = some r → r.restoring = true → ∃ w,
      let n := taskField s r.task 1 1
      let kind := savedKind s g r.task
      let f := { s with fresh := s.fresh + 1 }
      let took := switchTime f r w + reloadTime f g r.task kind
      let u := chargeTask g true (advanceTo f (r.moved + took))
      let v := addObj (forEach (gangMembers u g) (restoreRank r.task kind) u) (key 0x2D03 4) 1
      let y := traceTask g 0x0301 (r.task + took * 2 ^ 16) n v
      exec (.restoreDone g) s = .next (match runOf y g with
        | none => y
        | some x => setRun y g (some { x with restoring := false, since := y.now, entered := y.now })))

/-! ## Faults, loads and spares (01 R12, R14, R480; 06 R167, R173; 10 R308; 15) -/

/-- Escalations, watchdogs and lost parts (15 R409, R417, R418, R422 to R425): the expiry of a source's timer counts the
escalation, leaves the member of source 45 degraded, and acts by the source's service target; a command that has run for
the watchdog time, its exempt waits left out, sets source 14 for its pond; a failed phase is counted, with source 62 below
22 phases; a restart of the service core pauses it and sets source 65, and the third within 60 s source 67; an activation
that fails empties its slot; a failed unit of a chip-level class is recorded with source 69. -/
def Obligations.FaultEvents : Prop :=
  ∀ (s : State) (i p ph t n cls : Nat) (r : Running),
    (i < 128 → mapFind 0 s.weir.timers i = t + 1 → sourceSet s i = true → getObj s (srcKey i 3) ≠ 1 →
      i ∉ s.weir.escalated → s.own.frozen = none →
      let u := stopTimer i (advanceTo s t)
      let v := addObj (addObj { u with weir := { u.weir with escalated := i :: u.weir.escalated } } (srcKey i 0xC) 1)
        (key 0x2E01 0xA) 1
      let w := if i = 45 then degrade (mapFind 0 v.weir.memberOf 45 / 1024) (mapFind 0 v.weir.memberOf 45 % 1024) v else v
      (getObj w (srcKey i 7) = 0 → exec (.escalationExpiry i) s = .next w) ∧
      (getObj w (srcKey i 7) = 1 → exec (.escalationExpiry i) s = .next (driveErrN i w)) ∧
      (getObj w (srcKey i 7) = 2 → exec (.escalationExpiry i) s = .next (driveErrN i (repairSource i w))) ∧
      (getObj w (srcKey i 7) = 3 → exec (.escalationExpiry i) s =
        .next (chipReset (if i = 67 ∧ 3 ≤ w.weir.restarts.length then 4 else 3) i true w))) ∧
    (OnPond s p ph →
      minBy watchStart ((pondOf s ph).running.filter fun r => watched r && !heldByLink s ph r) = some r →
      (∀ l ∈ gangMembers s p, (pondOf s (physOf s l)).halt = none) →
      exec (.pondWatchdogTimeout p) s = .next (raise 14 (.pond ph)
        (advanceTo s (r.started + r.exempt + getObj s (key 0x2E00 4) * msClk)))) ∧
    (getObj s (key 0x2E20 3) = n + 1 →
      let u := raise 61 .chip (addObj (setObj s (key 0x2E20 3) n) (key 0x2E20 4) 1)
      exec .powerPhaseFailure s = .next (if n < 22 then raiseCause 62 .chip u else u)) ∧
    (∀ recent, recent = s.now :: s.weir.restarts.filter (fun t => decide (s.now < t + 60000 * msClk)) →
      let u := raise 65 .chip (addObj
        (pauseService { s with weir := { s.weir with restarts := recent } }) (key 0x2E02 6) 1)
      let v := raise 67 .chip u
      (recent.length < 3 → exec .serviceCoreWatchdog s = .next u) ∧
      (3 ≤ recent.length → exec .serviceCoreWatchdog s =
        .next (if v.weir.restarts = [] then setObj v (key 0x2E02 1) 4 else v))) ∧
    (s.boot.activating = some t →
      let u := advanceTo s (t + 200 * msClk)
      let failed (v : State) : State := firmwareSignal (raise 66 .chip (setObj { v with boot := { v.boot with
        activating := none, staged := false, slots := mapInsert v.boot.slots (1 - v.boot.active) { image := [] } } }
        (key 0x2E30 2) 2))
      (u.own.frozen = none → exec .activationTimeout s = .next (failed u)) ∧
      (∀ f, u.own.frozen = some f → exec .activationTimeout s = .next
        (failed (setObj (resumeClocks (u.now - f) u) (key 0x2E30 3) ((u.now - f) / msClk))))) ∧
    (8 ≤ cls → cls ≤ 0xA → n < unitsOf s cls → (cls, n) ∉ s.weir.units →
      let u := raiseCause 69 (.unit cls n) { s with weir := { s.weir with units := s.weir.units ++ [(cls, n)] } }
      exec (.chipEngineUnitFailed cls n) s =
        .next (if u.weir.units = [] ∧ causeActive u 69 = true then endCause 69 u else u))

/-- A load that the image passes puts the program into the inactive bank of every pond of the basin's usable gangs, with
its directory record and the tick; an image that fails changes no bank and leaves the lowest code (06 R167, Table
CMD-9). A margin measurement ends with the eye of the modes asked for (free values, log 10) in its results and at the
member, and accesses that waited for the member go on; a value below its minimum gives result 1 and sets source 45 (10
R308, Table MEM-16). Spares (01 R12, R15): the
copy of the oldest replacement that has not been copied ends in its spare, or, when the spare fails its self-check, that
spare retires. -/
def Obligations.LoadsAndSpares : Prop :=
  (∀ (s : State), getObj s (key 0x2610 3) ≠ 0 →
    let p := s.requests.loadProgram
    let b := s.requests.loadBasin
    let head := [(slotAt p, 256)]
    let runs := [(slotAt p, imageLength s p)]
    let u := { countWait s.requests.loadWaiting s with requests := { s.requests with loadWaiting := none } }
    let bs := readBytes u (slotAt p) (imageLength u p)
    unitMapped s head = true → waitsRefetch s head = false → waitsRefetch s runs = false → unitMapped u runs = true →
    unitPoisoned u runs = false →
    let v := setDir (takeProgram b bs u) p (recordOf p (programOf bs))
    ((loadCode u p b bs).1 = 0 → exec .programLoadDone s = .next (setObj (finishLoad (loadCode u p b bs)
        (followUnavailable (settleDirectory p v))) (key 0x2610 7) (tickNumber v))) ∧
    ((loadCode u p b bs).1 ≠ 0 → exec .programLoadDone s = .next (finishLoad (loadCode u p b bs) u))) ∧
  (∀ (s : State) (tier i mode : Nat), s.requests.margin = some (tier, i, mode) → mode ≤ 2 →
    ∃ w h a b, w < 65536 ∧ h < 65536 ∧
      let u := setObj { s with fresh := s.fresh + 1, requests := { s.requests with margin := none } } (key 0x2A20 4) 0
      let wide (v : State) : State := setObj (setObj v (key 0x2A20 6) w) (key 0x2A20 8) a
      let high (v : State) : State := setObj (setObj v (key 0x2A20 7) h) (key 0x2A20 9) b
      let narrow := decide (w < (if tier = 0 then 26 else 23))
      let shallow := decide (h < (if tier = 0 then 16 else 20))
      let m := memberOf s tier i
      let ends (low : Bool) (v : State) : State :=
        wakeAccesses (noteMargin tier i low (setObj v (key 0x2A20 5) (if low then 1 else 0)))
      (mode = 0 → exec .marginDone s = .next (ends narrow (setMember (wide u) tier i { m with eyeWidth := w }))) ∧
      (mode = 1 → exec .marginDone s = .next (ends shallow (setMember (high u) tier i { m with eyeHeight := h }))) ∧
      (mode = 2 → exec .marginDone s = .next (ends (narrow || shallow)
        (setMember (high (wide u)) tier i { m with eyeWidth := w, eyeHeight := h })))) ∧
  (∀ (s : State) (r : Replacement) (sp : Nat), s.map.replacements.find? (fun r => !r.copied) = some r →
    r.spare = some sp →
    exec (.spareCopyDone true) s = .next (setReplacement r { r with copied := true } (copyInto r.logical r.failed sp s)) ∧
    (r.reload = false → exec (.spareCopyDone false) s = .next (spareFailed raise sp s)))

/-! ## CAN and the mailbox (14 R380 to R390) -/

/-- Requests over the mailbox and USDO (14 R383, R390): an access of the mailbox is performed with its result in the
cells, and one asked for while another is in progress is discarded and counted; a single read or write of a client is
performed and answered; longer ones open a session, which a frame moves on, an abort ends, and 1,000 ms without a frame
ends, with an abort where the NMT state permits USDO; a fifth session on a port is refused. How long an access of the
mailbox takes is free (log 35). -/
def Obligations.ClientRequests : Prop :=
  ∀ (s u : State) (port client index sub len : Nat) (wr last : Bool) (data : List Byte) (x : Session),
    (reaches s hostMaster wr = true → s.cells.busyUntil ≤ s.now → exec (.mailboxGo index sub wr data) s =
      .next (mailboxAccess index sub wr data (resumeService s))) ∧
    (reaches s hostMaster wr = true → s.now < s.cells.busyUntil → exec (.mailboxGo index sub wr data) s =
      .next (addObj s (key 0x3130 0xB) 1)) ∧
    (let v := resumeService s
     let r := dictFetch true hostMaster index sub v
     let w := dictWrite true hostMaster index sub data.length (leValue data) v
     let cells (t : State) : Nat × Nat × Bool × Nat × Nat × List Byte :=
       (t.cells.index, t.cells.sub, t.cells.write, t.cells.length, t.cells.abort, t.cells.data)
     cells (mailboxAccess index sub false data v) = (index, sub, false, r.2.length, r.1, r.2) ∧
       cells (mailboxAccess index sub true data v) = (index, sub, true, data.length, w.1, data)) ∧
    (port < 2 → 1 ≤ client → client ≤ 127 → reaches s ((port + 1) * 256 + client) true = true →
      enterMaster ((port + 1) * 256 + client) (countReceived port (resumeService s)) = some u →
      (sessionFree u port client = true →
        let r := dictFetch true ((port + 1) * 256 + client) index sub u
        let w := dictWrite true ((port + 1) * 256 + client) index sub data.length (leValue data) u
        exec (.usdoRequest port client (.read index sub)) s = .next (answer port client r.1 (.data r.2) u) ∧
        exec (.usdoRequest port client (.write index sub data)) s = .next (answer port client w.1 .done w.2) ∧
        (r.1 = 0 → exec (.usdoRequest port client (.readOpen index sub)) s = .next (nextSegment port client
          { port := port, client := client, index := index, sub := sub, writing := false, len := r.2.length,
            data := r.2, last := u.now } (countAccess 0 u))) ∧
        exec (.usdoRequest port client (.writeOpen index sub len)) s = .next (sendUsdo port client .done
          (putSession { port := port, client := client, index := index, sub := sub, writing := true, len := len,
                        data := [], last := u.now } u))) ∧
      (sessionFree u port client = false →
        let refused := abortSession port client 0x05040005 (countAccess 0x05040005 u)
        exec (.usdoRequest port client (.read index sub)) s = .next refused ∧
        exec (.usdoRequest port client (.write index sub data)) s = .next refused ∧
        exec (.usdoRequest port client (.readOpen index sub)) s = .next refused ∧
        exec (.usdoRequest port client (.writeOpen index sub len)) s = .next refused) ∧
      (sessionOf u port client = some x → x.writing = false →
        exec (.usdoRequest port client .readNext) s = .next (nextSegment port client x u)) ∧
      (sessionOf u port client = some x → x.writing = true →
        exec (.usdoRequest port client (.writeNext data last)) s = .next (takeSegment port client x data last u)) ∧
      exec (.usdoRequest port client .abort) s = .next (endSession port client u) ∧
      exec (.usdoRequest port client .unknown) s =
        .next (abortSession port client 0x05040001 (countAccess 0x05040001 u))) ∧
    (port < 2 → sessionOf s port client = some x →
      let v := countAccess 0x05040000 (advanceTo s (x.last + 1000 * msClk + 1))
      (usdoOpen v port = true →
        exec (.usdoSessionTimeout port client) s = .next (abortSession port client 0x05040000 v)) ∧
      (usdoOpen v port = false → exec (.usdoSessionTimeout port client) s = .next (endSession port client v)))

/-- NMT, heartbeat, EMCY, status PDOs and bus-off (14 R381, R382, R384 to R388): an NMT command, also on a port without a
node-ID, sets the state that it names, or resets communication; a heartbeat, an EMCY and a PDO go out at their instants, a
PDO whose event timer ends within its inhibit time later; a port goes bus-off, is counted, and recovers with its error
counts at 0. -/
def Obligations.CanNetwork : Prop :=
  ∀ (s : State) (port n : Nat) (e : Emcy) (es : List Emcy),
    (port < 2 → portListens s port = true → dictServed s = true → s.boot.stopped = false →
      exec (.nmtStart port) s = .next (setObj (countReceived port s) (key 0x3110 7) 5) ∧
      exec (.nmtStop port) s = .next (setObj (countReceived port s) (key 0x3110 7) 4) ∧
      exec (.nmtEnterPreoperational port) s = .next (setObj (countReceived port s) (key 0x3110 7) 0x7F) ∧
      exec (.nmtResetNode port) s = .next (resetComm (countReceived port s)) ∧
      exec (.nmtResetCommunication port) s = .next (resetComm (countReceived port s))) ∧
    (getObj s (key 0x1017 0) ≠ 0 → dictServed s = true →
      let u := advanceTo s (s.can.heartbeatAt + getObj s (key 0x1017 0) * msClk)
      exec .heartbeat s = .next (sendBoth false (0x700 + nodeId u) [BitVec.ofNat 8 (getObj u (key 0x3110 7))]
        { u with can := { u.can with heartbeatAt := u.now } })) ∧
    (port < 2 → mapFind [] s.can.emcy port = e :: es → portOpen s port = true → getObj s (key 0x3110 7) ∈ [0x7F, 5] →
      let u := advanceTo s (mapFind 0 s.can.emcyFree port)
      let v := emcyOn port e { u with can := { u.can with emcy := mapPut [] u.can.emcy port [] } }
      exec (.emcyInhibitExpiry port) s =
        .next { v with can := { v.can with emcy := mapPut [] v.can.emcy port es } }) ∧
    (n < 4 → tpdoOn s n = true →
      (mapFind false s.can.tpdoHeld n = true → tpdoOn (advanceTo s (inhibitEnd s n)) n = true →
        exec (.tpdoInhibitExpiry n) s = .next (sendTpdo n (advanceTo s (inhibitEnd s n)))) ∧
      (getObj s (key (0x1800 + n) 5) ≠ 0 →
        let u := advanceTo s (mapFind 0 s.can.tpdoLast n - 1 + getObj s (key (0x1800 + n) 5) * msClk)
        tpdoOn u n = true →
        (inhibitEnd u n ≤ u.now → exec (.tpdoEventTimer n) s = .next (sendTpdo n u)) ∧
        (u.now < inhibitEnd u n → exec (.tpdoEventTimer n) s =
          .next { u with can := { u.can with tpdoHeld := mapPut false u.can.tpdoHeld n true } }))) ∧
    (port < 2 → getObj s (key (0x3111 + port) 2) ≠ 2 → exec (.busOff port) s =
      .next (followBus (addObj (setObj s (key (0x3111 + port) 2) 2) (key (0x3111 + port) 5) 1))) ∧
    (port < 2 → getObj s (key (0x3111 + port) 2) = 2 → exec (.busOffRecovery port) s = .next (followBus (setObj
      (setObj (setObj s (key (0x3111 + port) 3) 0) (key (0x3111 + port) 4) 0) (key (0x3111 + port) 2) 0)))

/-! ## The host link (16 R431 to R439) -/

/-- The link (16 R436 to R439): it trains at 16 lanes or 8 and releases what waited; it goes down, retries every 100 ms,
and after its timeout reads that wait on tier 2 complete poisoned, writes and copies into it are discarded, and each is
counted; a hot reset clears the link's state; PERST_N resets the chip domain and lets the link train; an unmasked vector
sends its pending message. -/
def Obligations.LinkEvents : Prop :=
  ∀ (s : State) (lanes speed t v : Nat),
    (s.pins.perst = true → powerState s ≠ 3 → 8 ≤ lanes →
      let width := if lanes < 16 then 8 else 16
      let u := { setObj (setObj (setObj s (key 0x3000 1) 2) (key 0x3000 2) width) (key 0x3000 3) speed with
        host := { s.host with downSince := none } }
      exec (.linkTrained lanes speed) s = .next (wakeAccesses (releaseVectors (watchLevel 59 false
        (watchLevel 58 (decide (width < 16 ∨ speed < 64)) u))))) ∧
    (lanes < 8 → exec (.linkTrained lanes speed) s = .next s) ∧
    (s.host.downSince = none →
      let u := { setObj (addObj s (key 0x3000 4) 1) (key 0x3000 1) 0 with host := { s.host with downSince := some s.now } }
      exec .cxlLinkDown s = .next (endHostLease (watchLevel 59 true (watchLevel 58 false u)))) ∧
    (s.host.downSince = some t → s.pins.perst = true → powerState s ≠ 3 →
      exec .linkRetrainTimer s = .next (setObj (advanceTo s (t + 100 * msClk)) (key 0x3000 1) 1)) ∧
    (linkUp s = true → exec .hotReset s = .next (wakeAccesses { addObj (setObj s (key 0x3000 1) 1) (key 0x3000 5) 1 with
      host := { s.host with msixMask := 0xFF, msixPending := 0, decoders := 0, lines := [] } })) ∧
    (v < 8 → exec (.msixUnmask v) s = .next (releaseVectors
      { s with host := { s.host with msixMask := withBit s.host.msixMask v false } })) ∧
    (s.pins.pwrOk = true →
      let u := dropLink true { s with pins := { s.pins with perst := false } }
      exec .perstNAssert s = .next (chipReset 2 0xFF u.pins.modrst u)) ∧
    (s.pins.perst = false → s.pins.pwrOk = true → exec .perstNRelease s = .next
      (setObj { s with pins := { s.pins with perst := true } } (key 0x3000 1) 1)) ∧
    (s.host.downSince = some t →
      let u := advanceTo s (t + getObj s (key 0x3000 7) * msClk)
      let reads := tier2Reads u
      let copies := tier2Copies u
      let lost := u.host.waiting.filter fun e => tier2Waits u [(e.uda, e.bytes.length)]
      let into := u.tiers.migrations.filter fun m => decide (m.toTier = 2) && m.toFrame.isSome
      let kept := { u with host := { u.host with waiting := u.host.waiting.filter fun e => decide (e ∉ lost) } }
      let counted := addObj kept (key 0x3000 6) (reads.length + copies.length + lost.length + into.length)
      let hit := ((reads.flatMap fun r => unitExtents u r fun x => decide (x.tier = 2) && !x.poisoned) ++ copies).dedup
      exec .linkLossTimeout s = .next (serveReads (forEach hit (fun e v => poisonExtent (extentUda e) e v)
        (forEach into dropMigration (forEach lost countPark counted)))))

/-- Accesses of the host (16 R431 to R434, 10 R280, R302, 17 R467): a read answers with the bytes, and the host holds its
lines as it asked; one that a re-fetch must serve waits; one of unmapped bytes answers all ones; one of tier 2 is refused
and counted; one from a sleeping device answers all ones and wakes it; a write takes its lines back and is performed and
answered; a snoop response gives its line up and writes its data. -/
def Obligations.HostAccesses : Prop :=
  ∀ (s : State) (uda len hold line : Nat) (data : List Byte),
    (hostReaches s uda len = true →
      let u := useDecoder uda s
      let bad := Output.hostData true (List.replicate len 0xFF)
      (asleep u = true → exec (.hostMemRead uda len hold) s = .next (sleepAccess (send u bad))) ∧
      (asleep u = false → hostTier2 u uda len = true → exec (.hostMemRead uda len hold) s =
        .next (addObj (send u bad) (key 0x3002 4) 1)) ∧
      (asleep u = false → hostTier2 u uda len = false → unitMapped u [(uda, len)] = true →
        waitsRefetch u [(uda, len)] = true → exec (.hostMemRead uda len hold) s = .next { u with tiers := { u.tiers with
          reads := u.tiers.reads ++ [{ host := true, uda := uda, len := len, peer := 0, msg := 0, transfer := 0,
                                       waiting := waitNote u [(uda, len)] }] } }) ∧
      (asleep u = false → hostTier2 u uda len = false → unitMapped u [(uda, len)] = true →
        waitsRefetch u [(uda, len)] = false → unservable u [(uda, len)] = false →
        exec (.hostMemRead uda len hold) s = .next (answerHost uda len (holdLines uda len hold u))) ∧
      (asleep u = false → hostTier2 u uda len = false → unitMapped u [(uda, len)] = true →
        waitsRefetch u [(uda, len)] = false → unservable u [(uda, len)] = true →
        exec (.hostMemRead uda len hold) s = .next (send u bad)) ∧
      (asleep u = false → unitMapped u [(uda, len)] = false → exec (.hostMemRead uda len hold) s =
        .next (send (unmappedRead u) (.hostData false (List.replicate len 0xFF))))) ∧
    (hostReaches s uda data.length = true →
      let u := useDecoder uda s
      (asleep u = true → exec (.hostMemWrite uda data) s = .next (sleepAccess (send u .hostWritten))) ∧
      (asleep u = false → hostTier2 u uda data.length = true → exec (.hostMemWrite uda data) s =
        .next (addObj (send u .hostWritten) (key 0x3002 4) 1)) ∧
      (asleep u = false → hostTier2 u uda data.length = false →
        let v := { u with host := { u.host with
          lines := u.host.lines.filter (fun e => decide (e.1 ∉ linesOf uda data.length)) } }
        exec (.hostMemWrite uda data) s = .next (wakeAccesses (send (hostWrite v uda data) .hostWritten)))) ∧
    (let u := { s with host := { s.host with lines := s.host.lines.filter (fun e => decide (e.1 ≠ line)) } };
      exec (.snoopResponse line data) s = .next (wakeAccesses (if data = [] then u
        else hostWrite u (line * 64) (data.take 64))))

/-! ## Boot and images (16 R440 to R447) -/

/-- A stage of boot that ends does its work and enters the next one, at B9 the ticks start (16 R440 to R442); the module
reset is released and boot begins, or is asserted and the chip domain is reset (16 R440, 15 R412, R414). A chip reset
(15 R414 to R416, 16 R452, R453): the debug level is 0, the nonce is drawn anew, ownership, ponds and queues of the chip
are those of a reset, the fuses and the identity stay, and the cause and source are recorded. -/
def Obligations.BootStages : Prop :=
  (∀ (s : State) (fails : List Nat) (straps : Nat),
    (booting s = true → ¬ (bootStage s = 3 ∧ diesHeld s = true) → exec (.bootStageEnd fails) s =
      .next (runStage fails (advanceWithin (stageBy s) s))) ∧
    (booting s = true → bootStage s = 3 → diesHeld s = true → exec (.bootStageEnd fails) s = .next s) ∧
    (Canonical s → booting s = true → bootStage s ∈ [1, 5] → ∃ u, exec (.bootStageEnd []) s = .next u ∧
      bootStage u = bootStage s + 1 ∧ s.now ≤ u.now ∧ u.now ≤ max s.now (stageBy s)) ∧
    (s.pins.modrst = false → s.pins.pwrOk = true → exec (.modrstNRelease straps) s = .next (startBoot
      { s with pins := { s.pins with modrst := true, straps := straps % 128 } })) ∧
    exec .modrstNAssert s = .next (chipReset 1 0xFF false { s with pins := { s.pins with modrst := false } })) ∧
  (∀ (s : State) (cause src : Nat), Canonical s →
    let r := chipReset cause src false s
    r.secure.level = 0 ∧ r.secure.nonce = s.secure.nonce + 1 ∧ r.secure.disabled = s.secure.disabled ∧
      r.secure.antiRollback = s.secure.antiRollback ∧ r.nvm = s.nvm ∧ r.now = s.now ∧ r.sent = s.sent ∧
      (∀ i, pondOf r i = Pond.reset) ∧ r.own = State.reset.own ∧ r.fabric = State.reset.fabric ∧
      (contentsKept s = true → r.mem = s.mem) ∧ getObj r (key 0x2E02 1) = cause ∧ getObj r (key 0x2E02 2) = src)

/-- The check of a staged image ends with its code (16 R444 to R447): an image that the checks refuse leaves its code
and sets source 70 for codes 2, 3, 4 and 6; a valid one is written to the other slot and staged, unless the flash write
fails (a free value, log 10) with code 8. SPDM requests over the mailbox (16 R448 to R450): each is counted and answered
with its response and what that holds, an unknown slot, index or request with ERROR; without the link nothing is
answered. The codes are the model's (log 40). -/
def Obligations.ImagesAndSpdm : Prop :=
  (∀ (s : State) (bs : List Byte), s.boot.verifying = some bs →
    let u := { s with boot := { s.boot with verifying := none } }
    let code := if bs = [] then 7 else imageCode u bs
    let ends (code : Nat) (v : State) : State := setObj (setObj v (key 0x3020 3) 0) (key 0x3020 4) code
    (code ≠ 0 ∧ exec .verifyDone s =
      .next (firmwareSignal (ends code (if code ∈ [2, 3, 4, 6] then raise 70 .chip u else u)))) ∨
    (code = 0 ∧ (exec .verifyDone s = .next (firmwareSignal (ends 8 { u with fresh := s.fresh + 1 })) ∨
      exec .verifyDone s = .next (firmwareSignal (stageImage bs (ends 0 { u with fresh := s.fresh + 1 })))))) ∧
  (∀ (s : State) (slot index : Nat), doeServed s = true →
    let u := addObj s (key 0x3050 1) 1
    (∃ bs, exec .getVersion s = .next (send u (.spdm 0x04 bs))) ∧
    (∃ bs, exec .getCapabilities s = .next (send u (.spdm 0x61 (18 :: bs)))) ∧
    (∃ bs, exec .negotiateAlgorithms s = .next (send u (.spdm 0x63 bs))) ∧
    exec .getDigests s = .next (send u (.spdm 0x01 (Config.sha384 (certificateChain s)))) ∧
    (slot = 0 → exec (.getCertificate slot) s = .next (send u (.spdm 0x02 (certificateChain s))) ∧
      ∃ nonce, exec (.challenge slot) s = .next (send { u with fresh := s.fresh + 1 } (.spdm 0x03
        (signedByAlias s (Config.sha384 (certificateChain s) ++ nonce))))) ∧
    (slot ≠ 0 → exec (.getCertificate slot) s = .next (send (addObj u (key 0x3050 2) 1) (.spdm 0x7F [1])) ∧
      exec (.challenge slot) s = .next (send (addObj u (key 0x3050 2) 1) (.spdm 0x7F [1]))) ∧
    (1 ≤ index → index ≤ 5 → exec (.getMeasurements index) s =
      .next (send u (.spdm 0x60 (signedByAlias s (measurement s index))))) ∧
    exec (.getMeasurements 0) s = .next (send u (.spdm 0x60 (signedByAlias s [5]))) ∧
    (5 < index → index ≠ 0xFF → exec (.getMeasurements index) s =
      .next (send (addObj u (key 0x3050 2) 1) (.spdm 0x7F [1]))) ∧
    exec .spdmUnsupportedRequest s = .next (send (addObj u (key 0x3050 2) 1) (.spdm 0x7F [7])))

/-! ## The debug port (16 R451 to R456) -/

/-- The scans of the TAP and of the debug lock (16 R451 to R453): the instruction is selected and its register captured;
the boundary register is loaded, by EXTEST only while MODRST_N is low; a token is collected word by word, is ignored
after three failures, and its check raises the level or counts a failure, and draws the nonce anew. -/
def Obligations.TapScans : Prop :=
  ∀ (s : State) (pins : Nat) (w : F32) (bs : List Byte),
    exec .tapReset s = .next (selectTap 0x02 s) ∧
    (∃ v, exec (.samplePreload pins) s = .next v ∧
      v.debugPort.boundary = pins ∧ v.debugPort.instruction = 0x01) ∧
    (s.pins.modrst = false → ∃ v, exec (.extest pins) s = .next v ∧ v.debugPort.boundary = pins ∧
      v.debugPort.instruction = 0x00) ∧
    (s.pins.modrst = true → exec (.extest pins) s = .next (send (selectTap 0x00 s) (.tdo 0))) ∧
    exec .idcode s = .next (send (selectTap 0x02 s) (.tdo (match s.nvm.grade with
      | .a128 => 0x1A12855D
      | .b96 => 0x1B09655D))) ∧
    exec .bypass s = .next (send (selectTap 0xFF s) (.tdo 0)) ∧
    exec .lockstat s = .next (send (selectTap 0x08 s) (.tdo (s.secure.level % 4 +
      (if s.secure.disabled then 4 else 0) + s.secure.failures % 8 * 8))) ∧
    exec .nonce s = .next (send (selectTap 0x09 s) (.tdo (leValue ((Config.nonce s.secure.nonce).take 32)))) ∧
    (let u := selectTap 0x0A s;
      (3 ≤ s.secure.failures → exec (.unlock w) s = .next u) ∧
      (s.secure.failures < 3 → s.secure.checking = none → s.secure.words.length < 482 → exec (.unlock w) s =
        .next { u with secure := { u.secure with words := s.secure.words ++ [w] } }) ∧
      (s.secure.failures < 3 → s.secure.checking = none → s.secure.words.length = 482 → exec (.unlock w) s =
        .next { u with secure := { u.secure with
          words := [], checking := some ((s.secure.words ++ [w]).flatMap fun w => leBytes w.toNat 4) } })) ∧
    (s.secure.checking = some bs →
      let u := { s with secure := { s.secure with checking := none, nonce := s.secure.nonce + 1 } }
      exec .unlockVerifyDone s = .next (if tokenValid s bs then unlockTo (imageField bs 5 1) u
        else { u with secure := { u.secure with failures := s.secure.failures + 1 } }))

/-- Accesses of the debug port at their levels (16 R452, R454 to R456, 14 R391): the dictionary is read at level 1 and
written at level 2; memory and buffers of halted ponds are read at level 1 and written at level 2, and a read that must
wait leaves the port busy until it has ended; a comparator is set, with its hit count captured; below its level a scan
captures zeros and changes nothing. A space without a stated meaning does nothing, or, where it addresses the instruction
banks (a free value, log 38), is a blocked write (06 R168). DBGCTL at level 2 (16 R452, R454): a halt, a resume and a step
act on the pond named, or on every pond, a gang halt on every member; at level 1 a scan polls; a relock returns the level
to 0. -/
def Obligations.DebugAccesses : Prop :=
  (∀ (s : State) (dr p a space : Nat) (w : W64),
    let m := send (selectTap 0x13 s) (.tdo (memCapture (selectTap 0x13 s)))
    let settled := settleMem (selectTap 0x13 s)
    let free := s.debugPort.memWait = none
    (1 ≤ s.secure.level →
      let u := send (selectTap 0x10 s) (.tdo (dictCapture s))
      (dictServed s = true → bits dr 103 102 = 1 → exec (.dict dr) s =
        .next (debugRead (bits dr 127 112) (bits dr 111 104) u)) ∧
      (dictServed s = true → bits dr 103 102 = 2 → s.secure.level = 2 → exec (.dict dr) s =
        .next (debugStore (bits dr 127 112) (bits dr 111 104) (dr % 2 ^ 64) u)) ∧
      (bits dr 103 102 = 2 → s.secure.level = 1 → exec (.dict dr) s = .next u) ∧
      exec .dbgmemPoll s = .next (send settled (.tdo (memCapture settled))) ∧
      (free → unitMapped m [(a - a % 8, 8)] = true → waitsRefetch m [(a - a % 8, 8)] = false →
        unitPoisoned m [(a - a % 8, 8)] = false → exec (.dbgmemRead 0 p a) s =
          .next (noteMem 0 (readLe m (a - a % 8) 8) (countBytes false [(a - a % 8, 8)] m))) ∧
      (free → unitMapped m [(a - a % 8, 8)] = true → waitsRefetch m [(a - a % 8, 8)] = true →
        exec (.dbgmemRead 0 p a) s = .next { m with debugPort := { m.debugPort with memWait := some (a - a % 8) } }) ∧
      (free → bufferStatus m p (a - a % 8) = 0 → exec (.dbgmemRead 1 p a) s =
        .next (noteMem 0 (leValue (bufRead (pondOf m (physOf m p)) (a - a % 8) 8)) m)) ∧
      (free → debugState m p ≠ 2 → ∃ v, exec (.dbgmemRead 1 p a) s = .next v ∧ v.debugPort.memStatus = 5)) ∧
    (s.secure.level = 1 → free → ∃ v, exec (.dbgmemWrite 0 p a w) s = .next v ∧ v.debugPort.memStatus = 6 ∧
      v.mem = s.mem) ∧
    (s.secure.level = 2 →
      let v := hostWrite m (a - a % 8) (leBytes w.toNat 8)
      let z := modPond m (physOf m p) (fun pd => bufWrite pd (a - a % 8) (leBytes w.toNat 8))
      let b := blockBankWrite (physOf m p) (a % 2 ^ 48) m
      (free → ∃ x, exec (.dbgmemWrite 0 p a w) s = .next (noteMem (memWriteStatus m (a - a % 8)) x
        { v with fresh := v.fresh + 1 })) ∧
      (free → bufferStatus m p (a - a % 8) = 0 →
        ∃ x, exec (.dbgmemWrite 1 p a w) s = .next (noteMem 0 x { z with fresh := z.fresh + 1 })) ∧
      (free → 1 < space → Config.bankSpace space = false → exec (.dbgmemWrite space p a w) s = .next m) ∧
      (free → 1 < space → Config.bankSpace space = true → p < logicalCount m → physOf m p ≠ 0xFF →
        ∃ x, exec (.dbgmemWrite space p a w) s = .next (noteMem 4 x { b with fresh := b.fresh + 1 })) ∧
      let n := w.toNat
      let i := bits n 63 61
      let u := send (selectTap 0x12 s) (.tdo ((mapFind Breakpoint.off s.debugPort.brk s.debugPort.brkSel).hits % 2 ^ 32))
      let k : Breakpoint :=
        { enabled := bitAt n 60, gang := bitAt n 59, pond := bits n 55 48, mask := bits n 47 24, value := bits n 23 0,
          hits := (mapFind Breakpoint.off s.debugPort.brk i).hits }
      exec (.brkpt w) s =
        .next { u with debugPort := { u.debugPort with brkSel := i, brk := mapPut Breakpoint.off s.debugPort.brk i k } }) ∧
    (s.secure.level = 0 → exec (.dict dr) s = .next (send (selectTap 0x10 s) (.tdo 0)) ∧
      exec (.dbgmemRead 0 p a) s = .next (send (selectTap 0x13 s) (.tdo 0)) ∧
      exec (.dbgmemWrite 0 p a w) s = .next (send (selectTap 0x13 s) (.tdo 0)) ∧
      exec (.debugHalt p) s = .next (send (selectTap 0x11 s) (.tdo 0))) ∧
    (s.secure.level < 2 → exec (.brkpt w) s = .next (send (selectTap 0x12 s) (.tdo 0)))) ∧
  (∀ (s : State) (p : Nat),
    let c := controlCapture (selectTap 0x11 s)
    let u := { c with debugPort := { c.debugPort with pollPond := p } }
    (1 ≤ s.secure.level → exec (.debugStatus p) s = .next u ∧ exec (.debugRelock p) s = .next (lockDebug u)) ∧
    (s.secure.level = 1 → exec (.debugHalt p) s = .next u ∧ exec (.debugResume p) s = .next u) ∧
    (s.secure.level = 2 → p ≠ 0xFF → debugState u p ≠ 3 →
      exec (.debugHalt p) s = .next (haltPond (physOf u p) u) ∧
      exec (.debugHaltGang p) s = .next (haltGang p u) ∧
      ((pondOf u (physOf u p)).halt = some 2 →
        exec (.debugResume p) s = .next (unhalt p (modPond u (physOf u p) passBreak)) ∧
        exec (.debugStep p) s = .next (modPond u (physOf u p) fun pd => { passBreak pd with stepping := true }))) ∧
    (s.secure.level = 2 → exec (.debugHalt 0xFF) s = .next (forEach (namedPonds (controlCapture (selectTap 0x11 s)) 0xFF)
      (fun l v => haltPond (physOf v l) v) { c with debugPort := { c.debugPort with pollPond := 0xFF } })))

/-! ## Power (17) -/

/-- The power states (17 R460 to R466): an entry that is ready ends within its bound in the state asked for, and an exit
within its bound in Active, where a request that waited acts and the state that the wake's request named follows; a wake
asserted or the wake timer wakes the module; a pulse is only counted; ponds power up
16 in each 10 µs. The instants within the bounds are free values (log 10). A wake (17 R463 to R465): a masked one does
nothing; in a sleeping state it is recorded and the exit begins; during an entry it is counted, and the first one is
recorded; in Active it does nothing. -/
def Obligations.PowerStates : Prop :=
  (∀ (s : State) (t : Nat),
    (transition s = 1 → entryReady s = true → s.power.target ≤ 3 →
      ∃ u v, u = advanceWithin (s.power.wakeStart + entryBound s s.power.target) s ∧
        s.now ≤ u.now ∧ u.now ≤ max s.now (s.power.wakeStart + entryBound s s.power.target) ∧
        v = addObj (setObj (setObj (enterState s.power.target u) (key 0x2F00 2) s.power.target) (key 0x2F00 3) 0)
          (key 0x2F30 s.power.target) 1 ∧
        exec .powerEntryDone s = .next (if v.power.wake.isSome
          then beginExit { v with power := { v.power with entered := some v.now } }
          else heldRequest { v with power := { v.power with entered := some v.now } })) ∧
    (transition s = 2 →
      let u := advanceWithin (s.power.wakeStart + exitBound (powerState s)) s
      let v := if powerState s = 3 then leaveStandby u else if powerState s = 2 then powerPonds u else u
      let w := setObj (setObj v (key 0x2F00 2) 0) (key 0x2F00 3) 0
      let x := match w.power.wake with
        | some (_, _, t) => setObj w (key 0x2F02 5) ((w.now - t) / usClk)
        | none => w
      let y := { x with power := { x.power with wake := none, entered := none, thenState := none } }
      let z := releasePads (if powerState s = 2 then pumpMigrations (restoreCredit y) else y)
      s.now ≤ u.now ∧ u.now ≤ max s.now (s.power.wakeStart + exitBound (powerState s)) ∧
      (x.power.thenState = none → exec .powerExitDone s = .next (heldRequest z)) ∧
      (∀ n, x.power.thenState = some n → z.power.request = none → exec .powerExitDone s =
        .next { z with power := { z.power with request := some (n, 0) } })) ∧
    (getObj s (key 0x2F00 6) = 0 → exec (.wakeNAssert t) s =
      .next (wakeEvent 2 0 (setObj (advanceTo s (t + usClk)) (key 0x2F00 6) 1))) ∧
    exec .wakeNRelease s = .next (setObj s (key 0x2F00 6) 0) ∧
    (getObj s (key 0x2F00 6) ≠ 1 → exec .wakeNPulseFiltered s = .next (addObj s (key 0x2F02 7) 1)) ∧
    (s.power.entered = some t → getObj s (key 0x2F01 2) ≠ 0 → transition s = 0 → exec .wakeTimerExpiry s =
      .next (wakeEvent 4 0 (advanceTo s (t + getObj s (key 0x2F01 2) * msClk)))) ∧
    (powerAllowed s = true →
      let go := ((powerOrder s).filter fun ph => !(pondOf s ph).powered).take 16
      let u := if s.power.interval = 0 then s else advanceTo s (s.power.interval - 1 + 10 * usClk)
      go ≠ [] → exec .pondPowerUp s = .next (forEach go (fun ph v => modPond v ph fun pd => { pd with powered := true })
        { u with power := { u.power with interval := u.now + 1 } }))) ∧
  (∀ (s : State) (code m : Nat), Canonical s → 1 ≤ code →
    (bitAt (getObj s (key 0x2F01 1)) (code - 1) = false → wakeEvent code m s = s) ∧
    (bitAt (getObj s (key 0x2F01 1)) (code - 1) = true → transition s = 0 → powerState s = 0 → wakeEvent code m s = s) ∧
    (bitAt (getObj s (key 0x2F01 1)) (code - 1) = true → transition s = 0 → powerState s ≠ 0 →
      transition (wakeEvent code m s) = 2 ∧ getObj (wakeEvent code m s) (key 0x2F02 1) = code ∧
      getObj (wakeEvent code m s) (key 0x2F02 3) = powerState s ∧
      (wakeEvent code m s).power.wake = some (code, m, s.now) ∧ (wakeEvent code m s).power.wakeStart = s.now ∧
      (wakeEvent code m s).mem = s.mem ∧ (wakeEvent code m s).ponds = s.ponds) ∧
    (bitAt (getObj s (key 0x2F01 1)) (code - 1) = true → transition s = 1 →
      transition (wakeEvent code m s) = 1 ∧ getObj (wakeEvent code m s) (key 0x2F02 6) = getObj s (key 0x2F02 6) + 1 ∧
      (s.power.wake = none → (wakeEvent code m s).power.wake = some (code, m, s.now)) ∧
      (s.power.wake ≠ none → (wakeEvent code m s).power.wake = s.power.wake)))

/-- Supply and temperature (17 R473 to R476): the causes of sources 60, 63 and 64 follow their conditions; a supply stop
resets the chip domain, and the loss of the power stages loses tiers that are not in self-refresh; PWR_OK resets as
MODRST_N does; a power-up starts anew with what manufacture, the fuses and the flash hold. -/
def Obligations.SupplyAndTemperature : Prop :=
  ∀ (s : State) (out hot : Bool),
    exec (.supplyOutOfRange out) s = .next (followAlert 60 out { s with pins := { s.pins with supplyOut := out } }) ∧
    (s.pins.supplyStopped = false →
      let u := stopForSupply s
      exec .supplyStop s = .next { u with pins := { u.pins with supplyStopped := true, supplyOut := true } }) ∧
    exec .supplyRecovered s = .next (followAlert 60 false
      { s with pins := { s.pins with supplyStopped := false, stagesOff := false, supplyOut := false } }) ∧
    (inSelfRefresh s = false →
      let u := stopForSupply
        { s with host := { s.host with memoryActive := false }, boot := { s.boot with preserved := false } }
      exec .powerStagesOff s =
        .next { u with pins := { u.pins with supplyStopped := true, supplyOut := true, stagesOff := true } }) ∧
    (inSelfRefresh s = true →
      let u := stopForSupply s
      exec .powerStagesOff s =
        .next { u with pins := { u.pins with supplyStopped := true, supplyOut := true, stagesOff := true } }) ∧
    (hot = true → exec (.temperatureHigh hot) s =
      .next (followAlert 63 true { s with pins := { s.pins with tempHigh := true } })) ∧
    (hot = false → exec (.temperatureHigh hot) s = .next (followAlert 64 false (followAlert 63 false
      { s with pins := { s.pins with tempHigh := false, tempCritical := false } }))) ∧
    exec .temperatureCritical s = .next (followAlert 64 true (followAlert 63 true
      { s with pins := { s.pins with tempHigh := true, tempCritical := true } })) ∧
    exec .coolDownRelease s = .next (followAlert 64 false
      { s with pins := { s.pins with tempCritical := false, coolHold := false } }) ∧
    exec .pwrOkFall s = .next (chipReset 1 0xFF false
      { s with pins := { s.pins with pwrOk := false, modrst := false } }) ∧
    (∃ u, exec .powerUp s = .next u ∧ s.now ≤ u.now ∧ u.now ≤ s.now + 25 * msClk ∧ u.pending = s.pending ∧
      u.nvm = s.nvm ∧ u.map = s.map ∧ u.boot.slots = s.boot.slots ∧ u.boot.active = s.boot.active ∧
      u.secure.disabled = s.secure.disabled ∧ u.secure.antiRollback = s.secure.antiRollback ∧
      u.secure.revoked = s.secure.revoked ∧ u.secure.level = 0 ∧ u.secure.nonce = s.secure.nonce + 1 ∧
      u.ponds = [] ∧ u.dict = State.reset.dict ∧ u.own = State.reset.own ∧ u.pins = State.reset.pins)
end

