-- ==== Sys2Proof/Laws/Maps.lean ====
section
/-! SUPPORT. Laws of the sparse maps: a read after a write, reads elsewhere, and the canonical form. -/

set_option Elab.async false

namespace Sys2Proof.Machine

variable {α : Type}

/-- No listed value is the default. -/
def MapSparse (d : α) (m : NMap α) : Prop := ∀ e ∈ m, e.2 ≠ d

theorem mapWf_iff [DecidableEq α] (d : α) (m : NMap α) : mapWf d m = true ↔ MapSorted m ∧ MapSparse d m := by
  induction m with
  | nil => simp [mapWf, MapSorted, MapSparse]
  | cons a rest ih =>
    obtain ⟨k, v⟩ := a
    cases rest with
    | nil => simp [mapWf, MapSorted, MapSparse]
    | cons b rest' =>
      obtain ⟨k', v'⟩ := b
      simp only [mapWf, Bool.and_eq_true, decide_eq_true_eq, ih, MapSorted, MapSparse, List.pairwise_cons,
        List.mem_cons, forall_eq_or_imp]
      constructor
      · rintro ⟨⟨hv, hk⟩, ⟨h1, h2⟩, h3, h4⟩
        exact ⟨⟨⟨hk, fun e he => lt_trans hk (h1 e he)⟩, h1, h2⟩, hv, h3, h4⟩
      · rintro ⟨⟨⟨hk, _⟩, h1, h2⟩, hv, h3, h4⟩
        exact ⟨⟨hv, hk⟩, ⟨h1, h2⟩, h3, h4⟩

theorem mapInsert_mem (m : NMap α) (k : Nat) (v : α) (e : Nat × α) (h : e ∈ mapInsert m k v) :
    e = (k, v) ∨ e ∈ m := by
  induction m with
  | nil => simpa [mapInsert] using h
  | cons a rest ih =>
    obtain ⟨k', v'⟩ := a
    simp only [mapInsert] at h
    split at h
    · rcases List.mem_cons.mp h with h | h
      · exact .inl h
      · exact .inr (List.mem_cons_of_mem _ h)
    · split at h
      · rcases List.mem_cons.mp h with h | h
        · exact .inl h
        · exact .inr h
      · rcases List.mem_cons.mp h with h | h
        · exact .inr (h ▸ List.mem_cons_self)
        · rcases ih h with h | h
          · exact .inl h
          · exact .inr (List.mem_cons_of_mem _ h)

theorem mapErase_mem (m : NMap α) (k : Nat) (e : Nat × α) (h : e ∈ mapErase m k) : e ∈ m := by
  induction m with
  | nil => simp [mapErase] at h
  | cons a rest ih =>
    obtain ⟨k', v'⟩ := a
    simp only [mapErase] at h
    split at h
    · exact List.mem_cons_of_mem _ h
    · split at h
      · exact h
      · rcases List.mem_cons.mp h with h | h
        · exact h ▸ List.mem_cons_self
        · exact List.mem_cons_of_mem _ (ih h)

theorem MapSorted.nil : MapSorted ([] : NMap α) := List.Pairwise.nil

theorem MapSorted.filter (m : NMap α) (p : Nat × α → Bool) (h : MapSorted m) : MapSorted (m.filter p) :=
  List.Pairwise.filter p h

/-- A map whose values pass through a function keeps its keys. -/
theorem MapSorted.mapValues {β : Type} (m : NMap α) (f : Nat × α → Nat × β) (hf : ∀ e, (f e).1 = e.1)
    (h : MapSorted m) : MapSorted (m.map f) := by
  refine List.pairwise_map.mpr (h.imp ?_)
  intro a b hab
  rw [hf, hf]
  exact hab

theorem mapInsert_sorted (m : NMap α) (k : Nat) (v : α) (h : MapSorted m) : MapSorted (mapInsert m k v) := by
  induction m with
  | nil => simp [mapInsert, MapSorted]
  | cons a rest ih =>
    obtain ⟨k', v'⟩ := a
    simp only [MapSorted, List.pairwise_cons] at h
    simp only [mapInsert]
    split
    · subst k
      exact List.pairwise_cons.mpr ⟨h.1, h.2⟩
    · split
      · rename_i hlt
        refine List.pairwise_cons.mpr ⟨fun e he => ?_, List.pairwise_cons.mpr h⟩
        rcases List.mem_cons.mp he with rfl | he
        · exact hlt
        · exact lt_trans hlt (h.1 e he)
      · rename_i hne hlt
        refine List.pairwise_cons.mpr ⟨fun e he => ?_, ih h.2⟩
        rcases mapInsert_mem rest k v e he with rfl | he
        · exact lt_of_le_of_ne (not_lt.mp hlt) (fun x => hne x.symm)
        · exact h.1 e he

theorem mapErase_sorted (m : NMap α) (k : Nat) (h : MapSorted m) : MapSorted (mapErase m k) := by
  induction m with
  | nil => simp [mapErase, MapSorted]
  | cons a rest ih =>
    obtain ⟨k', v'⟩ := a
    simp only [MapSorted, List.pairwise_cons] at h
    simp only [mapErase]
    split
    · exact h.2
    · split
      · exact List.pairwise_cons.mpr h
      · exact List.pairwise_cons.mpr ⟨fun e he => h.1 e (mapErase_mem rest k e he), ih h.2⟩

theorem mapPut_sorted [DecidableEq α] (d : α) (m : NMap α) (k : Nat) (v : α) (h : MapSorted m) :
    MapSorted (mapPut d m k v) := by
  unfold mapPut
  split
  · exact mapErase_sorted m k h
  · exact mapInsert_sorted m k v h

/-- A fold whose steps keep an order keeps it. -/
theorem foldl_sorted {β : Type} (l : List β) (f : NMap α → β → NMap α) (hf : ∀ m x, MapSorted m → MapSorted (f m x))
    (m : NMap α) (h : MapSorted m) : MapSorted (l.foldl f m) := by
  induction l generalizing m with
  | nil => exact h
  | cons x xs ih => exact ih _ (hf m x h)

theorem foldr_sorted {β : Type} (l : List β) (f : β → NMap α → NMap α) (hf : ∀ m x, MapSorted m → MapSorted (f x m))
    (m : NMap α) (h : MapSorted m) : MapSorted (l.foldr f m) := by
  induction l with
  | nil => exact h
  | cons x xs ih => exact hf _ x ih

/-- A write keeps the canonical form. -/
theorem mapPut_wf [DecidableEq α] (d : α) (m : NMap α) (k : Nat) (v : α) (h : mapWf d m = true) :
    mapWf d (mapPut d m k v) = true := by
  rw [mapWf_iff] at h ⊢
  unfold mapPut
  split
  · exact ⟨mapErase_sorted m k h.1, fun e he => h.2 e (mapErase_mem m k e he)⟩
  · rename_i hv
    refine ⟨mapInsert_sorted m k v h.1, fun e he => ?_⟩
    rcases mapInsert_mem m k v e he with rfl | he
    · exact hv
    · exact h.2 e he

/-- A part of a canonical map is canonical. -/
theorem filter_wf [DecidableEq α] (d : α) (m : NMap α) (p : Nat × α → Bool) (h : mapWf d m = true) :
    mapWf d (m.filter p) = true := by
  rw [mapWf_iff] at h ⊢
  exact ⟨MapSorted.filter m p h.1, fun e he => h.2 e (List.mem_filter.mp he).1⟩

theorem mapEraseRange_wf [DecidableEq α] (d : α) (m : NMap α) (lo hi : Nat) (h : mapWf d m = true) :
    mapWf d (mapEraseRange m lo hi) = true := filter_wf d m _ h

theorem mapFind_below (d : α) (m : NMap α) (k : Nat) (h : ∀ e ∈ m, k < e.1) : mapFind d m k = d := by
  cases m with
  | nil => rfl
  | cons a rest =>
    obtain ⟨k', v'⟩ := a
    have := h (k', v') List.mem_cons_self
    simp only [mapFind]
    rw [if_neg (by simp at this; omega), if_pos (by simpa using this)]

theorem mapFind_mapInsert_same (d : α) (m : NMap α) (k : Nat) (v : α) : mapFind d (mapInsert m k v) k = v := by
  induction m with
  | nil => simp [mapInsert, mapFind]
  | cons a rest ih =>
    obtain ⟨k', v'⟩ := a
    simp only [mapInsert]
    split
    · simp [mapFind]
    · split
      · simp [mapFind]
      · rename_i h1 h2
        simp [mapFind, h1, h2, ih]

theorem mapFind_mapInsert_other (d : α) (m : NMap α) (k j : Nat) (v : α) (h : j ≠ k) :
    mapFind d (mapInsert m k v) j = mapFind d m j := by
  induction m with
  | nil =>
    simp only [mapInsert, mapFind]
    rw [if_neg h]
    split <;> rfl
  | cons a rest ih =>
    obtain ⟨k', v'⟩ := a
    simp only [mapInsert]
    split
    · subst k
      simp [mapFind, h]
    · split
      · rename_i h1 h2
        simp only [mapFind]
        rw [if_neg h]
        split
        · rw [if_neg (by omega), if_pos (by omega)]
        · rfl
      · simp only [mapFind, ih]

theorem mapFind_mapErase_same (d : α) (m : NMap α) (k : Nat) (h : MapSorted m) : mapFind d (mapErase m k) k = d := by
  induction m with
  | nil => rfl
  | cons a rest ih =>
    obtain ⟨k', v'⟩ := a
    simp only [MapSorted, List.pairwise_cons] at h
    simp only [mapErase]
    split
    · subst k
      exact mapFind_below d rest k' fun e he => h.1 e he
    · split
      · rename_i h1 h2
        simp [mapFind, h1, h2]
      · rename_i h1 h2
        simp [mapFind, h1, h2, ih h.2]

theorem mapFind_mapErase_other (d : α) (m : NMap α) (k j : Nat) (hs : MapSorted m) (h : j ≠ k) :
    mapFind d (mapErase m k) j = mapFind d m j := by
  induction m with
  | nil => rfl
  | cons a rest ih =>
    obtain ⟨k', v'⟩ := a
    simp only [MapSorted, List.pairwise_cons] at hs
    simp only [mapErase]
    split
    · subst k
      simp only [mapFind]
      rw [if_neg h]
      split
      · exact mapFind_below d rest j fun e he => lt_trans (by assumption) (hs.1 e he)
      · rfl
    · split
      · rfl
      · simp only [mapFind, ih hs.2]

/-- A read after a write gives the value written. -/
theorem mapFind_mapPut_same [DecidableEq α] (d : α) (m : NMap α) (k : Nat) (v : α) (h : mapWf d m = true) :
    mapFind d (mapPut d m k v) k = v := by
  rw [mapWf_iff] at h
  unfold mapPut
  split
  · rename_i hv
    rw [mapFind_mapErase_same d m k h.1, hv]
  · exact mapFind_mapInsert_same d m k v

/-- A write leaves every other key alone. -/
theorem mapFind_mapPut_other [DecidableEq α] (d : α) (m : NMap α) (k j : Nat) (v : α) (h : mapWf d m = true)
    (hj : j ≠ k) : mapFind d (mapPut d m k v) j = mapFind d m j := by
  rw [mapWf_iff] at h
  unfold mapPut
  split
  · exact mapFind_mapErase_other d m k j h.1 hj
  · exact mapFind_mapInsert_other d m k j v hj

end Sys2Proof.Machine
end

