-- ==== Sys2Proof/Laws/Keeps.lean ====
section
/-! SUPPORT. What every operation of the block keeps: one relation between the state before and after, that holds of
itself and composes, with its lemmas for the named operations of Ops. -/

set_option Elab.async false

namespace Sys2Proof.Laws

open Sys2Proof.Machine Sys2Proof.Safety

/-- What every operation keeps of the secure state: a burned fuse stays, a level of 0 under it stays, nonces and the
anti-rollback floor only rise (16 R446, R452, R453). -/
structure SecureKeeps (a b : Secure) : Prop where
  disabled : a.disabled = true → b.disabled = true
  fuse : (a.disabled = true → a.level = 0) → b.disabled = true → b.level = 0
  nonce : a.nonce ≤ b.nonce
  floor : a.antiRollback ≤ b.antiRollback

/-- What every operation keeps: the queue of commands, time and free values that only go on, what was sent, the grade,
the secure state and the canonical form. -/
structure Keeps (s t : State) : Prop where
  pending : t.pending = s.pending
  now : s.now ≤ t.now
  fresh : s.fresh ≤ t.fresh
  sent : s.sent <:+ t.sent
  grade : t.nvm.grade = s.nvm.grade
  secure : SecureKeeps s.secure t.secure
  canonical : Canonical s → Canonical t

theorem SecureKeeps.refl (a : Secure) : SecureKeeps a a := ⟨id, id, le_rfl, le_rfl⟩

theorem SecureKeeps.trans {a b c : Secure} (h : SecureKeeps a b) (k : SecureKeeps b c) : SecureKeeps a c :=
  ⟨k.disabled ∘ h.disabled, k.fuse ∘ h.fuse, h.nonce.trans k.nonce, h.floor.trans k.floor⟩

theorem Keeps.refl (s : State) : Keeps s s :=
  ⟨rfl, le_rfl, le_rfl, List.suffix_refl _, rfl, .refl _, id⟩

theorem Keeps.trans {a b c : State} (h : Keeps a b) (k : Keeps b c) : Keeps a c :=
  ⟨k.pending.trans h.pending, h.now.trans k.now, h.fresh.trans k.fresh, h.sent.trans k.sent, k.grade.trans h.grade,
    h.secure.trans k.secure, k.canonical ∘ h.canonical⟩

/-- A change of other fields. -/
theorem Keeps.same {a s t : State} (h : Keeps a s)
    (hp : t.pending = s.pending := by rfl) (hn : t.now = s.now := by rfl) (hf : t.fresh = s.fresh := by rfl)
    (hs : t.sent = s.sent := by rfl) (hg : t.nvm.grade = s.nvm.grade := by rfl) (hx : t.secure = s.secure := by rfl)
    (hm : t.mem = s.mem := by rfl) (hd : t.dict = s.dict := by rfl) (hi : t.inForce = s.inForce := by rfl)
    (hc : t.copies = s.copies := by rfl) (ht : t.tree = s.tree := by rfl) (hga : t.gangs = s.gangs := by rfl)
    (hst : t.steps = s.steps := by rfl) (hpo : t.ponds = s.ponds := by rfl) (hpr : t.programs = s.programs := by rfl)
    (hfu : t.seq.futures = s.seq.futures := by rfl) (hex : t.tiers.extents = s.tiers.extents := by rfl)
    (hob : t.tiers.objects = s.tiers.objects := by rfl) : Keeps a t := by
  refine h.trans ⟨hp, hn.ge, hf.ge, hs ▸ List.suffix_refl _, hg, hx ▸ .refl _, fun k => ?_⟩
  constructor
  · rw [hm]; exact k.mem
  · rw [hd]; exact k.dict
  · rw [hi]; exact k.inForce
  · rw [hc]; exact k.copies
  · rw [ht]; exact k.tree
  · rw [hga]; exact k.gangs
  · rw [hst]; exact k.steps
  · rw [hpo]; exact k.ponds
  · rw [hpr]; exact k.programs
  · rw [hfu]; exact k.futures
  · rw [hex]; exact k.extents
  · rw [hob]; exact k.objects

/-! ## The same for what the operations answer -/

/-- A pair whose second part is a state. -/
def KeepsSnd (a : State) {β : Type} (p : β × State) : Prop := Keeps a p.2

/-- A pair whose first part is a state. -/
def KeepsFst (a : State) {β : Type} (p : State × β) : Prop := Keeps a p.1

/-- A state that may be absent. -/
def KeepsOpt (a : State) (o : Option State) : Prop := ∀ t, o = some t → Keeps a t

/-- The start of a command. -/
def KeepsSt (a : State) (r : Started) : Prop := Keeps a r.state

/-- The outcome of a command. -/
def KeepsOut (a : State) (o : Out) : Prop := ∀ t, o = .next t → Keeps a t

section
variable {a s x y : State} {β : Type} {c : Prop} [Decidable c]

theorem Keeps.ite (h : Keeps a x) (k : Keeps a y) : Keeps a (if c then x else y) := by split <;> assumption
theorem KeepsSnd.ite {x y : β × State} (h : KeepsSnd a x) (k : KeepsSnd a y) : KeepsSnd a (if c then x else y) := by
  split <;> assumption
theorem KeepsFst.ite {x y : State × β} (h : KeepsFst a x) (k : KeepsFst a y) : KeepsFst a (if c then x else y) := by
  split <;> assumption
theorem KeepsOpt.ite {x y : Option State} (h : KeepsOpt a x) (k : KeepsOpt a y) : KeepsOpt a (if c then x else y) := by
  split <;> assumption
theorem KeepsSt.ite {x y : Started} (h : KeepsSt a x) (k : KeepsSt a y) : KeepsSt a (if c then x else y) := by
  split <;> assumption
theorem KeepsOut.ite {x y : Out} (h : KeepsOut a x) (k : KeepsOut a y) : KeepsOut a (if c then x else y) := by
  split <;> assumption

theorem KeepsSnd.mk {b : β} (h : Keeps a s) : KeepsSnd a (b, s) := h
theorem KeepsFst.mk {b : β} (h : Keeps a s) : KeepsFst a (s, b) := h
theorem KeepsSnd.of_eq {p : β × State} {b : β} (e : p = (b, s)) (h : KeepsSnd a p) : Keeps a s := by
  rw [e] at h
  exact h
theorem KeepsFst.of_eq {p : State × β} {b : β} (e : p = (s, b)) (h : KeepsFst a p) : Keeps a s := by
  rw [e] at h
  exact h
theorem KeepsOpt.of_eq {o : Option State} (e : o = some s) (h : KeepsOpt a o) : Keeps a s := h s e
theorem KeepsOpt.none : KeepsOpt a Option.none := fun _ e => Option.noConfusion rfl (heq_of_eq e)
theorem KeepsOpt.some (h : Keeps a s) : KeepsOpt a (Option.some s) := fun _ e => Option.some.inj e ▸ h
theorem KeepsOut.next (h : Keeps a s) : KeepsOut a (.next s) := fun _ e => by injection e with e; exact e ▸ h
theorem KeepsOut.of_eq {o : Out} (e : o = .next s) (h : KeepsOut a o) : Keeps a s := h s e
theorem KeepsOut.fault {f : Fault} : KeepsOut a (.fault f) := fun _ e => Host.Outcome.noConfusion rfl rfl rfl (heq_of_eq e)
theorem KeepsOut.refused {r : Refusal} : KeepsOut a (.refused r) := fun _ e => Host.Outcome.noConfusion rfl rfl rfl (heq_of_eq e)
end

theorem foldl_keeps {β γ : Type} {P : β → Prop} {f : β → γ → β} {init : β} {l : List γ}
    (hf : ∀ b x, P b → P (f b x)) (h : P init) : P (l.foldl f init) := by
  induction l generalizing init with
  | nil => exact h
  | cons x xs ih => exact ih (hf _ x h)

theorem forEach_keeps {β γ : Type} {P : β → Prop} {f : γ → β → β} {l : List γ} {b : β}
    (hf : ∀ x b, P b → P (f x b)) (h : P b) : P (forEach l f b) := foldl_keeps (fun b x => hf x b) h

theorem forUpTo_keeps {β : Type} {P : β → Prop} {n : Nat} {f : Nat → β → β} {b : β}
    (hf : ∀ x b, P b → P (f x b)) (h : P b) : P (forUpTo n f b) := forEach_keeps hf h

/-! ## Changes of the tables that the canonical form speaks of -/

section
variable {a s : State}

/-- A change of nothing but tables, which stay canonical. -/
theorem Keeps.tables {t : State} (h : Keeps a s) (k : Canonical s → Canonical t)
    (hp : t.pending = s.pending := by rfl) (hn : t.now = s.now := by rfl) (hf : t.fresh = s.fresh := by rfl)
    (hs : t.sent = s.sent := by rfl) (hg : t.nvm.grade = s.nvm.grade := by rfl)
    (hx : t.secure = s.secure := by rfl) : Keeps a t :=
  h.trans ⟨hp, hn.ge, hf.ge, hs ▸ List.suffix_refl _, hg, hx ▸ .refl _, k⟩

theorem setObj_keeps {k v : Nat} (h : Keeps a s) : Keeps a (setObj s k v) :=
  h.tables fun c => { c with dict := mapPut_sorted _ _ _ _ c.dict }

theorem setPond_keeps {ph : Nat} {pd : Pond} (h : Keeps a s) : Keeps a (setPond s ph pd) :=
  h.tables fun c => { c with ponds := mapPut_sorted _ _ _ _ c.ponds }

theorem setDir_keeps {n : Nat} {r : DirRecord} (h : Keeps a s) : Keeps a (setDir s n r) :=
  h.tables fun c => { c with programs := mapPut_sorted _ _ _ _ c.programs }

theorem setFuture_keeps {f : Nat} {e : Future} (h : Keeps a s) : Keeps a (setFuture s f e) :=
  h.tables fun c => { c with futures := mapPut_sorted _ _ _ _ c.futures }

theorem setGang_keeps {g : Nat} {v : Gang} (h : Keeps a s) : Keeps a (setGang s g v) :=
  h.tables fun c => { c with gangs := mapPut_sorted _ _ _ _ c.gangs }

theorem setStep_keeps {f : Nat} {r : StepRec} (h : Keeps a s) : Keeps a (setStep s f r) :=
  h.tables fun c => { c with steps := mapPut_sorted _ _ _ _ c.steps }

theorem setExtent_keeps {e : Nat} {x : Extent} (h : Keeps a s) : Keeps a (setExtent s e x) :=
  h.tables fun c => { c with extents := mapPut_sorted _ _ _ _ c.extents }

theorem send_keeps {o : Output} (h : Keeps a s) : Keeps a (send s o) :=
  h.trans ⟨rfl, le_rfl, le_rfl, List.suffix_cons _ _, rfl, .refl _, fun c => { c with }⟩

theorem advanceTo_keeps {t : Nat} (h : Keeps a s) : Keeps a (advanceTo s t) :=
  h.trans ⟨rfl, le_max_left _ _, le_rfl, List.suffix_refl _, rfl, .refl _, fun c => { c with }⟩

theorem fresh_keeps {n : Nat} (hn : s.fresh ≤ n) (h : Keeps a s) : Keeps a { s with fresh := n } :=
  h.trans ⟨rfl, le_rfl, hn, List.suffix_refl _, rfl, .refl _, fun c => { c with }⟩

/-- Free values used, with a change of other fields. -/
theorem Keeps.freshUp {t : State} (h : Keeps a s)
    (hf : s.fresh ≤ t.fresh := by first | exact Nat.le_add_right _ _ | exact (Nat.le_add_right _ _).trans (Nat.le_add_right _ _))
    (hp : t.pending = s.pending := by rfl) (hn : t.now = s.now := by rfl)
    (hs : t.sent = s.sent := by rfl) (hg : t.nvm.grade = s.nvm.grade := by rfl) (hx : t.secure = s.secure := by rfl)
    (hm : t.mem = s.mem := by rfl) (hd : t.dict = s.dict := by rfl) (hi : t.inForce = s.inForce := by rfl)
    (hc : t.copies = s.copies := by rfl) (ht : t.tree = s.tree := by rfl) (hga : t.gangs = s.gangs := by rfl)
    (hst : t.steps = s.steps := by rfl) (hpo : t.ponds = s.ponds := by rfl) (hpr : t.programs = s.programs := by rfl)
    (hse : t.seq = s.seq := by rfl) (hti : t.tiers = s.tiers := by rfl) : Keeps a t := by
  refine (fresh_keeps hf h).same hp hn rfl hs hg hx hm hd hi hc ht hga hst hpo hpr ?_ ?_ ?_
  · rw [hse]
  · rw [hti]
  · rw [hti]

/-- A change of the secure state alone. -/
theorem Keeps.secured {x : Secure} (h : Keeps a s) (k : SecureKeeps s.secure x) : Keeps a { s with secure := x } :=
  h.trans ⟨rfl, le_rfl, le_rfl, List.suffix_refl _, rfl, k, fun c => { c with }⟩

theorem mapGangs_sorted (f : Gang → Gang) (m : NMap Gang) (h : MapSorted m) : MapSorted (mapGangs f m) :=
  MapSorted.filter _ _ (MapSorted.mapValues _ _ (fun _ => rfl) h)

theorem setObject_keeps {i : Nat} {o : Obj} (h : Keeps a s) : Keeps a (setObject s i o) :=
  h.tables fun c => { c with objects := mapPut_sorted _ _ _ _ c.objects }

theorem freeWord_keeps (h : Keeps a s) : KeepsSnd a (freeWord s) := fresh_keeps (Nat.le_succ _) h

end

end Sys2Proof.Laws
end

