-- ==== Sys2Proof/Laws/KeepsState.lean ====
section
/-! SUPPORT. What the operations of objects, ponds, flags, memory and gangs keep. -/

set_option Elab.async false

namespace Sys2Proof.Laws

open Sys2Proof.Machine Sys2Proof.Safety

theorem addObj_keeps {a v0 v1 v2} (g0 : Keeps a v0) :
    Keeps a (Sys2Proof.Machine.addObj v0 v1 v2) := by
  unfold Sys2Proof.Machine.addObj
  exact setObj_keeps (by assumption)

theorem setObjBit_keeps {a v0 v1 v2} (g0 : Keeps a v0) :
    Keeps a (Sys2Proof.Machine.setObjBit v0 v1 v2) := by
  unfold Sys2Proof.Machine.setObjBit
  exact setObj_keeps (by assumption)

theorem setPondState_keeps {a v0 v1 v2} (g0 : Keeps a v0) :
    Keeps a (Sys2Proof.Machine.setPondState v0 v1 v2) := by
  unfold Sys2Proof.Machine.setPondState
  exact Keeps.same (by assumption)

theorem modPond_keeps {a v0 v1 v2} (g0 : Keeps a v0) :
    Keeps a (Sys2Proof.Machine.modPond v0 v1 v2) := by
  unfold Sys2Proof.Machine.modPond
  exact setPond_keeps (by assumption)

theorem modCore_keeps {a v0 v1 v2} (g0 : Keeps a v0) :
    Keeps a (Sys2Proof.Machine.modCore v0 v1 v2) := by
  unfold Sys2Proof.Machine.modCore
  exact modPond_keeps (by assumption)

theorem onPond_keeps {a v0 v1 v2} (h1 : Keeps a v1) (h2 : ∀ {y}, Keeps a (v2 y)) :
    KeepsOut a (onPond v0 v1 v2) := by
  unfold onPond
  exact KeepsOut.ite (KeepsOut.ite (KeepsOut.next h1) (KeepsOut.next h2)) KeepsOut.fault

theorem restage_keeps {a s} (h : Keeps a s) : Keeps a (restage s) :=
  h.tables fun c => { c with dict := foldr_sorted _ _ (fun _ _ k => mapInsert_sorted _ _ _ k) _ c.tree }

theorem basinCommit_keeps {a s} (h : Keeps a s) : Keeps a (basinCommit s) := by
  unfold basinCommit
  refine Keeps.ite ?_ (by assumption)
  extract_lets +onlyGivenNames code t1
  have h1 : Keeps a t1 := setObj_keeps (setObj_keeps h)
  clear_value t1
  exact Keeps.ite (setObj_keeps (h1.tables fun c => { c with tree := MapSorted.filter _ _ c.dict })) h1

theorem signalVector_keeps {a v0 v1} (g1 : Keeps a v1) :
    Keeps a (Sys2Proof.Machine.signalVector v0 v1) := by
  unfold Sys2Proof.Machine.signalVector
  exact (Keeps.ite (send_keeps (by assumption)) (Keeps.same (by assumption)))

theorem releaseVectors_keeps {a v0} (g0 : Keeps a v0) :
    Keeps a (Sys2Proof.Machine.releaseVectors v0) := by
  unfold Sys2Proof.Machine.releaseVectors
  refine Keeps.ite ?_ (by assumption)
  refine forUpTo_keeps (P := Keeps a) ?_ (by assumption)
  intro y0 y1 k2
  exact (Keeps.ite (send_keeps (Keeps.same (by assumption))) (by assumption))

theorem sendCan_keeps {a v0 v1 v2} (g2 : Keeps a v2) :
    Keeps a (Sys2Proof.Machine.sendCan v0 v1 v2) := by
  unfold Sys2Proof.Machine.sendCan
  exact (addObj_keeps (send_keeps (by assumption)))

theorem sendUsdo_keeps {a v0 v1 v2 v3} (g3 : Keeps a v3) :
    Keeps a (Sys2Proof.Machine.sendUsdo v0 v1 v2 v3) := by
  unfold Sys2Proof.Machine.sendUsdo
  exact sendCan_keeps (by assumption)

theorem emcyOn_keeps {a v0 v1 v2} (g2 : Keeps a v2) :
    Keeps a (Sys2Proof.Machine.emcyOn v0 v1 v2) := by
  unfold Sys2Proof.Machine.emcyOn
  extract_lets -underBinder -merge -useContext +onlyGivenNames x0
  refine Keeps.ite (by assumption) ?_
  extract_lets -underBinder -merge -useContext +onlyGivenNames x1
  exact (Keeps.ite (Keeps.ite (by assumption) (Keeps.ite (addObj_keeps (by assumption)) (Keeps.same (by assumption)))) (sendCan_keeps (Keeps.same (by assumption))))

theorem emcyBoth_keeps {a v0 v1} (g1 : Keeps a v1) :
    Keeps a (Sys2Proof.Machine.emcyBoth v0 v1) := by
  unfold Sys2Proof.Machine.emcyBoth
  exact (emcyOn_keeps (emcyOn_keeps (by assumption)))

theorem emcySet_keeps {a v0 v1 v2} (g2 : Keeps a v2) :
    Keeps a (Sys2Proof.Machine.emcySet v0 v1 v2) := by
  unfold Sys2Proof.Machine.emcySet
  exact (Keeps.ite (emcyBoth_keeps (by assumption)) (by assumption))

theorem emcyAllClear_keeps {a v0} (g0 : Keeps a v0) :
    Keeps a (Sys2Proof.Machine.emcyAllClear v0) := by
  unfold Sys2Proof.Machine.emcyAllClear
  exact emcyBoth_keeps (by assumption)

theorem markPond_keeps {a v0 v1 v2} (g2 : Keeps a v2) :
    Keeps a (Sys2Proof.Machine.markPond v0 v1 v2) := by
  unfold Sys2Proof.Machine.markPond
  extract_lets -underBinder -merge -useContext +onlyGivenNames x0
  have h1 : Keeps a x0 := (setObjBit_keeps (by assumption))
  clear_value x0
  split
  · assumption
  · exact Keeps.same (by assumption)

theorem markOrigin_keeps {a v0 v1 v2} (g2 : Keeps a v2) :
    Keeps a (Sys2Proof.Machine.markOrigin v0 v1 v2) := by
  unfold Sys2Proof.Machine.markOrigin
  split
  · exact (setObj_keeps (markPond_keeps (by assumption)))
  · extract_lets -underBinder -merge -useContext +onlyGivenNames x0
    exact Keeps.same (by assumption)
  · assumption

theorem startTimer_keeps {a v0 v1} (g1 : Keeps a v1) :
    Keeps a (Sys2Proof.Machine.startTimer v0 v1) := by
  unfold Sys2Proof.Machine.startTimer
  exact (Keeps.ite (by assumption) (Keeps.same (by assumption)))

theorem stopTimer_keeps {a v0 v1} (g1 : Keeps a v1) :
    Keeps a (Sys2Proof.Machine.stopTimer v0 v1) := by
  unfold Sys2Proof.Machine.stopTimer
  exact Keeps.same (by assumption)

theorem driveErrN_keeps {a v0 v1} (g1 : Keeps a v1) :
    Keeps a (Sys2Proof.Machine.driveErrN v0 v1) := by
  unfold Sys2Proof.Machine.driveErrN
  extract_lets -underBinder -merge -useContext +onlyGivenNames x0 x1
  have h1 : Keeps a x1 := Keeps.same (by assumption)
  clear_value x1
  exact Keeps.ite (by assumption) (setObj_keeps (by assumption))

theorem raise0_keeps {a v0 v1 v2} (g2 : Keeps a v2) :
    Keeps a (Sys2Proof.Machine.raise0 v0 v1 v2) := by
  unfold Sys2Proof.Machine.raise0
  refine Keeps.ite (by assumption) ?_
  extract_lets -underBinder -merge -useContext +onlyGivenNames x0
  have h1 : Keeps a x0 := (setObj_keeps (addObj_keeps (markOrigin_keeps (by assumption))))
  clear_value x0
  refine Keeps.ite (by assumption) ?_
  extract_lets -underBinder -merge -useContext +onlyGivenNames x2
  have h3 : Keeps a x2 := (setObj_keeps (setObj_keeps (setObj_keeps (by assumption))))
  clear_value x2
  extract_lets -underBinder -merge -useContext +onlyGivenNames x4
  extract_lets -underBinder -merge -useContext +onlyGivenNames x5
  have h6 : Keeps a x5 := (Keeps.same (by assumption))
  clear_value x5
  extract_lets -underBinder -merge -useContext +onlyGivenNames x7
  have h8 : Keeps a x7 := (Keeps.ite (signalVector_keeps (by assumption)) (by assumption))
  clear_value x7
  exact (emcySet_keeps (startTimer_keeps (by assumption)))

theorem endCause_keeps {a v0 v1} (g1 : Keeps a v1) :
    Keeps a (Sys2Proof.Machine.endCause v0 v1) := by
  unfold Sys2Proof.Machine.endCause
  exact setObj_keeps (by assumption)

theorem writeByte_keeps {a s u b} (h : Keeps a s) : Keeps a (writeByte s u b) := by
  unfold writeByte
  refine Keeps.ite (setDir_keeps h) ?_
  exact h.tables fun c => { c with mem := mapPut_wf _ _ _ _ c.mem }

theorem writeBytes_keeps {a s u bs} (h : Keeps a s) : Keeps a (writeBytes s u bs) := by
  induction bs generalizing s u with
  | nil => exact h
  | cons b bs ih => exact ih (writeByte_keeps h)

theorem writeLe_keeps {a v0 v1 v2 v3} (g0 : Keeps a v0) :
    Keeps a (Sys2Proof.Machine.writeLe v0 v1 v2 v3) := by
  unfold Sys2Proof.Machine.writeLe
  exact writeBytes_keeps (by assumption)

theorem mirrorInto_keeps {a uda n m s} (h : Keeps a s) : Keeps a (mirrorInto uda n m s) := by
  unfold mirrorInto
  exact addObj_keeps (fresh_keeps (Nat.le_succ _) h).same

theorem mirrorWrite_keeps {a v0 v1 v2} (g2 : Keeps a v2) :
    Keeps a (Sys2Proof.Machine.mirrorWrite v0 v1 v2) := by
  unfold Sys2Proof.Machine.mirrorWrite
  refine forEach_keeps (P := Keeps a) ?_ (by assumption)
  intro y0 y1 k2
  exact mirrorInto_keeps (by assumption)

theorem deviceWrite_keeps {a v0 v1 v2} (g0 : Keeps a v0) :
    Keeps a (Sys2Proof.Machine.deviceWrite v0 v1 v2) := by
  unfold Sys2Proof.Machine.deviceWrite
  exact (Keeps.ite (by assumption) (Keeps.ite (writeBytes_keeps (mirrorWrite_keeps (by assumption))) (by assumption)))

theorem setMember_keeps {a v0 v1 v2 v3} (g0 : Keeps a v0) :
    Keeps a (Sys2Proof.Machine.setMember v0 v1 v2 v3) := by
  unfold Sys2Proof.Machine.setMember
  exact Keeps.same (by assumption)

theorem countWait_keeps {a v0 v1} (g1 : Keeps a v1) :
    Keeps a (Sys2Proof.Machine.countWait v0 v1) := by
  unfold Sys2Proof.Machine.countWait
  split
  · exact (Keeps.ite (addObj_keeps (by assumption)) (Keeps.ite (addObj_keeps (by assumption)) (Keeps.ite (addObj_keeps (by assumption)) (Keeps.ite (addObj_keeps (by assumption)) (Keeps.ite (addObj_keeps (by assumption)) (addObj_keeps (addObj_keeps (by assumption))))))))
  · assumption

theorem renewWait_keeps {a v0 v1 v2} (g2 : Keeps a v2) :
    KeepsSnd a (Sys2Proof.Machine.renewWait v0 v1 v2) := by
  unfold Sys2Proof.Machine.renewWait
  split
  · exact (KeepsSnd.ite (KeepsSnd.mk (by assumption)) (KeepsSnd.mk (countWait_keeps (by assumption))))
  · exact (KeepsSnd.mk (countWait_keeps (by assumption)))
  · exact KeepsSnd.mk (by assumption)

theorem closeContexts_keeps {a v0 v1} (g1 : Keeps a v1) :
    Keeps a (Sys2Proof.Machine.closeContexts v0 v1) := by
  unfold Sys2Proof.Machine.closeContexts
  exact Keeps.same (by assumption)

theorem unmappedAccess_keeps {a v0} (g0 : Keeps a v0) :
    Keeps a (Sys2Proof.Machine.unmappedAccess v0) := by
  unfold Sys2Proof.Machine.unmappedAccess
  exact addObj_keeps (by assumption)

theorem agentWrite_keeps {a v0 v1 v2} (g0 : Keeps a v0) :
    Keeps a (Sys2Proof.Machine.agentWrite v0 v1 v2) := by
  unfold Sys2Proof.Machine.agentWrite
  extract_lets -underBinder -merge -useContext +onlyGivenNames x0
  extract_lets -underBinder -merge -useContext +onlyGivenNames x1
  have h5 : Keeps a x1 := by
    unfold x1
    refine foldl_keeps (P := Keeps a) ?_ (mirrorWrite_keeps (by assumption))
    intro y2 y3 k4
    exact addObj_keeps (by assumption)
  clear_value x1
  refine foldl_keeps (P := Keeps a) ?_ (by assumption)
  intro y6 y7 k8
  exact (Keeps.ite (by assumption) (writeByte_keeps (by assumption)))

theorem countBytes_keeps {a v0 v1 v2} (g2 : Keeps a v2) :
    Keeps a (Sys2Proof.Machine.countBytes v0 v1 v2) := by
  unfold Sys2Proof.Machine.countBytes
  refine forEach_keeps (P := Keeps a) ?_ (by assumption)
  intro y0 y1 k2
  refine forEach_keeps (P := Keeps a) ?_ (by assumption)
  intro y3 y4 k5
  extract_lets -underBinder -merge -useContext +onlyGivenNames x6
  exact (Keeps.ite (addObj_keeps (by assumption)) (by assumption))

theorem snoopLine_keeps {a v0 v1} (g1 : Keeps a v1) :
    Keeps a (Sys2Proof.Machine.snoopLine v0 v1) := by
  unfold Sys2Proof.Machine.snoopLine
  exact (addObj_keeps (send_keeps (by assumption)))

theorem exemptWait_keeps {a v0 v1} (g1 : Keeps a v1) :
    Keeps a (Sys2Proof.Machine.exemptWait v0 v1) := by
  unfold Sys2Proof.Machine.exemptWait
  split
  · assumption
  · exact modPond_keeps (by assumption)

theorem exemptHalt_keeps {a v0 v1 v2} (g2 : Keeps a v2) :
    Keeps a (Sys2Proof.Machine.exemptHalt v0 v1 v2) := by
  unfold Sys2Proof.Machine.exemptHalt
  exact modPond_keeps (by assumption)

theorem countPark_keeps {a v0 v1} (g1 : Keeps a v1) :
    Keeps a (Sys2Proof.Machine.countPark v0 v1) := by
  unfold Sys2Proof.Machine.countPark
  exact (Keeps.ite (addObj_keeps (by assumption)) (Keeps.ite (Keeps.ite (addObj_keeps (by assumption)) (by assumption)) (countWait_keeps (Keeps.ite (exemptWait_keeps (by assumption)) (by assumption)))))

theorem landWrite_keeps {a v0 v1 v2 v3} (g3 : Keeps a v3) :
    Keeps a (Sys2Proof.Machine.landWrite v0 v1 v2 v3) := by
  unfold Sys2Proof.Machine.landWrite
  exact agentWrite_keeps (by assumption)

theorem parkWrite_keeps {a v0 v1 v2 v3 v4} (g4 : Keeps a v4) :
    Keeps a (Sys2Proof.Machine.parkWrite v0 v1 v2 v3 v4) := by
  unfold Sys2Proof.Machine.parkWrite
  exact Keeps.same (by assumption)

theorem deviceAgentStore_keeps {a v0 v1 v2 v3} (g1 : Keeps a v1) :
    Keeps a (Sys2Proof.Machine.deviceAgentStore v0 v1 v2 v3) := by
  unfold Sys2Proof.Machine.deviceAgentStore
  extract_lets -underBinder -merge -useContext +onlyGivenNames x0
  extract_lets -underBinder -merge -useContext +onlyGivenNames x1
  extract_lets -underBinder -merge -useContext +onlyGivenNames x2
  extract_lets -underBinder -merge -useContext +onlyGivenNames x3
  have h7 : Keeps a x3 := by
    unfold x3
    refine forEach_keeps (P := Keeps a) ?_ (by assumption)
    intro y4 y5 k6
    exact snoopLine_keeps (by assumption)
  clear_value x3
  extract_lets -underBinder -merge -useContext +onlyGivenNames x8
  extract_lets -underBinder -merge -useContext +onlyGivenNames x9
  have h10 : Keeps a x9 := (Keeps.same (by assumption))
  clear_value x9
  split
  · exact landWrite_keeps (by assumption)
  · exact parkWrite_keeps (by assumption)

theorem deviceAgentWrite_keeps {a v0 v1 v2} (g0 : Keeps a v0) :
    Keeps a (Sys2Proof.Machine.deviceAgentWrite v0 v1 v2) := by
  unfold Sys2Proof.Machine.deviceAgentWrite
  exact deviceAgentStore_keeps (by assumption)

theorem flushOne_keeps {a v0 v1} (g1 : KeepsFst a v1) :
    KeepsFst a (Sys2Proof.Machine.flushOne v0 v1) := by
  unfold Sys2Proof.Machine.flushOne
  split
  · exact (KeepsFst.mk (landWrite_keeps (countPark_keeps (by assumption))))
  · refine KeepsFst.ite (KeepsFst.mk (by assumption)) ?_
    extract_lets -underBinder -merge -useContext +onlyGivenNames x0
    have h1 : Keeps a x0 := (countPark_keeps (by assumption))
    clear_value x0
    exact KeepsFst.mk (by assumption)

theorem flushWrites_keeps {a v0} (g0 : Keeps a v0) :
    Keeps a (Sys2Proof.Machine.flushWrites v0) := by
  unfold Sys2Proof.Machine.flushWrites
  extract_lets -underBinder -merge -useContext +onlyGivenNames x0
  extract_lets -underBinder -merge -useContext +onlyGivenNames x1
  have h5 : KeepsFst a x1 := by
    unfold x1
    refine forEach_keeps (P := KeepsFst a) ?_ (KeepsFst.mk (Keeps.same (by assumption)))
    intro y2 y3 k4
    exact flushOne_keeps (by assumption)
  clear_value x1
  extract_lets -underBinder -merge -useContext +onlyGivenNames x6
  have h7 : Keeps a x6 := (by assumption)
  clear_value x6
  exact Keeps.same (by assumption)

theorem externalWrite_keeps {a v0 v1 v2} (g0 : Keeps a v0) :
    Keeps a (Sys2Proof.Machine.externalWrite v0 v1 v2) := by
  unfold Sys2Proof.Machine.externalWrite
  refine Keeps.ite (unmappedAccess_keeps (by assumption)) ?_
  refine Keeps.ite (addObj_keeps (by assumption)) ?_
  refine Keeps.ite (addObj_keeps (by assumption)) ?_
  refine Keeps.ite ?_ ?_
  · refine foldl_keeps (P := Keeps a) ?_ (by assumption)
    intro y0 y1 k2
    exact (Keeps.ite (by assumption) (agentWrite_keeps (by assumption)))
  · refine Keeps.ite (parkWrite_keeps (by assumption)) ?_
    split
    · exact parkWrite_keeps (by assumption)
    · exact agentWrite_keeps (by assumption)

theorem markFrame_keeps {a v0 v1 v2 v3} (g0 : Keeps a v0) :
    Keeps a (Sys2Proof.Machine.markFrame v0 v1 v2 v3) := by
  unfold Sys2Proof.Machine.markFrame
  exact Keeps.same (by assumption)

theorem takeFrame_keeps {a v0 v1 v2} (g0 : Keeps a v0) :
    Keeps a (Sys2Proof.Machine.takeFrame v0 v1 v2) := by
  unfold Sys2Proof.Machine.takeFrame
  extract_lets -underBinder -merge -useContext +onlyGivenNames x0
  have h1 : Keeps a x0 := (markFrame_keeps (by assumption))
  clear_value x0
  exact (Keeps.ite (by assumption) (Keeps.same (by assumption)))

theorem zeroFrame_keeps {a s t f} (h : Keeps a s) : Keeps a (zeroFrame s t f) :=
  h.tables fun c => { c with mem := mapEraseRange_wf _ _ _ _ c.mem }

theorem copyFrame_keeps {a s t f t' f'} (h : Keeps a s) : Keeps a (copyFrame s t f t' f') :=
  h.tables fun c =>
    { c with
      mem := foldl_keeps (P := fun m => memWf m = true) (fun _ _ k => mapPut_wf _ _ _ _ k)
        (mapEraseRange_wf _ _ _ _ c.mem) }

theorem trace_keeps {a v0 v1 v2 v3 v4 v5 v6} (g6 : Keeps a v6) :
    Keeps a (Sys2Proof.Machine.trace v0 v1 v2 v3 v4 v5 v6) := by
  unfold Sys2Proof.Machine.trace
  split
  · assumption
  · extract_lets -underBinder -merge -useContext +onlyGivenNames x0
    refine Keeps.ite (addObj_keeps (by assumption)) ?_
    refine Keeps.ite (addObj_keeps (by assumption)) ?_
    extract_lets -underBinder -merge -useContext +onlyGivenNames x1
    extract_lets -underBinder -merge -useContext +onlyGivenNames x2
    extract_lets -underBinder -merge -useContext +onlyGivenNames x3
    have h4 : Keeps a x3 := (deviceWrite_keeps (by assumption))
    clear_value x3
    extract_lets -underBinder -merge -useContext +onlyGivenNames x5
    have h6 : Keeps a x5 := (setObj_keeps (by assumption))
    clear_value x5
    exact modPond_keeps (by assumption)

theorem traceFault_keeps {a v0 v1 v2 v3 v4 v5} (g5 : Keeps a v5) :
    Keeps a (Sys2Proof.Machine.traceFault v0 v1 v2 v3 v4 v5) := by
  unfold Sys2Proof.Machine.traceFault
  exact trace_keeps (by assumption)

theorem traceInfo_keeps {a v0 v1 v2 v3 v4 v5 v6 v7} (g7 : Keeps a v7) :
    Keeps a (Sys2Proof.Machine.traceInfo v0 v1 v2 v3 v4 v5 v6 v7) := by
  unfold Sys2Proof.Machine.traceInfo
  extract_lets -underBinder -merge -useContext +onlyGivenNames x0
  exact (Keeps.ite (by assumption) (Keeps.ite (by assumption) (trace_keeps (by assumption))))

theorem countStalled_keeps {a v0 v1} (g1 : Keeps a v1) :
    Keeps a (Sys2Proof.Machine.countStalled v0 v1) := by
  unfold Sys2Proof.Machine.countStalled
  split
  · exact addObj_keeps (by assumption)
  · assumption

theorem countStall_keeps {a v0 v1 v2 v3 v4} (g4 : Keeps a v4) :
    Keeps a (Sys2Proof.Machine.countStall v0 v1 v2 v3 v4) := by
  unfold Sys2Proof.Machine.countStall
  refine Keeps.ite (by assumption) ?_
  extract_lets -underBinder -merge -useContext +onlyGivenNames x0
  exact (addObj_keeps (addObj_keeps (by assumption)))

theorem countStalls_keeps {a v0 v1} (g1 : Keeps a v1) :
    Keeps a (Sys2Proof.Machine.countStalls v0 v1) := by
  unfold Sys2Proof.Machine.countStalls
  split
  · assumption
  · refine forEach_keeps (P := Keeps a) ?_ (by assumption)
    intro y0 y1 k2
    exact countStall_keeps (by assumption)

theorem countBusyClk_keeps {a v0 v1} (g1 : Keeps a v1) :
    Keeps a (Sys2Proof.Machine.countBusyClk v0 v1) := by
  unfold Sys2Proof.Machine.countBusyClk
  refine forEach_keeps (P := Keeps a) ?_ (by assumption)
  intro y0 y1 k2
  split
  · exact (Keeps.ite (by assumption) (addObj_keeps (by assumption)))
  · assumption

theorem countWaits_keeps {a v0 v1} (g1 : Keeps a v1) :
    Keeps a (Sys2Proof.Machine.countWaits v0 v1) := by
  unfold Sys2Proof.Machine.countWaits
  refine forEach_keeps (P := Keeps a) ?_ (countWait_keeps (by assumption))
  intro y0 y1 k2
  exact countWait_keeps (by assumption)

theorem settlePond_keeps {a v0 v1} (g1 : Keeps a v1) :
    Keeps a (Sys2Proof.Machine.settlePond v0 v1) := by
  unfold Sys2Proof.Machine.settlePond
  extract_lets -underBinder -merge -useContext +onlyGivenNames x0
  have h1 : Keeps a x0 := (countWaits_keeps (countBusyClk_keeps (countStalls_keeps (countStalled_keeps (by assumption)))))
  clear_value x0
  exact modPond_keeps (by assumption)

theorem traceDiscards_keeps {a v0 v1 v2 v3} (g3 : Keeps a v3) :
    Keeps a (Sys2Proof.Machine.traceDiscards v0 v1 v2 v3) := by
  unfold Sys2Proof.Machine.traceDiscards
  refine forEach_keeps (P := Keeps a) ?_ (by assumption)
  intro y0 y1 k2
  exact traceFault_keeps (by assumption)

theorem startExit_keeps {a v0 v1 v2 v3} (g3 : Keeps a v3) :
    Keeps a (Sys2Proof.Machine.startExit v0 v1 v2 v3) := by
  unfold Sys2Proof.Machine.startExit
  split
  · assumption
  · refine Keeps.ite (by assumption) ?_
    extract_lets -underBinder -merge -useContext +onlyGivenNames x0
    extract_lets -underBinder -merge -useContext +onlyGivenNames x1
    have h2 : Keeps a x1 := (traceDiscards_keeps (addObj_keeps (settlePond_keeps (by assumption))))
    clear_value x1
    extract_lets -underBinder -merge -useContext +onlyGivenNames x3
    have h4 : Keeps a x3 := (Keeps.ite (addObj_keeps (by assumption)) (by assumption))
    clear_value x3
    exact modPond_keeps (by assumption)

theorem giveAborted_keeps {a v0 v1 v2 v3} (g0 : ∀ {y0 y1 y2}, Keeps a y2 → Keeps a (v0 y0 y1 y2)) (g3 : Keeps a v3) :
    Keeps a (Sys2Proof.Machine.giveAborted v0 v1 v2 v3) := by
  unfold Sys2Proof.Machine.giveAborted
  extract_lets -underBinder -merge -useContext +onlyGivenNames x0
  exact (Keeps.ite (by assumption) (g0 (addObj_keeps (setStep_keeps (by assumption)))))

theorem giveAbortedAll_keeps {a v0 v1 v2 v3} (g0 : ∀ {y0 y1 y2}, Keeps a y2 → Keeps a (v0 y0 y1 y2)) (g3 : Keeps a v3) :
    Keeps a (Sys2Proof.Machine.giveAbortedAll v0 v1 v2 v3) := by
  unfold Sys2Proof.Machine.giveAbortedAll
  refine forEach_keeps (P := Keeps a) ?_ (by assumption)
  intro y0 y1 k2
  refine giveAborted_keeps ?_ (by assumption)
  intro y3 y4 y5 k6
  exact g0 (by assumption)

theorem stopGang_keeps {a v0 v1 v2} (g0 : ∀ {y0 y1 y2}, Keeps a y2 → Keeps a (v0 y0 y1 y2)) (g2 : Keeps a v2) :
    Keeps a (Sys2Proof.Machine.stopGang v0 v1 v2) := by
  unfold Sys2Proof.Machine.stopGang
  extract_lets -underBinder -merge -useContext +onlyGivenNames x0
  extract_lets -underBinder -merge -useContext +onlyGivenNames x1
  extract_lets -underBinder -merge -useContext +onlyGivenNames x2
  have h3 : Keeps a x2 := (setGang_keeps (by assumption))
  clear_value x2
  extract_lets -underBinder -merge -useContext +onlyGivenNames x4
  have h8 : Keeps a x4 := by
    unfold x4
    refine forEach_keeps (P := Keeps a) ?_ (by assumption)
    intro y5 y6 k7
    exact startExit_keeps (by assumption)
  clear_value x4
  refine giveAbortedAll_keeps ?_ (by assumption)
  intro y9 y10 y11 k12
  exact g0 (by assumption)

theorem abortGang_keeps {a v0 v1 v2} (g0 : ∀ {y0 y1 y2}, Keeps a y2 → Keeps a (v0 y0 y1 y2)) (g2 : Keeps a v2) :
    Keeps a (Sys2Proof.Machine.abortGang v0 v1 v2) := by
  unfold Sys2Proof.Machine.abortGang
  extract_lets -underBinder -merge -useContext +onlyGivenNames x0
  have h5 : Keeps a x0 := by
    unfold x0
    refine stopGang_keeps ?_ (by assumption)
    intro y1 y2 y3 k4
    exact g0 (by assumption)
  clear_value x0
  extract_lets -underBinder -merge -useContext +onlyGivenNames x6
  extract_lets -underBinder -merge -useContext +onlyGivenNames x7
  refine giveAbortedAll_keeps ?_ (setGang_keeps (by assumption))
  intro y8 y9 y10 k11
  exact g0 (by assumption)

theorem setTaskField_keeps {a v0 v1 v2 v3 v4} (g0 : Keeps a v0) :
    Keeps a (Sys2Proof.Machine.setTaskField v0 v1 v2 v3 v4) := by
  unfold Sys2Proof.Machine.setTaskField
  exact deviceWrite_keeps (by assumption)

theorem setTaskState_keeps {a v0 v1 v2} (g0 : Keeps a v0) :
    Keeps a (Sys2Proof.Machine.setTaskState v0 v1 v2) := by
  unfold Sys2Proof.Machine.setTaskState
  exact setTaskField_keeps (by assumption)

theorem setRun_keeps {a v0 v1 v2} (g0 : Keeps a v0) :
    Keeps a (Sys2Proof.Machine.setRun v0 v1 v2) := by
  unfold Sys2Proof.Machine.setRun
  exact Keeps.same (by assumption)

theorem holdTask_keeps {a v0 v1} (g1 : Keeps a v1) :
    Keeps a (Sys2Proof.Machine.holdTask v0 v1) := by
  unfold Sys2Proof.Machine.holdTask
  exact (addObj_keeps (setTaskState_keeps (by assumption)))

theorem unhalt_keeps {a v0 v1} (g1 : Keeps a v1) :
    Keeps a (Sys2Proof.Machine.unhalt v0 v1) := by
  unfold Sys2Proof.Machine.unhalt
  extract_lets -underBinder -merge -useContext +onlyGivenNames x0
  refine Keeps.ite (by assumption) ?_
  refine modPond_keeps (forEach_keeps (P := Keeps a) ?_ (by assumption))
  intro y0 y1 k2
  exact exemptHalt_keeps (by assumption)

theorem holdBound_keeps {a v0 v1} (g1 : Keeps a v1) :
    Keeps a (Sys2Proof.Machine.holdBound v0 v1) := by
  unfold Sys2Proof.Machine.holdBound
  refine Keeps.ite ?_ (by assumption)
  refine forEach_keeps (P := Keeps a) ?_ (by assumption)
  intro y0 y1 k2
  exact holdTask_keeps (by assumption)

theorem chargeTask_keeps {a v0 v1 v2} (g2 : Keeps a v2) :
    Keeps a (Sys2Proof.Machine.chargeTask v0 v1 v2) := by
  unfold Sys2Proof.Machine.chargeTask
  split
  · assumption
  · extract_lets -underBinder -merge -useContext +onlyGivenNames x0
    extract_lets -underBinder -merge -useContext +onlyGivenNames x1
    extract_lets -underBinder -merge -useContext +onlyGivenNames x2
    extract_lets -underBinder -merge -useContext +onlyGivenNames x3
    extract_lets -underBinder -merge -useContext +onlyGivenNames x4
    have h5 : Keeps a x4 := (setTaskField_keeps (by assumption))
    clear_value x4
    extract_lets -underBinder -merge -useContext +onlyGivenNames x6
    have h7 : Keeps a x6 := (setTaskField_keeps (by assumption))
    clear_value x6
    extract_lets -underBinder -merge -useContext +onlyGivenNames x8
    have h9 : Keeps a x8 := (addObj_keeps (by assumption))
    clear_value x8
    exact setRun_keeps (by assumption)

theorem taskLost_keeps {a v0 v1} (g1 : Keeps a v1) :
    Keeps a (Sys2Proof.Machine.taskLost v0 v1) := by
  unfold Sys2Proof.Machine.taskLost
  extract_lets -underBinder -merge -useContext +onlyGivenNames x0
  have h1 : Keeps a x0 := (chargeTask_keeps (by assumption))
  clear_value x0
  split
  · assumption
  · extract_lets -underBinder -merge -useContext +onlyGivenNames x2
    have h3 : Keeps a x2 := (holdTask_keeps (setRun_keeps (by assumption)))
    clear_value x2
    exact (Keeps.ite (by assumption) (addObj_keeps (setTaskField_keeps (by assumption))))

end Sys2Proof.Laws
end

