-- ==== Sys2Proof/Laws/KeepsFaults.lean ====
section
/-! SUPPORT. What the operations of fault sources, repair and resets keep. -/

set_option Elab.async false

namespace Sys2Proof.Laws

open Sys2Proof.Machine Sys2Proof.Safety

theorem raiseLevel_keeps {a v0 v1 v2 v3} (g0 : ∀ {y0 y1 y2}, Keeps a y2 → Keeps a (v0 y0 y1 y2)) (g3 : Keeps a v3) :
    Keeps a (Sys2Proof.Machine.raiseLevel v0 v1 v2 v3) := by
  unfold Sys2Proof.Machine.raiseLevel
  exact (Keeps.ite (by assumption) (g0 (setObj_keeps (by assumption))))

theorem checkSpares_keeps {a v0 v1} (g0 : ∀ {y0 y1 y2}, Keeps a y2 → Keeps a (v0 y0 y1 y2)) (g1 : Keeps a v1) :
    Keeps a (Sys2Proof.Machine.checkSpares v0 v1) := by
  unfold Sys2Proof.Machine.checkSpares
  refine Keeps.ite ?_ (by assumption)
  refine raiseLevel_keeps ?_ (by assumption)
  intro y0 y1 y2 k3
  exact g0 (by assumption)

theorem retirePond_keeps {a v0 v1} (g1 : Keeps a v1) :
    Keeps a (Sys2Proof.Machine.retirePond v0 v1) := by
  unfold Sys2Proof.Machine.retirePond
  exact (setObj_keeps (setPondState_keeps (by assumption)))

theorem makeAbsent_keeps {a v0 v1} (g1 : Keeps a v1) :
    Keeps a (Sys2Proof.Machine.makeAbsent v0 v1) := by
  unfold Sys2Proof.Machine.makeAbsent
  exact Keeps.same (by assumption)

theorem startReplacement_keeps {a v0 v1 v2 v3} (g0 : ∀ {y0 y1 y2}, Keeps a y2 → Keeps a (v0 y0 y1 y2)) (g3 : Keeps a v3) :
    Keeps a (Sys2Proof.Machine.startReplacement v0 v1 v2 v3) := by
  unfold Sys2Proof.Machine.startReplacement
  split
  · extract_lets -underBinder -merge -useContext +onlyGivenNames x0
    have h1 : Keeps a x0 := (setPondState_keeps (by assumption))
    clear_value x0
    refine checkSpares_keeps ?_ (Keeps.same (by assumption))
    intro y2 y3 y4 k5
    exact g0 (by assumption)
  · refine checkSpares_keeps ?_ (Keeps.same (by assumption))
    intro y6 y7 y8 k9
    exact g0 (by assumption)

theorem loseWork_keeps {a v0 v1 v2} (g0 : ∀ {y0 y1 y2}, Keeps a y2 → Keeps a (v0 y0 y1 y2)) (g2 : Keeps a v2) :
    Keeps a (Sys2Proof.Machine.loseWork v0 v1 v2) := by
  unfold Sys2Proof.Machine.loseWork
  extract_lets -underBinder -merge -useContext +onlyGivenNames x0
  refine holdBound_keeps ?_
  refine taskLost_keeps ?_
  refine abortGang_keeps ?_ (unhalt_keeps (by assumption))
  intro y1 y2 y3 k4
  exact g0 (by assumption)

theorem moveLast_keeps {a v0 v1} (g1 : Keeps a v1) :
    Keeps a (Sys2Proof.Machine.moveLast v0 v1) := by
  unfold Sys2Proof.Machine.moveLast
  extract_lets -underBinder -merge -useContext +onlyGivenNames x0
  exact Keeps.same (by assumption)

theorem spareFailed_keeps {a v0 v1 v2} (g0 : ∀ {y0 y1 y2}, Keeps a y2 → Keeps a (v0 y0 y1 y2)) (g2 : Keeps a v2) :
    Keeps a (Sys2Proof.Machine.spareFailed v0 v1 v2) := by
  unfold Sys2Proof.Machine.spareFailed
  split
  · assumption
  · extract_lets -underBinder -merge -useContext +onlyGivenNames x0
    extract_lets -underBinder -merge -useContext +onlyGivenNames x1
    extract_lets -underBinder -merge -useContext +onlyGivenNames x2
    have h3 : Keeps a x2 := (retirePond_keeps (Keeps.same (by assumption)))
    clear_value x2
    refine moveLast_keeps ?_
    refine startReplacement_keeps ?_ (by assumption)
    intro y4 y5 y6 k7
    exact g0 (by assumption)

theorem failPond_keeps {a v0 v1 v2} (g0 : ∀ {y0 y1 y2}, Keeps a y2 → Keeps a (v0 y0 y1 y2)) (g2 : Keeps a v2) :
    Keeps a (Sys2Proof.Machine.failPond v0 v1 v2) := by
  unfold Sys2Proof.Machine.failPond
  refine Keeps.ite ?_ ?_
  · refine spareFailed_keeps ?_ (by assumption)
    intro y0 y1 y2 k3
    exact g0 (by assumption)
  · split
    · assumption
    · refine Keeps.ite (by assumption) ?_
      extract_lets -underBinder -merge -useContext +onlyGivenNames x4
      have h9 : Keeps a x4 := by
        unfold x4
        refine loseWork_keeps ?_ (by assumption)
        intro y5 y6 y7 k8
        exact g0 (by assumption)
      clear_value x4
      refine startReplacement_keeps ?_ (Keeps.same (by assumption))
      intro y10 y11 y12 k13
      exact g0 (by assumption)

theorem blockResetPond_keeps {a v0 v1 v2} (g0 : ∀ {y0 y1 y2}, Keeps a y2 → Keeps a (v0 y0 y1 y2)) (g2 : Keeps a v2) :
    Keeps a (Sys2Proof.Machine.blockResetPond v0 v1 v2) := by
  unfold Sys2Proof.Machine.blockResetPond
  split
  · assumption
  · refine Keeps.ite (by assumption) ?_
    extract_lets -underBinder -merge -useContext +onlyGivenNames x0
    have h5 : Keeps a x0 := by
      unfold x0
      refine modPond_keeps ?_
      refine settlePond_keeps ?_
      refine loseWork_keeps ?_ (by assumption)
      intro y1 y2 y3 k4
      exact g0 (by assumption)
    clear_value x0
    exact (addObj_keeps (Keeps.same (by assumption)))

theorem blockResetGang_keeps {a v0 v1 v2} (g0 : ∀ {y0 y1 y2}, Keeps a y2 → Keeps a (v0 y0 y1 y2)) (g2 : Keeps a v2) :
    Keeps a (Sys2Proof.Machine.blockResetGang v0 v1 v2) := by
  unfold Sys2Proof.Machine.blockResetGang
  refine forEach_keeps (P := Keeps a) ?_ (by assumption)
  intro y0 y1 k2
  refine blockResetPond_keeps ?_ (by assumption)
  intro y3 y4 y5 k6
  exact g0 (by assumption)

theorem resetChip_keeps {a k s} (h : Keeps a s) : Keeps a (resetChip k s) := by
  unfold resetChip
  extract_lets -underBinder -merge -useContext +onlyGivenNames kept z m ma hs bo se de r r2
  have hr : Keeps a r := by
    refine h.trans ⟨rfl, le_rfl, le_rfl, List.suffix_refl _, rfl, ⟨id, fun _ _ => rfl, Nat.le_succ _, le_rfl⟩, fun c => ?_⟩
    constructor
    · show memWf (if k then s.mem else hostBytes s.mem) = true
      split
      · exact c.mem
      · exact filter_wf _ _ _ c.mem
    · exact MapSorted.filter _ _ c.dict
    · exact MapSorted.nil
    · exact MapSorted.nil
    · exact MapSorted.nil
    · exact MapSorted.nil
    · exact MapSorted.nil
    · exact MapSorted.nil
    · exact MapSorted.nil
    · show MapSorted (if k then settleFutures s.seq else Seq.cold).futures
      split
      · exact MapSorted.mapValues _ _ (fun _ => rfl) c.futures
      · exact MapSorted.nil
    · show MapSorted (if k then settleTiers s.tiers else Tiers.cold).extents
      split
      · exact MapSorted.mapValues _ _ (fun _ => rfl) c.extents
      · exact MapSorted.nil
    · show MapSorted (if k then settleTiers s.tiers else Tiers.cold).objects
      split
      · exact c.objects
      · exact MapSorted.nil
  clear_value r
  have h2 : Keeps a r2 := foldl_keeps (P := Keeps a) (fun _ _ k => setObj_keeps k) hr
  clear_value r2
  exact forUpTo_keeps (P := Keeps a) (fun _ _ k => Keeps.ite (setObj_keeps k) k) h2

theorem raiseAtStart_keeps {a v0 v1} (g1 : Keeps a v1) :
    Keeps a (Sys2Proof.Machine.raiseAtStart v0 v1) := by
  unfold Sys2Proof.Machine.raiseAtStart
  refine Keeps.ite (by assumption) ?_
  extract_lets -underBinder -merge -useContext +onlyGivenNames x0
  have h1 : Keeps a x0 := (raise0_keeps (setObj_keeps (by assumption)))
  clear_value x0
  exact (Keeps.ite (by assumption) (signalVector_keeps (by assumption)))

theorem weirStart_keeps {a v0} (g0 : Keeps a v0) :
    Keeps a (Sys2Proof.Machine.weirStart v0) := by
  unfold Sys2Proof.Machine.weirStart
  refine forEach_keeps (P := Keeps a) ?_ (by assumption)
  intro y0 y1 k2
  exact (Keeps.ite (raiseAtStart_keeps (by assumption)) (by assumption))

theorem startBoot_keeps {a v0} (g0 : Keeps a v0) :
    Keeps a (Sys2Proof.Machine.startBoot v0) := by
  unfold Sys2Proof.Machine.startBoot
  exact (weirStart_keeps (setObj_keeps (setObj_keeps (Keeps.same (by assumption)))))

theorem chipReset_keeps {a v0 v1 v2 v3} (g3 : Keeps a v3) :
    Keeps a (Sys2Proof.Machine.chipReset v0 v1 v2 v3) := by
  unfold Sys2Proof.Machine.chipReset
  extract_lets -underBinder -merge -useContext +onlyGivenNames x0
  extract_lets -underBinder -merge -useContext +onlyGivenNames x1
  have h2 : Keeps a x1 := (resetChip_keeps (by assumption))
  clear_value x1
  extract_lets -underBinder -merge -useContext +onlyGivenNames x3
  extract_lets -underBinder -merge -useContext +onlyGivenNames x4
  have h5 : Keeps a x4 := (Keeps.same (by assumption))
  clear_value x4
  extract_lets -underBinder -merge -useContext +onlyGivenNames x6
  have h7 : Keeps a x6 := (setObj_keeps (setObj_keeps (by assumption)))
  clear_value x6
  extract_lets -underBinder -merge -useContext +onlyGivenNames x8
  have h9 : Keeps a x8 := (addObj_keeps (setObj_keeps (by assumption)))
  clear_value x8
  exact (Keeps.ite (startBoot_keeps (by assumption)) (by assumption))

theorem retrainBrook_keeps {a v0 v1} (g1 : Keeps a v1) :
    Keeps a (Sys2Proof.Machine.retrainBrook v0 v1) := by
  unfold Sys2Proof.Machine.retrainBrook
  exact (addObj_keeps (setObj_keeps (by assumption)))

theorem pauseService_keeps {a v0} (g0 : Keeps a v0) :
    Keeps a (Sys2Proof.Machine.pauseService v0) := by
  unfold Sys2Proof.Machine.pauseService
  exact Keeps.same (by assumption)

theorem resetPorts_keeps {a v0} (g0 : Keeps a v0) :
    Keeps a (Sys2Proof.Machine.resetPorts v0) := by
  unfold Sys2Proof.Machine.resetPorts
  extract_lets -underBinder -merge -useContext +onlyGivenNames x0
  have h7 : Keeps a x0 := by
    unfold x0
    refine forUpTo_keeps (P := Keeps a) ?_ (by assumption)
    intro y1 y2 k3
    refine forUpTo_keeps (P := Keeps a) ?_ (by assumption)
    intro y4 y5 k6
    exact setObj_keeps (by assumption)
  clear_value x0
  exact (Keeps.ite (endCause_keeps (by assumption)) (by assumption))

theorem blockReset_keeps {a v0 v1 v2 v3} (g0 : ∀ {y0 y1 y2}, Keeps a y2 → Keeps a (v0 y0 y1 y2)) (g3 : Keeps a v3) :
    Keeps a (Sys2Proof.Machine.blockReset v0 v1 v2 v3) := by
  unfold Sys2Proof.Machine.blockReset
  split
  · refine Keeps.ite (by assumption) ?_
    refine blockResetPond_keeps ?_ (by assumption)
    intro y0 y1 y2 k3
    exact g0 (by assumption)
  · refine blockResetGang_keeps ?_ (by assumption)
    intro y4 y5 y6 k7
    exact g0 (by assumption)
  · exact (g0 (retrainBrook_keeps (by assumption)))
  · exact Keeps.same (by assumption)
  · exact (Keeps.ite (Keeps.same (by assumption)) (Keeps.ite (addObj_keeps (pauseService_keeps (by assumption))) (Keeps.ite (resetPorts_keeps (by assumption)) (by assumption))))

theorem setupReaction_keeps {a v0 v1 v2 v3} (g0 : ∀ {y0 y1 y2}, Keeps a y2 → Keeps a (v0 y0 y1 y2)) (g3 : Keeps a v3) :
    Keeps a (Sys2Proof.Machine.setupReaction v0 v1 v2 v3) := by
  unfold Sys2Proof.Machine.setupReaction
  extract_lets -underBinder -merge -useContext +onlyGivenNames x0
  have h1 : Keeps a x0 := (Keeps.ite (driveErrN_keeps (by assumption)) (by assumption))
  clear_value x0
  split
  · exact (Keeps.ite (by assumption) (signalVector_keeps (by assumption)))
  · exact (signalVector_keeps (Keeps.same (by assumption)))
  · refine blockReset_keeps ?_ (by assumption)
    intro y2 y3 y4 k5
    exact g0 (by assumption)
  · exact chipReset_keeps (by assumption)
  · assumption

theorem raiseN_keeps {a n i o s} (h : Keeps a s) : Keeps a (raiseN n i o s) := by
  induction n generalizing i o s with
  | zero => exact raise0_keeps h
  | succ k ih =>
    unfold raiseN
    extract_lets was s1 s2
    have h1 : Keeps a s1 := raise0_keeps h
    have h2 : Keeps a s2 := by
      unfold s2
      split
      · exact Keeps.ite (failPond_keeps (fun {_ _ _} hk => ih hk) h1) h1
      · exact h1
    exact Keeps.ite (setupReaction_keeps (fun {_ _ _} hk => ih hk) h2) h2

theorem raise_keeps {a i o s} (h : Keeps a s) : Keeps a (raise i o s) := raiseN_keeps h

theorem raiseCause_keeps {a v0 v1 v2} (g2 : Keeps a v2) :
    Keeps a (Sys2Proof.Machine.raiseCause v0 v1 v2) := by
  unfold Sys2Proof.Machine.raiseCause
  refine raiseLevel_keeps ?_ (by assumption)
  intro y0 y1 y2 k3
  exact raise_keeps (by assumption)

theorem unmappedRead_keeps {a v0} (g0 : Keeps a v0) :
    Keeps a (Sys2Proof.Machine.unmappedRead v0) := by
  unfold Sys2Proof.Machine.unmappedRead
  exact (raise_keeps (unmappedAccess_keeps (by assumption)))

theorem followCause_keeps {a v0 v1 v2} (g2 : Keeps a v2) :
    Keeps a (Sys2Proof.Machine.followCause v0 v1 v2) := by
  unfold Sys2Proof.Machine.followCause
  exact (Keeps.ite (raiseCause_keeps (by assumption)) (Keeps.ite (endCause_keeps (by assumption)) (by assumption)))

theorem followUnavailable_keeps {a v0} (g0 : Keeps a v0) :
    Keeps a (Sys2Proof.Machine.followUnavailable v0) := by
  unfold Sys2Proof.Machine.followUnavailable
  exact followCause_keeps (by assumption)

end Sys2Proof.Laws
end

