-- ==== Sys2Proof/Laws/KeepsFutures.lean ====
section
/-! SUPPORT. What the operations of futures and the monitor keep. -/

set_option Elab.async false

namespace Sys2Proof.Laws

open Sys2Proof.Machine Sys2Proof.Safety

theorem setPageRecord_keeps {a v0 v1 v2} (g0 : Keeps a v0) :
    Keeps a (Sys2Proof.Machine.setPageRecord v0 v1 v2) := by
  unfold Sys2Proof.Machine.setPageRecord
  exact Keeps.same (by assumption)

theorem setFreeList_keeps {a v0 v1 v2} (g0 : Keeps a v0) :
    Keeps a (Sys2Proof.Machine.setFreeList v0 v1 v2) := by
  unfold Sys2Proof.Machine.setFreeList
  exact Keeps.same (by assumption)

theorem refPage_keeps {a v0 v1} (g1 : Keeps a v1) :
    Keeps a (Sys2Proof.Machine.refPage v0 v1) := by
  unfold Sys2Proof.Machine.refPage
  extract_lets -underBinder -merge -useContext +onlyGivenNames x0
  exact setPageRecord_keeps (by assumption)

theorem dropPage_keeps {a v0 v1} (g1 : Keeps a v1) :
    Keeps a (Sys2Proof.Machine.dropPage v0 v1) := by
  unfold Sys2Proof.Machine.dropPage
  extract_lets -underBinder -merge -useContext +onlyGivenNames x0
  exact (Keeps.ite (setPageRecord_keeps (by assumption)) (setPageRecord_keeps (by assumption)))

theorem dropPages_keeps {a v0 v1} (g1 : Keeps a v1) :
    Keeps a (Sys2Proof.Machine.dropPages v0 v1) := by
  unfold Sys2Proof.Machine.dropPages
  refine forEach_keeps (P := Keeps a) ?_ (by assumption)
  intro y0 y1 k2
  exact dropPage_keeps (by assumption)

theorem returnPages_keeps {a v0 v1} (g1 : Keeps a v1) :
    Keeps a (Sys2Proof.Machine.returnPages v0 v1) := by
  unfold Sys2Proof.Machine.returnPages
  refine forEach_keeps (P := Keeps a) ?_ (by assumption)
  intro y0 y1 k2
  extract_lets -underBinder -merge -useContext +onlyGivenNames x3
  extract_lets -underBinder -merge -useContext +onlyGivenNames x4
  extract_lets -underBinder -merge -useContext +onlyGivenNames x5
  have h6 : Keeps a x5 := (setPageRecord_keeps (by assumption))
  clear_value x5
  exact (addObj_keeps (setFreeList_keeps (by assumption)))

theorem settlePool_keeps {a v0 v1} (g1 : Keeps a v1) :
    Keeps a (Sys2Proof.Machine.settlePool v0 v1) := by
  unfold Sys2Proof.Machine.settlePool
  extract_lets -underBinder -merge -useContext +onlyGivenNames x0
  extract_lets -underBinder -merge -useContext +onlyGivenNames x1
  exact (Keeps.ite (by assumption) (Keeps.ite (Keeps.same (by assumption)) (Keeps.same (by assumption))))

theorem checkWatermarks_keeps {a v0} (g0 : Keeps a v0) :
    Keeps a (Sys2Proof.Machine.checkWatermarks v0) := by
  unfold Sys2Proof.Machine.checkWatermarks
  exact followCause_keeps (by assumption)

theorem settleLent_keeps {a v0 v1} (g1 : Keeps a v1) :
    Keeps a (Sys2Proof.Machine.settleLent v0 v1) := by
  unfold Sys2Proof.Machine.settleLent
  extract_lets -underBinder -merge -useContext +onlyGivenNames x0
  exact (Keeps.ite (setFuture_keeps (by assumption)) (by assumption))

theorem releaseBorrow_keeps {a v0 v1} (g1 : Keeps a v1) :
    Keeps a (Sys2Proof.Machine.releaseBorrow v0 v1) := by
  unfold Sys2Proof.Machine.releaseBorrow
  extract_lets -underBinder -merge -useContext +onlyGivenNames x0
  refine Keeps.ite ?_ (by assumption)
  extract_lets -underBinder -merge -useContext +onlyGivenNames x1
  extract_lets -underBinder -merge -useContext +onlyGivenNames x2
  extract_lets -underBinder -merge -useContext +onlyGivenNames x3
  have h4 : Keeps a x3 := (setFuture_keeps (by assumption))
  clear_value x3
  extract_lets -underBinder -merge -useContext +onlyGivenNames x5
  extract_lets -underBinder -merge -useContext +onlyGivenNames x6
  have h7 : Keeps a x6 := (setFuture_keeps (by assumption))
  clear_value x6
  exact settleLent_keeps (by assumption)

theorem opCreate_keeps {a v0 v1} (g1 : Keeps a v1) :
    Keeps a (Sys2Proof.Machine.opCreate v0 v1) := by
  unfold Sys2Proof.Machine.opCreate
  exact setFuture_keeps (by assumption)

theorem opFork_keeps {a v0 v1} (g1 : Keeps a v1) :
    Keeps a (Sys2Proof.Machine.opFork v0 v1) := by
  unfold Sys2Proof.Machine.opFork
  extract_lets -underBinder -merge -useContext +onlyGivenNames x0
  extract_lets -underBinder -merge -useContext +onlyGivenNames x1
  extract_lets -underBinder -merge -useContext +onlyGivenNames x2
  extract_lets -underBinder -merge -useContext +onlyGivenNames x3
  have h7 : Keeps a x3 := by
    unfold x3
    refine forEach_keeps (P := Keeps a) ?_ (by assumption)
    intro y4 y5 k6
    exact refPage_keeps (by assumption)
  clear_value x3
  extract_lets -underBinder -merge -useContext +onlyGivenNames x8
  have h9 : Keeps a x8 := (setFuture_keeps (by assumption))
  clear_value x8
  extract_lets -underBinder -merge -useContext +onlyGivenNames x10
  extract_lets -underBinder -merge -useContext +onlyGivenNames x11
  have h12 : Keeps a x11 := (setFuture_keeps (by assumption))
  clear_value x11
  exact settleLent_keeps (by assumption)

theorem opRetire_keeps {a v0 v1} (g1 : Keeps a v1) :
    Keeps a (Sys2Proof.Machine.opRetire v0 v1) := by
  unfold Sys2Proof.Machine.opRetire
  extract_lets -underBinder -merge -useContext +onlyGivenNames x0
  have h1 : Keeps a x0 := (dropPages_keeps (by assumption))
  clear_value x0
  extract_lets -underBinder -merge -useContext +onlyGivenNames x2
  have h3 : Keeps a x2 := (releaseBorrow_keeps (by assumption))
  clear_value x2
  exact setFuture_keeps (by assumption)

theorem opSet_keeps {a v0 v1} (g1 : Keeps a v1) :
    Keeps a (Sys2Proof.Machine.opSet v0 v1) := by
  unfold Sys2Proof.Machine.opSet
  extract_lets -underBinder -merge -useContext +onlyGivenNames x0
  extract_lets -underBinder -merge -useContext +onlyGivenNames x1
  extract_lets -underBinder -merge -useContext +onlyGivenNames x2
  extract_lets -underBinder -merge -useContext +onlyGivenNames x3
  extract_lets -underBinder -merge -useContext +onlyGivenNames x4
  extract_lets -underBinder -merge -useContext +onlyGivenNames x5
  exact setFuture_keeps (by assumption)

theorem opTruncate_keeps {a v0 v1} (g1 : Keeps a v1) :
    Keeps a (Sys2Proof.Machine.opTruncate v0 v1) := by
  unfold Sys2Proof.Machine.opTruncate
  extract_lets -underBinder -merge -useContext +onlyGivenNames x0
  extract_lets -underBinder -merge -useContext +onlyGivenNames x1
  exact (setFuture_keeps (dropPages_keeps (by assumption)))

theorem shiftPages_keeps {a v0 v1 v2} (g2 : Keeps a v2) :
    Keeps a (Sys2Proof.Machine.shiftPages v0 v1 v2) := by
  unfold Sys2Proof.Machine.shiftPages
  extract_lets -underBinder -merge -useContext +onlyGivenNames x0
  exact (setFuture_keeps (dropPages_keeps (by assumption)))

theorem opEffect_keeps {a v0 v1} (g1 : Keeps a v1) :
    Keeps a (Sys2Proof.Machine.opEffect v0 v1) := by
  unfold Sys2Proof.Machine.opEffect
  extract_lets -underBinder -merge -useContext +onlyGivenNames x0
  split
  · exact opCreate_keeps (by assumption)
  · exact opFork_keeps (by assumption)
  · exact setFuture_keeps (by assumption)
  · exact (settleLent_keeps (setFuture_keeps (by assumption)))
  · exact opRetire_keeps (by assumption)
  · exact opSet_keeps (by assumption)
  · exact opTruncate_keeps (by assumption)
  · exact shiftPages_keeps (by assumption)
  · exact setFuture_keeps (by assumption)

theorem applyOp_keeps {a v0 v1 v2} (g2 : Keeps a v2) :
    Keeps a (Sys2Proof.Machine.applyOp v0 v1 v2) := by
  unfold Sys2Proof.Machine.applyOp
  extract_lets -underBinder -merge -useContext +onlyGivenNames x0
  extract_lets -underBinder -merge -useContext +onlyGivenNames x1
  have h2 : Keeps a x1 := (Keeps.ite (opEffect_keeps (by assumption)) (by assumption))
  clear_value x1
  extract_lets -underBinder -merge -useContext +onlyGivenNames x3
  have h4 : Keeps a x3 := (addObj_keeps (by assumption))
  clear_value x3
  exact deviceWrite_keeps (by assumption)

theorem applyRing_keeps {a n fuel refs s} (h : Keeps a s) : KeepsSnd a (applyRing n fuel refs s) := by
  induction fuel generalizing refs s with
  | zero => exact h
  | succ k ih =>
    unfold applyRing
    refine KeepsSnd.ite h (KeepsSnd.ite h (ih ?_))
    exact setObj_keeps (applyOp_keeps h)

theorem applyOperations_keeps {a v0} (g0 : Keeps a v0) :
    Keeps a (Sys2Proof.Machine.applyOperations v0) := by
  unfold Sys2Proof.Machine.applyOperations
  extract_lets -underBinder -merge -useContext +onlyGivenNames x0
  extract_lets -underBinder -merge -useContext +onlyGivenNames x1
  have h2 : Keeps a x1 := (Keeps.ite (addObj_keeps (by assumption)) (by assumption))
  clear_value x1
  extract_lets -underBinder -merge -useContext +onlyGivenNames x3
  extract_lets -underBinder -merge -useContext +onlyGivenNames x4
  have h5 : Keeps a x4 := (Keeps.same (by assumption))
  clear_value x4
  split
  rename_i m6 m7 e8
  have h9 := KeepsSnd.of_eq e8 (applyRing_keeps (by assumption))
  exact (addObj_keeps (setObj_keeps (by assumption)))

theorem oneOp_keeps {a v0 v1} (g1 : Keeps a v1) :
    KeepsOut a (Sys2Proof.Machine.oneOp v0 v1) := by
  unfold Sys2Proof.Machine.oneOp
  refine KeepsOut.ite ?_ KeepsOut.fault
  extract_lets -underBinder -merge -useContext +onlyGivenNames x0
  extract_lets -underBinder -merge -useContext +onlyGivenNames x1
  have h2 : Keeps a x1 := (deviceWrite_keeps (by assumption))
  clear_value x1
  extract_lets -underBinder -merge -useContext +onlyGivenNames x3
  have h4 : Keeps a x3 := (Keeps.ite (deviceWrite_keeps (by assumption)) (by assumption))
  clear_value x3
  exact (KeepsOut.next (setObj_keeps (applyOp_keeps (by assumption))))

theorem execCreate_keeps {a v0 v1 v2 v3} (g3 : Keeps a v3) :
    KeepsOut a (Sys2Proof.Machine.execCreate v0 v1 v2 v3) := by
  unfold Sys2Proof.Machine.execCreate
  exact oneOp_keeps (by assumption)

theorem execFork_keeps {a v0 v1 v2 v3 v4} (g4 : Keeps a v4) :
    KeepsOut a (Sys2Proof.Machine.execFork v0 v1 v2 v3 v4) := by
  unfold Sys2Proof.Machine.execFork
  exact oneOp_keeps (by assumption)

theorem execPark_keeps {a v0 v1 v2 v3} (g3 : Keeps a v3) :
    KeepsOut a (Sys2Proof.Machine.execPark v0 v1 v2 v3) := by
  unfold Sys2Proof.Machine.execPark
  exact oneOp_keeps (by assumption)

theorem execUnpark_keeps {a v0 v1 v2 v3} (g3 : Keeps a v3) :
    KeepsOut a (Sys2Proof.Machine.execUnpark v0 v1 v2 v3) := by
  unfold Sys2Proof.Machine.execUnpark
  exact oneOp_keeps (by assumption)

theorem execRetire_keeps {a v0 v1 v2 v3} (g3 : Keeps a v3) :
    KeepsOut a (Sys2Proof.Machine.execRetire v0 v1 v2 v3) := by
  unfold Sys2Proof.Machine.execRetire
  exact oneOp_keeps (by assumption)

theorem execSetFuture_keeps {a v0 v1 v2 v3} (g3 : Keeps a v3) :
    KeepsOut a (Sys2Proof.Machine.execSetFuture v0 v1 v2 v3) := by
  unfold Sys2Proof.Machine.execSetFuture
  exact oneOp_keeps (by assumption)

theorem execTruncate_keeps {a v0 v1 v2 v3} (g3 : Keeps a v3) :
    KeepsOut a (Sys2Proof.Machine.execTruncate v0 v1 v2 v3) := by
  unfold Sys2Proof.Machine.execTruncate
  exact oneOp_keeps (by assumption)

theorem execShift_keeps {a v0 v1 v2 v3} (g3 : Keeps a v3) :
    KeepsOut a (Sys2Proof.Machine.execShift v0 v1 v2 v3) := by
  unfold Sys2Proof.Machine.execShift
  exact oneOp_keeps (by assumption)

theorem execSetuser_keeps {a v0 v1 v2 v3} (g3 : Keeps a v3) :
    KeepsOut a (Sys2Proof.Machine.execSetuser v0 v1 v2 v3) := by
  unfold Sys2Proof.Machine.execSetuser
  exact oneOp_keeps (by assumption)

theorem advanceFuture_keeps {a v0 v1} (g1 : Keeps a v1) :
    Keeps a (Sys2Proof.Machine.advanceFuture v0 v1) := by
  unfold Sys2Proof.Machine.advanceFuture
  extract_lets -underBinder -merge -useContext +onlyGivenNames x0
  extract_lets -underBinder -merge -useContext +onlyGivenNames x1
  extract_lets -underBinder -merge -useContext +onlyGivenNames x2
  have h3 : Keeps a x2 := (releaseBorrow_keeps (by assumption))
  clear_value x2
  extract_lets -underBinder -merge -useContext +onlyGivenNames x4
  extract_lets -underBinder -merge -useContext +onlyGivenNames x5
  have h6 : Keeps a x5 := (setFuture_keeps (by assumption))
  clear_value x5
  extract_lets -underBinder -merge -useContext +onlyGivenNames x7
  extract_lets -underBinder -merge -useContext +onlyGivenNames x8
  have h9 : Keeps a x8 := (Keeps.ite (shiftPages_keeps (by assumption)) (by assumption))
  clear_value x8
  exact settleLent_keeps (by assumption)

theorem dropPending_keeps {a v0 v1} (g1 : Keeps a v1) :
    Keeps a (Sys2Proof.Machine.dropPending v0 v1) := by
  unfold Sys2Proof.Machine.dropPending
  exact setFuture_keeps (by assumption)

theorem writeEntries_keeps {a v0 v1} (g1 : Keeps a v1) :
    Keeps a (Sys2Proof.Machine.writeEntries v0 v1) := by
  unfold Sys2Proof.Machine.writeEntries
  extract_lets -underBinder -merge -useContext +onlyGivenNames x0
  exact deviceWrite_keeps (by assumption)

theorem countStep_keeps {a v0 v1 v2} (g2 : Keeps a v2) :
    Keeps a (Sys2Proof.Machine.countStep v0 v1 v2) := by
  unfold Sys2Proof.Machine.countStep
  refine forEach_keeps (P := Keeps a) ?_ (by assumption)
  intro y0 y1 k2
  exact addObj_keeps (by assumption)

theorem countSwitches_keeps {a v0 v1} (g1 : Keeps a v1) :
    Keeps a (Sys2Proof.Machine.countSwitches v0 v1) := by
  unfold Sys2Proof.Machine.countSwitches
  refine forEach_keeps (P := Keeps a) ?_ (addObj_keeps (by assumption))
  intro y0 y1 k2
  exact countStep_keeps (by assumption)

theorem checkpointAt_keeps {a v0 v1 v2 v3 v4} (g4 : Keeps a v4) :
    Keeps a (Sys2Proof.Machine.checkpointAt v0 v1 v2 v3 v4) := by
  unfold Sys2Proof.Machine.checkpointAt
  extract_lets -underBinder -merge -useContext +onlyGivenNames x0
  extract_lets -underBinder -merge -useContext +onlyGivenNames x1
  split
  · assumption
  · refine Keeps.ite (by assumption) ?_
    split
    · assumption
    · split
      · assumption
      · extract_lets -underBinder -merge -useContext +onlyGivenNames x2
        extract_lets -underBinder -merge -useContext +onlyGivenNames x3
        extract_lets -underBinder -merge -useContext +onlyGivenNames x4
        have h5 : Keeps a x4 := (setGang_keeps (by assumption))
        clear_value x4
        refine Keeps.ite (by assumption) ?_
        extract_lets -underBinder -merge -useContext +onlyGivenNames x6
        extract_lets -underBinder -merge -useContext +onlyGivenNames x7
        extract_lets -underBinder -merge -useContext +onlyGivenNames x8
        extract_lets -underBinder -merge -useContext +onlyGivenNames x9
        extract_lets -underBinder -merge -useContext +onlyGivenNames x10
        have h11 : Keeps a x10 := (addObj_keeps (by assumption))
        clear_value x10
        extract_lets -underBinder -merge -useContext +onlyGivenNames x12
        have h13 : Keeps a x12 := (Keeps.ite (setObj_keeps (by assumption)) (by assumption))
        clear_value x12
        extract_lets -underBinder -merge -useContext +onlyGivenNames x14
        have h15 : Keeps a x14 := (traceInfo_keeps (by assumption))
        clear_value x14
        refine Keeps.ite (by assumption) ?_
        split
        extract_lets -underBinder -merge -useContext +onlyGivenNames x16
        extract_lets -underBinder -merge -useContext +onlyGivenNames x17
        have h18 : Keeps a x17 := (writeEntries_keeps (setGang_keeps (by assumption)))
        clear_value x17
        extract_lets -underBinder -merge -useContext +onlyGivenNames x19
        have h20 : Keeps a x19 := (countSwitches_keeps (by assumption))
        clear_value x19
        exact (Keeps.ite (addObj_keeps (by assumption)) (by assumption))

end Sys2Proof.Laws
end

