-- ==== Sys2Proof/Laws/KeepsNumerics.lean ====
section
/-! SUPPORT. What the operations of numerics keep. -/

set_option Elab.async false

namespace Sys2Proof.Laws

open Sys2Proof.Machine Sys2Proof.Safety

theorem followArea_keeps {a v0} (g0 : Keeps a v0) :
    Keeps a (Sys2Proof.Machine.followArea v0) := by
  unfold Sys2Proof.Machine.followArea
  extract_lets -underBinder -merge -useContext +onlyGivenNames x0
  exact (followCause_keeps (setObj_keeps (by assumption)))

theorem setNumRec_keeps {a v0 v1 v2} (g0 : Keeps a v0) :
    Keeps a (Sys2Proof.Machine.setNumRec v0 v1 v2) := by
  unfold Sys2Proof.Machine.setNumRec
  exact Keeps.same (by assumption)

theorem publish_keeps {a v0 v1} (g1 : Keeps a v1) :
    Keeps a (Sys2Proof.Machine.publish v0 v1) := by
  unfold Sys2Proof.Machine.publish
  split
  · assumption
  · exact deviceWrite_keeps (by assumption)

theorem followRecords_keeps {a v0} (g0 : Keeps a v0) :
    Keeps a (Sys2Proof.Machine.followRecords v0) := by
  unfold Sys2Proof.Machine.followRecords
  extract_lets -underBinder -merge -useContext +onlyGivenNames x0
  exact (followCause_keeps (followCause_keeps (by assumption)))

theorem enterJit_keeps {a v0 v1 v2} (g2 : Keeps a v2) :
    Keeps a (Sys2Proof.Machine.enterJit v0 v1 v2) := by
  unfold Sys2Proof.Machine.enterJit
  extract_lets -underBinder -merge -useContext +onlyGivenNames x0
  have h1 : Keeps a x0 := (setNumRec_keeps (by assumption))
  clear_value x0
  exact (raise_keeps (setObj_keeps (addObj_keeps (by assumption))))

theorem adoptOne_keeps {a v0 v1} (g1 : KeepsFst a v1) :
    KeepsFst a (Sys2Proof.Machine.adoptOne v0 v1) := by
  unfold Sys2Proof.Machine.adoptOne
  extract_lets -underBinder -merge -useContext +onlyGivenNames x0
  have h1 : Keeps a x0 := (by assumption)
  clear_value x0
  split
  extract_lets -underBinder -merge -useContext +onlyGivenNames x2
  have h3 : ∀ {y0}, KeepsFst a (x2 y0) := by
    intro y4
    unfold x2
    exact (KeepsFst.mk (setNumRec_keeps (by assumption)))
  clear_value x2
  exact (KeepsFst.ite (KeepsFst.mk (setNumRec_keeps (by assumption))) (KeepsFst.ite (h3) (KeepsFst.ite (h3) (KeepsFst.ite (KeepsFst.mk (publish_keeps (setNumRec_keeps (by assumption)))) (KeepsFst.mk (publish_keeps (enterJit_keeps (by assumption))))))))

theorem adoptRecords_keeps {a v0} (g0 : Keeps a v0) :
    Keeps a (Sys2Proof.Machine.adoptRecords v0) := by
  unfold Sys2Proof.Machine.adoptRecords
  refine Keeps.ite (by assumption) ?_
  extract_lets -underBinder -merge -useContext +onlyGivenNames x0
  have h1 : Keeps a x0 := (setObj_keeps (by assumption))
  clear_value x0
  refine Keeps.ite (setObj_keeps (by assumption)) ?_
  extract_lets -underBinder -merge -useContext +onlyGivenNames x2
  extract_lets -underBinder -merge -useContext +onlyGivenNames x3
  split
  rename_i m4 m5 m6 e7
  have h8 := KeepsFst.of_eq e7 (by
    refine foldl_keeps (P := KeepsFst a) ?_ (KeepsFst.mk (by assumption))
    intro y9 y10 k11
    exact adoptOne_keeps (by assumption)
    )
  exact (followRecords_keeps (setObj_keeps (setObj_keeps (by assumption))))

theorem readRecords_keeps {a v0} (g0 : Keeps a v0) :
    Keeps a (Sys2Proof.Machine.readRecords v0) := by
  unfold Sys2Proof.Machine.readRecords
  extract_lets -underBinder -merge -useContext +onlyGivenNames x0
  have h1 : Keeps a x0 := (followArea_keeps (Keeps.same (by assumption)))
  clear_value x0
  refine Keeps.ite (by assumption) ?_
  refine followRecords_keeps ?_
  refine foldl_keeps (P := Keeps a) ?_ (by assumption)
  intro y2 y3 k4
  split
  exact (Keeps.ite (by assumption) (Keeps.ite (setNumRec_keeps (by assumption)) (publish_keeps (enterJit_keeps (by assumption)))))

theorem foldStep_keeps {a v0 v1 v2 v3} (g3 : Keeps a v3) :
    Keeps a (Sys2Proof.Machine.foldStep v0 v1 v2 v3) := by
  unfold Sys2Proof.Machine.foldStep
  extract_lets -underBinder -merge -useContext +onlyGivenNames x0
  extract_lets -underBinder -merge -useContext +onlyGivenNames x1
  extract_lets -underBinder -merge -useContext +onlyGivenNames x2
  extract_lets -underBinder -merge -useContext +onlyGivenNames x3
  extract_lets -underBinder -merge -useContext +onlyGivenNames x4
  have h5 : Keeps a x4 := (addObj_keeps (addObj_keeps (by assumption)))
  clear_value x4
  extract_lets -underBinder -merge -useContext +onlyGivenNames x6
  have h7 : Keeps a x6 := (Keeps.ite (by assumption) (raise_keeps (by assumption)))
  clear_value x6
  extract_lets -underBinder -merge -useContext +onlyGivenNames x8
  extract_lets -underBinder -merge -useContext +onlyGivenNames x9
  have h10 : Keeps a x9 := (Keeps.ite (addObj_keeps (by assumption)) (by assumption))
  clear_value x9
  extract_lets -underBinder -merge -useContext +onlyGivenNames x11
  have h12 : Keeps a x11 := (Keeps.ite (by assumption) (addObj_keeps (by assumption)))
  clear_value x11
  extract_lets -underBinder -merge -useContext +onlyGivenNames x13
  extract_lets -underBinder -merge -useContext +onlyGivenNames x14
  extract_lets -underBinder -merge -useContext +onlyGivenNames x15
  extract_lets -underBinder -merge -useContext +onlyGivenNames x16
  extract_lets -underBinder -merge -useContext +onlyGivenNames x17
  extract_lets -underBinder -merge -useContext +onlyGivenNames x18
  extract_lets -underBinder -merge -useContext +onlyGivenNames x19
  extract_lets -underBinder -merge -useContext +onlyGivenNames x20
  have h21 : Keeps a x20 := (Keeps.ite (addObj_keeps (by assumption)) (by assumption))
  clear_value x20
  extract_lets -underBinder -merge -useContext +onlyGivenNames x22
  have h23 : Keeps a x22 := (setNumRec_keeps (by assumption))
  clear_value x22
  extract_lets -underBinder -merge -useContext +onlyGivenNames x24
  extract_lets -underBinder -merge -useContext +onlyGivenNames x25
  have h26 : Keeps a x25 := (Keeps.same (by assumption))
  clear_value x25
  exact (Keeps.ite (raise_keeps (setObj_keeps (setObj_keeps (addObj_keeps (by assumption))))) (by assumption))

theorem foldRecord_keeps {a v0 v1} (g1 : Keeps a v1) :
    Keeps a (Sys2Proof.Machine.foldRecord v0 v1) := by
  unfold Sys2Proof.Machine.foldRecord
  split
  · assumption
  · extract_lets -underBinder -merge -useContext +onlyGivenNames x0
    extract_lets -underBinder -merge -useContext +onlyGivenNames x1
    exact (Keeps.ite (foldStep_keeps (by assumption)) (by assumption))

theorem publishFolds_keeps {a v0} (g0 : Keeps a v0) :
    Keeps a (Sys2Proof.Machine.publishFolds v0) := by
  unfold Sys2Proof.Machine.publishFolds
  extract_lets -underBinder -merge -useContext +onlyGivenNames x0
  extract_lets -underBinder -merge -useContext +onlyGivenNames x1
  extract_lets -underBinder -merge -useContext +onlyGivenNames x2
  extract_lets -underBinder -merge -useContext +onlyGivenNames x3
  extract_lets -underBinder -merge -useContext +onlyGivenNames x4
  have h5 : Keeps a x4 := (Keeps.freshUp (by assumption))
  clear_value x4
  refine addObj_keeps ?_
  refine forEach_keeps (P := Keeps a) ?_ (by assumption)
  intro y6 y7 k8
  exact publish_keeps (by assumption)

theorem numericsEdge_keeps {a v0} (g0 : Keeps a v0) :
    Keeps a (Sys2Proof.Machine.numericsEdge v0) := by
  unfold Sys2Proof.Machine.numericsEdge
  extract_lets -underBinder -merge -useContext +onlyGivenNames x0
  have h1 : Keeps a x0 := (Keeps.ite (readRecords_keeps (by assumption)) (followArea_keeps (by assumption)))
  clear_value x0
  extract_lets -underBinder -merge -useContext +onlyGivenNames x2
  have h3 : Keeps a x2 := (adoptRecords_keeps (Keeps.ite (publishFolds_keeps (by assumption)) (by assumption)))
  clear_value x2
  exact (Keeps.ite (followRecords_keeps (by assumption)) (by assumption))

theorem numericsLatch_keeps {a v0} (g0 : Keeps a v0) :
    Keeps a (Sys2Proof.Machine.numericsLatch v0) := by
  unfold Sys2Proof.Machine.numericsLatch
  refine Keeps.ite ?_ (by assumption)
  refine followRecords_keeps ?_
  refine forEach_keeps (P := Keeps a) ?_ (by assumption)
  intro y0 y1 k2
  exact foldRecord_keeps (by assumption)

end Sys2Proof.Laws
end

