-- ==== Sys2Proof/Laws/KeepsAdmission.lean ====
section
/-! SUPPORT. What the operations of the latch keep. -/

set_option Elab.async false

namespace Sys2Proof.Laws

open Sys2Proof.Machine Sys2Proof.Safety

theorem applyStaged_keeps {a v0 v1} (g1 : Keeps a v1) :
    Keeps a (Sys2Proof.Machine.applyStaged v0 v1) := by
  unfold Sys2Proof.Machine.applyStaged
  extract_lets -underBinder -merge -useContext +onlyGivenNames x0
  refine Keeps.ite (by assumption) ?_
  extract_lets -underBinder -merge -useContext +onlyGivenNames x1
  refine Keeps.ite (by assumption) ?_
  refine Keeps.ite (deviceWrite_keeps (by assumption)) ?_
  refine Keeps.ite (by assumption) ?_
  extract_lets -underBinder -merge -useContext +onlyGivenNames x2
  extract_lets -underBinder -merge -useContext +onlyGivenNames x3
  extract_lets -underBinder -merge -useContext +onlyGivenNames x4
  extract_lets -underBinder -merge -useContext +onlyGivenNames x5
  extract_lets -underBinder -merge -useContext +onlyGivenNames x6
  extract_lets -underBinder -merge -useContext +onlyGivenNames x7
  extract_lets -underBinder -merge -useContext +onlyGivenNames x8
  extract_lets -underBinder -merge -useContext +onlyGivenNames x9
  have h10 : Keeps a x9 := (modCore_keeps (by assumption))
  clear_value x9
  extract_lets -underBinder -merge -useContext +onlyGivenNames x11
  have h12 : Keeps a x11 := (deviceWrite_keeps (by assumption))
  clear_value x11
  extract_lets -underBinder -merge -useContext +onlyGivenNames x13
  have h14 : Keeps a x13 := (deviceWrite_keeps (by assumption))
  clear_value x13
  extract_lets -underBinder -merge -useContext +onlyGivenNames x15
  have h16 : Keeps a x15 := (addObj_keeps (addObj_keeps (by assumption)))
  clear_value x15
  extract_lets -underBinder -merge -useContext +onlyGivenNames x17
  have h18 : ∀ {y0 y1 y2}, Keeps a y2 → Keeps a (x17 y0 y1 y2) := by
    intro y19 y20 y21 k22
    unfold x17
    split
    · assumption
    · exact traceInfo_keeps (by assumption)
  clear_value x17
  exact (h18 (h18 (by assumption)))

theorem applyAllStaged_keeps {a v0} (g0 : Keeps a v0) :
    Keeps a (Sys2Proof.Machine.applyAllStaged v0) := by
  unfold Sys2Proof.Machine.applyAllStaged
  refine forUpTo_keeps (P := Keeps a) ?_ (by assumption)
  intro y0 y1 k2
  exact applyStaged_keeps (by assumption)

theorem admitOn_keeps {a v0 v1 v2 v3 v4 v5} (g5 : Keeps a v5) :
    Keeps a (Sys2Proof.Machine.admitOn v0 v1 v2 v3 v4 v5) := by
  unfold Sys2Proof.Machine.admitOn
  extract_lets -underBinder -merge -useContext +onlyGivenNames x0
  extract_lets -underBinder -merge -useContext +onlyGivenNames x1
  extract_lets -underBinder -merge -useContext +onlyGivenNames x2
  extract_lets -underBinder -merge -useContext +onlyGivenNames x3
  have h4 : Keeps a x3 := (setGang_keeps (by assumption))
  clear_value x3
  extract_lets -underBinder -merge -useContext +onlyGivenNames x5
  extract_lets -underBinder -merge -useContext +onlyGivenNames x6
  have h7 : Keeps a x6 := (setStep_keeps (by assumption))
  clear_value x6
  exact countStep_keeps (by assumption)

theorem refuse_keeps {a v0 v1 v2 v3} (g3 : Keeps a v3) :
    Keeps a (Sys2Proof.Machine.refuse v0 v1 v2 v3) := by
  unfold Sys2Proof.Machine.refuse
  exact (countStep_keeps (setStep_keeps (by assumption)))

theorem admitOne_keeps {a v0 v1 v2} (g2 : Keeps a v2) :
    Keeps a (Sys2Proof.Machine.admitOne v0 v1 v2) := by
  unfold Sys2Proof.Machine.admitOne
  extract_lets -underBinder -merge -useContext +onlyGivenNames x0
  split
  · exact refuse_keeps (by assumption)
  · extract_lets -underBinder -merge -useContext +onlyGivenNames x1
    extract_lets -underBinder -merge -useContext +onlyGivenNames x2
    extract_lets -underBinder -merge -useContext +onlyGivenNames x3
    extract_lets -underBinder -merge -useContext +onlyGivenNames x4
    exact (Keeps.ite (refuse_keeps (by assumption)) (Keeps.ite (refuse_keeps (by assumption)) (Keeps.ite (admitOn_keeps (by assumption)) (Keeps.ite (Keeps.ite (admitOn_keeps (by assumption)) (refuse_keeps (by assumption))) (Keeps.ite (refuse_keeps (by assumption)) (refuse_keeps (by assumption)))))))

theorem takeInput_keeps {a v0 v1} (g1 : Keeps a v1) :
    KeepsSnd a (Sys2Proof.Machine.takeInput v0 v1) := by
  unfold Sys2Proof.Machine.takeInput
  extract_lets -underBinder -merge -useContext +onlyGivenNames x0
  split
  · exact KeepsSnd.mk (by assumption)
  · exact (KeepsSnd.ite (KeepsSnd.mk (setStep_keeps (by assumption))) (KeepsSnd.mk (Keeps.ite (addObj_keeps (by assumption)) (by assumption))))

theorem dueFutures_keeps {a v0} (g0 : Keeps a v0) :
    KeepsSnd a (Sys2Proof.Machine.dueFutures v0) := by
  unfold Sys2Proof.Machine.dueFutures
  refine foldl_keeps (P := KeepsSnd a) ?_ (KeepsSnd.mk (by assumption))
  intro y0 y1 k2
  split
  rename_i m3 m4 e5
  have h6 := KeepsSnd.of_eq e5 (takeInput_keeps (by assumption))
  split
  · exact KeepsSnd.mk (by assumption)
  · exact KeepsSnd.mk (by assumption)

theorem walkPriority_keeps {a v0 v1 v2} (g2 : Keeps a v2) :
    Keeps a (Sys2Proof.Machine.walkPriority v0 v1 v2) := by
  unfold Sys2Proof.Machine.walkPriority
  extract_lets -underBinder -merge -useContext +onlyGivenNames x0
  extract_lets -underBinder -merge -useContext +onlyGivenNames x1
  extract_lets -underBinder -merge -useContext +onlyGivenNames x2
  extract_lets -underBinder -merge -useContext +onlyGivenNames x3
  have h7 : Keeps a x3 := by
    unfold x3
    refine forEach_keeps (P := Keeps a) ?_ (by assumption)
    intro y4 y5 k6
    exact admitOne_keeps (by assumption)
  clear_value x3
  split
  · exact Keeps.same (by assumption)
  · assumption

theorem openGang_keeps {a v0 v1 v2} (g2 : Keeps a v2) :
    Keeps a (Sys2Proof.Machine.openGang v0 v1 v2) := by
  unfold Sys2Proof.Machine.openGang
  extract_lets -underBinder -merge -useContext +onlyGivenNames x0
  extract_lets -underBinder -merge -useContext +onlyGivenNames x1
  extract_lets -underBinder -merge -useContext +onlyGivenNames x2
  extract_lets -underBinder -merge -useContext +onlyGivenNames x3
  extract_lets -underBinder -merge -useContext +onlyGivenNames x4
  extract_lets -underBinder -merge -useContext +onlyGivenNames x5
  exact setGang_keeps (by assumption)

theorem numberGangs_keeps {a v0} (g0 : Keeps a v0) :
    KeepsFst a (Sys2Proof.Machine.numberGangs v0) := by
  unfold Sys2Proof.Machine.numberGangs
  extract_lets -underBinder -merge -useContext +onlyGivenNames x0
  have h13 : KeepsFst a x0 := by
    unfold x0
    refine foldl_keeps (P := KeepsFst a) ?_ (KeepsFst.mk (by assumption))
    intro y1 y2 k3
    extract_lets -underBinder -merge -useContext +onlyGivenNames x4
    split
    rename_i m5 m6 e7
    have h8 := KeepsFst.of_eq e7 (by
      refine foldl_keeps (P := KeepsFst a) ?_ (KeepsFst.mk (by assumption))
      intro y9 y10 k11
      extract_lets -underBinder -merge -useContext +onlyGivenNames x12
      exact (KeepsFst.ite (by assumption) (KeepsFst.mk (setGang_keeps (by assumption))))
      )
    exact KeepsFst.mk (by assumption)
  clear_value x0
  exact KeepsFst.mk (by assumption)

theorem writeWorkList_keeps {a v0} (g0 : Keeps a v0) :
    Keeps a (Sys2Proof.Machine.writeWorkList v0) := by
  unfold Sys2Proof.Machine.writeWorkList
  split
  rename_i m10 m11 e12
  have h13 := KeepsFst.of_eq e12 (numberGangs_keeps (by assumption))
  extract_lets -underBinder -merge -useContext +onlyGivenNames x0
  refine Keeps.ite (by assumption) ?_
  extract_lets -underBinder -merge -useContext +onlyGivenNames x1
  extract_lets -underBinder -merge -useContext +onlyGivenNames x2
  have h6 : Keeps a x2 := by
    unfold x2
    refine forUpTo_keeps (P := Keeps a) ?_ (by assumption)
    intro y3 y4 k5
    exact deviceWrite_keeps (by assumption)
  clear_value x2
  refine forEach_keeps (P := Keeps a) ?_ (fresh_keeps (Nat.le_add_right _ 256) (by assumption))
  intro y7 y8 k9
  exact writeEntries_keeps (by assumption)

theorem noteBuild_keeps {a v0} (g0 : Keeps a v0) :
    Keeps a (Sys2Proof.Machine.noteBuild v0) := by
  unfold Sys2Proof.Machine.noteBuild
  split
  rename_i m5 m6 e7
  have h8 := KeepsSnd.of_eq e7 (freeWord_keeps (by assumption))
  extract_lets -underBinder -merge -useContext +onlyGivenNames x0
  extract_lets -underBinder -merge -useContext +onlyGivenNames x1
  have h2 : Keeps a x1 := (setObj_keeps (by assumption))
  clear_value x1
  extract_lets -underBinder -merge -useContext +onlyGivenNames x3
  have h4 : Keeps a x3 := (Keeps.ite (setObj_keeps (by assumption)) (by assumption))
  clear_value x3
  exact Keeps.same (by assumption)

theorem admitAll_keeps {a v0} (g0 : Keeps a v0) :
    Keeps a (Sys2Proof.Machine.admitAll v0) := by
  unfold Sys2Proof.Machine.admitAll
  extract_lets -underBinder -merge -useContext +onlyGivenNames x0
  extract_lets -underBinder -merge -useContext +onlyGivenNames x1
  have h5 : Keeps a x1 := by
    unfold x1
    refine forEach_keeps (P := Keeps a) ?_ (by assumption)
    intro y2 y3 k4
    exact openGang_keeps (by assumption)
  clear_value x1
  extract_lets -underBinder -merge -useContext +onlyGivenNames x6
  have h7 : Keeps a x6 := by
    unfold x6
    refine h5.tables fun c => { c with gangs := ?_ }
    exact mapGangs_sorted (fun gg => if holdsCarried gg then gg else { gg with carry := none }) _ c.gangs
  clear_value x6
  refine Keeps.ite (by assumption) ?_
  split
  rename_i m11 m12 e13
  have h14 := KeepsSnd.of_eq e13 (dueFutures_keeps (by assumption))
  refine forEach_keeps (P := Keeps a) ?_ (by assumption)
  intro y8 y9 k10
  exact walkPriority_keeps (by assumption)

theorem keptSteps_sorted {m : NMap StepRec} (h : MapSorted m) : MapSorted (keptSteps m) := by
  unfold keptSteps
  exact MapSorted.mapValues _ _ (fun _ => rfl) (MapSorted.filter _ _ h)

theorem execInputLatch_keeps {a s} (h : Keeps a s) : KeepsOut a (execInputLatch s) := by
  unfold execInputLatch
  refine KeepsOut.ite (KeepsOut.next h) ?_
  extract_lets -underBinder -merge -useContext +onlyGivenNames t ti u v
  have ht : Keeps a t := advanceTo_keeps h
  clear_value t
  have hu : Keeps a u := Keeps.same
    (ht.tables (t := { t with steps := keptSteps t.steps }) fun c => { c with steps := keptSteps_sorted c.steps })
  clear_value u
  exact KeepsOut.next (noteBuild_keeps (writeWorkList_keeps (admitAll_keeps
    (applyAllStaged_keeps (applyOperations_keeps (numericsLatch_keeps hu))))))

end Sys2Proof.Laws
end

