-- ==== Sys2Proof/Laws/KeepsControl.lean ====
section
/-! SUPPORT. What the operations of the control core and engine queues keep. -/

set_option Elab.async false

namespace Sys2Proof.Laws

open Sys2Proof.Machine Sys2Proof.Safety

theorem haltPond_keeps {a v0 v1} (g1 : Keeps a v1) :
    Keeps a (Sys2Proof.Machine.haltPond v0 v1) := by
  unfold Sys2Proof.Machine.haltPond
  extract_lets -underBinder -merge -useContext +onlyGivenNames x0
  have h1 : Keeps a x0 := (modPond_keeps (by assumption))
  clear_value x0
  exact Keeps.same (by assumption)

theorem haltGang_keeps {a v0 v1} (g1 : Keeps a v1) :
    Keeps a (Sys2Proof.Machine.haltGang v0 v1) := by
  unfold Sys2Proof.Machine.haltGang
  refine forEach_keeps (P := Keeps a) ?_ (by assumption)
  intro y0 y1 k2
  exact (Keeps.ite (by assumption) (haltPond_keeps (by assumption)))

theorem fetchEnds_keeps {a v0 v1 v2 v3 v4 v5} (g5 : Keeps a v5) :
    KeepsOpt a (Sys2Proof.Machine.fetchEnds v0 v1 v2 v3 v4 v5) := by
  unfold Sys2Proof.Machine.fetchEnds
  extract_lets -underBinder -merge -useContext +onlyGivenNames x0
  extract_lets -underBinder -merge -useContext +onlyGivenNames x1
  refine KeepsOpt.ite ?_ ?_
  · extract_lets -underBinder -merge -useContext +onlyGivenNames x2
    extract_lets -underBinder -merge -useContext +onlyGivenNames x3
    extract_lets -underBinder -merge -useContext +onlyGivenNames x4
    have h5 : Keeps a x4 := (Keeps.same (by assumption))
    clear_value x4
    extract_lets -underBinder -merge -useContext +onlyGivenNames x6
    exact (KeepsOpt.some (Keeps.ite (haltGang_keeps (by assumption)) (haltPond_keeps (by assumption))))
  · refine KeepsOpt.ite (KeepsOpt.some (modPond_keeps (by assumption))) ?_
    refine KeepsOpt.ite ?_ KeepsOpt.none
    extract_lets -underBinder -merge -useContext +onlyGivenNames x7
    have h8 : Keeps a x7 := (modPond_keeps (by assumption))
    clear_value x7
    extract_lets -underBinder -merge -useContext +onlyGivenNames x9
    have h10 : Keeps a x9 := (traceFault_keeps (addObj_keeps (by assumption)))
    clear_value x9
    exact (KeepsOpt.some (startExit_keeps (by assumption)))

theorem fetchMarks_keeps {a v0 v1 v2 v3 v4 v5} (g5 : Keeps a v5) :
    Keeps a (Sys2Proof.Machine.fetchMarks v0 v1 v2 v3 v4 v5) := by
  unfold Sys2Proof.Machine.fetchMarks
  extract_lets -underBinder -merge -useContext +onlyGivenNames x0
  have h1 : Keeps a x0 := (Keeps.ite (traceFault_keeps (addObj_keeps (by assumption))) (by assumption))
  clear_value x0
  extract_lets -underBinder -merge -useContext +onlyGivenNames x2
  have h3 : Keeps a x2 := (Keeps.ite (checkpointAt_keeps (by assumption)) (by assumption))
  clear_value x2
  exact modPond_keeps (by assumption)

theorem endMetWaits_keeps {a v0 v1} (g1 : Keeps a v1) :
    Keeps a (Sys2Proof.Machine.endMetWaits v0 v1) := by
  unfold Sys2Proof.Machine.endMetWaits
  extract_lets -underBinder -merge -useContext +onlyGivenNames x0
  extract_lets -underBinder -merge -useContext +onlyGivenNames x1
  extract_lets -underBinder -merge -useContext +onlyGivenNames x2
  refine Keeps.ite (by assumption) ?_
  extract_lets -underBinder -merge -useContext +onlyGivenNames x3
  have h7 : Keeps a x3 := by
    unfold x3
    refine forEach_keeps (P := Keeps a) ?_ (by assumption)
    intro y4 y5 k6
    exact countWait_keeps (by assumption)
  clear_value x3
  extract_lets -underBinder -merge -useContext +onlyGivenNames x8
  have h9 : Keeps a x8 := (Keeps.ite (countWait_keeps (by assumption)) (by assumption))
  clear_value x8
  exact modPond_keeps (by assumption)

theorem signalPond_keeps {a v0 v1 v2 v3 v4 v5} (g5 : Keeps a v5) :
    Keeps a (Sys2Proof.Machine.signalPond v0 v1 v2 v3 v4 v5) := by
  unfold Sys2Proof.Machine.signalPond
  split
  extract_lets -underBinder -merge -useContext +onlyGivenNames x0
  have h1 : Keeps a x0 := (endMetWaits_keeps (modPond_keeps (by assumption)))
  clear_value x0
  refine Keeps.ite ?_ (by assumption)
  extract_lets -underBinder -merge -useContext +onlyGivenNames x2
  have h3 : Keeps a x2 := (addObj_keeps (by assumption))
  clear_value x2
  exact (Keeps.ite (startExit_keeps (by assumption)) (by assumption))

theorem signalDone_keeps {a v0 v1 v2} (g2 : Keeps a v2) :
    Keeps a (Sys2Proof.Machine.signalDone v0 v1 v2) := by
  unfold Sys2Proof.Machine.signalDone
  exact (Keeps.ite (signalPond_keeps (by assumption)) (by assumption))

theorem setProgress_keeps {a v0 v1 v2} (g2 : Keeps a v2) :
    Keeps a (Sys2Proof.Machine.setProgress v0 v1 v2) := by
  unfold Sys2Proof.Machine.setProgress
  exact modCore_keeps (by assumption)

theorem waitSection_keeps {a v0 v1 v2} (g2 : Keeps a v2) :
    Keeps a (Sys2Proof.Machine.waitSection v0 v1 v2) := by
  unfold Sys2Proof.Machine.waitSection
  extract_lets -underBinder -merge -useContext +onlyGivenNames x0
  have h1 : KeepsSnd a x0 := (renewWait_keeps (by assumption))
  clear_value x0
  exact modCore_keeps (by assumption)

theorem noteControlHalo_keeps {a v0 v1 v2 v3} (g3 : Keeps a v3) :
    Keeps a (Sys2Proof.Machine.noteControlHalo v0 v1 v2 v3) := by
  unfold Sys2Proof.Machine.noteControlHalo
  split
  · assumption
  · exact waitSection_keeps (by assumption)

theorem fetchControl_keeps {a v0 v1 v2 v3 v4 v5} (g5 : Keeps a v5) :
    KeepsFst a (Sys2Proof.Machine.fetchControl v0 v1 v2 v3 v4 v5) := by
  unfold Sys2Proof.Machine.fetchControl
  refine KeepsFst.ite (KeepsFst.mk (by assumption)) ?_
  split
  · rename_i m0 e1
    have h2 := KeepsOpt.of_eq e1 (fetchEnds_keeps (by assumption))
    exact KeepsFst.mk (by assumption)
  · exact (KeepsFst.mk (setProgress_keeps (fetchMarks_keeps (by assumption))))

theorem startControl_keeps {a v0 v1 v2 v3} (g3 : Keeps a v3) :
    Keeps a (Sys2Proof.Machine.startControl v0 v1 v2 v3) := by
  unfold Sys2Proof.Machine.startControl
  extract_lets -underBinder -merge -useContext +onlyGivenNames x0
  have h1 : Keeps a x0 := (modPond_keeps (countWait_keeps (by assumption)))
  clear_value x0
  exact (traceInfo_keeps (addObj_keeps (setProgress_keeps (by assumption))))

theorem endControl_keeps {a v0 v1 v2 v3} (g3 : Keeps a v3) :
    Keeps a (Sys2Proof.Machine.endControl v0 v1 v2 v3) := by
  unfold Sys2Proof.Machine.endControl
  extract_lets -underBinder -merge -useContext +onlyGivenNames x0
  exact (signalDone_keeps (traceInfo_keeps (by assumption)))

theorem controlAt_keeps {a v0 v1 v2 v3} (g2 : Keeps a v2) (g3 : ∀ {y0 y1 y2 y3}, Keeps a y3 → Keeps a (v3 y0 y1 y2 y3)) :
    KeepsOut a (Sys2Proof.Machine.controlAt v0 v1 v2 v3) := by
  unfold Sys2Proof.Machine.controlAt
  refine onPond_keeps (by assumption) ?_
  intro y0
  extract_lets -underBinder -merge -useContext +onlyGivenNames x1
  refine Keeps.ite ?_ (by assumption)
  split
  · assumption
  · refine Keeps.ite ?_ (by assumption)
    split
    · rename_i m2 e3
      have h4 := KeepsFst.of_eq e3 (fetchControl_keeps (by assumption))
      assumption
    · rename_i m5 e6
      have h7 := KeepsFst.of_eq e6 (fetchControl_keeps (by assumption))
      exact (Keeps.ite (g3 (by assumption)) (Keeps.ite (g3 (startControl_keeps (by assumption))) (noteControlHalo_keeps (by assumption))))

theorem onControl_keeps {a v0 v1 v2 v3} (g2 : Keeps a v2) (g3 : ∀ {y0 y1 y2 y3}, Keeps a y3 → KeepsFst a (v3 y0 y1 y2 y3)) :
    KeepsOut a (Sys2Proof.Machine.onControl v0 v1 v2 v3) := by
  unfold Sys2Proof.Machine.onControl
  refine controlAt_keeps (by assumption) ?_
  intro y0 y1 y2 y3 k4
  split
  · rename_i m5 e6
    have h7 := KeepsFst.of_eq e6 (g3 (by assumption))
    assumption
  · rename_i m8 e9
    have h10 := KeepsFst.of_eq e9 (g3 (by assumption))
    exact endControl_keeps (by assumption)

theorem retire_keeps {a v0 v1 v2 v3} (g3 : Keeps a v3) :
    KeepsFst a (Sys2Proof.Machine.retire v0 v1 v2 v3) := by
  unfold Sys2Proof.Machine.retire
  exact (KeepsFst.mk (modPond_keeps (by assumption)))

theorem exits_keeps {a v0 v1 v2 v3} (g3 : Keeps a v3) :
    KeepsFst a (Sys2Proof.Machine.exits v0 v1 v2 v3) := by
  unfold Sys2Proof.Machine.exits
  exact (KeepsFst.mk (startExit_keeps (by assumption)))

theorem execSet_keeps {a v0 v1} (g1 : Keeps a v1) :
    KeepsOut a (Sys2Proof.Machine.execSet v0 v1) := by
  unfold Sys2Proof.Machine.execSet
  refine onControl_keeps (by assumption) ?_
  intro y0 y1 y2 y3 k4
  exact retire_keeps (by assumption)

theorem execAlu_keeps {a v0 v1} (g1 : Keeps a v1) :
    KeepsOut a (Sys2Proof.Machine.execAlu v0 v1) := by
  unfold Sys2Proof.Machine.execAlu
  refine onControl_keeps (by assumption) ?_
  intro y0 y1 y2 y3 k4
  exact retire_keeps (by assumption)

theorem noAccess_keeps {a v0 v1 v2 v3} (g3 : Keeps a v3) :
    KeepsFst a (Sys2Proof.Machine.noAccess v0 v1 v2 v3) := by
  unfold Sys2Proof.Machine.noAccess
  exact (exits_keeps (Keeps.ite (unmappedAccess_keeps (by assumption)) (by assumption)))

theorem execLoad_keeps {a v0 v1} (g1 : Keeps a v1) :
    KeepsOut a (Sys2Proof.Machine.execLoad v0 v1) := by
  unfold Sys2Proof.Machine.execLoad
  refine onControl_keeps (by assumption) ?_
  intro y0 y1 y2 y3 k4
  extract_lets -underBinder -merge -useContext +onlyGivenNames x5
  exact (KeepsFst.ite (noAccess_keeps (by assumption)) (KeepsFst.ite (exits_keeps (by assumption)) (KeepsFst.ite (KeepsFst.mk (waitSection_keeps (by assumption))) (retire_keeps (countBytes_keeps (countWait_keeps (by assumption)))))))

theorem execStore_keeps {a v0 v1} (g1 : Keeps a v1) :
    KeepsOut a (Sys2Proof.Machine.execStore v0 v1) := by
  unfold Sys2Proof.Machine.execStore
  refine onControl_keeps (by assumption) ?_
  intro y0 y1 y2 y3 k4
  extract_lets -underBinder -merge -useContext +onlyGivenNames x5
  refine KeepsFst.ite (noAccess_keeps (by assumption)) ?_
  extract_lets -underBinder -merge -useContext +onlyGivenNames x6
  extract_lets -underBinder -merge -useContext +onlyGivenNames x7
  have h8 : Keeps a x7 := (Keeps.ite (addObj_keeps (by assumption)) (deviceAgentWrite_keeps (countBytes_keeps (by assumption))))
  clear_value x7
  exact retire_keeps (by assumption)

theorem execLoop_keeps {a v0 v1} (g1 : Keeps a v1) :
    KeepsOut a (Sys2Proof.Machine.execLoop v0 v1) := by
  unfold Sys2Proof.Machine.execLoop
  refine onControl_keeps (by assumption) ?_
  intro y0 y1 y2 y3 k4
  extract_lets -underBinder -merge -useContext +onlyGivenNames x5
  exact retire_keeps (by assumption)

theorem execEndloop_keeps {a v0 v1} (g1 : Keeps a v1) :
    KeepsOut a (Sys2Proof.Machine.execEndloop v0 v1) := by
  unfold Sys2Proof.Machine.execEndloop
  refine onControl_keeps (by assumption) ?_
  intro y0 y1 y2 y3 k4
  extract_lets -underBinder -merge -useContext +onlyGivenNames x5
  exact retire_keeps (by assumption)

theorem execCmp_keeps {a v0 v1} (g1 : Keeps a v1) :
    KeepsOut a (Sys2Proof.Machine.execCmp v0 v1) := by
  unfold Sys2Proof.Machine.execCmp
  refine onControl_keeps (by assumption) ?_
  intro y0 y1 y2 y3 k4
  extract_lets -underBinder -merge -useContext +onlyGivenNames x5
  exact retire_keeps (by assumption)

theorem execBr_keeps {a v0 v1} (g1 : Keeps a v1) :
    KeepsOut a (Sys2Proof.Machine.execBr v0 v1) := by
  unfold Sys2Proof.Machine.execBr
  refine onControl_keeps (by assumption) ?_
  intro y0 y1 y2 y3 k4
  extract_lets -underBinder -merge -useContext +onlyGivenNames x5
  extract_lets -underBinder -merge -useContext +onlyGivenNames x6
  exact retire_keeps (by assumption)

theorem execSigpeer_keeps {a v0 v1} (g1 : Keeps a v1) :
    KeepsOut a (Sys2Proof.Machine.execSigpeer v0 v1) := by
  unfold Sys2Proof.Machine.execSigpeer
  refine onControl_keeps (by assumption) ?_
  intro y0 y1 y2 y3 k4
  extract_lets -underBinder -merge -useContext +onlyGivenNames x5
  split
  · exact exits_keeps (by assumption)
  · extract_lets -underBinder -merge -useContext +onlyGivenNames x6
    extract_lets -underBinder -merge -useContext +onlyGivenNames x7
    extract_lets -underBinder -merge -useContext +onlyGivenNames x8
    have h9 : Keeps a x8 := (Keeps.ite (by assumption) (modPond_keeps (by assumption)))
    clear_value x8
    exact retire_keeps (by assumption)

theorem execPeerSignalArrival_keeps {a v0 v1} (g1 : Keeps a v1) :
    KeepsOut a (Sys2Proof.Machine.execPeerSignalArrival v0 v1) := by
  unfold Sys2Proof.Machine.execPeerSignalArrival
  refine onPond_keeps (by assumption) ?_
  intro y0
  split
  · assumption
  · extract_lets -underBinder -merge -useContext +onlyGivenNames x1
    have h2 : Keeps a x1 := (advanceTo_keeps (by assumption))
    clear_value x1
    extract_lets -underBinder -merge -useContext +onlyGivenNames x3
    have h4 : Keeps a x3 := (modCore_keeps (by assumption))
    clear_value x3
    exact signalPond_keeps (by assumption)

theorem execFence_keeps {a v0 v1} (g1 : Keeps a v1) :
    KeepsOut a (Sys2Proof.Machine.execFence v0 v1) := by
  unfold Sys2Proof.Machine.execFence
  refine onControl_keeps (by assumption) ?_
  intro y0 y1 y2 y3 k4
  exact (KeepsFst.ite (retire_keeps (by assumption)) (KeepsFst.mk (by assumption)))

theorem execErr_keeps {a v0 v1} (g1 : Keeps a v1) :
    KeepsOut a (Sys2Proof.Machine.execErr v0 v1) := by
  unfold Sys2Proof.Machine.execErr
  refine onControl_keeps (by assumption) ?_
  intro y0 y1 y2 y3 k4
  exact exits_keeps (by assumption)

theorem execNop_keeps {a v0 v1} (g1 : Keeps a v1) :
    KeepsOut a (Sys2Proof.Machine.execNop v0 v1) := by
  unfold Sys2Proof.Machine.execNop
  refine onControl_keeps (by assumption) ?_
  intro y0 y1 y2 y3 k4
  exact retire_keeps (by assumption)

theorem execResume_keeps {a v0 v1} (g1 : Keeps a v1) :
    KeepsOut a (Sys2Proof.Machine.execResume v0 v1) := by
  unfold Sys2Proof.Machine.execResume
  refine onControl_keeps (by assumption) ?_
  intro y0 y1 y2 y3 k4
  exact retire_keeps (by assumption)

theorem pushCommand_keeps {a v0 v1 v2 v3} (g3 : Keeps a v3) :
    Keeps a (Sys2Proof.Machine.pushCommand v0 v1 v2 v3) := by
  unfold Sys2Proof.Machine.pushCommand
  extract_lets -underBinder -merge -useContext +onlyGivenNames x0
  extract_lets -underBinder -merge -useContext +onlyGivenNames x1
  extract_lets -underBinder -merge -useContext +onlyGivenNames x2
  extract_lets -underBinder -merge -useContext +onlyGivenNames x3
  extract_lets -underBinder -merge -useContext +onlyGivenNames x4
  exact (Keeps.ite (addObj_keeps (setPond_keeps (by assumption))) (setPond_keeps (by assumption)))

theorem execCommandPush_keeps {a v0 v1 v2 v3} (g3 : Keeps a v3) :
    KeepsOut a (Sys2Proof.Machine.execCommandPush v0 v1 v2 v3) := by
  unfold Sys2Proof.Machine.execCommandPush
  refine onPond_keeps (by assumption) ?_
  intro y0
  extract_lets -underBinder -merge -useContext +onlyGivenNames x1
  have h2 : Keeps a x1 := (advanceTo_keeps (by assumption))
  clear_value x1
  extract_lets -underBinder -merge -useContext +onlyGivenNames x3
  refine Keeps.ite (by assumption) ?_
  split
  · split
    · exact startExit_keeps (by assumption)
    · assumption
  · refine Keeps.ite (Keeps.ite (by assumption) (fetchControl_keeps (by assumption))) ?_
    split
    · rename_i m4 e5
      have h6 := KeepsOpt.of_eq e5 (fetchEnds_keeps (by assumption))
      assumption
    · extract_lets -underBinder -merge -useContext +onlyGivenNames x7
      have h8 : Keeps a x7 := (fetchMarks_keeps (by assumption))
      clear_value x7
      exact (Keeps.ite (startExit_keeps (traceFault_keeps (addObj_keeps (by assumption)))) (pushCommand_keeps (by assumption)))
  · assumption

theorem execQueueSlotFreed_keeps {a v0 v1 v2} (g2 : Keeps a v2) :
    KeepsOut a (Sys2Proof.Machine.execQueueSlotFreed v0 v1 v2) := by
  unfold Sys2Proof.Machine.execQueueSlotFreed
  refine onPond_keeps (by assumption) ?_
  intro y0
  extract_lets -underBinder -merge -useContext +onlyGivenNames x1
  split
  · assumption
  · extract_lets -underBinder -merge -useContext +onlyGivenNames x2
    refine Keeps.ite ?_ (by assumption)
    extract_lets -underBinder -merge -useContext +onlyGivenNames x3
    have h4 : Keeps a x3 := (advanceTo_keeps (by assumption))
    clear_value x3
    extract_lets -underBinder -merge -useContext +onlyGivenNames x5
    extract_lets -underBinder -merge -useContext +onlyGivenNames x6
    exact (addObj_keeps (addObj_keeps (setPond_keeps (by assumption))))

theorem discardBare_keeps {a v0 v1 v2} (g2 : Keeps a v2) :
    Keeps a (Sys2Proof.Machine.discardBare v0 v1 v2) := by
  unfold Sys2Proof.Machine.discardBare
  exact (startExit_keeps (traceFault_keeps (addObj_keeps (by assumption))))

theorem discard_keeps {a v0 v1 v2 v3} (g3 : Keeps a v3) :
    Keeps a (Sys2Proof.Machine.discard v0 v1 v2 v3) := by
  unfold Sys2Proof.Machine.discard
  exact (discardBare_keeps (Keeps.ite (by assumption) (addObj_keeps (by assumption))))

theorem ran_keeps {a v0} (g0 : Keeps a v0) :
    KeepsSt a (Sys2Proof.Machine.ran v0) := by
  unfold Sys2Proof.Machine.ran
  assumption

theorem ended_keeps {a v0 v1} (g1 : Keeps a v1) :
    KeepsSt a (Sys2Proof.Machine.ended v0 v1) := by
  unfold Sys2Proof.Machine.ended
  assumption

theorem ownWrites_keeps {a v0 v1 v2 v3} (g3 : Keeps a v3) :
    Keeps a (Sys2Proof.Machine.ownWrites v0 v1 v2 v3) := by
  unfold Sys2Proof.Machine.ownWrites
  refine Keeps.ite (by assumption) ?_
  extract_lets -underBinder -merge -useContext +onlyGivenNames x0
  exact Keeps.same (by assumption)

theorem startQueued_keeps {a v0 v1 v2 v3 v4} (g3 : ∀ {y0 y1 y2}, Keeps a y2 → KeepsSt a (v3 y0 y1 y2)) (g4 : Keeps a v4) :
    Keeps a (Sys2Proof.Machine.startQueued v0 v1 v2 v3 v4) := by
  unfold Sys2Proof.Machine.startQueued
  extract_lets -underBinder -merge -useContext +onlyGivenNames x0
  extract_lets -underBinder -merge -useContext +onlyGivenNames x1
  have h2 : Keeps a x1 := (modPond_keeps (by assumption))
  clear_value x1
  extract_lets -underBinder -merge -useContext +onlyGivenNames x3
  have h4 : Keeps a x3 := (traceInfo_keeps (by assumption))
  clear_value x3
  extract_lets -underBinder -merge -useContext +onlyGivenNames x5
  have h6 : KeepsSt a x5 := (g3 (by assumption))
  clear_value x5
  split
  · exact startExit_keeps (by assumption)
  · exact (modPond_keeps (ownWrites_keeps (by assumption)))

theorem countBusy_keeps {a v0 v1 v2 v3 v4} (g4 : Keeps a v4) :
    Keeps a (Sys2Proof.Machine.countBusy v0 v1 v2 v3 v4) := by
  unfold Sys2Proof.Machine.countBusy
  extract_lets -underBinder -merge -useContext +onlyGivenNames x0
  exact (Keeps.ite (by assumption) (addObj_keeps (modPond_keeps (by assumption))))

theorem countIdle_keeps {a v0 v1 v2} (g2 : Keeps a v2) :
    Keeps a (Sys2Proof.Machine.countIdle v0 v1 v2) := by
  unfold Sys2Proof.Machine.countIdle
  extract_lets -underBinder -merge -useContext +onlyGivenNames x0
  extract_lets -underBinder -merge -useContext +onlyGivenNames x1
  have h2 : Keeps a x1 := (Keeps.ite (countBusy_keeps (by assumption)) (by assumption))
  clear_value x1
  extract_lets -underBinder -merge -useContext +onlyGivenNames x3
  have h4 : Keeps a x3 := (Keeps.ite (countBusy_keeps (by assumption)) (by assumption))
  clear_value x3
  exact countBusy_keeps (by assumption)

theorem noteHalo_keeps {a v0 v1 v2 v3 v4 v5} (g5 : Keeps a v5) :
    Keeps a (Sys2Proof.Machine.noteHalo v0 v1 v2 v3 v4 v5) := by
  unfold Sys2Proof.Machine.noteHalo
  split
  · assumption
  · exact (Keeps.ite (by assumption) (setPond_keeps (by assumption)))

theorem noteRefetch_keeps {a v0 v1 v2 v3 v4 v5} (g5 : Keeps a v5) :
    Keeps a (Sys2Proof.Machine.noteRefetch v0 v1 v2 v3 v4 v5) := by
  unfold Sys2Proof.Machine.noteRefetch
  extract_lets -underBinder -merge -useContext +onlyGivenNames x0
  have h1 : KeepsSnd a x0 := (renewWait_keeps (by assumption))
  clear_value x0
  exact setPond_keeps (by assumption)

theorem onHeadIf_keeps {a v0 v1 v2 v3 v4 v5 v6 v7 v8} (g4 : Keeps a v4) (g7 : ∀ {y0 y1 y2}, Keeps a y2 → KeepsSt a (v7 y0 y1 y2)) :
    KeepsOut a (Sys2Proof.Machine.onHeadIf v0 v1 v2 v3 v4 v5 v6 v7 v8) := by
  unfold Sys2Proof.Machine.onHeadIf
  refine onPond_keeps (by assumption) ?_
  intro y0
  extract_lets -underBinder -merge -useContext +onlyGivenNames x1
  split
  · assumption
  · refine Keeps.ite (by assumption) ?_
    refine Keeps.ite (noteHalo_keeps (by assumption)) ?_
    refine Keeps.ite (by assumption) ?_
    refine Keeps.ite (noteRefetch_keeps (by assumption)) ?_
    refine Keeps.ite ?_ (discard_keeps (setPond_keeps (countWait_keeps (by assumption))))
    refine Keeps.ite ?_ (by assumption)
    refine startQueued_keeps ?_ (countWait_keeps (by assumption))
    intro y2 y3 y4 k5
    exact g7 (by assumption)

theorem onHead_keeps {a v0 v1 v2 v3 v4 v5 v6 v7 v8} (g4 : Keeps a v4) (g7 : ∀ {y0 y1 y2}, Keeps a y2 → KeepsSt a (v7 y0 y1 y2)) :
    KeepsOut a (Sys2Proof.Machine.onHead v0 v1 v2 v3 v4 v5 v6 v7 v8) := by
  unfold Sys2Proof.Machine.onHead
  refine onHeadIf_keeps (by assumption) ?_
  intro y0 y1 y2 k3
  exact g7 (by assumption)

theorem arriveAt_keeps {a v0 v1 v2 v3} (g3 : Keeps a v3) :
    Keeps a (Sys2Proof.Machine.arriveAt v0 v1 v2 v3) := by
  unfold Sys2Proof.Machine.arriveAt
  split
  · assumption
  · extract_lets -underBinder -merge -useContext +onlyGivenNames x0
    extract_lets -underBinder -merge -useContext +onlyGivenNames x1
    have h2 : Keeps a x1 := (modPond_keeps (by assumption))
    clear_value x1
    exact signalPond_keeps (by assumption)

theorem onStream_keeps {a v0 v1 v2 v3} (g2 : Keeps a v2) (g3 : ∀ {y0 y1 y2}, Keeps a y2 → KeepsSt a (v3 y0 y1 y2)) :
    KeepsOut a (Sys2Proof.Machine.onStream v0 v1 v2 v3) := by
  unfold Sys2Proof.Machine.onStream
  refine onPond_keeps (by assumption) ?_
  intro y0
  split
  · split
    · exact (Keeps.ite (noteHalo_keeps (by assumption)) (by assumption))
    · assumption
  · refine Keeps.ite (by assumption) ?_
    refine Keeps.ite (discardBare_keeps (setPond_keeps (countWait_keeps (by assumption)))) ?_
    refine Keeps.ite (startExit_keeps (traceFault_keeps (setPond_keeps (countWait_keeps (by assumption))))) ?_
    refine Keeps.ite ?_ (by assumption)
    refine startQueued_keeps ?_ (countWait_keeps (by assumption))
    intro y1 y2 y3 k4
    exact g3 (by assumption)

theorem execSconf_keeps {a v0 v1} (g1 : Keeps a v1) :
    KeepsOut a (Sys2Proof.Machine.execSconf v0 v1) := by
  unfold Sys2Proof.Machine.execSconf
  refine onStream_keeps (by assumption) ?_
  intro y0 y1 y2 k3
  extract_lets -underBinder -merge -useContext +onlyGivenNames x4
  extract_lets -underBinder -merge -useContext +onlyGivenNames x5
  extract_lets -underBinder -merge -useContext +onlyGivenNames x6
  extract_lets -underBinder -merge -useContext +onlyGivenNames x7
  extract_lets -underBinder -merge -useContext +onlyGivenNames x8
  exact (ran_keeps (modPond_keeps (countStall_keeps (by assumption))))

theorem noteCreditWaits_keeps {a v0 v1} (g1 : Keeps a v1) :
    Keeps a (Sys2Proof.Machine.noteCreditWaits v0 v1) := by
  unfold Sys2Proof.Machine.noteCreditWaits
  exact modPond_keeps (by assumption)

theorem execSsend_keeps {a v0 v1} (g1 : Keeps a v1) :
    KeepsOut a (Sys2Proof.Machine.execSsend v0 v1) := by
  unfold Sys2Proof.Machine.execSsend
  extract_lets go
  have hg : KeepsOut a go := by
    refine onStream_keeps g1 ?_
    intro ph q s k
    extract_lets -underBinder -merge -useContext +onlyGivenNames c st
    split
    · exact ended_keeps k
    · extract_lets -underBinder -merge -useContext +onlyGivenNames e bs t1 t2 t3 t4
      have h4 : Keeps a t4 := addObj_keeps (modPond_keeps (modPond_keeps (countStall_keeps k)))
      exact ran_keeps h4
  clear_value go
  split
  · exact KeepsOut.ite (KeepsOut.next (hg _ rfl)) (KeepsOut.next (noteCreditWaits_keeps (hg _ rfl)))
  · exact hg

theorem execSfree_keeps {a v0 v1} (g1 : Keeps a v1) :
    KeepsOut a (Sys2Proof.Machine.execSfree v0 v1) := by
  unfold Sys2Proof.Machine.execSfree
  refine onStream_keeps (by assumption) ?_
  intro y0 y1 y2 k3
  extract_lets -underBinder -merge -useContext +onlyGivenNames x4
  extract_lets -underBinder -merge -useContext +onlyGivenNames x5
  split
  · exact ended_keeps (by assumption)
  · extract_lets -underBinder -merge -useContext +onlyGivenNames x6
    extract_lets -underBinder -merge -useContext +onlyGivenNames x7
    have h8 : Keeps a x7 := (modPond_keeps (by assumption))
    clear_value x7
    extract_lets -underBinder -merge -useContext +onlyGivenNames x9
    exact (ran_keeps (modPond_keeps (by assumption)))

theorem execCreditReturn_keeps {a v0 v1 v2} (g2 : Keeps a v2) :
    KeepsOut a (Sys2Proof.Machine.execCreditReturn v0 v1 v2) := by
  unfold Sys2Proof.Machine.execCreditReturn
  refine onPond_keeps (by assumption) ?_
  intro y0
  split
  · assumption
  · extract_lets -underBinder -merge -useContext +onlyGivenNames x1
    have h2 : Keeps a x1 := (advanceTo_keeps (by assumption))
    clear_value x1
    extract_lets -underBinder -merge -useContext +onlyGivenNames x3
    have h4 : Keeps a x3 := (countStall_keeps (by assumption))
    clear_value x3
    exact modPond_keeps (by assumption)

end Sys2Proof.Laws
end

