-- ==== Sys2Proof/Laws/KeepsVector.lean ====
section
/-! SUPPORT. What the operations of the vector, gate and recurrence engines keep. -/

set_option Elab.async false

namespace Sys2Proof.Laws

open Sys2Proof.Machine Sys2Proof.Safety

theorem noteDecoded_keeps {a v0 v1 v2 v3} (g3 : Keeps a v3) :
    Keeps a (Sys2Proof.Machine.noteDecoded v0 v1 v2 v3) := by
  unfold Sys2Proof.Machine.noteDecoded
  extract_lets -underBinder -merge -useContext +onlyGivenNames x0
  have h1 : Keeps a x0 := (addObj_keeps (by assumption))
  clear_value x0
  extract_lets -underBinder -merge -useContext +onlyGivenNames x2
  have h3 : Keeps a x2 := (addObj_keeps (by assumption))
  clear_value x2
  refine forEach_keeps (P := Keeps a) ?_ (by assumption)
  intro y4 y5 k6
  split
  · assumption
  · extract_lets -underBinder -merge -useContext +onlyGivenNames x7
    have h8 : Keeps a x7 := (addObj_keeps (addObj_keeps (by assumption)))
    clear_value x7
    extract_lets -underBinder -merge -useContext +onlyGivenNames x9
    have h10 : Keeps a x9 := (setObj_keeps (by assumption))
    clear_value x9
    exact (raise_keeps (traceFault_keeps (by assumption)))

theorem noteConverted_keeps {a v0 v1 v2} (g2 : Keeps a v2) :
    Keeps a (Sys2Proof.Machine.noteConverted v0 v1 v2) := by
  unfold Sys2Proof.Machine.noteConverted
  exact (addObj_keeps (addObj_keeps (by assumption)))

theorem noteEncoded_keeps {a v0 v1 v2 v3 v4 v5} (g5 : Keeps a v5) :
    Keeps a (Sys2Proof.Machine.noteEncoded v0 v1 v2 v3 v4 v5) := by
  unfold Sys2Proof.Machine.noteEncoded
  extract_lets -underBinder -merge -useContext +onlyGivenNames x0
  have h1 : Keeps a x0 := (addObj_keeps (addObj_keeps (by assumption)))
  clear_value x0
  extract_lets -underBinder -merge -useContext +onlyGivenNames x2
  have h3 : Keeps a x2 := (Keeps.ite (by assumption) (addObj_keeps (by assumption)))
  clear_value x2
  extract_lets -underBinder -merge -useContext +onlyGivenNames x4
  have h5 : Keeps a x4 := (Keeps.ite (addObj_keeps (by assumption)) (by assumption))
  clear_value x4
  extract_lets -underBinder -merge -useContext +onlyGivenNames x6
  have h7 : Keeps a x6 := (Keeps.ite (addObj_keeps (by assumption)) (by assumption))
  clear_value x6
  extract_lets -underBinder -merge -useContext +onlyGivenNames x8
  have h9 : Keeps a x8 := (Keeps.ite (addObj_keeps (by assumption)) (by assumption))
  clear_value x8
  extract_lets -underBinder -merge -useContext +onlyGivenNames x10
  extract_lets -underBinder -merge -useContext +onlyGivenNames x11
  exact (Keeps.ite (raise_keeps (traceFault_keeps (by assumption))) (by assumption))

theorem writeRow_keeps {a v0 v1 v2 v3 v4 v5 v6 v7} (g7 : Keeps a v7) :
    Keeps a (Sys2Proof.Machine.writeRow v0 v1 v2 v3 v4 v5 v6 v7) := by
  unfold Sys2Proof.Machine.writeRow
  refine Keeps.ite (by assumption) ?_
  split
  · extract_lets -underBinder -merge -useContext +onlyGivenNames x0
    extract_lets -underBinder -merge -useContext +onlyGivenNames x1
    refine Keeps.ite ?_ (modPond_keeps (by assumption))
    extract_lets -underBinder -merge -useContext +onlyGivenNames x2
    extract_lets -underBinder -merge -useContext +onlyGivenNames x3
    split
    exact (noteConverted_keeps (modPond_keeps (by assumption)))
  · extract_lets -underBinder -merge -useContext +onlyGivenNames x4
    extract_lets -underBinder -merge -useContext +onlyGivenNames x5
    extract_lets -underBinder -merge -useContext +onlyGivenNames x6
    extract_lets -underBinder -merge -useContext +onlyGivenNames x7
    split
    extract_lets -underBinder -merge -useContext +onlyGivenNames x8
    have h9 : Keeps a x8 := (modPond_keeps (by assumption))
    clear_value x8
    exact (noteConverted_keeps (noteEncoded_keeps (by assumption)))
  · exact modPond_keeps (by assumption)
  · exact modPond_keeps (by assumption)
  · assumption

theorem vecRow_keeps {a v0 v1 v2 v3 v4 v5} (g5 : Keeps a v5) :
    Keeps a (Sys2Proof.Machine.vecRow v0 v1 v2 v3 v4 v5) := by
  unfold Sys2Proof.Machine.vecRow
  extract_lets -underBinder -merge -useContext +onlyGivenNames x0
  extract_lets -underBinder -merge -useContext +onlyGivenNames x1
  extract_lets -underBinder -merge -useContext +onlyGivenNames x2
  split
  split
  split
  extract_lets -underBinder -merge -useContext +onlyGivenNames x3
  have h4 : Keeps a x3 := (noteDecoded_keeps (by assumption))
  clear_value x3
  extract_lets -underBinder -merge -useContext +onlyGivenNames x5
  exact writeRow_keeps (by assumption)

theorem vecStart_keeps {a v0 v1} (g1 : Keeps a v1) :
    KeepsSt a (Sys2Proof.Machine.vecStart v0 v1) := by
  unfold Sys2Proof.Machine.vecStart
  extract_lets -underBinder -merge -useContext +onlyGivenNames x0
  have h1 : KeepsSt a x0 := (ran_keeps (addObj_keeps (by assumption)))
  clear_value x0
  assumption

theorem vectorOp_keeps {a v0 v1 v2 v3} (g3 : Keeps a v3) :
    KeepsOut a (Sys2Proof.Machine.vectorOp v0 v1 v2 v3) := by
  unfold Sys2Proof.Machine.vectorOp
  refine onHead_keeps (by assumption) ?_
  intro y0 y1 y2 k3
  refine vecStart_keeps ?_
  refine forUpTo_keeps (P := Keeps a) ?_ (by assumption)
  intro y4 y5 k6
  exact vecRow_keeps (by assumption)

theorem execAdd_keeps {a v0 v1} (g1 : Keeps a v1) :
    KeepsOut a (Sys2Proof.Machine.execAdd v0 v1) := by
  unfold Sys2Proof.Machine.execAdd
  exact vectorOp_keeps (by assumption)

theorem execSub_keeps {a v0 v1} (g1 : Keeps a v1) :
    KeepsOut a (Sys2Proof.Machine.execSub v0 v1) := by
  unfold Sys2Proof.Machine.execSub
  exact vectorOp_keeps (by assumption)

theorem execMul_keeps {a v0 v1} (g1 : Keeps a v1) :
    KeepsOut a (Sys2Proof.Machine.execMul v0 v1) := by
  unfold Sys2Proof.Machine.execMul
  exact vectorOp_keeps (by assumption)

theorem execFma_keeps {a v0 v1} (g1 : Keeps a v1) :
    KeepsOut a (Sys2Proof.Machine.execFma v0 v1) := by
  unfold Sys2Proof.Machine.execFma
  exact vectorOp_keeps (by assumption)

theorem execMin_keeps {a v0 v1} (g1 : Keeps a v1) :
    KeepsOut a (Sys2Proof.Machine.execMin v0 v1) := by
  unfold Sys2Proof.Machine.execMin
  exact vectorOp_keeps (by assumption)

theorem execMax_keeps {a v0 v1} (g1 : Keeps a v1) :
    KeepsOut a (Sys2Proof.Machine.execMax v0 v1) := by
  unfold Sys2Proof.Machine.execMax
  exact vectorOp_keeps (by assumption)

theorem execAbs_keeps {a v0 v1} (g1 : Keeps a v1) :
    KeepsOut a (Sys2Proof.Machine.execAbs v0 v1) := by
  unfold Sys2Proof.Machine.execAbs
  exact vectorOp_keeps (by assumption)

theorem execNeg_keeps {a v0 v1} (g1 : Keeps a v1) :
    KeepsOut a (Sys2Proof.Machine.execNeg v0 v1) := by
  unfold Sys2Proof.Machine.execNeg
  exact vectorOp_keeps (by assumption)

theorem execSel_keeps {a v0 v1} (g1 : Keeps a v1) :
    KeepsOut a (Sys2Proof.Machine.execSel v0 v1) := by
  unfold Sys2Proof.Machine.execSel
  exact vectorOp_keeps (by assumption)

theorem execVectorCmp_keeps {a v0 v1} (g1 : Keeps a v1) :
    KeepsOut a (Sys2Proof.Machine.execVectorCmp v0 v1) := by
  unfold Sys2Proof.Machine.execVectorCmp
  exact vectorOp_keeps (by assumption)

theorem execCvt_keeps {a v0 v1} (g1 : Keeps a v1) :
    KeepsOut a (Sys2Proof.Machine.execCvt v0 v1) := by
  unfold Sys2Proof.Machine.execCvt
  exact vectorOp_keeps (by assumption)

theorem execDiv_keeps {a v0 v1} (g1 : Keeps a v1) :
    KeepsOut a (Sys2Proof.Machine.execDiv v0 v1) := by
  unfold Sys2Proof.Machine.execDiv
  exact vectorOp_keeps (by assumption)

theorem execSqrt_keeps {a v0 v1} (g1 : Keeps a v1) :
    KeepsOut a (Sys2Proof.Machine.execSqrt v0 v1) := by
  unfold Sys2Proof.Machine.execSqrt
  exact vectorOp_keeps (by assumption)

theorem execRcp_keeps {a v0 v1} (g1 : Keeps a v1) :
    KeepsOut a (Sys2Proof.Machine.execRcp v0 v1) := by
  unfold Sys2Proof.Machine.execRcp
  exact vectorOp_keeps (by assumption)

theorem execRsqrt_keeps {a v0 v1} (g1 : Keeps a v1) :
    KeepsOut a (Sys2Proof.Machine.execRsqrt v0 v1) := by
  unfold Sys2Proof.Machine.execRsqrt
  exact vectorOp_keeps (by assumption)

theorem execExp2_keeps {a v0 v1} (g1 : Keeps a v1) :
    KeepsOut a (Sys2Proof.Machine.execExp2 v0 v1) := by
  unfold Sys2Proof.Machine.execExp2
  exact vectorOp_keeps (by assumption)

theorem execLog2_keeps {a v0 v1} (g1 : Keeps a v1) :
    KeepsOut a (Sys2Proof.Machine.execLog2 v0 v1) := by
  unfold Sys2Proof.Machine.execLog2
  exact vectorOp_keeps (by assumption)

theorem execExp_keeps {a v0 v1} (g1 : Keeps a v1) :
    KeepsOut a (Sys2Proof.Machine.execExp v0 v1) := by
  unfold Sys2Proof.Machine.execExp
  exact vectorOp_keeps (by assumption)

theorem execLog_keeps {a v0 v1} (g1 : Keeps a v1) :
    KeepsOut a (Sys2Proof.Machine.execLog v0 v1) := by
  unfold Sys2Proof.Machine.execLog
  exact vectorOp_keeps (by assumption)

theorem execTanh_keeps {a v0 v1} (g1 : Keeps a v1) :
    KeepsOut a (Sys2Proof.Machine.execTanh v0 v1) := by
  unfold Sys2Proof.Machine.execTanh
  exact vectorOp_keeps (by assumption)

theorem execSigmoid_keeps {a v0 v1} (g1 : Keeps a v1) :
    KeepsOut a (Sys2Proof.Machine.execSigmoid v0 v1) := by
  unfold Sys2Proof.Machine.execSigmoid
  exact vectorOp_keeps (by assumption)

theorem execSilu_keeps {a v0 v1} (g1 : Keeps a v1) :
    KeepsOut a (Sys2Proof.Machine.execSilu v0 v1) := by
  unfold Sys2Proof.Machine.execSilu
  exact vectorOp_keeps (by assumption)

theorem execGelu_keeps {a v0 v1} (g1 : Keeps a v1) :
    KeepsOut a (Sys2Proof.Machine.execGelu v0 v1) := by
  unfold Sys2Proof.Machine.execGelu
  exact vectorOp_keeps (by assumption)

theorem execSoftplus_keeps {a v0 v1} (g1 : Keeps a v1) :
    KeepsOut a (Sys2Proof.Machine.execSoftplus v0 v1) := by
  unfold Sys2Proof.Machine.execSoftplus
  exact vectorOp_keeps (by assumption)

theorem rrowRow_keeps {a v0 v1 v2 v3 v4} (g4 : Keeps a v4) :
    Keeps a (Sys2Proof.Machine.rrowRow v0 v1 v2 v3 v4) := by
  unfold Sys2Proof.Machine.rrowRow
  extract_lets -underBinder -merge -useContext +onlyGivenNames x0
  extract_lets -underBinder -merge -useContext +onlyGivenNames x1
  split
  extract_lets -underBinder -merge -useContext +onlyGivenNames x2
  have h3 : Keeps a x2 := (noteDecoded_keeps (by assumption))
  clear_value x2
  extract_lets -underBinder -merge -useContext +onlyGivenNames x4
  exact writeRow_keeps (by assumption)

theorem execRrow_keeps {a v0 v1} (g1 : Keeps a v1) :
    KeepsOut a (Sys2Proof.Machine.execRrow v0 v1) := by
  unfold Sys2Proof.Machine.execRrow
  refine onHead_keeps (by assumption) ?_
  intro y0 y1 y2 k3
  refine vecStart_keeps ?_
  refine forUpTo_keeps (P := Keeps a) ?_ (by assumption)
  intro y4 y5 k6
  exact rrowRow_keeps (by assumption)

theorem execRcol_keeps {a v0 v1} (g1 : Keeps a v1) :
    KeepsOut a (Sys2Proof.Machine.execRcol v0 v1) := by
  unfold Sys2Proof.Machine.execRcol
  refine onHead_keeps (by assumption) ?_
  intro y0 y1 y2 k3
  extract_lets -underBinder -merge -useContext +onlyGivenNames x4
  extract_lets -underBinder -merge -useContext +onlyGivenNames x5
  extract_lets -underBinder -merge -useContext +onlyGivenNames x6
  extract_lets -underBinder -merge -useContext +onlyGivenNames x7
  extract_lets -underBinder -merge -useContext +onlyGivenNames x8
  split
  extract_lets -underBinder -merge -useContext +onlyGivenNames x9
  extract_lets -underBinder -merge -useContext +onlyGivenNames x10
  have h11 : Keeps a x10 := (noteDecoded_keeps (by assumption))
  clear_value x10
  extract_lets -underBinder -merge -useContext +onlyGivenNames x12
  exact (vecStart_keeps (writeRow_keeps (by assumption)))

theorem gateRow_keeps {a v0 v1 v2 v3 v4 v5 v6} (g6 : Keeps a v6) :
    Keeps a (Sys2Proof.Machine.gateRow v0 v1 v2 v3 v4 v5 v6) := by
  unfold Sys2Proof.Machine.gateRow
  extract_lets -underBinder -merge -useContext +onlyGivenNames x0
  extract_lets -underBinder -merge -useContext +onlyGivenNames x1
  extract_lets -underBinder -merge -useContext +onlyGivenNames x2
  split
  split
  extract_lets -underBinder -merge -useContext +onlyGivenNames x3
  refine Keeps.ite (writeRow_keeps (by assumption)) ?_
  extract_lets -underBinder -merge -useContext +onlyGivenNames x4
  extract_lets -underBinder -merge -useContext +onlyGivenNames x5
  extract_lets -underBinder -merge -useContext +onlyGivenNames x6
  extract_lets -underBinder -merge -useContext +onlyGivenNames x7
  extract_lets -underBinder -merge -useContext +onlyGivenNames x8
  extract_lets -underBinder -merge -useContext +onlyGivenNames x9
  extract_lets -underBinder -merge -useContext +onlyGivenNames x10
  extract_lets -underBinder -merge -useContext +onlyGivenNames x11
  extract_lets -underBinder -merge -useContext +onlyGivenNames x12
  extract_lets -underBinder -merge -useContext +onlyGivenNames x13
  have h14 : Keeps a x13 := (Keeps.ite (addObj_keeps (by assumption)) (by assumption))
  clear_value x13
  extract_lets -underBinder -merge -useContext +onlyGivenNames x15
  have h16 : Keeps a x15 := (modPond_keeps (by assumption))
  clear_value x15
  extract_lets -underBinder -merge -useContext +onlyGivenNames x17
  have h18 : Keeps a x17 := (Keeps.ite (modPond_keeps (by assumption)) (by assumption))
  clear_value x17
  exact writeRow_keeps (by assumption)

theorem armTap_keeps {a v0 v1 v2 v3} (g3 : Keeps a v3) :
    Keeps a (Sys2Proof.Machine.armTap v0 v1 v2 v3) := by
  unfold Sys2Proof.Machine.armTap
  exact modPond_keeps (by assumption)

theorem execGate_keeps {a v0 v1} (g1 : Keeps a v1) :
    KeepsOut a (Sys2Proof.Machine.execGate v0 v1) := by
  unfold Sys2Proof.Machine.execGate
  refine onHead_keeps (by assumption) ?_
  intro y0 y1 y2 k3
  extract_lets -underBinder -merge -useContext +onlyGivenNames x4
  extract_lets -underBinder -merge -useContext +onlyGivenNames x5
  have h6 : Keeps a x5 := (addObj_keeps (by assumption))
  clear_value x5
  refine KeepsSt.ite (ran_keeps (armTap_keeps (by assumption))) ?_
  extract_lets -underBinder -merge -useContext +onlyGivenNames x7
  refine ran_keeps ?_
  refine forUpTo_keeps (P := Keeps a) ?_ (by assumption)
  intro y8 y9 k10
  extract_lets -underBinder -merge -useContext +onlyGivenNames x11
  exact gateRow_keeps (by assumption)

theorem poolPosition_keeps {a v0 v1 v2 v3} (g3 : Keeps a v3) :
    Keeps a (Sys2Proof.Machine.poolPosition v0 v1 v2 v3) := by
  unfold Sys2Proof.Machine.poolPosition
  extract_lets -underBinder -merge -useContext +onlyGivenNames x0
  extract_lets -underBinder -merge -useContext +onlyGivenNames x1
  extract_lets -underBinder -merge -useContext +onlyGivenNames x2
  have h3 : Keeps a x2 := (noteDecoded_keeps (by assumption))
  clear_value x2
  extract_lets -underBinder -merge -useContext +onlyGivenNames x4
  exact (addObj_keeps (writeRow_keeps (by assumption)))

theorem execPool_keeps {a v0 v1} (g1 : Keeps a v1) :
    KeepsOut a (Sys2Proof.Machine.execPool v0 v1) := by
  unfold Sys2Proof.Machine.execPool
  refine onHead_keeps (by assumption) ?_
  intro y0 y1 y2 k3
  extract_lets -underBinder -merge -useContext +onlyGivenNames x4
  extract_lets -underBinder -merge -useContext +onlyGivenNames x5
  have h9 : Keeps a x5 := by
    unfold x5
    refine forUpTo_keeps (P := Keeps a) ?_ (addObj_keeps (by assumption))
    intro y6 y7 k8
    exact poolPosition_keeps (by assumption)
  clear_value x5
  extract_lets -underBinder -merge -useContext +onlyGivenNames x10
  have h11 : KeepsSt a x10 := (ran_keeps (by assumption))
  clear_value x10
  assumption

theorem countRow_keeps {a v0 v1 v2 v3} (g3 : Keeps a v3) :
    Keeps a (Sys2Proof.Machine.countRow v0 v1 v2 v3) := by
  unfold Sys2Proof.Machine.countRow
  extract_lets -underBinder -merge -useContext +onlyGivenNames x0
  have h1 : Keeps a x0 := (addObj_keeps (by assumption))
  clear_value x0
  extract_lets -underBinder -merge -useContext +onlyGivenNames x2
  have h3 : Keeps a x2 := (Keeps.ite (addObj_keeps (by assumption)) (by assumption))
  clear_value x2
  exact (Keeps.ite (addObj_keeps (by assumption)) (Keeps.ite (addObj_keeps (by assumption)) (by assumption)))

theorem sstepRow_keeps {a v0 v1 v2 v3 v4 v5 v6} (g6 : Keeps a v6) :
    Keeps a (Sys2Proof.Machine.sstepRow v0 v1 v2 v3 v4 v5 v6) := by
  unfold Sys2Proof.Machine.sstepRow
  extract_lets -underBinder -merge -useContext +onlyGivenNames x0
  extract_lets -underBinder -merge -useContext +onlyGivenNames x1
  extract_lets -underBinder -merge -useContext +onlyGivenNames x2
  extract_lets -underBinder -merge -useContext +onlyGivenNames x3
  split
  extract_lets -underBinder -merge -useContext +onlyGivenNames x4
  extract_lets -underBinder -merge -useContext +onlyGivenNames x5
  split
  extract_lets -underBinder -merge -useContext +onlyGivenNames x6
  have h7 : Keeps a x6 := (modPond_keeps (by assumption))
  clear_value x6
  extract_lets -underBinder -merge -useContext +onlyGivenNames x8
  have h9 : Keeps a x8 := (Keeps.ite (modPond_keeps (by assumption)) (by assumption))
  clear_value x8
  exact (writeRow_keeps (countRow_keeps (by assumption)))

theorem execSstep_keeps {a v0 v1} (g1 : Keeps a v1) :
    KeepsOut a (Sys2Proof.Machine.execSstep v0 v1) := by
  unfold Sys2Proof.Machine.execSstep
  refine onHead_keeps (by assumption) ?_
  intro y0 y1 y2 k3
  extract_lets -underBinder -merge -useContext +onlyGivenNames x4
  extract_lets -underBinder -merge -useContext +onlyGivenNames x5
  have h6 : Keeps a x5 := (addObj_keeps (by assumption))
  clear_value x5
  refine KeepsSt.ite (ran_keeps (armTap_keeps (by assumption))) ?_
  extract_lets -underBinder -merge -useContext +onlyGivenNames x7
  refine ran_keeps ?_
  refine forUpTo_keeps (P := Keeps a) ?_ (by assumption)
  intro y8 y9 k10
  extract_lets -underBinder -merge -useContext +onlyGivenNames x11
  exact sstepRow_keeps (by assumption)

theorem scanRow_keeps {a v0 v1 v2 v3 v4 v5 v6} (g6 : KeepsSnd a v6) :
    KeepsSnd a (Sys2Proof.Machine.scanRow v0 v1 v2 v3 v4 v5 v6) := by
  unfold Sys2Proof.Machine.scanRow
  split
  extract_lets -underBinder -merge -useContext +onlyGivenNames x0
  extract_lets -underBinder -merge -useContext +onlyGivenNames x1
  extract_lets -underBinder -merge -useContext +onlyGivenNames x2
  extract_lets -underBinder -merge -useContext +onlyGivenNames x3
  extract_lets -underBinder -merge -useContext +onlyGivenNames x4
  extract_lets -underBinder -merge -useContext +onlyGivenNames x5
  split
  split
  extract_lets -underBinder -merge -useContext +onlyGivenNames x6
  extract_lets -underBinder -merge -useContext +onlyGivenNames x7
  have h8 : Keeps a x7 := (Keeps.ite (modPond_keeps (by assumption)) (by assumption))
  clear_value x7
  extract_lets -underBinder -merge -useContext +onlyGivenNames x9
  have h10 : Keeps a x9 := (writeRow_keeps (countRow_keeps (by assumption)))
  clear_value x9
  exact KeepsSnd.mk (by assumption)

theorem finishScan_keeps {a v0 v1 v2} (g2 : KeepsSnd a v2) :
    Keeps a (Sys2Proof.Machine.finishScan v0 v1 v2) := by
  unfold Sys2Proof.Machine.finishScan
  refine Keeps.ite (by assumption) ?_
  refine forUpTo_keeps (P := Keeps a) ?_ (by assumption)
  intro y0 y1 k2
  extract_lets -underBinder -merge -useContext +onlyGivenNames x3
  extract_lets -underBinder -merge -useContext +onlyGivenNames x4
  extract_lets -underBinder -merge -useContext +onlyGivenNames x5
  have h6 : Keeps a x5 := (modPond_keeps (by assumption))
  clear_value x5
  exact (Keeps.ite (modPond_keeps (by assumption)) (by assumption))

theorem execScan_keeps {a v0 v1} (g1 : Keeps a v1) :
    KeepsOut a (Sys2Proof.Machine.execScan v0 v1) := by
  unfold Sys2Proof.Machine.execScan
  refine onHead_keeps (by assumption) ?_
  intro y0 y1 y2 k3
  extract_lets -underBinder -merge -useContext +onlyGivenNames x4
  extract_lets -underBinder -merge -useContext +onlyGivenNames x5
  have h6 : Keeps a x5 := (addObj_keeps (addObj_keeps (by assumption)))
  clear_value x5
  refine KeepsSt.ite (ran_keeps (armTap_keeps (by assumption))) ?_
  extract_lets -underBinder -merge -useContext +onlyGivenNames x7
  extract_lets -underBinder -merge -useContext +onlyGivenNames x8
  have h9 : ∀ {y0 y1}, KeepsSnd a y0 → KeepsSnd a (x8 y0 y1) := by
    intro y10 k12 y11
    unfold x8
    extract_lets -underBinder -merge -useContext +onlyGivenNames x13
    exact scanRow_keeps (by assumption)
  clear_value x8
  refine ran_keeps ?_
  refine finishScan_keeps ?_
  refine foldl_keeps (P := KeepsSnd a) ?_ (KeepsSnd.mk (by assumption))
  intro y14 y15 k16
  exact h9 (by assumption)

theorem sfixRow_keeps {a v0 v1 v2 v3 v4} (g4 : KeepsSnd a v4) :
    KeepsSnd a (Sys2Proof.Machine.sfixRow v0 v1 v2 v3 v4) := by
  unfold Sys2Proof.Machine.sfixRow
  split
  split
  extract_lets -underBinder -merge -useContext +onlyGivenNames x0
  have h1 : Keeps a x0 := (addObj_keeps (by assumption))
  clear_value x0
  extract_lets -underBinder -merge -useContext +onlyGivenNames x2
  have h3 : Keeps a x2 := (Keeps.ite (addObj_keeps (by assumption)) (by assumption))
  clear_value x2
  exact (KeepsSnd.mk (writeRow_keeps (by assumption)))

theorem finishSfix_keeps {a v0 v1 v2} (g2 : KeepsSnd a v2) :
    Keeps a (Sys2Proof.Machine.finishSfix v0 v1 v2) := by
  unfold Sys2Proof.Machine.finishSfix
  refine Keeps.ite ?_ (by assumption)
  refine forUpTo_keeps (P := Keeps a) ?_ (by assumption)
  intro y0 y1 k2
  exact modPond_keeps (by assumption)

theorem execSfix_keeps {a v0 v1} (g1 : Keeps a v1) :
    KeepsOut a (Sys2Proof.Machine.execSfix v0 v1) := by
  unfold Sys2Proof.Machine.execSfix
  refine onHead_keeps (by assumption) ?_
  intro y0 y1 y2 k3
  extract_lets -underBinder -merge -useContext +onlyGivenNames x4
  extract_lets -underBinder -merge -useContext +onlyGivenNames x5
  refine ran_keeps ?_
  refine finishSfix_keeps ?_
  refine foldl_keeps (P := KeepsSnd a) ?_ (KeepsSnd.mk (addObj_keeps (by assumption)))
  intro y6 y7 k8
  exact sfixRow_keeps (by assumption)

theorem feedTap_keeps {a v0 v1 v2 v3 v4} (g4 : Keeps a v4) :
    Keeps a (Sys2Proof.Machine.feedTap v0 v1 v2 v3 v4) := by
  unfold Sys2Proof.Machine.feedTap
  extract_lets -underBinder -merge -useContext +onlyGivenNames x0
  extract_lets -underBinder -merge -useContext +onlyGivenNames x1
  extract_lets -underBinder -merge -useContext +onlyGivenNames x2
  extract_lets -underBinder -merge -useContext +onlyGivenNames x3
  have h4 : Keeps a x3 := (addObj_keeps (by assumption))
  clear_value x3
  extract_lets -underBinder -merge -useContext +onlyGivenNames x5
  extract_lets -underBinder -merge -useContext +onlyGivenNames x6
  extract_lets -underBinder -merge -useContext +onlyGivenNames x7
  have h20 : Keeps a x7 := by
    unfold x7
    split
    · refine forEach_keeps (P := Keeps a) ?_ (by assumption)
      intro y8 y9 k10
      exact gateRow_keeps (by assumption)
    · refine forEach_keeps (P := Keeps a) ?_ (by assumption)
      intro y11 y12 k13
      exact sstepRow_keeps (by assumption)
    · extract_lets -underBinder -merge -useContext +onlyGivenNames x14
      extract_lets -underBinder -merge -useContext +onlyGivenNames x15
      have h19 : KeepsSnd a x15 := by
        unfold x15
        refine foldl_keeps (P := KeepsSnd a) ?_ (KeepsSnd.mk (by assumption))
        intro y16 y17 k18
        exact scanRow_keeps (by assumption)
      clear_value x15
      exact (Keeps.ite (finishScan_keeps (by assumption)) (by assumption))
  clear_value x7
  exact modPond_keeps (by assumption)

end Sys2Proof.Laws
end

