-- ==== Sys2Proof/Laws/KeepsMatrix.lean ====
section
/-! SUPPORT. What the operations of the matrix engine and accesses keep. -/

set_option Elab.async false

namespace Sys2Proof.Laws

open Sys2Proof.Machine Sys2Proof.Safety

theorem bringWeights_keeps {a v0 v1 v2 v3} (g3 : Keeps a v3) :
    Keeps a (Sys2Proof.Machine.bringWeights v0 v1 v2 v3) := by
  unfold Sys2Proof.Machine.bringWeights
  extract_lets -underBinder -merge -useContext +onlyGivenNames x0
  extract_lets -underBinder -merge -useContext +onlyGivenNames x1
  split
  extract_lets -underBinder -merge -useContext +onlyGivenNames x2
  have h3 : Keeps a x2 := (noteDecoded_keeps (by assumption))
  clear_value x2
  exact modPond_keeps (by assumption)

theorem passRow_keeps {a v0 v1 v2 v3 v4 v5 v6 v7} (g7 : Keeps a v7) :
    Keeps a (Sys2Proof.Machine.passRow v0 v1 v2 v3 v4 v5 v6 v7) := by
  unfold Sys2Proof.Machine.passRow
  extract_lets -underBinder -merge -useContext +onlyGivenNames x0
  split
  extract_lets -underBinder -merge -useContext +onlyGivenNames x1
  have h2 : Keeps a x1 := (noteDecoded_keeps (by assumption))
  clear_value x1
  extract_lets -underBinder -merge -useContext +onlyGivenNames x3
  extract_lets -underBinder -merge -useContext +onlyGivenNames x4
  have h5 : Keeps a x4 := (addObj_keeps (by assumption))
  clear_value x4
  extract_lets -underBinder -merge -useContext +onlyGivenNames x6
  extract_lets -underBinder -merge -useContext +onlyGivenNames x7
  extract_lets -underBinder -merge -useContext +onlyGivenNames x8
  extract_lets -underBinder -merge -useContext +onlyGivenNames x9
  exact modPond_keeps (by assumption)

theorem watchCommand_keeps {a v0 v1 v2 v3 v4} (g4 : Keeps a v4) :
    Keeps a (Sys2Proof.Machine.watchCommand v0 v1 v2 v3 v4) := by
  unfold Sys2Proof.Machine.watchCommand
  extract_lets -underBinder -merge -useContext +onlyGivenNames x0
  refine Keeps.ite (by assumption) ?_
  extract_lets -underBinder -merge -useContext +onlyGivenNames x1
  refine Keeps.ite (modPond_keeps (by assumption)) ?_
  refine Keeps.ite (addObj_keeps (modPond_keeps (by assumption))) ?_
  extract_lets -underBinder -merge -useContext +onlyGivenNames x2
  exact modPond_keeps (by assumption)

theorem execWatchSampleDone_keeps {a v0 v1} (g1 : Keeps a v1) :
    KeepsOut a (Sys2Proof.Machine.execWatchSampleDone v0 v1) := by
  unfold Sys2Proof.Machine.execWatchSampleDone
  refine onPond_keeps (by assumption) ?_
  intro y0
  split
  · assumption
  · extract_lets -underBinder -merge -useContext +onlyGivenNames x1
    have h2 : Keeps a x1 := (addObj_keeps (modPond_keeps (by assumption)))
    clear_value x1
    extract_lets -underBinder -merge -useContext +onlyGivenNames x3
    extract_lets -underBinder -merge -useContext +onlyGivenNames x4
    have h5 : Keeps a x4 := (setObj_keeps (by assumption))
    clear_value x4
    split
    · exact setObj_keeps (by assumption)
    · extract_lets -underBinder -merge -useContext +onlyGivenNames x6
      have h7 : Keeps a x6 := (addObj_keeps (addObj_keeps (by assumption)))
      clear_value x6
      extract_lets -underBinder -merge -useContext +onlyGivenNames x8
      have h9 : Keeps a x8 := (setObj_keeps (setObj_keeps (by assumption)))
      clear_value x8
      extract_lets -underBinder -merge -useContext +onlyGivenNames x10
      have h11 : Keeps a x10 := (setObj_keeps (setObj_keeps (by assumption)))
      clear_value x10
      extract_lets -underBinder -merge -useContext +onlyGivenNames x12
      have h13 : Keeps a x12 := (setObj_keeps (by assumption))
      clear_value x12
      extract_lets -underBinder -merge -useContext +onlyGivenNames x14
      have h15 : Keeps a x14 := (traceFault_keeps (by assumption))
      clear_value x14
      extract_lets -underBinder -merge -useContext +onlyGivenNames x16
      have h17 : Keeps a x16 := (raise_keeps (by assumption))
      clear_value x16
      extract_lets -underBinder -merge -useContext +onlyGivenNames x18
      have h19 : Keeps a x18 := (addObj_keeps (by assumption))
      clear_value x18
      exact (Keeps.ite (raise_keeps (addObj_keeps (by assumption))) (by assumption))

theorem beginStream_keeps {a v0 v1 v2} (g2 : Keeps a v2) :
    Keeps a (Sys2Proof.Machine.beginStream v0 v1 v2) := by
  unfold Sys2Proof.Machine.beginStream
  extract_lets -underBinder -merge -useContext +onlyGivenNames x0
  split
  · assumption
  · extract_lets -underBinder -merge -useContext +onlyGivenNames x1
    extract_lets -underBinder -merge -useContext +onlyGivenNames x2
    exact (addObj_keeps (setPond_keeps (by assumption)))

theorem runMma_keeps {a v0 v1 v2 v3} (g3 : Keeps a v3) :
    Keeps a (Sys2Proof.Machine.runMma v0 v1 v2 v3) := by
  unfold Sys2Proof.Machine.runMma
  extract_lets -underBinder -merge -useContext +onlyGivenNames x0
  extract_lets -underBinder -merge -useContext +onlyGivenNames x1
  extract_lets -underBinder -merge -useContext +onlyGivenNames x2
  have h3 : Keeps a x2 := (modPond_keeps (bringWeights_keeps (by assumption)))
  clear_value x2
  extract_lets -underBinder -merge -useContext +onlyGivenNames x4
  extract_lets -underBinder -merge -useContext +onlyGivenNames x5
  have h6 : Keeps a x5 := (watchCommand_keeps (by assumption))
  clear_value x5
  extract_lets -underBinder -merge -useContext +onlyGivenNames x7
  extract_lets -underBinder -merge -useContext +onlyGivenNames x8
  extract_lets -underBinder -merge -useContext +onlyGivenNames x9
  have h16 : Keeps a x9 := by
    unfold x9
    refine forUpTo_keeps (P := Keeps a) ?_ (by assumption)
    intro y10 y11 k12
    refine forUpTo_keeps (P := Keeps a) ?_ (by assumption)
    intro y13 y14 k15
    exact passRow_keeps (by assumption)
  clear_value x9
  extract_lets -underBinder -merge -useContext +onlyGivenNames x17
  have h18 : Keeps a x17 := (modPond_keeps (by assumption))
  clear_value x17
  extract_lets -underBinder -merge -useContext +onlyGivenNames x19
  have h20 : Keeps a x19 := (Keeps.ite (beginStream_keeps (by assumption)) (by assumption))
  clear_value x19
  extract_lets -underBinder -merge -useContext +onlyGivenNames x21
  have h22 : Keeps a x21 := (addObj_keeps (addObj_keeps (by assumption)))
  clear_value x21
  extract_lets -underBinder -merge -useContext +onlyGivenNames x23
  have h24 : Keeps a x23 := (Keeps.ite (addObj_keeps (by assumption)) (by assumption))
  clear_value x23
  split
  · exact (Keeps.ite (feedTap_keeps (by assumption)) (by assumption))
  · assumption

theorem countHold_keeps {a v0 v1} (g1 : Keeps a v1) :
    Keeps a (Sys2Proof.Machine.countHold v0 v1) := by
  unfold Sys2Proof.Machine.countHold
  extract_lets -underBinder -merge -useContext +onlyGivenNames x0
  exact (Keeps.ite (by assumption) (addObj_keeps (modPond_keeps (by assumption))))

theorem noteHold_keeps {a v0 v1} (g1 : Keeps a v1) :
    Keeps a (Sys2Proof.Machine.noteHold v0 v1) := by
  unfold Sys2Proof.Machine.noteHold
  extract_lets -underBinder -merge -useContext +onlyGivenNames x0
  split
  · exact (Keeps.ite (setPond_keeps (by assumption)) (by assumption))
  · assumption

theorem execMma_keeps {a v0 v1} (g1 : Keeps a v1) :
    KeepsOut a (Sys2Proof.Machine.execMma v0 v1) := by
  unfold Sys2Proof.Machine.execMma
  refine onHead_keeps (noteHold_keeps (by assumption)) ?_
  intro y0 y1 y2 k3
  extract_lets -underBinder -merge -useContext +onlyGivenNames x4
  have h5 : KeepsSt a x4 := (ran_keeps (runMma_keeps (countHold_keeps (by assumption))))
  clear_value x4
  assumption

theorem execWload_keeps {a v0 v1} (g1 : Keeps a v1) :
    KeepsOut a (Sys2Proof.Machine.execWload v0 v1) := by
  unfold Sys2Proof.Machine.execWload
  refine onHead_keeps (by assumption) ?_
  intro y0 y1 y2 k3
  exact (ran_keeps (bringWeights_keeps (by assumption)))

theorem execExpanderGrant_keeps {a v0 v1} (g1 : Keeps a v1) :
    KeepsOut a (Sys2Proof.Machine.execExpanderGrant v0 v1) := by
  unfold Sys2Proof.Machine.execExpanderGrant
  refine onPond_keeps (by assumption) ?_
  intro y0
  extract_lets -underBinder -merge -useContext +onlyGivenNames x1
  split
  · assumption
  · split
    · exact setPond_keeps (by assumption)
    · extract_lets -underBinder -merge -useContext +onlyGivenNames x2
      extract_lets -underBinder -merge -useContext +onlyGivenNames x3
      extract_lets -underBinder -merge -useContext +onlyGivenNames x4
      extract_lets -underBinder -merge -useContext +onlyGivenNames x5
      have h6 : Keeps a x5 := (setPond_keeps (by assumption))
      clear_value x5
      extract_lets -underBinder -merge -useContext +onlyGivenNames x7
      have h8 : Keeps a x7 := (Keeps.ite (beginStream_keeps (by assumption)) (by assumption))
      clear_value x7
      exact (Keeps.ite (addObj_keeps (by assumption)) (Keeps.ite (addObj_keeps (by assumption)) (by assumption)))

theorem tierMiss_keeps {a v0 v1 v2 v3} (g3 : Keeps a v3) :
    Keeps a (Sys2Proof.Machine.tierMiss v0 v1 v2 v3) := by
  unfold Sys2Proof.Machine.tierMiss
  extract_lets -underBinder -merge -useContext +onlyGivenNames x0
  exact (Keeps.ite (by assumption) (raise_keeps (addObj_keeps (by assumption))))

theorem noteTable_keeps {a v0 v1 v2 v3} (g3 : Keeps a v3) :
    Keeps a (Sys2Proof.Machine.noteTable v0 v1 v2 v3) := by
  unfold Sys2Proof.Machine.noteTable
  extract_lets -underBinder -merge -useContext +onlyGivenNames x0
  exact Keeps.same (by assumption)

theorem loadTable_keeps {a v0 v1 v2 v3} (g3 : Keeps a v3) :
    Keeps a (Sys2Proof.Machine.loadTable v0 v1 v2 v3) := by
  unfold Sys2Proof.Machine.loadTable
  extract_lets -underBinder -merge -useContext +onlyGivenNames x0
  extract_lets -underBinder -merge -useContext +onlyGivenNames x1
  extract_lets -underBinder -merge -useContext +onlyGivenNames x2
  have h3 : Keeps a x2 := (addObj_keeps (by assumption))
  clear_value x2
  refine Keeps.ite ?_ (noteTable_keeps (modPond_keeps (by assumption)))
  extract_lets -underBinder -merge -useContext +onlyGivenNames x4
  have h5 : Keeps a x4 := (Keeps.ite (by assumption) (unmappedAccess_keeps (by assumption)))
  clear_value x4
  extract_lets -underBinder -merge -useContext +onlyGivenNames x6
  have h7 : Keeps a x6 := (modPond_keeps (by assumption))
  clear_value x6
  extract_lets -underBinder -merge -useContext +onlyGivenNames x8
  have h9 : Keeps a x8 := (noteTable_keeps (by assumption))
  clear_value x8
  exact (raise_keeps (addObj_keeps (by assumption)))

theorem loadTables_keeps {a v0 v1 v2 v3} (g3 : Keeps a v3) :
    Keeps a (Sys2Proof.Machine.loadTables v0 v1 v2 v3) := by
  unfold Sys2Proof.Machine.loadTables
  refine forEach_keeps (P := Keeps a) ?_ (by assumption)
  intro y0 y1 k2
  exact loadTable_keeps (by assumption)

theorem execTload_keeps {a v0 v1} (g1 : Keeps a v1) :
    KeepsOut a (Sys2Proof.Machine.execTload v0 v1) := by
  unfold Sys2Proof.Machine.execTload
  refine onHead_keeps (by assumption) ?_
  intro y0 y1 y2 k3
  exact (ran_keeps (loadTables_keeps (by assumption)))

end Sys2Proof.Laws
end

