-- ==== Sys2Proof/Laws/KeepsAttention.lean ====
section
/-! SUPPORT. What the operations of pages and attention keep. -/

set_option Elab.async false

namespace Sys2Proof.Laws

open Sys2Proof.Machine Sys2Proof.Safety

theorem pageFault_keeps {a v0 v1} (g1 : Keeps a v1) :
    KeepsSt a (Sys2Proof.Machine.pageFault v0 v1) := by
  unfold Sys2Proof.Machine.pageFault
  exact (ended_keeps (raise_keeps (addObj_keeps (by assumption))))

theorem writeDescriptors_keeps {a v0 v1 v2 v3} (g3 : Keeps a v3) :
    Keeps a (Sys2Proof.Machine.writeDescriptors v0 v1 v2 v3) := by
  unfold Sys2Proof.Machine.writeDescriptors
  exact (addObj_keeps (modPond_keeps (by assumption)))

theorem execPwalk_keeps {a v0 v1} (g1 : Keeps a v1) :
    KeepsOut a (Sys2Proof.Machine.execPwalk v0 v1) := by
  unfold Sys2Proof.Machine.execPwalk
  refine onHead_keeps (by assumption) ?_
  intro y0 y1 y2 k3
  extract_lets -underBinder -merge -useContext +onlyGivenNames x4
  extract_lets -underBinder -merge -useContext +onlyGivenNames x5
  extract_lets -underBinder -merge -useContext +onlyGivenNames x6
  refine KeepsSt.ite (pageFault_keeps (by assumption)) ?_
  extract_lets -underBinder -merge -useContext +onlyGivenNames x7
  extract_lets -underBinder -merge -useContext +onlyGivenNames x8
  exact (ran_keeps (writeDescriptors_keeps (addObj_keeps (by assumption))))

theorem takePage_keeps {a q s p t} (h : Keeps a s) (e : takePage q s = some (p, t)) : Keeps a t := by
  have hu : ∀ {p s}, Keeps a s → Keeps a (addObj (setPageRecord s p { pageRecord s p with count := 1, state := 1 })
      (key (0x2710 + q) 7) 1) := fun k => addObj_keeps (setPageRecord_keeps k)
  unfold takePage at e
  extract_lets used at e
  split at e
  · cases e
    exact hu (setFreeList_keeps h)
  · split at e
    · cases e
      exact hu h.same
    · cases e

theorem prepareEntry_keeps {a f x s} (h : Keeps a s) : Keeps a (prepareEntry f x s) := by
  unfold prepareEntry
  extract_lets e
  split
  · exact h
  · rename_i p t heq
    have ht : Keeps a t := takePage_keeps h heq
    split
    · exact setFuture_keeps ht
    · exact setFuture_keeps (addObj_keeps (dropPage_keeps (deviceAgentWrite_keeps (countBytes_keeps (countBytes_keeps ht)))))

theorem runPappend_keeps {a v0 v1 v2} (g2 : Keeps a v2) :
    KeepsSt a (Sys2Proof.Machine.runPappend v0 v1 v2) := by
  unfold Sys2Proof.Machine.runPappend
  extract_lets -underBinder -merge -useContext +onlyGivenNames x0
  extract_lets -underBinder -merge -useContext +onlyGivenNames x1
  extract_lets -underBinder -merge -useContext +onlyGivenNames x2
  extract_lets -underBinder -merge -useContext +onlyGivenNames x3
  extract_lets -underBinder -merge -useContext +onlyGivenNames x4
  extract_lets -underBinder -merge -useContext +onlyGivenNames x5
  extract_lets -underBinder -merge -useContext +onlyGivenNames x6
  extract_lets -underBinder -merge -useContext +onlyGivenNames x7
  refine KeepsSt.ite (pageFault_keeps (by assumption)) ?_
  refine KeepsSt.ite (ended_keeps (raise_keeps (setStep_keeps (by assumption)))) ?_
  refine KeepsSt.ite (ended_keeps (raise_keeps (addObj_keeps (by assumption)))) ?_
  refine KeepsSt.ite (ended_keeps (unmappedAccess_keeps (by assumption))) ?_
  refine KeepsSt.ite (ended_keeps (addObj_keeps (by assumption))) ?_
  refine KeepsSt.ite (ended_keeps (by assumption)) ?_
  extract_lets -underBinder -merge -useContext +onlyGivenNames x8
  have h12 : Keeps a x8 := by
    unfold x8
    refine forEach_keeps (P := Keeps a) ?_ (addObj_keeps (tierMiss_keeps (by assumption)))
    intro y9 y10 k11
    exact prepareEntry_keeps (by assumption)
  clear_value x8
  extract_lets -underBinder -merge -useContext +onlyGivenNames x13
  extract_lets -underBinder -merge -useContext +onlyGivenNames x14
  extract_lets -underBinder -merge -useContext +onlyGivenNames x15
  have h16 : KeepsSt a x15 := (ran_keeps (writeDescriptors_keeps (by assumption)))
  clear_value x15
  assumption

theorem execPappend_keeps {a v0 v1} (g1 : Keeps a v1) :
    KeepsOut a (Sys2Proof.Machine.execPappend v0 v1) := by
  unfold Sys2Proof.Machine.execPappend
  refine onHead_keeps (by assumption) ?_
  intro y0 y1 y2 k3
  exact runPappend_keeps (by assumption)

theorem completeAppend_keeps {a v0 v1 v2} (g2 : Keeps a v2) :
    Keeps a (Sys2Proof.Machine.completeAppend v0 v1 v2) := by
  unfold Sys2Proof.Machine.completeAppend
  extract_lets -underBinder -merge -useContext +onlyGivenNames x0
  extract_lets -underBinder -merge -useContext +onlyGivenNames x1
  exact setFuture_keeps (by assumption)

theorem writeHeadRow_keeps {a v0 v1 v2 v3 v4 v5 v6} (g6 : Keeps a v6) :
    Keeps a (Sys2Proof.Machine.writeHeadRow v0 v1 v2 v3 v4 v5 v6) := by
  unfold Sys2Proof.Machine.writeHeadRow
  extract_lets -underBinder -merge -useContext +onlyGivenNames x0
  extract_lets -underBinder -merge -useContext +onlyGivenNames x1
  extract_lets -underBinder -merge -useContext +onlyGivenNames x2
  extract_lets -underBinder -merge -useContext +onlyGivenNames x3
  exact writeRow_keeps (by assumption)

theorem putWork_keeps {a v0 v1 v2 v3} (g3 : Keeps a v3) :
    Keeps a (Sys2Proof.Machine.putWork v0 v1 v2 v3) := by
  unfold Sys2Proof.Machine.putWork
  refine forUpTo_keeps (P := Keeps a) ?_ (by assumption)
  intro y0 y1 k2
  refine forUpTo_keeps (P := Keeps a) ?_ (by assumption)
  intro y3 y4 k5
  extract_lets -underBinder -merge -useContext +onlyGivenNames x6
  exact modPond_keeps (by assumption)

theorem scratch_keeps {a v0 v1 v2 v3} (g3 : Keeps a v3) :
    Keeps a (Sys2Proof.Machine.scratch v0 v1 v2 v3) := by
  unfold Sys2Proof.Machine.scratch
  extract_lets -underBinder -merge -useContext +onlyGivenNames x0
  exact (modPond_keeps (Keeps.freshUp (by assumption)))

theorem runAttf_keeps {a v0 v1 v2 v3} (g3 : Keeps a v3) :
    Keeps a (Sys2Proof.Machine.runAttf v0 v1 v2 v3) := by
  unfold Sys2Proof.Machine.runAttf
  extract_lets -underBinder -merge -useContext +onlyGivenNames x0
  have h1 : Keeps a x0 := (by assumption)
  clear_value x0
  extract_lets -underBinder -merge -useContext +onlyGivenNames x2
  extract_lets -underBinder -merge -useContext +onlyGivenNames x3
  extract_lets -underBinder -merge -useContext +onlyGivenNames x4
  extract_lets -underBinder -merge -useContext +onlyGivenNames x5
  extract_lets -underBinder -merge -useContext +onlyGivenNames x6
  extract_lets -underBinder -merge -useContext +onlyGivenNames x7
  have h8 : Keeps a x7 := (noteDecoded_keeps (by assumption))
  clear_value x7
  extract_lets -underBinder -merge -useContext +onlyGivenNames x9
  have h10 : Keeps a x9 := (scratch_keeps (by assumption))
  clear_value x9
  extract_lets -underBinder -merge -useContext +onlyGivenNames x11
  have h15 : Keeps a x11 := by
    unfold x11
    refine forEach_keeps (P := Keeps a) ?_ (by assumption)
    intro y12 y13 k14
    exact modPond_keeps (by assumption)
  clear_value x11
  extract_lets -underBinder -merge -useContext +onlyGivenNames x16
  have h17 : Keeps a x16 := (putWork_keeps (by assumption))
  clear_value x16
  extract_lets -underBinder -merge -useContext +onlyGivenNames x18
  extract_lets -underBinder -merge -useContext +onlyGivenNames x19
  have h28 : Keeps a x19 := by
    unfold x19
    refine forUpTo_keeps (P := Keeps a) ?_ (by assumption)
    intro y20 y21 k22
    refine forEach_keeps (P := Keeps a) ?_ (by assumption)
    intro y23 y24 k25
    extract_lets -underBinder -merge -useContext +onlyGivenNames x26
    extract_lets -underBinder -merge -useContext +onlyGivenNames x27
    exact writeHeadRow_keeps (by assumption)
  clear_value x19
  refine forEach_keeps (P := Keeps a) ?_ (by assumption)
  intro y29 y30 k31
  refine forEach_keeps (P := Keeps a) ?_ (by assumption)
  intro y32 y33 k34
  extract_lets -underBinder -merge -useContext +onlyGivenNames x35
  extract_lets -underBinder -merge -useContext +onlyGivenNames x36
  extract_lets -underBinder -merge -useContext +onlyGivenNames x37
  have h38 : Keeps a x37 := (Keeps.ite (addObj_keeps (by assumption)) (by assumption))
  clear_value x37
  exact modPond_keeps (by assumption)

theorem startAttention_keeps {a v0 v1 v2 v3 v4 v5 v6} (g5 : ∀ {y0}, Keeps a y0 → Keeps a (v5 y0)) (g6 : Keeps a v6) :
    KeepsSt a (Sys2Proof.Machine.startAttention v0 v1 v2 v3 v4 v5 v6) := by
  unfold Sys2Proof.Machine.startAttention
  extract_lets -underBinder -merge -useContext +onlyGivenNames x0
  refine KeepsSt.ite (pageFault_keeps (by assumption)) ?_
  refine KeepsSt.ite (ended_keeps (unmappedAccess_keeps (by assumption))) ?_
  refine KeepsSt.ite (ended_keeps (addObj_keeps (by assumption))) ?_
  refine KeepsSt.ite (ended_keeps (by assumption)) ?_
  extract_lets -underBinder -merge -useContext +onlyGivenNames x1
  have h2 : Keeps a x1 := (countBytes_keeps (countBytes_keeps (tierMiss_keeps (addObj_keeps (by assumption)))))
  clear_value x1
  extract_lets -underBinder -merge -useContext +onlyGivenNames x3
  have h4 : KeepsSt a x3 := (ran_keeps (g5 (by assumption)))
  clear_value x3
  assumption

theorem scratchSlots_keeps {a v0 v1 v2 v3} (g3 : Keeps a v3) :
    Keeps a (Sys2Proof.Machine.scratchSlots v0 v1 v2 v3) := by
  unfold Sys2Proof.Machine.scratchSlots
  extract_lets -underBinder -merge -useContext +onlyGivenNames x0
  exact (modPond_keeps (Keeps.freshUp (by assumption)))

theorem execAttf_keeps {a v0 v1} (g1 : Keeps a v1) :
    KeepsOut a (Sys2Proof.Machine.execAttf v0 v1) := by
  unfold Sys2Proof.Machine.execAttf
  refine onHead_keeps (by assumption) ?_
  intro y0 y1 y2 k3
  extract_lets -underBinder -merge -useContext +onlyGivenNames x4
  refine startAttention_keeps ?_ (by assumption)
  intro y5 k6
  exact (runAttf_keeps (scratchSlots_keeps (by assumption)))

theorem storeGrad_keeps {a v0 v1 v2 v3} (g3 : Keeps a v3) :
    Keeps a (Sys2Proof.Machine.storeGrad v0 v1 v2 v3) := by
  unfold Sys2Proof.Machine.storeGrad
  extract_lets -underBinder -merge -useContext +onlyGivenNames x0
  exact deviceAgentWrite_keeps (by assumption)

theorem runAttb_keeps {a v0 v1 v2 v3} (g3 : Keeps a v3) :
    Keeps a (Sys2Proof.Machine.runAttb v0 v1 v2 v3) := by
  unfold Sys2Proof.Machine.runAttb
  extract_lets -underBinder -merge -useContext +onlyGivenNames x0
  have h1 : Keeps a x0 := (by assumption)
  clear_value x0
  extract_lets -underBinder -merge -useContext +onlyGivenNames x2
  extract_lets -underBinder -merge -useContext +onlyGivenNames x3
  extract_lets -underBinder -merge -useContext +onlyGivenNames x4
  extract_lets -underBinder -merge -useContext +onlyGivenNames x5
  extract_lets -underBinder -merge -useContext +onlyGivenNames x6
  have h7 : Keeps a x6 := (noteDecoded_keeps (by assumption))
  clear_value x6
  extract_lets -underBinder -merge -useContext +onlyGivenNames x8
  have h19 : Keeps a x8 := by
    unfold x8
    refine forEach_keeps (P := Keeps a) ?_ (by assumption)
    intro y9 y10 k11
    refine forUpTo_keeps (P := Keeps a) ?_ (by assumption)
    intro y12 y13 k14
    refine forUpTo_keeps (P := Keeps a) ?_ (by assumption)
    intro y15 y16 k17
    extract_lets -underBinder -merge -useContext +onlyGivenNames x18
    split
    exact (storeGrad_keeps (storeGrad_keeps (by assumption)))
  clear_value x8
  extract_lets -underBinder -merge -useContext +onlyGivenNames x20
  have h21 : Keeps a x20 := (scratch_keeps (by assumption))
  clear_value x20
  extract_lets -underBinder -merge -useContext +onlyGivenNames x22
  extract_lets -underBinder -merge -useContext +onlyGivenNames x23
  have h30 : Keeps a x23 := by
    unfold x23
    refine forUpTo_keeps (P := Keeps a) ?_ (by assumption)
    intro y24 y25 k26
    refine forUpTo_keeps (P := Keeps a) ?_ (by assumption)
    intro y27 y28 k29
    exact modPond_keeps (by assumption)
  clear_value x23
  extract_lets -underBinder -merge -useContext +onlyGivenNames x31
  have h32 : Keeps a x31 := (putWork_keeps (by assumption))
  clear_value x31
  extract_lets -underBinder -merge -useContext +onlyGivenNames x33
  have h40 : Keeps a x33 := by
    unfold x33
    refine forUpTo_keeps (P := Keeps a) ?_ (by assumption)
    intro y34 y35 k36
    refine forEach_keeps (P := Keeps a) ?_ (by assumption)
    intro y37 y38 k39
    exact modPond_keeps (by assumption)
  clear_value x33
  refine forUpTo_keeps (P := Keeps a) ?_ (by assumption)
  intro y41 y42 k43
  refine forEach_keeps (P := Keeps a) ?_ (by assumption)
  intro y44 y45 k46
  extract_lets -underBinder -merge -useContext +onlyGivenNames x47
  extract_lets -underBinder -merge -useContext +onlyGivenNames x48
  exact writeHeadRow_keeps (by assumption)

theorem execAttb_keeps {a v0 v1} (g1 : Keeps a v1) :
    KeepsOut a (Sys2Proof.Machine.execAttb v0 v1) := by
  unfold Sys2Proof.Machine.execAttb
  refine onHead_keeps (by assumption) ?_
  intro y0 y1 y2 k3
  extract_lets -underBinder -merge -useContext +onlyGivenNames x4
  refine startAttention_keeps ?_ (by assumption)
  intro y5 k6
  exact (runAttb_keeps (scratchSlots_keeps (by assumption)))

end Sys2Proof.Laws
end

