-- ==== Sys2Proof/Laws/KeepsTiers.lean ====
section
/-! SUPPORT. What the operations of the tiers keep. -/

set_option Elab.async false

namespace Sys2Proof.Laws

open Sys2Proof.Machine Sys2Proof.Safety

theorem writeResult_keeps {a v0 v1 v2} (g2 : Keeps a v2) :
    Keeps a (Sys2Proof.Machine.writeResult v0 v1 v2) := by
  unfold Sys2Proof.Machine.writeResult
  exact deviceWrite_keeps (by assumption)

theorem startDirectives_keeps {a n fuel s} (h : Keeps a s) : Keeps a (startDirectives n fuel s) := by
  induction fuel generalizing s with
  | zero => exact h
  | succ k ih =>
    unfold startDirectives
    exact Keeps.ite h (ih (writeResult_keeps h.same))

theorem execDirectiveRingRead_keeps {a v0} (g0 : Keeps a v0) :
    KeepsOut a (Sys2Proof.Machine.execDirectiveRingRead v0) := by
  unfold Sys2Proof.Machine.execDirectiveRingRead
  exact (KeepsOut.next (Keeps.ite (startDirectives_keeps (by assumption)) (by assumption)))

theorem releaseFrame_keeps {a v0 v1 v2} (g2 : Keeps a v2) :
    Keeps a (Sys2Proof.Machine.releaseFrame v0 v1 v2) := by
  unfold Sys2Proof.Machine.releaseFrame
  exact Keeps.same (by assumption)

theorem releasedFrame_keeps {a v0 v1 v2} (g2 : Keeps a v2) :
    Keeps a (Sys2Proof.Machine.releasedFrame v0 v1 v2) := by
  unfold Sys2Proof.Machine.releasedFrame
  exact (markFrame_keeps (Keeps.same (by assumption)))

theorem dropMigration_keeps {a v0 v1} (g1 : Keeps a v1) :
    Keeps a (Sys2Proof.Machine.dropMigration v0 v1) := by
  unfold Sys2Proof.Machine.dropMigration
  extract_lets -underBinder -merge -useContext +onlyGivenNames x0
  extract_lets -underBinder -merge -useContext +onlyGivenNames x1
  have h2 : Keeps a x1 := (Keeps.same (by assumption))
  clear_value x1
  split
  · assumption
  · extract_lets -underBinder -merge -useContext +onlyGivenNames x3
    have h4 : Keeps a x3 := (markFrame_keeps (by assumption))
    clear_value x3
    exact setExtent_keeps (by assumption)

theorem setSchedule_keeps {a v0 v1 v2} (g0 : Keeps a v0) :
    Keeps a (Sys2Proof.Machine.setSchedule v0 v1 v2) := by
  unfold Sys2Proof.Machine.setSchedule
  exact Keeps.same (by assumption)

theorem endEntry_keeps {a v0 v1 v2 v3} (g3 : Keeps a v3) :
    Keeps a (Sys2Proof.Machine.endEntry v0 v1 v2 v3) := by
  unfold Sys2Proof.Machine.endEntry
  extract_lets -underBinder -merge -useContext +onlyGivenNames x0
  refine Keeps.ite ?_ (Keeps.ite (addObj_keeps (setSchedule_keeps (by assumption))) (by assumption))
  split
  · assumption
  · exact (Keeps.ite (by assumption) (addObj_keeps (setSchedule_keeps (by assumption))))

theorem noteEntry_keeps {a v0 v1} (g1 : Keeps a v1) :
    Keeps a (Sys2Proof.Machine.noteEntry v0 v1) := by
  unfold Sys2Proof.Machine.noteEntry
  split
  · assumption
  · exact (Keeps.ite (by assumption) (endEntry_keeps (by assumption)))

theorem cancelMigration_keeps {a v0 v1} (g1 : Keeps a v1) :
    Keeps a (Sys2Proof.Machine.cancelMigration v0 v1) := by
  unfold Sys2Proof.Machine.cancelMigration
  exact (noteEntry_keeps (dropMigration_keeps (by assumption)))

theorem startMigration_keeps {a v0 v1} (g1 : Keeps a v1) :
    Keeps a (Sys2Proof.Machine.startMigration v0 v1) := by
  unfold Sys2Proof.Machine.startMigration
  extract_lets -underBinder -merge -useContext +onlyGivenNames x0
  refine Keeps.ite (by assumption) ?_
  refine Keeps.ite (by assumption) ?_
  refine Keeps.ite ?_ ?_
  · refine Keeps.ite (Keeps.same (by assumption)) ?_
    split
    · assumption
    · extract_lets -underBinder -merge -useContext +onlyGivenNames x1
      have h2 : Keeps a x1 := (setExtent_keeps (takeFrame_keeps (by assumption)))
      clear_value x1
      exact Keeps.same (by assumption)
  · refine Keeps.ite (noteEntry_keeps (Keeps.same (by assumption))) ?_
    split
    · assumption
    · extract_lets -underBinder -merge -useContext +onlyGivenNames x3
      have h4 : Keeps a x3 := (setExtent_keeps (takeFrame_keeps (by assumption)))
      clear_value x3
      exact Keeps.same (by assumption)

theorem pumpMigrations_keeps {a v0} (g0 : Keeps a v0) :
    Keeps a (Sys2Proof.Machine.pumpMigrations v0) := by
  unfold Sys2Proof.Machine.pumpMigrations
  extract_lets -underBinder -merge -useContext +onlyGivenNames x0
  have h4 : Keeps a x0 := by
    unfold x0
    refine forEach_keeps (P := Keeps a) ?_ (by assumption)
    intro y1 y2 k3
    exact startMigration_keeps (by assumption)
  clear_value x0
  exact followCause_keeps (by assumption)

theorem execFrameRelease_keeps {a v0 v1 v2} (g2 : Keeps a v2) :
    KeepsOut a (Sys2Proof.Machine.execFrameRelease v0 v1 v2) := by
  unfold Sys2Proof.Machine.execFrameRelease
  exact (KeepsOut.next (Keeps.ite (pumpMigrations_keeps (releasedFrame_keeps (by assumption))) (by assumption)))

theorem planEvacuation_keeps {a v0 v1 v2} (g2 : Keeps a v2) :
    Keeps a (Sys2Proof.Machine.planEvacuation v0 v1 v2) := by
  unfold Sys2Proof.Machine.planEvacuation
  extract_lets -underBinder -merge -useContext +onlyGivenNames x0
  extract_lets -underBinder -merge -useContext +onlyGivenNames x1
  exact Keeps.same (by assumption)

theorem startEvacuation_keeps {a v0 v1 v2} (g2 : Keeps a v2) :
    Keeps a (Sys2Proof.Machine.startEvacuation v0 v1 v2) := by
  unfold Sys2Proof.Machine.startEvacuation
  refine Keeps.ite ?_ (by assumption)
  extract_lets -underBinder -merge -useContext +onlyGivenNames x0
  have h4 : Keeps a x0 := by
    unfold x0
    refine forEach_keeps (P := Keeps a) ?_ (by assumption)
    intro y1 y2 k3
    exact setMember_keeps (by assumption)
  clear_value x0
  extract_lets -underBinder -merge -useContext +onlyGivenNames x5
  extract_lets -underBinder -merge -useContext +onlyGivenNames x6
  have h7 : Keeps a x6 := (Keeps.same (by assumption))
  clear_value x6
  exact (pumpMigrations_keeps (planEvacuation_keeps (by assumption)))

theorem retryEvacuation_keeps {a v0} (g0 : Keeps a v0) :
    Keeps a (Sys2Proof.Machine.retryEvacuation v0) := by
  unfold Sys2Proof.Machine.retryEvacuation
  refine pumpMigrations_keeps ?_
  refine forEach_keeps (P := Keeps a) ?_ (by assumption)
  intro y0 y1 k2
  exact planEvacuation_keeps (by assumption)

theorem followDegraded_keeps {a v0} (g0 : Keeps a v0) :
    Keeps a (Sys2Proof.Machine.followDegraded v0) := by
  unfold Sys2Proof.Machine.followDegraded
  exact followCause_keeps (by assumption)

theorem degrade_keeps {a v0 v1 v2} (g2 : Keeps a v2) :
    Keeps a (Sys2Proof.Machine.degrade v0 v1 v2) := by
  unfold Sys2Proof.Machine.degrade
  extract_lets -underBinder -merge -useContext +onlyGivenNames x0
  exact (Keeps.ite (by assumption) (followDegraded_keeps (Keeps.same (by assumption))))

theorem execMemberEvacuationDone_keeps {a v0 v1 v2} (g2 : Keeps a v2) :
    KeepsOut a (Sys2Proof.Machine.execMemberEvacuationDone v0 v1 v2) := by
  unfold Sys2Proof.Machine.execMemberEvacuationDone
  refine KeepsOut.ite ?_ KeepsOut.fault
  refine KeepsOut.next ?_
  refine Keeps.ite ?_ (by assumption)
  extract_lets -underBinder -merge -useContext +onlyGivenNames x0
  have h4 : Keeps a x0 := by
    unfold x0
    refine forEach_keeps (P := Keeps a) ?_ (by assumption)
    intro y1 y2 k3
    exact setMember_keeps (by assumption)
  clear_value x0
  extract_lets -underBinder -merge -useContext +onlyGivenNames x5
  extract_lets -underBinder -merge -useContext +onlyGivenNames x6
  have h7 : Keeps a x6 := (Keeps.same (by assumption))
  clear_value x6
  extract_lets -underBinder -merge -useContext +onlyGivenNames x8
  have h9 : Keeps a x8 := (followDegraded_keeps (addObj_keeps (by assumption)))
  clear_value x8
  exact (Keeps.ite (setObj_keeps (setObj_keeps (Keeps.same (by assumption)))) (by assumption))

theorem defineExtent_keeps {a v0 v1 v2} (g2 : Keeps a v2) :
    Keeps a (Sys2Proof.Machine.defineExtent v0 v1 v2) := by
  unfold Sys2Proof.Machine.defineExtent
  split
  · assumption
  · exact (setExtent_keeps (zeroFrame_keeps (takeFrame_keeps (by assumption))))

theorem defineEffect_keeps {a v0 v1 v2} (g2 : Keeps a v2) :
    Keeps a (Sys2Proof.Machine.defineEffect v0 v1 v2) := by
  unfold Sys2Proof.Machine.defineEffect
  extract_lets -underBinder -merge -useContext +onlyGivenNames x0
  refine setObject_keeps ?_
  refine forEach_keeps (P := Keeps a) ?_ (by assumption)
  intro y1 y2 k3
  exact defineExtent_keeps (by assumption)

theorem placeEffect_keeps {a v0 v1 v2} (g2 : Keeps a v2) :
    Keeps a (Sys2Proof.Machine.placeEffect v0 v1 v2) := by
  unfold Sys2Proof.Machine.placeEffect
  extract_lets -underBinder -merge -useContext +onlyGivenNames x0
  extract_lets -underBinder -merge -useContext +onlyGivenNames x1
  have h5 : Keeps a x1 := by
    unfold x1
    refine forEach_keeps (P := Keeps a) ?_ (by assumption)
    intro y2 y3 k4
    exact cancelMigration_keeps (by assumption)
  clear_value x1
  extract_lets -underBinder -merge -useContext +onlyGivenNames x6
  have h11 : Keeps a x6 := by
    unfold x6
    refine forEach_keeps (P := Keeps a) ?_ (by assumption)
    intro y7 y8 k9
    extract_lets -underBinder -merge -useContext +onlyGivenNames x10
    exact (Keeps.ite (setExtent_keeps (by assumption)) (by assumption))
  clear_value x6
  extract_lets -underBinder -merge -useContext +onlyGivenNames x12
  exact (pumpMigrations_keeps (Keeps.same (by assumption)))

theorem unmapExtent_keeps {a v0 v1} (g1 : Keeps a v1) :
    Keeps a (Sys2Proof.Machine.unmapExtent v0 v1) := by
  unfold Sys2Proof.Machine.unmapExtent
  extract_lets -underBinder -merge -useContext +onlyGivenNames x0
  have h4 : Keeps a x0 := by
    unfold x0
    refine forEach_keeps (P := Keeps a) ?_ (by assumption)
    intro y1 y2 k3
    exact cancelMigration_keeps (by assumption)
  clear_value x0
  extract_lets -underBinder -merge -useContext +onlyGivenNames x5
  have h9 : Keeps a x5 := by
    unfold x5
    refine forEach_keeps (P := Keeps a) ?_ (by assumption)
    intro y6 y7 k8
    exact (releaseFrame_keeps (Keeps.same (by assumption)))
  clear_value x5
  extract_lets -underBinder -merge -useContext +onlyGivenNames x10
  exact (setExtent_keeps (releaseFrame_keeps (by assumption)))

theorem freeEffect_keeps {a v0 v1 v2} (g2 : Keeps a v2) :
    Keeps a (Sys2Proof.Machine.freeEffect v0 v1 v2) := by
  unfold Sys2Proof.Machine.freeEffect
  refine setObject_keeps ?_
  refine forEach_keeps (P := Keeps a) ?_ (by assumption)
  intro y0 y1 k2
  exact unmapExtent_keeps (by assumption)

theorem setbackupEffect_keeps {a v0 v1 v2} (g2 : Keeps a v2) :
    Keeps a (Sys2Proof.Machine.setbackupEffect v0 v1 v2) := by
  unfold Sys2Proof.Machine.setbackupEffect
  exact setObject_keeps (by assumption)

theorem cleanEffect_keeps {a v0 v1 v2} (g2 : Keeps a v2) :
    Keeps a (Sys2Proof.Machine.cleanEffect v0 v1 v2) := by
  unfold Sys2Proof.Machine.cleanEffect
  extract_lets -underBinder -merge -useContext +onlyGivenNames x0
  refine setObject_keeps ?_
  refine forEach_keeps (P := Keeps a) ?_ (by assumption)
  intro y1 y2 k3
  exact setExtent_keeps (by assumption)

theorem setmaskEffect_keeps {a v0 v1 v2} (g2 : Keeps a v2) :
    Keeps a (Sys2Proof.Machine.setmaskEffect v0 v1 v2) := by
  unfold Sys2Proof.Machine.setmaskEffect
  exact setObject_keeps (by assumption)

theorem performDirective_keeps {a v0 v1 v2 v3} (g2 : ∀ {y0 y1 y2}, Keeps a y2 → Keeps a (v2 y0 y1 y2)) (g3 : Keeps a v3) :
    KeepsOut a (Sys2Proof.Machine.performDirective v0 v1 v2 v3) := by
  unfold Sys2Proof.Machine.performDirective
  refine KeepsOut.next ?_
  split
  · assumption
  · extract_lets -underBinder -merge -useContext +onlyGivenNames x0
    extract_lets -underBinder -merge -useContext +onlyGivenNames x1
    extract_lets -underBinder -merge -useContext +onlyGivenNames x2
    extract_lets -underBinder -merge -useContext +onlyGivenNames x3
    extract_lets -underBinder -merge -useContext +onlyGivenNames x4
    have h5 : Keeps a x4 := (Keeps.same (by assumption))
    clear_value x4
    exact (Keeps.ite (g2 (by assumption)) (by assumption))

theorem execDefine_keeps {a v0 v1} (g1 : Keeps a v1) :
    KeepsOut a (Sys2Proof.Machine.execDefine v0 v1) := by
  unfold Sys2Proof.Machine.execDefine
  refine performDirective_keeps ?_ (by assumption)
  intro y0 y1 y2 k3
  exact defineEffect_keeps (by assumption)

theorem execPlace_keeps {a v0 v1} (g1 : Keeps a v1) :
    KeepsOut a (Sys2Proof.Machine.execPlace v0 v1) := by
  unfold Sys2Proof.Machine.execPlace
  refine performDirective_keeps ?_ (by assumption)
  intro y0 y1 y2 k3
  exact placeEffect_keeps (by assumption)

theorem execFree_keeps {a v0 v1} (g1 : Keeps a v1) :
    KeepsOut a (Sys2Proof.Machine.execFree v0 v1) := by
  unfold Sys2Proof.Machine.execFree
  refine performDirective_keeps ?_ (by assumption)
  intro y0 y1 y2 k3
  exact freeEffect_keeps (by assumption)

theorem execSetbackup_keeps {a v0 v1} (g1 : Keeps a v1) :
    KeepsOut a (Sys2Proof.Machine.execSetbackup v0 v1) := by
  unfold Sys2Proof.Machine.execSetbackup
  refine performDirective_keeps ?_ (by assumption)
  intro y0 y1 y2 k3
  exact setbackupEffect_keeps (by assumption)

theorem execClean_keeps {a v0 v1} (g1 : Keeps a v1) :
    KeepsOut a (Sys2Proof.Machine.execClean v0 v1) := by
  unfold Sys2Proof.Machine.execClean
  refine performDirective_keeps ?_ (by assumption)
  intro y0 y1 y2 k3
  exact cleanEffect_keeps (by assumption)

theorem execSetmask_keeps {a v0 v1} (g1 : Keeps a v1) :
    KeepsOut a (Sys2Proof.Machine.execSetmask v0 v1) := by
  unfold Sys2Proof.Machine.execSetmask
  refine performDirective_keeps ?_ (by assumption)
  intro y0 y1 y2 k3
  exact setmaskEffect_keeps (by assumption)

theorem advanceConsumed_keeps {a fuel s} (h : Keeps a s) : Keeps a (advanceConsumed fuel s) := by
  induction fuel generalizing s with
  | zero => exact h
  | succ k ih =>
    unfold advanceConsumed
    split
    · exact h
    · exact ih (setObj_keeps h.same)

theorem execDirectiveComplete_keeps {a v0 v1} (g1 : Keeps a v1) :
    KeepsOut a (Sys2Proof.Machine.execDirectiveComplete v0 v1) := by
  unfold Sys2Proof.Machine.execDirectiveComplete
  refine KeepsOut.next ?_
  split
  · assumption
  · refine Keeps.ite (by assumption) ?_
    extract_lets -underBinder -merge -useContext +onlyGivenNames x0
    extract_lets -underBinder -merge -useContext +onlyGivenNames x1
    extract_lets -underBinder -merge -useContext +onlyGivenNames x2
    have h6 : Keeps a x2 := by
      unfold x2
      refine Keeps.ite ?_ (by assumption)
      refine forEach_keeps (P := Keeps a) ?_ (setObject_keeps (by assumption))
      intro y3 y4 k5
      exact (Keeps.ite (setExtent_keeps (by assumption)) (by assumption))
    clear_value x2
    extract_lets -underBinder -merge -useContext +onlyGivenNames x7
    extract_lets -underBinder -merge -useContext +onlyGivenNames x8
    have h9 : Keeps a x8 := (writeResult_keeps (Keeps.same (by assumption)))
    clear_value x8
    exact (advanceConsumed_keeps (addObj_keeps (by assumption)))

theorem execMigrationDone_keeps {a v0 v1} (g1 : Keeps a v1) :
    KeepsOut a (Sys2Proof.Machine.execMigrationDone v0 v1) := by
  unfold Sys2Proof.Machine.execMigrationDone
  refine KeepsOut.next ?_
  split
  · assumption
  · refine Keeps.ite (by assumption) ?_
    extract_lets -underBinder -merge -useContext +onlyGivenNames x0
    extract_lets -underBinder -merge -useContext +onlyGivenNames x1
    extract_lets -underBinder -merge -useContext +onlyGivenNames x2
    have h3 : Keeps a x2 := (addObj_keeps (addObj_keeps (copyFrame_keeps (by assumption))))
    clear_value x2
    extract_lets -underBinder -merge -useContext +onlyGivenNames x4
    extract_lets -underBinder -merge -useContext +onlyGivenNames x5
    have h6 : Keeps a x5 := (releaseFrame_keeps (Keeps.same (by assumption)))
    clear_value x5
    extract_lets -underBinder -merge -useContext +onlyGivenNames x7
    have h8 : Keeps a x7 := (setExtent_keeps (by assumption))
    clear_value x7
    extract_lets -underBinder -merge -useContext +onlyGivenNames x9
    have h10 : Keeps a x9 := (noteEntry_keeps (addObj_keeps (by assumption)))
    clear_value x9
    exact retryEvacuation_keeps (by assumption)

theorem startEntry_keeps {a v0 v1 v2 v3} (g3 : Keeps a v3) :
    Keeps a (Sys2Proof.Machine.startEntry v0 v1 v2 v3) := by
  unfold Sys2Proof.Machine.startEntry
  extract_lets -underBinder -merge -useContext +onlyGivenNames x0
  extract_lets -underBinder -merge -useContext +onlyGivenNames x1
  extract_lets -underBinder -merge -useContext +onlyGivenNames x2
  extract_lets -underBinder -merge -useContext +onlyGivenNames x3
  extract_lets -underBinder -merge -useContext +onlyGivenNames x4
  have h5 : Keeps a x4 := (setSchedule_keeps (by assumption))
  clear_value x4
  exact (Keeps.ite (endEntry_keeps (by assumption)) (noteEntry_keeps (Keeps.same (by assumption))))

theorem startDue_keeps {a v0 v1} (g1 : Keeps a v1) :
    Keeps a (Sys2Proof.Machine.startDue v0 v1) := by
  unfold Sys2Proof.Machine.startDue
  split
  · assumption
  · refine pumpMigrations_keeps ?_
    refine foldl_keeps (P := Keeps a) ?_ (by assumption)
    intro y0 y1 k2
    split
    · assumption
    · exact (Keeps.ite (startEntry_keeps (by assumption)) (by assumption))

theorem markSchedule_keeps {a v0 v1 v2} (g2 : Keeps a v2) :
    Keeps a (Sys2Proof.Machine.markSchedule v0 v1 v2) := by
  unfold Sys2Proof.Machine.markSchedule
  extract_lets -underBinder -merge -useContext +onlyGivenNames x0
  refine Keeps.ite ?_ (Keeps.ite (startDue_keeps (setSchedule_keeps (by assumption))) (by assumption))
  extract_lets -underBinder -merge -useContext +onlyGivenNames x1
  extract_lets -underBinder -merge -useContext +onlyGivenNames x2
  extract_lets -underBinder -merge -useContext +onlyGivenNames x3
  exact (startDue_keeps (setSchedule_keeps (addObj_keeps (by assumption))))

theorem maskGang_keeps {a v0 v1 v2} (g2 : Keeps a v2) :
    Keeps a (Sys2Proof.Machine.maskGang v0 v1 v2) := by
  unfold Sys2Proof.Machine.maskGang
  extract_lets -underBinder -merge -useContext +onlyGivenNames x0
  extract_lets -underBinder -merge -useContext +onlyGivenNames x1
  extract_lets -underBinder -merge -useContext +onlyGivenNames x2
  extract_lets -underBinder -merge -useContext +onlyGivenNames x3
  exact (Keeps.ite (by assumption) (countSwitches_keeps (writeEntries_keeps (setGang_keeps (by assumption)))))

theorem maskPrograms_keeps {a v0 v1} (g1 : Keeps a v1) :
    Keeps a (Sys2Proof.Machine.maskPrograms v0 v1) := by
  unfold Sys2Proof.Machine.maskPrograms
  extract_lets -underBinder -merge -useContext +onlyGivenNames x0
  extract_lets -underBinder -merge -useContext +onlyGivenNames x1
  have h6 : Keeps a x1 := by
    unfold x1
    refine forEach_keeps (P := Keeps a) ?_ (by assumption)
    intro y2 y3 k4
    extract_lets -underBinder -merge -useContext +onlyGivenNames x5
    exact (Keeps.ite (by assumption) (addObj_keeps (setDir_keeps (by assumption))))
  clear_value x1
  extract_lets -underBinder -merge -useContext +onlyGivenNames x7
  have h8 : Keeps a x7 := (Keeps.ite (by assumption) (followUnavailable_keeps (by assumption)))
  clear_value x7
  refine Keeps.ite ?_ (by assumption)
  refine forEach_keeps (P := Keeps a) ?_ (by assumption)
  intro y9 y10 k11
  exact maskGang_keeps (by assumption)

theorem refetchFailed_keeps {a v0 v1} (g1 : Keeps a v1) :
    Keeps a (Sys2Proof.Machine.refetchFailed v0 v1) := by
  unfold Sys2Proof.Machine.refetchFailed
  extract_lets -underBinder -merge -useContext +onlyGivenNames x0
  have h1 : Keeps a x0 := (addObj_keeps (by assumption))
  clear_value x0
  split
  · assumption
  · exact maskPrograms_keeps (by assumption)

theorem startRefetch_keeps {a v0 v1} (g1 : Keeps a v1) :
    Keeps a (Sys2Proof.Machine.startRefetch v0 v1) := by
  unfold Sys2Proof.Machine.startRefetch
  split
  · extract_lets -underBinder -merge -useContext +onlyGivenNames x0
    extract_lets -underBinder -merge -useContext +onlyGivenNames x1
    have h2 : Keeps a x1 := (Keeps.ite (markFrame_keeps (by assumption)) (takeFrame_keeps (by assumption)))
    clear_value x1
    exact Keeps.same (by assumption)
  · exact refetchFailed_keeps (by assumption)

theorem failRefetches_keeps {a v0 v1} (g1 : Keeps a v1) :
    Keeps a (Sys2Proof.Machine.failRefetches v0 v1) := by
  unfold Sys2Proof.Machine.failRefetches
  refine forEach_keeps (P := Keeps a) ?_ (by assumption)
  intro y0 y1 k2
  exact (refetchFailed_keeps (markFrame_keeps (Keeps.same (by assumption))))

theorem endCopies_keeps {a v0 v1} (g1 : Keeps a v1) :
    Keeps a (Sys2Proof.Machine.endCopies v0 v1) := by
  unfold Sys2Proof.Machine.endCopies
  refine forEach_keeps (P := Keeps a) ?_ (by assumption)
  intro y0 y1 k2
  extract_lets -underBinder -merge -useContext +onlyGivenNames x3
  have h4 : Keeps a x3 := (dropMigration_keeps (by assumption))
  clear_value x3
  split
  · assumption
  · exact endEntry_keeps (by assumption)

theorem rowEvent_keeps {a v0 v1} (g1 : Keeps a v1) :
    Keeps a (Sys2Proof.Machine.rowEvent v0 v1) := by
  unfold Sys2Proof.Machine.rowEvent
  exact (raise_keeps (Keeps.same (by assumption)))

theorem poisonExtent_keeps {a v0 v1 v2} (g2 : Keeps a v2) :
    Keeps a (Sys2Proof.Machine.poisonExtent v0 v1 v2) := by
  unfold Sys2Proof.Machine.poisonExtent
  extract_lets -underBinder -merge -useContext +onlyGivenNames x0
  extract_lets -underBinder -merge -useContext +onlyGivenNames x1
  extract_lets -underBinder -merge -useContext +onlyGivenNames x2
  have h3 : Keeps a x2 := (addObj_keeps (by assumption))
  clear_value x2
  extract_lets -underBinder -merge -useContext +onlyGivenNames x4
  extract_lets -underBinder -merge -useContext +onlyGivenNames x5
  have h6 : Keeps a x5 := (Keeps.ite (setMember_keeps (by assumption)) (by assumption))
  clear_value x5
  extract_lets -underBinder -merge -useContext +onlyGivenNames x7
  extract_lets -underBinder -merge -useContext +onlyGivenNames x8
  have h9 : Keeps a x8 := (setExtent_keeps (by assumption))
  clear_value x8
  extract_lets -underBinder -merge -useContext +onlyGivenNames x10
  have h11 : Keeps a x10 := by
    unfold x10
    split
    · assumption
    · exact setObject_keeps (by assumption)
  clear_value x10
  extract_lets -underBinder -merge -useContext +onlyGivenNames x12
  have h13 : Keeps a x12 := (raise_keeps (by assumption))
  clear_value x12
  extract_lets -underBinder -merge -useContext +onlyGivenNames x14
  have h15 : Keeps a x14 := (Keeps.ite (rowEvent_keeps (by assumption)) (by assumption))
  clear_value x14
  extract_lets -underBinder -merge -useContext +onlyGivenNames x16
  have h17 : Keeps a x16 := (failRefetches_keeps (endCopies_keeps (by assumption)))
  clear_value x16
  extract_lets -underBinder -merge -useContext +onlyGivenNames x18
  have h19 : Keeps a x18 := (Keeps.ite (by assumption) (startRefetch_keeps (by assumption)))
  clear_value x18
  exact pumpMigrations_keeps (by assumption)

theorem execCorrectedError_keeps {a v0 v1} (g1 : Keeps a v1) :
    KeepsOut a (Sys2Proof.Machine.execCorrectedError v0 v1) := by
  unfold Sys2Proof.Machine.execCorrectedError
  extract_lets -underBinder -merge -useContext +onlyGivenNames x0
  refine KeepsOut.next ?_
  refine Keeps.ite (by assumption) ?_
  extract_lets -underBinder -merge -useContext +onlyGivenNames x1
  extract_lets -underBinder -merge -useContext +onlyGivenNames x2
  extract_lets -underBinder -merge -useContext +onlyGivenNames x3
  have h4 : Keeps a x3 := (addObj_keeps (by assumption))
  clear_value x3
  extract_lets -underBinder -merge -useContext +onlyGivenNames x5
  extract_lets -underBinder -merge -useContext +onlyGivenNames x6
  extract_lets -underBinder -merge -useContext +onlyGivenNames x7
  have h8 : Keeps a x7 := (setMember_keeps (by assumption))
  clear_value x7
  extract_lets -underBinder -merge -useContext +onlyGivenNames x9
  have h10 : Keeps a x9 := (Keeps.ite (degrade_keeps (by assumption)) (by assumption))
  clear_value x9
  refine Keeps.ite ?_ (by assumption)
  extract_lets -underBinder -merge -useContext +onlyGivenNames x11
  extract_lets -underBinder -merge -useContext +onlyGivenNames x12
  extract_lets -underBinder -merge -useContext +onlyGivenNames x13
  extract_lets -underBinder -merge -useContext +onlyGivenNames x14
  have h15 : Keeps a x14 := (Keeps.same (by assumption))
  clear_value x14
  exact (Keeps.ite (rowEvent_keeps (by assumption)) (by assumption))

theorem execHbmRecentre_keeps {a v0 v1} (g1 : Keeps a v1) :
    KeepsOut a (Sys2Proof.Machine.execHbmRecentre v0 v1) := by
  unfold Sys2Proof.Machine.execHbmRecentre
  refine KeepsOut.ite ?_ KeepsOut.fault
  extract_lets -underBinder -merge -useContext +onlyGivenNames x0
  exact (KeepsOut.next (Keeps.ite (setMember_keeps (by assumption)) (by assumption)))

theorem execShoreWckCheck_keeps {a v0 v1 v2} (g2 : Keeps a v2) :
    KeepsOut a (Sys2Proof.Machine.execShoreWckCheck v0 v1 v2) := by
  unfold Sys2Proof.Machine.execShoreWckCheck
  refine KeepsOut.ite ?_ KeepsOut.fault
  extract_lets -underBinder -merge -useContext +onlyGivenNames x0
  exact (KeepsOut.next (Keeps.ite (setMember_keeps (by assumption)) (by assumption)))

end Sys2Proof.Laws
end

