-- ==== Sys2Proof/Laws/KeepsFabric.lean ====
section
/-! SUPPORT. What the operations of the fabric and the DMA keep. -/

set_option Elab.async false

namespace Sys2Proof.Laws

open Sys2Proof.Machine Sys2Proof.Safety

theorem setBrook_keeps {a v0 v1 v2} (g0 : Keeps a v0) :
    Keeps a (Sys2Proof.Machine.setBrook v0 v1 v2) := by
  unfold Sys2Proof.Machine.setBrook
  exact Keeps.same (by assumption)

theorem emitFlit_keeps {a v0 v1 v2 v3} (g3 : Keeps a v3) :
    Keeps a (Sys2Proof.Machine.emitFlit v0 v1 v2 v3) := by
  unfold Sys2Proof.Machine.emitFlit
  extract_lets -underBinder -merge -useContext +onlyGivenNames x0
  extract_lets -underBinder -merge -useContext +onlyGivenNames x1
  exact (addObj_keeps (send_keeps (by assumption)))

theorem pumpBrook_keeps {a k fuel s} (h : Keeps a s) : Keeps a (pumpBrook k fuel s) := by
  induction fuel generalizing s with
  | zero => exact h
  | succ n ih =>
    unfold pumpBrook
    refine Keeps.ite h ?_
    split
    · exact h
    · extract_lets f b t1 t2
      have h1 : Keeps a t1 := setBrook_keeps h
      clear_value t1
      exact ih (emitFlit_keeps (Keeps.ite h1 h1.same))

theorem noteCredit_keeps {a v0} (g0 : Keeps a v0) :
    Keeps a (Sys2Proof.Machine.noteCredit v0) := by
  unfold Sys2Proof.Machine.noteCredit
  extract_lets -underBinder -merge -useContext +onlyGivenNames x0
  extract_lets -underBinder -merge -useContext +onlyGivenNames x1
  extract_lets -underBinder -merge -useContext +onlyGivenNames x2
  have h6 : Keeps a x2 := by
    unfold x2
    refine forEach_keeps (P := Keeps a) ?_ (by assumption)
    intro y3 y4 k5
    exact addObj_keeps (by assumption)
  clear_value x2
  exact Keeps.same (by assumption)

theorem pump_keeps {a v0 v1} (g1 : Keeps a v1) :
    Keeps a (Sys2Proof.Machine.pump v0 v1) := by
  unfold Sys2Proof.Machine.pump
  exact (noteCredit_keeps (pumpBrook_keeps (by assumption)))

theorem queueRun_keeps {a v0 v1 v2} (g2 : Keeps a v2) :
    Keeps a (Sys2Proof.Machine.queueRun v0 v1 v2) := by
  unfold Sys2Proof.Machine.queueRun
  extract_lets -underBinder -merge -useContext +onlyGivenNames x0
  exact (pump_keeps (setBrook_keeps (by assumption)))

theorem askSpare_keeps {a v0 v1 v2} (g2 : Keeps a v2) :
    Keeps a (Sys2Proof.Machine.askSpare v0 v1 v2) := by
  unfold Sys2Proof.Machine.askSpare
  extract_lets -underBinder -merge -useContext +onlyGivenNames x0
  extract_lets -underBinder -merge -useContext +onlyGivenNames x1
  extract_lets -underBinder -merge -useContext +onlyGivenNames x2
  exact (pump_keeps (setBrook_keeps (by assumption)))

theorem sendControl_keeps {a v0 v1 v2 v3 v4} (g4 : Keeps a v4) :
    Keeps a (Sys2Proof.Machine.sendControl v0 v1 v2 v3 v4) := by
  unfold Sys2Proof.Machine.sendControl
  exact queueRun_keeps (by assumption)

theorem dispatchMessage_keeps {a v0 v1} (g1 : Keeps a v1) :
    Keeps a (Sys2Proof.Machine.dispatchMessage v0 v1) := by
  unfold Sys2Proof.Machine.dispatchMessage
  split
  · exact Keeps.same (by assumption)
  · extract_lets -underBinder -merge -useContext +onlyGivenNames x0
    extract_lets -underBinder -merge -useContext +onlyGivenNames x1
    have h2 : Keeps a x1 := (Keeps.same (by assumption))
    clear_value x1
    exact queueRun_keeps (by assumption)

theorem takeId_keeps {a v0 v1} (g1 : Keeps a v1) :
    KeepsSnd a (Sys2Proof.Machine.takeId v0 v1) := by
  unfold Sys2Proof.Machine.takeId
  extract_lets -underBinder -merge -useContext +onlyGivenNames x0
  exact (KeepsSnd.mk (Keeps.same (by assumption)))

theorem sendBy_keeps {a v0 v1 v2} (g2 : Keeps a v2) :
    KeepsSnd a (Sys2Proof.Machine.sendBy v0 v1 v2) := by
  unfold Sys2Proof.Machine.sendBy
  split
  rename_i m0 m1 e2
  have h3 := KeepsSnd.of_eq e2 (takeId_keeps (by assumption))
  exact (KeepsSnd.mk (dispatchMessage_keeps (addObj_keeps (by assumption))))

theorem sendMessage_keeps {a v0 v1} (g1 : Keeps a v1) :
    KeepsSnd a (Sys2Proof.Machine.sendMessage v0 v1) := by
  unfold Sys2Proof.Machine.sendMessage
  exact sendBy_keeps (by assumption)

theorem resendAll_keeps {a v0 v1} (g1 : Keeps a v1) :
    Keeps a (Sys2Proof.Machine.resendAll v0 v1) := by
  unfold Sys2Proof.Machine.resendAll
  refine forEach_keeps (P := Keeps a) ?_ (by assumption)
  intro y0 y1 k2
  exact (dispatchMessage_keeps (addObj_keeps (Keeps.same (by assumption))))

theorem execEndToEndTimeout_keeps {a v0 v1 v2} (g2 : Keeps a v2) :
    KeepsOut a (Sys2Proof.Machine.execEndToEndTimeout v0 v1 v2) := by
  unfold Sys2Proof.Machine.execEndToEndTimeout
  refine KeepsOut.next ?_
  split
  · assumption
  · exact (resendAll_keeps (advanceTo_keeps (by assumption)))

theorem showWidth_keeps {a v0 v1} (g1 : Keeps a v1) :
    Keeps a (Sys2Proof.Machine.showWidth v0 v1) := by
  unfold Sys2Proof.Machine.showWidth
  extract_lets -underBinder -merge -useContext +onlyGivenNames x0
  extract_lets -underBinder -merge -useContext +onlyGivenNames x1
  exact (setObj_keeps (Keeps.ite (setObj_keeps (by assumption)) (by assumption)))

theorem followBrooks_keeps {a v0} (g0 : Keeps a v0) :
    Keeps a (Sys2Proof.Machine.followBrooks v0) := by
  unfold Sys2Proof.Machine.followBrooks
  exact followCause_keeps (by assumption)

theorem oweGrant_keeps {a v0 v1 v2} (g2 : Keeps a v2) :
    Keeps a (Sys2Proof.Machine.oweGrant v0 v1 v2) := by
  unfold Sys2Proof.Machine.oweGrant
  exact Keeps.same (by assumption)

theorem grant_keeps {a v0 v1 v2} (g2 : Keeps a v2) :
    Keeps a (Sys2Proof.Machine.grant v0 v1 v2) := by
  unfold Sys2Proof.Machine.grant
  refine Keeps.ite (by assumption) ?_
  split
  · exact oweGrant_keeps (by assumption)
  · extract_lets -underBinder -merge -useContext +onlyGivenNames x0
    extract_lets -underBinder -merge -useContext +onlyGivenNames x1
    have h2 : Keeps a x1 := (Keeps.same (by assumption))
    clear_value x1
    exact sendControl_keeps (by assumption)

theorem payGrants_keeps {a v0} (g0 : Keeps a v0) :
    Keeps a (Sys2Proof.Machine.payGrants v0) := by
  unfold Sys2Proof.Machine.payGrants
  refine forEach_keeps (P := Keeps a) ?_ (Keeps.same (by assumption))
  intro y0 y1 k2
  exact grant_keeps (by assumption)

theorem brookDown_keeps {a v0 v1} (g1 : Keeps a v1) :
    Keeps a (Sys2Proof.Machine.brookDown v0 v1) := by
  unfold Sys2Proof.Machine.brookDown
  extract_lets -underBinder -merge -useContext +onlyGivenNames x0
  extract_lets -underBinder -merge -useContext +onlyGivenNames x1
  have h5 : Keeps a x1 := by
    unfold x1
    refine forEach_keeps (P := Keeps a) ?_ (by assumption)
    intro y2 y3 k4
    exact (oweGrant_keeps (Keeps.same (by assumption)))
  clear_value x1
  extract_lets -underBinder -merge -useContext +onlyGivenNames x6
  extract_lets -underBinder -merge -useContext +onlyGivenNames x7
  have h8 : Keeps a x7 := (setBrook_keeps (by assumption))
  clear_value x7
  extract_lets -underBinder -merge -useContext +onlyGivenNames x9
  have h10 : Keeps a x9 := (followBrooks_keeps (raise_keeps (addObj_keeps (setObj_keeps (by assumption)))))
  clear_value x9
  exact (payGrants_keeps (resendAll_keeps (by assumption)))

theorem retrain_keeps {a v0 v1} (g1 : Keeps a v1) :
    Keeps a (Sys2Proof.Machine.retrain v0 v1) := by
  unfold Sys2Proof.Machine.retrain
  exact (raise_keeps (retrainBrook_keeps (by assumption)))

theorem replayAll_keeps {a v0 v1} (g1 : Keeps a v1) :
    Keeps a (Sys2Proof.Machine.replayAll v0 v1) := by
  unfold Sys2Proof.Machine.replayAll
  extract_lets -underBinder -merge -useContext +onlyGivenNames x0
  refine Keeps.ite (setBrook_keeps (by assumption)) ?_
  refine forEach_keeps (P := Keeps a) ?_ (by assumption)
  intro y1 y2 k3
  exact emitFlit_keeps (by assumption)

theorem sendNak_keeps {a v0 v1 v2} (g2 : Keeps a v2) :
    Keeps a (Sys2Proof.Machine.sendNak v0 v1 v2) := by
  unfold Sys2Proof.Machine.sendNak
  extract_lets -underBinder -merge -useContext +onlyGivenNames x0
  exact (Keeps.ite (setBrook_keeps (by assumption)) (emitFlit_keeps (by assumption)))

theorem resumeBrook_keeps {a v0 v1} (g1 : Keeps a v1) :
    Keeps a (Sys2Proof.Machine.resumeBrook v0 v1) := by
  unfold Sys2Proof.Machine.resumeBrook
  extract_lets -underBinder -merge -useContext +onlyGivenNames x0
  extract_lets -underBinder -merge -useContext +onlyGivenNames x1
  have h2 : Keeps a x1 := (setBrook_keeps (by assumption))
  clear_value x1
  extract_lets -underBinder -merge -useContext +onlyGivenNames x3
  have h4 : Keeps a x3 := (Keeps.ite (replayAll_keeps (by assumption)) (by assumption))
  clear_value x3
  exact (pump_keeps (Keeps.ite (sendNak_keeps (by assumption)) (by assumption)))

theorem narrow_keeps {a v0 v1} (g1 : Keeps a v1) :
    Keeps a (Sys2Proof.Machine.narrow v0 v1) := by
  unfold Sys2Proof.Machine.narrow
  extract_lets -underBinder -merge -useContext +onlyGivenNames x0
  extract_lets -underBinder -merge -useContext +onlyGivenNames x1
  refine Keeps.ite ?_ (brookDown_keeps (by assumption))
  extract_lets -underBinder -merge -useContext +onlyGivenNames x2
  exact (resumeBrook_keeps (sendControl_keeps (showWidth_keeps (setBrook_keeps (by assumption)))))

theorem useSpare_keeps {a v0 v1 v2} (g2 : Keeps a v2) :
    Keeps a (Sys2Proof.Machine.useSpare v0 v1 v2) := by
  unfold Sys2Proof.Machine.useSpare
  extract_lets -underBinder -merge -useContext +onlyGivenNames x0
  exact (addObj_keeps (showWidth_keeps (setBrook_keeps (by assumption))))

theorem execSpareRequest_keeps {a v0 v1 v2} (g2 : Keeps a v2) :
    KeepsOut a (Sys2Proof.Machine.execSpareRequest v0 v1 v2) := by
  unfold Sys2Proof.Machine.execSpareRequest
  refine KeepsOut.ite ?_ KeepsOut.fault
  refine KeepsOut.next ?_
  refine Keeps.ite ?_ (by assumption)
  extract_lets -underBinder -merge -useContext +onlyGivenNames x0
  have h1 : Keeps a x0 := (useSpare_keeps (by assumption))
  clear_value x0
  exact sendControl_keeps (by assumption)

theorem execSpareConfirm_keeps {a v0 v1 v2} (g2 : Keeps a v2) :
    KeepsOut a (Sys2Proof.Machine.execSpareConfirm v0 v1 v2) := by
  unfold Sys2Proof.Machine.execSpareConfirm
  exact (KeepsOut.ite (KeepsOut.next (Keeps.ite (resumeBrook_keeps (useSpare_keeps (by assumption))) (by assumption))) KeepsOut.fault)

theorem execWidthChange_keeps {a v0 v1 v2} (g2 : Keeps a v2) :
    KeepsOut a (Sys2Proof.Machine.execWidthChange v0 v1 v2) := by
  unfold Sys2Proof.Machine.execWidthChange
  exact (KeepsOut.ite (KeepsOut.next (Keeps.ite (resumeBrook_keeps (showWidth_keeps (setBrook_keeps (by assumption)))) (by assumption))) KeepsOut.fault)

theorem execIdentity_keeps {a v0 v1 v2} (g2 : Keeps a v2) :
    KeepsOut a (Sys2Proof.Machine.execIdentity v0 v1 v2) := by
  unfold Sys2Proof.Machine.execIdentity
  exact (KeepsOut.ite (KeepsOut.next (setObj_keeps (by assumption))) KeepsOut.fault)

theorem execCreditGrant_keeps {a v0 v1 v2 v3} (g3 : Keeps a v3) :
    KeepsOut a (Sys2Proof.Machine.execCreditGrant v0 v1 v2 v3) := by
  unfold Sys2Proof.Machine.execCreditGrant
  refine KeepsOut.ite ?_ KeepsOut.fault
  extract_lets -underBinder -merge -useContext +onlyGivenNames x0
  extract_lets -underBinder -merge -useContext +onlyGivenNames x1
  have h2 : Keeps a x1 := (Keeps.same (by assumption))
  clear_value x1
  refine KeepsOut.next ?_
  refine forUpTo_keeps (P := Keeps a) ?_ (by assumption)
  intro y3 y4 k5
  exact pump_keeps (by assumption)

theorem ackUpTo_keeps {a v0 v1 v2} (g2 : Keeps a v2) :
    Keeps a (Sys2Proof.Machine.ackUpTo v0 v1 v2) := by
  unfold Sys2Proof.Machine.ackUpTo
  extract_lets -underBinder -merge -useContext +onlyGivenNames x0
  split
  · assumption
  · exact (pump_keeps (setBrook_keeps (by assumption)))

theorem execAck_keeps {a v0 v1 v2} (g2 : Keeps a v2) :
    KeepsOut a (Sys2Proof.Machine.execAck v0 v1 v2) := by
  unfold Sys2Proof.Machine.execAck
  exact (KeepsOut.ite (KeepsOut.next (ackUpTo_keeps (by assumption))) KeepsOut.fault)

theorem nakFrom_keeps {a v0 v1 v2} (g2 : Keeps a v2) :
    Keeps a (Sys2Proof.Machine.nakFrom v0 v1 v2) := by
  unfold Sys2Proof.Machine.nakFrom
  extract_lets -underBinder -merge -useContext +onlyGivenNames x0
  have h1 : Keeps a x0 := (ackUpTo_keeps (by assumption))
  clear_value x0
  extract_lets -underBinder -merge -useContext +onlyGivenNames x2
  extract_lets -underBinder -merge -useContext +onlyGivenNames x3
  extract_lets -underBinder -merge -useContext +onlyGivenNames x4
  extract_lets -underBinder -merge -useContext +onlyGivenNames x5
  have h6 : Keeps a x5 := (setBrook_keeps (by assumption))
  clear_value x5
  extract_lets -underBinder -merge -useContext +onlyGivenNames x7
  have h8 : Keeps a x7 := (raise_keeps (addObj_keeps (replayAll_keeps (by assumption))))
  clear_value x7
  exact (Keeps.ite (retrain_keeps (setBrook_keeps (by assumption))) (by assumption))

theorem fabricWrite_keeps {a v0 v1 v2} (g0 : Keeps a v0) :
    KeepsFst a (Sys2Proof.Machine.fabricWrite v0 v1 v2) := by
  unfold Sys2Proof.Machine.fabricWrite
  refine KeepsFst.ite (KeepsFst.mk (unmappedAccess_keeps (by assumption))) ?_
  refine KeepsFst.ite (KeepsFst.mk (addObj_keeps (by assumption))) ?_
  refine KeepsFst.ite (KeepsFst.mk (addObj_keeps (by assumption))) ?_
  extract_lets -underBinder -merge -useContext +onlyGivenNames x0
  have h1 : Keeps a x0 := (countBytes_keeps (by assumption))
  clear_value x0
  refine KeepsFst.ite ?_ (KeepsFst.mk (deviceAgentWrite_keeps (by assumption)))
  refine KeepsFst.mk ?_
  refine foldl_keeps (P := Keeps a) ?_ (by assumption)
  intro y2 y3 k4
  exact (Keeps.ite (by assumption) (deviceAgentWrite_keeps (by assumption)))

theorem acknowledge_keeps {a v0 v1 v2} (g2 : Keeps a v2) :
    Keeps a (Sys2Proof.Machine.acknowledge v0 v1 v2) := by
  unfold Sys2Proof.Machine.acknowledge
  split
  · assumption
  · exact sendControl_keeps (by assumption)

theorem onMessage_keeps {a v0 v1 v2 v3 v4} (g3 : Keeps a v3) (g4 : ∀ {y0}, Keeps a y0 → Keeps a (v4 y0)) :
    KeepsOut a (Sys2Proof.Machine.onMessage v0 v1 v2 v3 v4) := by
  unfold Sys2Proof.Machine.onMessage
  refine KeepsOut.ite ?_ KeepsOut.fault
  refine KeepsOut.next ?_
  refine Keeps.ite (by assumption) ?_
  refine Keeps.ite (raise_keeps (addObj_keeps (by assumption))) ?_
  extract_lets -underBinder -merge -useContext +onlyGivenNames x0
  refine Keeps.ite (acknowledge_keeps (addObj_keeps (by assumption))) ?_
  extract_lets -underBinder -merge -useContext +onlyGivenNames x1
  have h2 : Keeps a x1 := (g4 (addObj_keeps (by assumption)))
  clear_value x1
  exact (acknowledge_keeps (Keeps.same (by assumption)))

theorem execWrite_keeps {a v0 v1 v2 v3 v4} (g4 : Keeps a v4) :
    KeepsOut a (Sys2Proof.Machine.execWrite v0 v1 v2 v3 v4) := by
  unfold Sys2Proof.Machine.execWrite
  refine onMessage_keeps (by assumption) ?_
  intro y0 k1
  exact fabricWrite_keeps (by assumption)

theorem bumpCounter_keeps {a v0 v1} (g1 : Keeps a v1) :
    Keeps a (Sys2Proof.Machine.bumpCounter v0 v1) := by
  unfold Sys2Proof.Machine.bumpCounter
  extract_lets -underBinder -merge -useContext +onlyGivenNames x0
  extract_lets -underBinder -merge -useContext +onlyGivenNames x1
  extract_lets -underBinder -merge -useContext +onlyGivenNames x2
  have h3 : Keeps a x2 := (Keeps.same (by assumption))
  clear_value x2
  exact (Keeps.ite (by assumption) (deviceWrite_keeps (by assumption)))

theorem execWriteLastSignal_keeps {a v0 v1 v2 v3 v4 v5} (g5 : Keeps a v5) :
    KeepsOut a (Sys2Proof.Machine.execWriteLastSignal v0 v1 v2 v3 v4 v5) := by
  unfold Sys2Proof.Machine.execWriteLastSignal
  refine KeepsOut.ite ?_ KeepsOut.fault
  refine onMessage_keeps (by assumption) ?_
  intro y0 k1
  split
  rename_i m2 m3 e4
  have h5 := KeepsFst.of_eq e4 (fabricWrite_keeps (by assumption))
  exact (Keeps.ite (bumpCounter_keeps (by assumption)) (by assumption))

theorem respond_keeps {a v0 v1 v2 v3 v4} (g4 : Keeps a v4) :
    Keeps a (Sys2Proof.Machine.respond v0 v1 v2 v3 v4) := by
  unfold Sys2Proof.Machine.respond
  exact sendMessage_keeps (by assumption)

theorem answerPeer_keeps {a v0 v1 v2 v3 v4} (g4 : Keeps a v4) :
    Keeps a (Sys2Proof.Machine.answerPeer v0 v1 v2 v3 v4) := by
  unfold Sys2Proof.Machine.answerPeer
  extract_lets -underBinder -merge -useContext +onlyGivenNames x0
  exact (Keeps.ite (respond_keeps (unmappedRead_keeps (by assumption))) (Keeps.ite (respond_keeps (by assumption)) (respond_keeps (countBytes_keeps (by assumption)))))

theorem execReadRequest_keeps {a v0 v1 v2 v3 v4 v5} (g5 : Keeps a v5) :
    KeepsOut a (Sys2Proof.Machine.execReadRequest v0 v1 v2 v3 v4 v5) := by
  unfold Sys2Proof.Machine.execReadRequest
  refine onMessage_keeps (by assumption) ?_
  intro y0 k1
  refine Keeps.ite ?_ (answerPeer_keeps (by assumption))
  extract_lets -underBinder -merge -useContext +onlyGivenNames x2
  exact Keeps.same (by assumption)

theorem fabricCommit_keeps {a v0} (g0 : Keeps a v0) :
    Keeps a (Sys2Proof.Machine.fabricCommit v0) := by
  unfold Sys2Proof.Machine.fabricCommit
  refine Keeps.ite (by assumption) ?_
  extract_lets -underBinder -merge -useContext +onlyGivenNames x0
  have h1 : Keeps a x0 := (setObj_keeps (by assumption))
  clear_value x0
  split
  · exact (setObj_keeps (setObj_keeps (by assumption)))
  · extract_lets -underBinder -merge -useContext +onlyGivenNames x2
    extract_lets -underBinder -merge -useContext +onlyGivenNames x3
    extract_lets -underBinder -merge -useContext +onlyGivenNames x4
    have h5 : Keeps a x4 := (Keeps.same (by assumption))
    clear_value x4
    extract_lets -underBinder -merge -useContext +onlyGivenNames x6
    have h7 : Keeps a x6 := (setObj_keeps (setObj_keeps (by assumption)))
    clear_value x6
    extract_lets -underBinder -merge -useContext +onlyGivenNames x8
    have h12 : Keeps a x8 := by
      unfold x8
      refine forUpTo_keeps (P := Keeps a) ?_ (by assumption)
      intro y9 y10 k11
      exact deviceWrite_keeps (by assumption)
    clear_value x8
    refine payGrants_keeps ?_
    refine forEach_keeps (P := Keeps a) ?_ (by assumption)
    intro y13 y14 k15
    exact grant_keeps (by assumption)

theorem moveRow_keeps {a v0 v1 v2 v3 v4} (g4 : Keeps a v4) :
    Keeps a (Sys2Proof.Machine.moveRow v0 v1 v2 v3 v4) := by
  unfold Sys2Proof.Machine.moveRow
  extract_lets -underBinder -merge -useContext +onlyGivenNames x0
  extract_lets -underBinder -merge -useContext +onlyGivenNames x1
  exact (Keeps.ite (deviceAgentStore_keeps (by assumption)) (modPond_keeps (by assumption)))

theorem runCopy_keeps {a v0 v1 v2 v3} (g3 : Keeps a v3) :
    KeepsSt a (Sys2Proof.Machine.runCopy v0 v1 v2 v3) := by
  unfold Sys2Proof.Machine.runCopy
  extract_lets -underBinder -merge -useContext +onlyGivenNames x0
  extract_lets -underBinder -merge -useContext +onlyGivenNames x1
  extract_lets -underBinder -merge -useContext +onlyGivenNames x2
  refine KeepsSt.ite (ended_keeps (unmappedAccess_keeps (by assumption))) ?_
  refine KeepsSt.ite (ended_keeps (addObj_keeps (by assumption))) ?_
  refine KeepsSt.ite (ended_keeps (by assumption)) ?_
  extract_lets -underBinder -merge -useContext +onlyGivenNames x3
  extract_lets -underBinder -merge -useContext +onlyGivenNames x4
  have h5 : Keeps a x4 := (tierMiss_keeps (by assumption))
  clear_value x4
  extract_lets -underBinder -merge -useContext +onlyGivenNames x6
  have h7 : Keeps a x6 := (countBytes_keeps (countBytes_keeps (by assumption)))
  clear_value x6
  extract_lets -underBinder -merge -useContext +onlyGivenNames x8
  have h9 : Keeps a x8 := (Keeps.ite (addObj_keeps (by assumption)) (by assumption))
  clear_value x8
  extract_lets -underBinder -merge -useContext +onlyGivenNames x10
  have h14 : KeepsSt a x10 := by
    unfold x10
    refine ran_keeps ?_
    refine forUpTo_keeps (P := Keeps a) ?_ (by assumption)
    intro y11 y12 k13
    exact moveRow_keeps (by assumption)
  clear_value x10
  assumption

theorem copyRow_keeps {a v0 v1 v2} (g2 : Keeps a v2) :
    KeepsOut a (Sys2Proof.Machine.copyRow v0 v1 v2) := by
  unfold Sys2Proof.Machine.copyRow
  refine onHeadIf_keeps (by assumption) ?_
  intro y0 y1 y2 k3
  exact runCopy_keeps (by assumption)

theorem execCopy_keeps {a v0 v1} (g1 : Keeps a v1) :
    KeepsOut a (Sys2Proof.Machine.execCopy v0 v1) := by
  unfold Sys2Proof.Machine.execCopy
  exact copyRow_keeps (by assumption)

theorem execFp32Add_keeps {a v0 v1} (g1 : Keeps a v1) :
    KeepsOut a (Sys2Proof.Machine.execFp32Add v0 v1) := by
  unfold Sys2Proof.Machine.execFp32Add
  exact copyRow_keeps (by assumption)

theorem execZeroFill_keeps {a v0 v1} (g1 : Keeps a v1) :
    KeepsOut a (Sys2Proof.Machine.execZeroFill v0 v1) := by
  unfold Sys2Proof.Machine.execZeroFill
  exact copyRow_keeps (by assumption)

theorem execPfmark_keeps {a v0 v1} (g1 : Keeps a v1) :
    KeepsOut a (Sys2Proof.Machine.execPfmark v0 v1) := by
  unfold Sys2Proof.Machine.execPfmark
  refine onHead_keeps (by assumption) ?_
  intro y0 y1 y2 k3
  extract_lets -underBinder -merge -useContext +onlyGivenNames x4
  extract_lets -underBinder -merge -useContext +onlyGivenNames x5
  have h6 : Keeps a x5 := (markSchedule_keeps (by assumption))
  clear_value x5
  extract_lets -underBinder -merge -useContext +onlyGivenNames x7
  have h8 : KeepsSt a x7 := (ran_keeps (by assumption))
  clear_value x7
  assumption

end Sys2Proof.Laws
end

