-- ==== Sys2Proof/Laws/KeepsCollective.lean ====
section
/-! SUPPORT. What the operations of fabric commands keep. -/

set_option Elab.async false

namespace Sys2Proof.Laws

open Sys2Proof.Machine Sys2Proof.Safety

theorem setFabCmds_keeps {a v0 v1} (g0 : Keeps a v0) :
    Keeps a (Sys2Proof.Machine.setFabCmds v0 v1) := by
  unfold Sys2Proof.Machine.setFabCmds
  exact Keeps.same (by assumption)

theorem putFab_keeps {a v0 v1} (g1 : Keeps a v1) :
    Keeps a (Sys2Proof.Machine.putFab v0 v1) := by
  unfold Sys2Proof.Machine.putFab
  exact setFabCmds_keeps (by assumption)

theorem failFab_keeps {a v0 v1 v2 v3 v4} (g4 : Keeps a v4) :
    Keeps a (Sys2Proof.Machine.failFab v0 v1 v2 v3 v4) := by
  unfold Sys2Proof.Machine.failFab
  extract_lets -underBinder -merge -useContext +onlyGivenNames x0
  have h1 : Keeps a x0 := (setFabCmds_keeps (by assumption))
  clear_value x0
  extract_lets -underBinder -merge -useContext +onlyGivenNames x2
  have h3 : Keeps a x2 := (modPond_keeps (by assumption))
  clear_value x2
  extract_lets -underBinder -merge -useContext +onlyGivenNames x4
  have h5 : Keeps a x4 := (Keeps.ite (by assumption) (addObj_keeps (by assumption)))
  clear_value x4
  exact (startExit_keeps (raise_keeps (by assumption)))

theorem cutOff_keeps {a v0} (g0 : Keeps a v0) :
    Keeps a (Sys2Proof.Machine.cutOff v0) := by
  unfold Sys2Proof.Machine.cutOff
  refine forEach_keeps (P := Keeps a) ?_ (by assumption)
  intro y0 y1 k2
  exact (Keeps.ite (by assumption) (failFab_keeps (by assumption)))

theorem execBrookRetrainDone_keeps {a v0 v1 v2} (g2 : Keeps a v2) :
    KeepsOut a (Sys2Proof.Machine.execBrookRetrainDone v0 v1 v2) := by
  unfold Sys2Proof.Machine.execBrookRetrainDone
  refine KeepsOut.ite ?_ KeepsOut.fault
  refine KeepsOut.next ?_
  refine cutOff_keeps ?_
  refine Keeps.ite (by assumption) ?_
  refine Keeps.ite ?_ ?_
  · extract_lets -underBinder -merge -useContext +onlyGivenNames x0
    extract_lets -underBinder -merge -useContext +onlyGivenNames x1
    have h2 : Keeps a x1 := (setBrook_keeps (by assumption))
    clear_value x1
    extract_lets -underBinder -merge -useContext +onlyGivenNames x3
    have h4 : Keeps a x3 := (showWidth_keeps (setObj_keeps (by assumption)))
    clear_value x3
    extract_lets -underBinder -merge -useContext +onlyGivenNames x5
    have h6 : Keeps a x5 := (followBrooks_keeps (resumeBrook_keeps (replayAll_keeps (by assumption))))
    clear_value x5
    exact (payGrants_keeps (sendControl_keeps (by assumption)))
  · extract_lets -underBinder -merge -useContext +onlyGivenNames x7
    extract_lets -underBinder -merge -useContext +onlyGivenNames x8
    have h9 : Keeps a x8 := (setBrook_keeps (by assumption))
    clear_value x8
    exact (Keeps.ite (brookDown_keeps (by assumption)) (retrain_keeps (by assumption)))

theorem execLaneErrorWindow_keeps {a v0 v1 v2 v3} (g3 : Keeps a v3) :
    KeepsOut a (Sys2Proof.Machine.execLaneErrorWindow v0 v1 v2 v3) := by
  unfold Sys2Proof.Machine.execLaneErrorWindow
  refine KeepsOut.ite ?_ KeepsOut.fault
  extract_lets -underBinder -merge -useContext +onlyGivenNames x0
  have h1 : Keeps a x0 := (addObj_keeps (Keeps.freshUp (by assumption)))
  clear_value x0
  extract_lets -underBinder -merge -useContext +onlyGivenNames x2
  extract_lets -underBinder -merge -useContext +onlyGivenNames x3
  extract_lets -underBinder -merge -useContext +onlyGivenNames x4
  refine KeepsOut.next ?_
  refine cutOff_keeps ?_
  refine Keeps.ite (by assumption) ?_
  extract_lets -underBinder -merge -useContext +onlyGivenNames x5
  have h6 : Keeps a x5 := (setBrook_keeps (by assumption))
  clear_value x5
  exact (Keeps.ite (askSpare_keeps (by assumption)) (narrow_keeps (by assumption)))

theorem unreachableEnd_keeps {a v0 v1} (g1 : Keeps a v1) :
    KeepsSt a (Sys2Proof.Machine.unreachableEnd v0 v1) := by
  unfold Sys2Proof.Machine.unreachableEnd
  exact (ended_keeps (raise_keeps (addObj_keeps (by assumption))))

theorem enterFab_keeps {a v0 v1} (g1 : Keeps a v1) :
    KeepsSt a (Sys2Proof.Machine.enterFab v0 v1) := by
  unfold Sys2Proof.Machine.enterFab
  exact (ran_keeps (setFabCmds_keeps (by assumption)))

theorem withReads_keeps {a e r} (h : KeepsSt a r) : KeepsSt a (withReads e r) := h

theorem sendOf_keeps {a v0 v1 v2} (g2 : Keeps a v2) :
    KeepsSnd a (Sys2Proof.Machine.sendOf v0 v1 v2) := by
  unfold Sys2Proof.Machine.sendOf
  exact sendBy_keeps (by assumption)

theorem fabRow_keeps {a v0 v1 v2 v3 v4 v5 v6} (g4 : Keeps a v4) (g6 : ∀ {y0 y1 y2}, Keeps a y2 → KeepsSt a (v6 y0 y1 y2)) :
    KeepsOut a (Sys2Proof.Machine.fabRow v0 v1 v2 v3 v4 v5 v6) := by
  unfold Sys2Proof.Machine.fabRow
  refine onHeadIf_keeps (by assumption) ?_
  intro y0 y1 y2 k3
  exact g6 (by assumption)

theorem runPut_keeps {a v0 v1 v2 v3} (g3 : Keeps a v3) :
    KeepsSt a (Sys2Proof.Machine.runPut v0 v1 v2 v3) := by
  unfold Sys2Proof.Machine.runPut
  extract_lets -underBinder -merge -useContext +onlyGivenNames x0
  refine KeepsSt.ite (unreachableEnd_keeps (by assumption)) ?_
  refine KeepsSt.ite (ended_keeps (by assumption)) ?_
  extract_lets -underBinder -merge -useContext +onlyGivenNames x1
  extract_lets -underBinder -merge -useContext +onlyGivenNames x2
  extract_lets -underBinder -merge -useContext +onlyGivenNames x3
  extract_lets -underBinder -merge -useContext +onlyGivenNames x4
  have h5 : Keeps a x4 := (countBytes_keeps (Keeps.same (by assumption)))
  clear_value x4
  extract_lets -underBinder -merge -useContext +onlyGivenNames x6
  extract_lets -underBinder -merge -useContext +onlyGivenNames x7
  refine withReads_keeps ?_
  refine KeepsSt.ite ?_ ?_
  · split
    rename_i m8 m9 e10
    have h11 := KeepsFst.of_eq e10 (by
      refine foldl_keeps (P := KeepsFst a) ?_ (KeepsFst.mk (by assumption))
      intro y12 y13 k14
      split
      rename_i m15 m16 e17
      have h18 := KeepsFst.of_eq e17 (fabricWrite_keeps (by assumption))
      exact KeepsFst.mk (by assumption)
      )
    exact (enterFab_keeps (Keeps.ite (bumpCounter_keeps (by assumption)) (by assumption)))
  · extract_lets -underBinder -merge -useContext +onlyGivenNames x19
    split
    rename_i m20 m21 e22
    have h23 := KeepsFst.of_eq e22 (by
      refine foldl_keeps (P := KeepsFst a) ?_ (KeepsFst.mk (by assumption))
      intro y24 y25 k26
      split
      rename_i m27 m28 e29
      have h30 := KeepsSnd.of_eq e29 (sendOf_keeps (by assumption))
      exact KeepsFst.mk (by assumption)
      )
    exact enterFab_keeps (by assumption)

theorem execPut_keeps {a v0 v1} (g1 : Keeps a v1) :
    KeepsOut a (Sys2Proof.Machine.execPut v0 v1) := by
  unfold Sys2Proof.Machine.execPut
  refine fabRow_keeps (by assumption) ?_
  intro y0 y1 y2 k3
  exact runPut_keeps (by assumption)

theorem localWrite_keeps {a v0 v1 v2 v3 v4} (g4 : Keeps a v4) :
    Keeps a (Sys2Proof.Machine.localWrite v0 v1 v2 v3 v4) := by
  unfold Sys2Proof.Machine.localWrite
  exact (Keeps.ite (modPond_keeps (by assumption)) (Keeps.ite (addObj_keeps (by assumption)) (deviceAgentWrite_keeps (countBytes_keeps (by assumption)))))

theorem sendReads_keeps {a v0 v1 v2 v3} (g3 : Keeps a v3) :
    KeepsSnd a (Sys2Proof.Machine.sendReads v0 v1 v2 v3) := by
  unfold Sys2Proof.Machine.sendReads
  refine foldl_keeps (P := KeepsSnd a) ?_ (KeepsSnd.mk (by assumption))
  intro y0 y1 k2
  extract_lets -underBinder -merge -useContext +onlyGivenNames x3
  extract_lets -underBinder -merge -useContext +onlyGivenNames x4
  have h5 : Keeps a x4 := (by assumption)
  clear_value x4
  extract_lets -underBinder -merge -useContext +onlyGivenNames x6
  extract_lets -underBinder -merge -useContext +onlyGivenNames x7
  have h8 : Keeps a x7 := (Keeps.same (by assumption))
  clear_value x7
  exact (KeepsSnd.mk (sendOf_keeps (by assumption)))

theorem runGet_keeps {a v0 v1 v2 v3} (g3 : Keeps a v3) :
    KeepsSt a (Sys2Proof.Machine.runGet v0 v1 v2 v3) := by
  unfold Sys2Proof.Machine.runGet
  extract_lets -underBinder -merge -useContext +onlyGivenNames x0
  extract_lets -underBinder -merge -useContext +onlyGivenNames x1
  refine KeepsSt.ite (unreachableEnd_keeps (by assumption)) ?_
  extract_lets -underBinder -merge -useContext +onlyGivenNames x2
  refine KeepsSt.ite (KeepsSt.ite (enterFab_keeps (localWrite_keeps (unmappedRead_keeps (by assumption)))) (KeepsSt.ite (ended_keeps (by assumption)) (withReads_keeps (enterFab_keeps (localWrite_keeps (countBytes_keeps (by assumption))))))) ?_
  split
  rename_i m3 m4 e5
  have h6 := KeepsSnd.of_eq e5 (sendReads_keeps (by assumption))
  exact enterFab_keeps (by assumption)

theorem execGet_keeps {a v0 v1} (g1 : Keeps a v1) :
    KeepsOut a (Sys2Proof.Machine.execGet v0 v1) := by
  unfold Sys2Proof.Machine.execGet
  refine fabRow_keeps (by assumption) ?_
  intro y0 y1 y2 k3
  exact runGet_keeps (by assumption)

theorem execWaitf_keeps {a v0 v1} (g1 : Keeps a v1) :
    KeepsOut a (Sys2Proof.Machine.execWaitf v0 v1) := by
  unfold Sys2Proof.Machine.execWaitf
  refine fabRow_keeps (by assumption) ?_
  intro y0 y1 y2 k3
  exact enterFab_keeps (by assumption)

theorem execWaitfTimeout_keeps {a v0 v1} (g1 : Keeps a v1) :
    KeepsOut a (Sys2Proof.Machine.execWaitfTimeout v0 v1) := by
  unfold Sys2Proof.Machine.execWaitfTimeout
  refine onPond_keeps (by assumption) ?_
  intro y0
  extract_lets -underBinder -merge -useContext +onlyGivenNames x1
  split
  · assumption
  · exact (failFab_keeps (advanceTo_keeps (by assumption)))

theorem staleEnd_keeps {a v0 v1} (g1 : Keeps a v1) :
    Keeps a (Sys2Proof.Machine.staleEnd v0 v1) := by
  unfold Sys2Proof.Machine.staleEnd
  exact failFab_keeps (by assumption)

theorem finishStamps_keeps {a v0 v1} (g1 : Keeps a v1) :
    Keeps a (Sys2Proof.Machine.finishStamps v0 v1) := by
  unfold Sys2Proof.Machine.finishStamps
  exact (Keeps.ite (putFab_keeps (by assumption)) (staleEnd_keeps (by assumption)))

theorem runStampchk_keeps {a v0 v1 v2 v3} (g3 : Keeps a v3) :
    KeepsSt a (Sys2Proof.Machine.runStampchk v0 v1 v2 v3) := by
  unfold Sys2Proof.Machine.runStampchk
  extract_lets -underBinder -merge -useContext +onlyGivenNames x0
  refine KeepsSt.ite (unreachableEnd_keeps (by assumption)) ?_
  extract_lets -underBinder -merge -useContext +onlyGivenNames x1
  extract_lets -underBinder -merge -useContext +onlyGivenNames x2
  split
  rename_i m5 m6 e7
  have h8 := KeepsSnd.of_eq e7 (by
    refine foldl_keeps (P := KeepsSnd a) ?_ (KeepsSnd.mk (by assumption))
    intro y9 y10 k11
    refine KeepsSnd.ite (by assumption) ?_
    split
    rename_i m12 m13 e14
    have h15 := KeepsSnd.of_eq e14 (sendReads_keeps (by assumption))
    exact KeepsSnd.mk (by assumption)
    )
  extract_lets -underBinder -merge -useContext +onlyGivenNames x3
  have h4 : KeepsSt a x3 := (enterFab_keeps (by assumption))
  clear_value x3
  exact (KeepsSt.ite (KeepsSt.ite (enterFab_keeps (by assumption)) (ended_keeps (raise_keeps (addObj_keeps (by assumption))))) (by assumption))

theorem execStampchk_keeps {a v0 v1} (g1 : Keeps a v1) :
    KeepsOut a (Sys2Proof.Machine.execStampchk v0 v1) := by
  unfold Sys2Proof.Machine.execStampchk
  refine fabRow_keeps (by assumption) ?_
  intro y0 y1 y2 k3
  exact runStampchk_keeps (by assumption)

theorem sendPiece_keeps {a v0 v1 v2 v3 v4 v5 v6} (g6 : Keeps a v6) :
    Keeps a (Sys2Proof.Machine.sendPiece v0 v1 v2 v3 v4 v5 v6) := by
  unfold Sys2Proof.Machine.sendPiece
  extract_lets -underBinder -merge -useContext +onlyGivenNames x0
  exact sendOf_keeps (by assumption)

theorem landCut_keeps {a v0 v1 v2 v3 v4} (g4 : Keeps a v4) :
    Keeps a (Sys2Proof.Machine.landCut v0 v1 v2 v3 v4) := by
  unfold Sys2Proof.Machine.landCut
  exact localWrite_keeps (by assumption)

theorem finishColl_keeps {a v0 v1} (g1 : Keeps a v1) :
    Keeps a (Sys2Proof.Machine.finishColl v0 v1) := by
  unfold Sys2Proof.Machine.finishColl
  extract_lets -underBinder -merge -useContext +onlyGivenNames x0
  refine Keeps.ite (addObj_keeps (putFab_keeps (by assumption))) ?_
  extract_lets -underBinder -merge -useContext +onlyGivenNames x1
  extract_lets -underBinder -merge -useContext +onlyGivenNames x2
  extract_lets -underBinder -merge -useContext +onlyGivenNames x3
  have h4 : Keeps a x3 := (Keeps.ite (deviceWrite_keeps (by assumption)) (by assumption))
  clear_value x3
  exact (Keeps.ite (staleEnd_keeps (by assumption)) (addObj_keeps (putFab_keeps (by assumption))))

theorem handOut_keeps {a v0 v1 v2 v3} (g3 : Keeps a v3) :
    Keeps a (Sys2Proof.Machine.handOut v0 v1 v2 v3) := by
  unfold Sys2Proof.Machine.handOut
  refine forEach_keeps (P := Keeps a) ?_ (by assumption)
  intro y0 y1 k2
  exact sendPiece_keeps (by assumption)

theorem spoilDestination_keeps {a v0 v1} (g1 : Keeps a v1) :
    Keeps a (Sys2Proof.Machine.spoilDestination v0 v1) := by
  unfold Sys2Proof.Machine.spoilDestination
  extract_lets -underBinder -merge -useContext +onlyGivenNames x0
  refine Keeps.ite (by assumption) ?_
  extract_lets -underBinder -merge -useContext +onlyGivenNames x1
  exact (deviceAgentWrite_keeps (Keeps.freshUp (by assumption)))

theorem collFault_keeps {a v0 v1} (g1 : Keeps a v1) :
    Keeps a (Sys2Proof.Machine.collFault v0 v1) := by
  unfold Sys2Proof.Machine.collFault
  exact (spoilDestination_keeps (failFab_keeps (by assumption)))

theorem takePart_keeps {a v0 v1 v2 v3 v4 v5} (g5 : Keeps a v5) :
    Keeps a (Sys2Proof.Machine.takePart v0 v1 v2 v3 v4 v5) := by
  unfold Sys2Proof.Machine.takePart
  extract_lets -underBinder -merge -useContext +onlyGivenNames x0
  extract_lets -underBinder -merge -useContext +onlyGivenNames x1
  extract_lets -underBinder -merge -useContext +onlyGivenNames x2
  extract_lets -underBinder -merge -useContext +onlyGivenNames x3
  extract_lets -underBinder -merge -useContext +onlyGivenNames x4
  extract_lets -underBinder -merge -useContext +onlyGivenNames x5
  refine Keeps.ite (collFault_keeps (by assumption)) ?_
  extract_lets -underBinder -merge -useContext +onlyGivenNames x6
  extract_lets -underBinder -merge -useContext +onlyGivenNames x7
  have h8 : Keeps a x7 := (putFab_keeps (by assumption))
  clear_value x7
  extract_lets -underBinder -merge -useContext +onlyGivenNames x9
  extract_lets -underBinder -merge -useContext +onlyGivenNames x10
  have h11 : Keeps a x10 := (landCut_keeps (by assumption))
  clear_value x10
  extract_lets -underBinder -merge -useContext +onlyGivenNames x12
  have h13 : Keeps a x12 := (Keeps.ite (Keeps.ite (Keeps.ite (handOut_keeps (by assumption)) (by assumption)) (sendPiece_keeps (by assumption))) (landCut_keeps (by assumption)))
  clear_value x12
  exact (Keeps.ite (finishColl_keeps (by assumption)) (by assumption))

theorem takeEarly_keeps {a v0 v1 v2 v3} (g2 : ∀ {y0 y1 y2}, Keeps a y2 → Keeps a (v2 y0 y1 y2)) (g3 : Keeps a v3) :
    Keeps a (Sys2Proof.Machine.takeEarly v0 v1 v2 v3) := by
  unfold Sys2Proof.Machine.takeEarly
  split
  · assumption
  · extract_lets -underBinder -merge -useContext +onlyGivenNames x0
    extract_lets -underBinder -merge -useContext +onlyGivenNames x1
    extract_lets -underBinder -merge -useContext +onlyGivenNames x2
    have h3 : Keeps a x2 := (Keeps.same (by assumption))
    clear_value x2
    refine forEach_keeps (P := Keeps a) ?_ (by assumption)
    intro y4 y5 k6
    split
    · assumption
    · exact g2 (by assumption)

theorem runColl_keeps {a v0 v1 v2 v3} (g3 : Keeps a v3) :
    KeepsSt a (Sys2Proof.Machine.runColl v0 v1 v2 v3) := by
  unfold Sys2Proof.Machine.runColl
  extract_lets -underBinder -merge -useContext +onlyGivenNames x0
  extract_lets -underBinder -merge -useContext +onlyGivenNames x1
  refine KeepsSt.ite (unreachableEnd_keeps (by assumption)) ?_
  refine KeepsSt.ite (ended_keeps (by assumption)) ?_
  extract_lets -underBinder -merge -useContext +onlyGivenNames x2
  extract_lets -underBinder -merge -useContext +onlyGivenNames x3
  extract_lets -underBinder -merge -useContext +onlyGivenNames x4
  extract_lets -underBinder -merge -useContext +onlyGivenNames x5
  have h6 : Keeps a x5 := (Keeps.same (by assumption))
  clear_value x5
  extract_lets -underBinder -merge -useContext +onlyGivenNames x7
  extract_lets -underBinder -merge -useContext +onlyGivenNames x8
  extract_lets -underBinder -merge -useContext +onlyGivenNames x9
  have h10 : Keeps a x9 := (countBytes_keeps (by assumption))
  clear_value x9
  extract_lets -underBinder -merge -useContext +onlyGivenNames x11
  have h12 : KeepsSt a x11 := (withReads_keeps (enterFab_keeps (by assumption)))
  clear_value x11
  extract_lets -underBinder -merge -useContext +onlyGivenNames x13
  have h14 : Keeps a x13 := (by assumption)
  clear_value x13
  extract_lets -underBinder -merge -useContext +onlyGivenNames x15
  extract_lets -underBinder -merge -useContext +onlyGivenNames x16
  extract_lets -underBinder -merge -useContext +onlyGivenNames x17
  have h44 : Keeps a x17 := by
    unfold x17
    refine Keeps.ite ?_ ?_
    · refine forEach_keeps (P := Keeps a) ?_ (by assumption)
      intro y18 y19 k20
      exact landCut_keeps (by assumption)
    · split
      · refine forEach_keeps (P := Keeps a) ?_ (by assumption)
        intro y21 y22 k23
        exact sendPiece_keeps (by assumption)
      · refine forEach_keeps (P := Keeps a) ?_ (by assumption)
        intro y24 y25 k26
        exact sendPiece_keeps (by assumption)
      · refine forEach_keeps (P := Keeps a) ?_ (by assumption)
        intro y27 y28 k29
        exact (landCut_keeps (handOut_keeps (by assumption)))
      · refine Keeps.ite ?_ (by assumption)
        refine forEach_keeps (P := Keeps a) ?_ (by assumption)
        intro y30 y31 k32
        exact (landCut_keeps (handOut_keeps (by assumption)))
      · extract_lets -underBinder -merge -useContext +onlyGivenNames x33
        have h40 : Keeps a x33 := by
          unfold x33
          refine forEach_keeps (P := Keeps a) ?_ (by assumption)
          intro y34 y35 k36
          refine forEach_keeps (P := Keeps a) ?_ (by assumption)
          intro y37 y38 k39
          exact sendPiece_keeps (by assumption)
        clear_value x33
        refine forEach_keeps (P := Keeps a) ?_ (by assumption)
        intro y41 y42 k43
        exact landCut_keeps (by assumption)
  clear_value x17
  assumption

theorem settleColl_keeps {a v0 v1 v2} (g2 : Keeps a v2) :
    Keeps a (Sys2Proof.Machine.settleColl v0 v1 v2) := by
  unfold Sys2Proof.Machine.settleColl
  split
  · assumption
  · refine Keeps.ite (by assumption) ?_
    refine Keeps.ite (finishColl_keeps (by assumption)) ?_
    refine takeEarly_keeps ?_ (by assumption)
    intro y0 y1 y2 k3
    exact takePart_keeps (by assumption)

theorem collRow_keeps {a v0 v1 v2} (g2 : Keeps a v2) :
    KeepsOut a (Sys2Proof.Machine.collRow v0 v1 v2) := by
  unfold Sys2Proof.Machine.collRow
  extract_lets -underBinder -merge -useContext +onlyGivenNames x0
  split
  · rename_i m1 e2
    have h3 := KeepsOut.of_eq e2 (by
      refine fabRow_keeps (by assumption) ?_
      intro y4 y5 y6 k7
      exact runColl_keeps (by assumption)
      )
    exact (KeepsOut.next (Keeps.ite (by assumption) (settleColl_keeps (by assumption))))
  · refine fabRow_keeps (by assumption) ?_
    intro y8 y9 y10 k11
    exact runColl_keeps (by assumption)

theorem execAllreduce_keeps {a v0 v1} (g1 : Keeps a v1) :
    KeepsOut a (Sys2Proof.Machine.execAllreduce v0 v1) := by
  unfold Sys2Proof.Machine.execAllreduce
  exact collRow_keeps (by assumption)

theorem execReducescatter_keeps {a v0 v1} (g1 : Keeps a v1) :
    KeepsOut a (Sys2Proof.Machine.execReducescatter v0 v1) := by
  unfold Sys2Proof.Machine.execReducescatter
  exact collRow_keeps (by assumption)

theorem execAllgather_keeps {a v0 v1} (g1 : Keeps a v1) :
    KeepsOut a (Sys2Proof.Machine.execAllgather v0 v1) := by
  unfold Sys2Proof.Machine.execAllgather
  exact collRow_keeps (by assumption)

theorem execBroadcast_keeps {a v0 v1} (g1 : Keeps a v1) :
    KeepsOut a (Sys2Proof.Machine.execBroadcast v0 v1) := by
  unfold Sys2Proof.Machine.execBroadcast
  exact collRow_keeps (by assumption)

theorem execAlltoall_keeps {a v0 v1} (g1 : Keeps a v1) :
    KeepsOut a (Sys2Proof.Machine.execAlltoall v0 v1) := by
  unfold Sys2Proof.Machine.execAlltoall
  exact collRow_keeps (by assumption)

theorem passMarker_keeps {a v0 v1 v2} (g2 : Keeps a v2) :
    Keeps a (Sys2Proof.Machine.passMarker v0 v1 v2) := by
  unfold Sys2Proof.Machine.passMarker
  exact sendOf_keeps (by assumption)

theorem passMarkers_keeps {a v0 v1 v2} (g2 : Keeps a v2) :
    Keeps a (Sys2Proof.Machine.passMarkers v0 v1 v2) := by
  unfold Sys2Proof.Machine.passMarkers
  split
  · assumption
  · refine Keeps.ite (by assumption) ?_
    refine forEach_keeps (P := Keeps a) ?_ (putFab_keeps (by assumption))
    intro y0 y1 k2
    exact passMarker_keeps (by assumption)

theorem sendPerm_keeps {a v0 v1 v2 v3 v4 v5} (g5 : Keeps a v5) :
    Keeps a (Sys2Proof.Machine.sendPerm v0 v1 v2 v3 v4 v5) := by
  unfold Sys2Proof.Machine.sendPerm
  split
  · assumption
  · extract_lets -underBinder -merge -useContext +onlyGivenNames x0
    split
    rename_i m1 m2 e3
    have h4 := KeepsSnd.of_eq e3 (sendOf_keeps (by assumption))
    split
    · assumption
    · exact putFab_keeps (by assumption)

theorem landBlock_keeps {a v0 v1 v2 v3 v4 v5} (g5 : Keeps a v5) :
    Keeps a (Sys2Proof.Machine.landBlock v0 v1 v2 v3 v4 v5) := by
  unfold Sys2Proof.Machine.landBlock
  split
  · assumption
  · split
    exact (localWrite_keeps (putFab_keeps (by assumption)))

theorem startRound_keeps {a v0 v1 v2} (g2 : Keeps a v2) :
    Keeps a (Sys2Proof.Machine.startRound v0 v1 v2) := by
  unfold Sys2Proof.Machine.startRound
  split
  · assumption
  · extract_lets -underBinder -merge -useContext +onlyGivenNames x0
    split
    extract_lets -underBinder -merge -useContext +onlyGivenNames x1
    extract_lets -underBinder -merge -useContext +onlyGivenNames x2
    extract_lets -underBinder -merge -useContext +onlyGivenNames x3
    extract_lets -underBinder -merge -useContext +onlyGivenNames x4
    extract_lets -underBinder -merge -useContext +onlyGivenNames x5
    have h6 : Keeps a x5 := (putFab_keeps (by assumption))
    clear_value x5
    refine Keeps.ite ?_ ?_
    · refine passMarkers_keeps ?_
      refine forEach_keeps (P := Keeps a) ?_ (by assumption)
      intro y7 y8 k9
      exact landBlock_keeps (by assumption)
    · refine forEach_keeps (P := Keeps a) ?_ (by assumption)
      intro y10 y11 k12
      exact sendPerm_keeps (by assumption)

theorem permFault_keeps {a v0 v1} (g1 : Keeps a v1) :
    Keeps a (Sys2Proof.Machine.permFault v0 v1) := by
  unfold Sys2Proof.Machine.permFault
  exact failFab_keeps (by assumption)

theorem takePerm_keeps {a v0 v1 v2 v3 v4} (g4 : Keeps a v4) :
    Keeps a (Sys2Proof.Machine.takePerm v0 v1 v2 v3 v4) := by
  unfold Sys2Proof.Machine.takePerm
  extract_lets -underBinder -merge -useContext +onlyGivenNames x0
  extract_lets -underBinder -merge -useContext +onlyGivenNames x1
  refine Keeps.ite (Keeps.same (by assumption)) ?_
  extract_lets -underBinder -merge -useContext +onlyGivenNames x2
  have h3 : Keeps a x2 := (putFab_keeps (by assumption))
  clear_value x2
  exact (Keeps.ite (Keeps.ite (permFault_keeps (by assumption)) (Keeps.ite (startRound_keeps (by assumption)) (by assumption))) (Keeps.ite (Keeps.ite (by assumption) (Keeps.ite (passMarker_keeps (by assumption)) (putFab_keeps (by assumption)))) (landBlock_keeps (by assumption))))

theorem settlePerm_keeps {a v0 v1 v2} (g2 : Keeps a v2) :
    Keeps a (Sys2Proof.Machine.settlePerm v0 v1 v2) := by
  unfold Sys2Proof.Machine.settlePerm
  extract_lets -underBinder -merge -useContext +onlyGivenNames x0
  have h1 : ∀ {y0}, Keeps a y0 → Keeps a (x0 y0) := by
    intro y2 k3
    unfold x0
    refine takeEarly_keeps ?_ (by assumption)
    intro y4 y5 y6 k7
    exact takePerm_keeps (by assumption)
  clear_value x0
  exact (h1 (h1 (by assumption)))

theorem runPermute_keeps {a v0 v1 v2 v3} (g3 : Keeps a v3) :
    KeepsSt a (Sys2Proof.Machine.runPermute v0 v1 v2 v3) := by
  unfold Sys2Proof.Machine.runPermute
  extract_lets -underBinder -merge -useContext +onlyGivenNames x0
  extract_lets -underBinder -merge -useContext +onlyGivenNames x1
  extract_lets -underBinder -merge -useContext +onlyGivenNames x2
  refine KeepsSt.ite (unreachableEnd_keeps (by assumption)) ?_
  refine KeepsSt.ite (ended_keeps (by assumption)) ?_
  extract_lets -underBinder -merge -useContext +onlyGivenNames x3
  extract_lets -underBinder -merge -useContext +onlyGivenNames x4
  extract_lets -underBinder -merge -useContext +onlyGivenNames x5
  extract_lets -underBinder -merge -useContext +onlyGivenNames x6
  have h7 : Keeps a x6 := (Keeps.same (by assumption))
  clear_value x6
  extract_lets -underBinder -merge -useContext +onlyGivenNames x8
  refine KeepsSt.ite (ended_keeps (raise_keeps (by assumption))) ?_
  extract_lets -underBinder -merge -useContext +onlyGivenNames x9
  extract_lets -underBinder -merge -useContext +onlyGivenNames x10
  have h11 : KeepsSt a x10 := (withReads_keeps (enterFab_keeps (by assumption)))
  clear_value x10
  extract_lets -underBinder -merge -useContext +onlyGivenNames x12
  extract_lets -underBinder -merge -useContext +onlyGivenNames x13
  have h17 : Keeps a x13 := by
    unfold x13
    refine forEach_keeps (P := Keeps a) ?_ (by assumption)
    intro y14 y15 k16
    exact sendOf_keeps (by assumption)
  clear_value x13
  exact (Keeps.ite (startRound_keeps (by assumption)) (by assumption))

theorem execPermute_keeps {a v0 v1} (g1 : Keeps a v1) :
    KeepsOut a (Sys2Proof.Machine.execPermute v0 v1) := by
  unfold Sys2Proof.Machine.execPermute
  extract_lets -underBinder -merge -useContext +onlyGivenNames x0
  split
  · rename_i m1 e2
    have h3 := KeepsOut.of_eq e2 (by
      refine fabRow_keeps (by assumption) ?_
      intro y4 y5 y6 k7
      exact runPermute_keeps (by assumption)
      )
    exact (KeepsOut.next (Keeps.ite (by assumption) (settlePerm_keeps (by assumption))))
  · refine fabRow_keeps (by assumption) ?_
    intro y8 y9 y10 k11
    exact runPermute_keeps (by assumption)

theorem settleRound_keeps {a v0 v1} (g1 : Keeps a v1) :
    Keeps a (Sys2Proof.Machine.settleRound v0 v1) := by
  unfold Sys2Proof.Machine.settleRound
  extract_lets -underBinder -merge -useContext +onlyGivenNames x0
  split
  · assumption
  · extract_lets -underBinder -merge -useContext +onlyGivenNames x1
    extract_lets -underBinder -merge -useContext +onlyGivenNames x2
    have h3 : Keeps a x2 := (localWrite_keeps (by assumption))
    clear_value x2
    exact putFab_keeps (by assumption)

theorem execPermuteRoundEnd_keeps {a v0 v1} (g1 : Keeps a v1) :
    KeepsOut a (Sys2Proof.Machine.execPermuteRoundEnd v0 v1) := by
  unfold Sys2Proof.Machine.execPermuteRoundEnd
  refine onPond_keeps (by assumption) ?_
  intro y0
  split
  · assumption
  · refine Keeps.ite (by assumption) ?_
    extract_lets -underBinder -merge -useContext +onlyGivenNames x1
    have h2 : Keeps a x1 := (settleRound_keeps (by assumption))
    clear_value x1
    split
    · assumption
    · exact (Keeps.ite (addObj_keeps (putFab_keeps (by assumption))) (settlePerm_keeps (startRound_keeps (putFab_keeps (by assumption)))))

theorem execCollectiveTimeout_keeps {a v0 v1} (g1 : Keeps a v1) :
    KeepsOut a (Sys2Proof.Machine.execCollectiveTimeout v0 v1) := by
  unfold Sys2Proof.Machine.execCollectiveTimeout
  refine onPond_keeps (by assumption) ?_
  intro y0
  split
  · assumption
  · exact (spoilDestination_keeps (failFab_keeps (addObj_keeps (advanceTo_keeps (by assumption)))))

theorem takeResponse_keeps {a v0 v1 v2 v3 v4} (g4 : Keeps a v4) :
    Keeps a (Sys2Proof.Machine.takeResponse v0 v1 v2 v3 v4) := by
  unfold Sys2Proof.Machine.takeResponse
  refine Keeps.ite ?_ ?_
  · extract_lets -underBinder -merge -useContext +onlyGivenNames x0
    have h1 : Keeps a x0 := (setFabCmds_keeps (by assumption))
    clear_value x0
    extract_lets -underBinder -merge -useContext +onlyGivenNames x2
    have h3 : Keeps a x2 := (modPond_keeps (by assumption))
    clear_value x2
    exact startExit_keeps (by assumption)
  · refine Keeps.ite ?_ ?_
    · extract_lets -underBinder -merge -useContext +onlyGivenNames x4
      extract_lets -underBinder -merge -useContext +onlyGivenNames x5
      exact (Keeps.ite (finishStamps_keeps (putFab_keeps (by assumption))) (putFab_keeps (by assumption)))
    · extract_lets -underBinder -merge -useContext +onlyGivenNames x6
      refine Keeps.ite ?_ (putFab_keeps (by assumption))
      refine putFab_keeps ?_
      refine forEach_keeps (P := Keeps a) ?_ (by assumption)
      intro y7 y8 k9
      exact localWrite_keeps (by assumption)

theorem execReadResponse_keeps {a v0 v1 v2 v3 v4 v5} (g5 : Keeps a v5) :
    KeepsOut a (Sys2Proof.Machine.execReadResponse v0 v1 v2 v3 v4 v5) := by
  unfold Sys2Proof.Machine.execReadResponse
  refine onMessage_keeps (by assumption) ?_
  intro y0 k1
  split
  · assumption
  · exact takeResponse_keeps (by assumption)

theorem execCollectivePart_keeps {a v0 v1 v2 v3 v4 v5 v6 v7} (g7 : Keeps a v7) :
    KeepsOut a (Sys2Proof.Machine.execCollectivePart v0 v1 v2 v3 v4 v5 v6 v7) := by
  unfold Sys2Proof.Machine.execCollectivePart
  refine onMessage_keeps (by assumption) ?_
  intro y0 k1
  split
  · exact (Keeps.ite (settlePerm_keeps (takePerm_keeps (by assumption))) (takePart_keeps (by assumption)))
  · extract_lets -underBinder -merge -useContext +onlyGivenNames x2
    exact (Keeps.ite (Keeps.same (by assumption)) (by assumption))

theorem ackedBy_keeps {a v0 v1 v2 v3} (g3 : Keeps a v3) :
    Keeps a (Sys2Proof.Machine.ackedBy v0 v1 v2 v3) := by
  unfold Sys2Proof.Machine.ackedBy
  refine Keeps.ite (by assumption) ?_
  extract_lets -underBinder -merge -useContext +onlyGivenNames x0
  refine Keeps.ite (passMarkers_keeps (putFab_keeps (by assumption))) ?_
  refine Keeps.ite (putFab_keeps (by assumption)) ?_
  split
  · split
    rename_i m1 m2 e3
    have h4 := KeepsSnd.of_eq e3 (sendOf_keeps (by assumption))
    exact putFab_keeps (by assumption)
  · exact putFab_keeps (by assumption)

theorem execEndToEndAck_keeps {a v0 v1 v2 v3} (g3 : Keeps a v3) :
    KeepsOut a (Sys2Proof.Machine.execEndToEndAck v0 v1 v2 v3) := by
  unfold Sys2Proof.Machine.execEndToEndAck
  refine KeepsOut.ite ?_ KeepsOut.fault
  extract_lets -underBinder -merge -useContext +onlyGivenNames x0
  extract_lets -underBinder -merge -useContext +onlyGivenNames x1
  have h2 : Keeps a x1 := (Keeps.same (by assumption))
  clear_value x1
  refine KeepsOut.next ?_
  refine forEach_keeps (P := Keeps a) ?_ (by assumption)
  intro y3 y4 k5
  exact ackedBy_keeps (by assumption)

theorem stateAfter_keeps {a s o} (h : Keeps a s) (k : KeepsOut a o) : Keeps a (stateAfter s o) := by
  unfold stateAfter
  split
  · exact k _ rfl
  · exact h

theorem takeMessage_keeps {a v0 v1 v2} (g2 : Keeps a v2) :
    Keeps a (Sys2Proof.Machine.takeMessage v0 v1 v2) := by
  unfold Sys2Proof.Machine.takeMessage
  extract_lets -underBinder -merge -useContext +onlyGivenNames x0
  extract_lets -underBinder -merge -useContext +onlyGivenNames x1
  refine stateAfter_keeps (by assumption) ?_
  split
  · exact execWrite_keeps (by assumption)
  · exact execWriteLastSignal_keeps (by assumption)
  · exact execReadRequest_keeps (by assumption)
  · exact execReadResponse_keeps (by assumption)
  · exact execCollectivePart_keeps (by assumption)
  · exact KeepsOut.next (by assumption)

theorem takeControl_keeps {a v0 v1 v2 v3 v4} (g4 : Keeps a v4) :
    Keeps a (Sys2Proof.Machine.takeControl v0 v1 v2 v3 v4) := by
  unfold Sys2Proof.Machine.takeControl
  extract_lets -underBinder -merge -useContext +onlyGivenNames x0
  refine stateAfter_keeps (by assumption) ?_
  split
  · exact execCreditGrant_keeps (by assumption)
  · exact execSpareRequest_keeps (by assumption)
  · exact execSpareConfirm_keeps (by assumption)
  · exact execWidthChange_keeps (by assumption)
  · exact execEndToEndAck_keeps (by assumption)
  · exact execIdentity_keeps (by assumption)
  · exact KeepsOut.next (by assumption)

theorem takeData_keeps {a v0 v1 v2 v3 v4 v5} (g5 : Keeps a v5) :
    Keeps a (Sys2Proof.Machine.takeData v0 v1 v2 v3 v4 v5) := by
  unfold Sys2Proof.Machine.takeData
  refine Keeps.ite (raise_keeps (addObj_keeps (by assumption))) ?_
  extract_lets -underBinder -merge -useContext +onlyGivenNames x0
  extract_lets -underBinder -merge -useContext +onlyGivenNames x1
  have h2 : Keeps a x1 := (Keeps.same (by assumption))
  clear_value x1
  extract_lets -underBinder -merge -useContext +onlyGivenNames x3
  extract_lets -underBinder -merge -useContext +onlyGivenNames x4
  extract_lets -underBinder -merge -useContext +onlyGivenNames x5
  have h6 : Keeps a x5 := (setBrook_keeps (by assumption))
  clear_value x5
  extract_lets -underBinder -merge -useContext +onlyGivenNames x7
  have h8 : Keeps a x7 := (setObj_keeps (by assumption))
  clear_value x7
  extract_lets -underBinder -merge -useContext +onlyGivenNames x9
  extract_lets -underBinder -merge -useContext +onlyGivenNames x10
  have h11 : Keeps a x10 := (Keeps.ite (grant_keeps (by assumption)) (by assumption))
  clear_value x10
  refine Keeps.ite (by assumption) ?_
  extract_lets -underBinder -merge -useContext +onlyGivenNames x12
  extract_lets -underBinder -merge -useContext +onlyGivenNames x13
  have h14 : Keeps a x13 := (setBrook_keeps (by assumption))
  clear_value x13
  exact (grant_keeps (takeMessage_keeps (by assumption)))

theorem answerNak_keeps {a v0 v1 v2} (g2 : Keeps a v2) :
    Keeps a (Sys2Proof.Machine.answerNak v0 v1 v2) := by
  unfold Sys2Proof.Machine.answerNak
  extract_lets -underBinder -merge -useContext +onlyGivenNames x0
  extract_lets -underBinder -merge -useContext +onlyGivenNames x1
  extract_lets -underBinder -merge -useContext +onlyGivenNames x2
  have h3 : Keeps a x2 := (sendNak_keeps (setBrook_keeps (by assumption)))
  clear_value x2
  exact (Keeps.ite (retrain_keeps (by assumption)) (by assumption))

theorem execFlitReceive_keeps {a v0 v1 v2 v3 v4} (g4 : Keeps a v4) :
    KeepsOut a (Sys2Proof.Machine.execFlitReceive v0 v1 v2 v3 v4) := by
  unfold Sys2Proof.Machine.execFlitReceive
  refine KeepsOut.ite ?_ KeepsOut.fault
  extract_lets -underBinder -merge -useContext +onlyGivenNames x0
  extract_lets -underBinder -merge -useContext +onlyGivenNames x1
  extract_lets -underBinder -merge -useContext +onlyGivenNames x2
  extract_lets -underBinder -merge -useContext +onlyGivenNames x3
  extract_lets -underBinder -merge -useContext +onlyGivenNames x4
  extract_lets -underBinder -merge -useContext +onlyGivenNames x5
  extract_lets -underBinder -merge -useContext +onlyGivenNames x6
  have h7 : ∀ {y0}, Keeps a y0 → Keeps a (x6 y0) := by
    intro y8 k9
    unfold x6
    exact answerNak_keeps (by assumption)
  clear_value x6
  refine KeepsOut.next ?_
  refine Keeps.ite (by assumption) ?_
  refine Keeps.ite (h7 (addObj_keeps (addObj_keeps (Keeps.freshUp (by assumption))))) ?_
  extract_lets -underBinder -merge -useContext +onlyGivenNames x10
  have h11 : Keeps a x10 := (addObj_keeps (by assumption))
  clear_value x10
  extract_lets -underBinder -merge -useContext +onlyGivenNames x12
  have h13 : Keeps a x12 := (Keeps.ite (Keeps.ite (nakFrom_keeps (by assumption)) (ackUpTo_keeps (by assumption))) (by assumption))
  clear_value x12
  extract_lets -underBinder -merge -useContext +onlyGivenNames x14
  refine Keeps.ite (by assumption) ?_
  refine Keeps.ite (Keeps.ite (by assumption) (h7 (by assumption))) ?_
  extract_lets -underBinder -merge -useContext +onlyGivenNames x15
  extract_lets -underBinder -merge -useContext +onlyGivenNames x16
  have h17 : Keeps a x16 := (setBrook_keeps (by assumption))
  clear_value x16
  extract_lets -underBinder -merge -useContext +onlyGivenNames x18
  have h19 : Keeps a x18 := (Keeps.ite (by assumption) (sendControl_keeps (by assumption)))
  clear_value x18
  exact (Keeps.ite (takeControl_keeps (by assumption)) (Keeps.ite (by assumption) (takeData_keeps (by assumption))))

theorem answerHost_keeps {a v0 v1 v2} (g2 : Keeps a v2) :
    Keeps a (Sys2Proof.Machine.answerHost v0 v1 v2) := by
  unfold Sys2Proof.Machine.answerHost
  extract_lets -underBinder -merge -useContext +onlyGivenNames x0
  exact (Keeps.ite (send_keeps (unmappedRead_keeps (by assumption))) (Keeps.ite (send_keeps (by assumption)) (send_keeps (countBytes_keeps (by assumption)))))

theorem serveReads_keeps {a v0} (g0 : Keeps a v0) :
    Keeps a (Sys2Proof.Machine.serveReads v0) := by
  unfold Sys2Proof.Machine.serveReads
  extract_lets -underBinder -merge -useContext +onlyGivenNames x0
  extract_lets -underBinder -merge -useContext +onlyGivenNames x1
  extract_lets -underBinder -merge -useContext +onlyGivenNames x2
  have h3 : Keeps a x2 := (Keeps.same (by assumption))
  clear_value x2
  refine forEach_keeps (P := Keeps a) ?_ (by assumption)
  intro y4 y5 k6
  extract_lets -underBinder -merge -useContext +onlyGivenNames x7
  have h8 : Keeps a x7 := (countWait_keeps (by assumption))
  clear_value x7
  exact (Keeps.ite (answerHost_keeps (by assumption)) (answerPeer_keeps (by assumption)))

theorem wakeAccesses_keeps {a v0} (g0 : Keeps a v0) :
    Keeps a (Sys2Proof.Machine.wakeAccesses v0) := by
  unfold Sys2Proof.Machine.wakeAccesses
  exact (serveReads_keeps (flushWrites_keeps (by assumption)))

theorem execShoreRetrainDone_keeps {a v0 v1} (g1 : Keeps a v1) :
    KeepsOut a (Sys2Proof.Machine.execShoreRetrainDone v0 v1) := by
  unfold Sys2Proof.Machine.execShoreRetrainDone
  refine KeepsOut.ite ?_ KeepsOut.fault
  extract_lets -underBinder -merge -useContext +onlyGivenNames x0
  exact (KeepsOut.next (Keeps.ite (wakeAccesses_keeps (setMember_keeps (by assumption))) (by assumption)))

theorem execUncorrectableMemoryError_keeps {a v0 v1} (g1 : Keeps a v1) :
    KeepsOut a (Sys2Proof.Machine.execUncorrectableMemoryError v0 v1) := by
  unfold Sys2Proof.Machine.execUncorrectableMemoryError
  refine KeepsOut.next ?_
  split
  · assumption
  · exact (Keeps.ite (serveReads_keeps (poisonExtent_keeps (by assumption))) (by assumption))

theorem execRefetchDone_keeps {a v0 v1} (g1 : Keeps a v1) :
    KeepsOut a (Sys2Proof.Machine.execRefetchDone v0 v1) := by
  unfold Sys2Proof.Machine.execRefetchDone
  refine KeepsOut.next ?_
  split
  · exact serveReads_keeps (by assumption)
  · extract_lets -underBinder -merge -useContext +onlyGivenNames x0
    extract_lets -underBinder -merge -useContext +onlyGivenNames x1
    refine Keeps.ite (by assumption) ?_
    extract_lets -underBinder -merge -useContext +onlyGivenNames x2
    extract_lets -underBinder -merge -useContext +onlyGivenNames x3
    have h4 : Keeps a x3 := (Keeps.same (by assumption))
    clear_value x3
    refine Keeps.ite (serveReads_keeps (refetchFailed_keeps (markFrame_keeps (by assumption)))) ?_
    extract_lets -underBinder -merge -useContext +onlyGivenNames x5
    have h6 : Keeps a x5 := (addObj_keeps (addObj_keeps (copyFrame_keeps (by assumption))))
    clear_value x5
    extract_lets -underBinder -merge -useContext +onlyGivenNames x7
    have h8 : Keeps a x7 := (setExtent_keeps (by assumption))
    clear_value x7
    extract_lets -underBinder -merge -useContext +onlyGivenNames x9
    have h10 : Keeps a x9 := by
      unfold x9
      split
      · assumption
      · exact setObject_keeps (by assumption)
    clear_value x9
    exact (retryEvacuation_keeps (serveReads_keeps (addObj_keeps (by assumption))))

end Sys2Proof.Laws
end

