-- ==== Sys2Proof/Laws/KeepsShares.lean ====
section
/-! SUPPORT. What the operations of background tasks keep. -/

set_option Elab.async false

namespace Sys2Proof.Laws

open Sys2Proof.Machine Sys2Proof.Safety

theorem startSection_keeps {a v0 v1 v2 v3 v4 v5 v6 v7} (g7 : Keeps a v7) :
    Keeps a (Sys2Proof.Machine.startSection v0 v1 v2 v3 v4 v5 v6 v7) := by
  unfold Sys2Proof.Machine.startSection
  extract_lets -underBinder -merge -useContext +onlyGivenNames x0
  extract_lets -underBinder -merge -useContext +onlyGivenNames x1
  extract_lets -underBinder -merge -useContext +onlyGivenNames x2
  extract_lets -underBinder -merge -useContext +onlyGivenNames x3
  extract_lets -underBinder -merge -useContext +onlyGivenNames x4
  have h5 : Keeps a x4 := (modPond_keeps (by assumption))
  clear_value x4
  clear_value x0
  split
  · exact startExit_keeps (by assumption)
  · exact (Keeps.ite (startExit_keeps (by assumption)) (by assumption))

theorem zeroPeers_keeps {a v0 v1} (g1 : Keeps a v1) :
    Keeps a (Sys2Proof.Machine.zeroPeers v0 v1) := by
  unfold Sys2Proof.Machine.zeroPeers
  refine forEach_keeps (P := Keeps a) ?_ (by assumption)
  intro y0 y1 k2
  exact (Keeps.ite (by assumption) (modCore_keeps (by assumption)))

theorem freeTask_keeps {a v0 v1} (g1 : Keeps a v1) :
    Keeps a (Sys2Proof.Machine.freeTask v0 v1) := by
  unfold Sys2Proof.Machine.freeTask
  exact (setTaskState_keeps (setTaskField_keeps (by assumption)))

theorem endTask_keeps {a v0 v1} (g1 : Keeps a v1) :
    KeepsSnd a (Sys2Proof.Machine.endTask v0 v1) := by
  unfold Sys2Proof.Machine.endTask
  refine KeepsSnd.ite (KeepsSnd.mk (by assumption)) ?_
  refine KeepsSnd.ite (KeepsSnd.mk (by assumption)) ?_
  refine KeepsSnd.ite (KeepsSnd.mk (by assumption)) ?_
  split
  · exact (KeepsSnd.ite (KeepsSnd.mk (setRun_keeps (by assumption))) (KeepsSnd.mk (freeTask_keeps (by assumption))))
  · exact (KeepsSnd.mk (freeTask_keeps (by assumption)))

theorem applyTaskRequest_keeps {a v0} (g0 : Keeps a v0) :
    Keeps a (Sys2Proof.Machine.applyTaskRequest v0) := by
  unfold Sys2Proof.Machine.applyTaskRequest
  refine Keeps.ite (by assumption) ?_
  extract_lets -underBinder -merge -useContext +onlyGivenNames x0
  extract_lets -underBinder -merge -useContext +onlyGivenNames x1
  have h2 : ∀ {y0 y1}, Keeps a y1 → Keeps a (x1 y0 y1) := by
    intro y3 y4 k5
    unfold x1
    exact (setObj_keeps (setObj_keeps (setObj_keeps (by assumption))))
  clear_value x1
  refine Keeps.ite ?_ (Keeps.ite (h2 (endTask_keeps (by assumption))) (h2 (by assumption)))
  extract_lets -underBinder -merge -useContext +onlyGivenNames x6
  refine Keeps.ite (h2 (by assumption)) ?_
  extract_lets -underBinder -merge -useContext +onlyGivenNames x7
  extract_lets -underBinder -merge -useContext +onlyGivenNames x8
  exact (h2 (setTaskState_keeps (setTaskField_keeps (setTaskField_keeps (by assumption)))))

theorem updateHolds_keeps {a v0} (g0 : Keeps a v0) :
    Keeps a (Sys2Proof.Machine.updateHolds v0) := by
  unfold Sys2Proof.Machine.updateHolds
  refine Keeps.ite (by assumption) ?_
  refine forUpTo_keeps (P := Keeps a) ?_ (by assumption)
  intro y0 y1 k2
  split
  · exact (Keeps.ite (holdTask_keeps (by assumption)) (by assumption))
  · exact (Keeps.ite (holdTask_keeps (by assumption)) (by assumption))
  · exact (Keeps.ite (by assumption) (setTaskState_keeps (by assumption)))
  · assumption

theorem enterTask_keeps {a v0 v1 v2} (g2 : Keeps a v2) :
    Keeps a (Sys2Proof.Machine.enterTask v0 v1 v2) := by
  unfold Sys2Proof.Machine.enterTask
  extract_lets -underBinder -merge -useContext +onlyGivenNames x0
  extract_lets -underBinder -merge -useContext +onlyGivenNames x1
  have h2 : Keeps a x1 := (setTaskState_keeps (by assumption))
  clear_value x1
  extract_lets -underBinder -merge -useContext +onlyGivenNames x3
  have h7 : Keeps a x3 := by
    unfold x3
    refine forEach_keeps (P := Keeps a) ?_ (by assumption)
    intro y4 y5 k6
    exact (startSection_keeps (modPond_keeps (by assumption)))
  clear_value x3
  split
  · exact setRun_keeps (by assumption)
  · exact setRun_keeps (by assumption)

theorem requestStop_keeps {a v0 v1} (g1 : Keeps a v1) :
    Keeps a (Sys2Proof.Machine.requestStop v0 v1) := by
  unfold Sys2Proof.Machine.requestStop
  split
  · assumption
  · exact (Keeps.ite (by assumption) (setRun_keeps (by assumption)))

theorem stopServingTasks_keeps {a v0} (g0 : Keeps a v0) :
    Keeps a (Sys2Proof.Machine.stopServingTasks v0) := by
  unfold Sys2Proof.Machine.stopServingTasks
  refine forEach_keeps (P := Keeps a) ?_ (by assumption)
  intro y0 y1 k2
  exact (Keeps.ite (requestStop_keeps (by assumption)) (by assumption))

theorem traceTask_keeps {a v0 v1 v2 v3 v4} (g4 : Keeps a v4) :
    Keeps a (Sys2Proof.Machine.traceTask v0 v1 v2 v3 v4) := by
  unfold Sys2Proof.Machine.traceTask
  refine forEach_keeps (P := Keeps a) ?_ (by assumption)
  intro y0 y1 k2
  exact traceInfo_keeps (by assumption)

theorem execSliceExpiry_keeps {a v0 v1} (g1 : Keeps a v1) :
    KeepsOut a (Sys2Proof.Machine.execSliceExpiry v0 v1) := by
  unfold Sys2Proof.Machine.execSliceExpiry
  refine KeepsOut.ite ?_ KeepsOut.fault
  refine KeepsOut.next ?_
  split
  · assumption
  · extract_lets -underBinder -merge -useContext +onlyGivenNames x0
    refine Keeps.ite (by assumption) ?_
    extract_lets -underBinder -merge -useContext +onlyGivenNames x1
    have h2 : Keeps a x1 := (advanceTo_keeps (by assumption))
    clear_value x1
    extract_lets -underBinder -merge -useContext +onlyGivenNames x3
    exact (traceTask_keeps (addObj_keeps (requestStop_keeps (by assumption))))

theorem unfetch_keeps {a v0 v1} (g1 : Keeps a v1) :
    Keeps a (Sys2Proof.Machine.unfetch v0 v1) := by
  unfold Sys2Proof.Machine.unfetch
  split
  · exact modCore_keeps (by assumption)
  · refine Keeps.ite (modCore_keeps (by assumption)) ?_
    refine Keeps.ite (by assumption) ?_
    extract_lets -underBinder -merge -useContext +onlyGivenNames x0
    exact (setObj_keeps (modCore_keeps (by assumption)))
  · assumption

theorem execForcedStop_keeps {a v0 v1} (g1 : Keeps a v1) :
    KeepsOut a (Sys2Proof.Machine.execForcedStop v0 v1) := by
  unfold Sys2Proof.Machine.execForcedStop
  refine onPond_keeps (by assumption) ?_
  intro y0
  split
  · split
    · refine Keeps.ite (by assumption) ?_
      extract_lets -underBinder -merge -useContext +onlyGivenNames x1
      have h2 : Keeps a x1 := (unfetch_keeps (settlePond_keeps (advanceTo_keeps (by assumption))))
      clear_value x1
      exact modCore_keeps (by assumption)
    · assumption
  · assumption

theorem saveRank_keeps {a v0 v1 v2 v3} (g3 : Keeps a v3) :
    KeepsSnd a (Sys2Proof.Machine.saveRank v0 v1 v2 v3) := by
  unfold Sys2Proof.Machine.saveRank
  extract_lets -underBinder -merge -useContext +onlyGivenNames x0
  extract_lets -underBinder -merge -useContext +onlyGivenNames x1
  have h2 : Keeps a x1 := (settlePond_keeps (by assumption))
  clear_value x1
  extract_lets -underBinder -merge -useContext +onlyGivenNames x3
  extract_lets -underBinder -merge -useContext +onlyGivenNames x4
  extract_lets -underBinder -merge -useContext +onlyGivenNames x5
  extract_lets -underBinder -merge -useContext +onlyGivenNames x6
  extract_lets -underBinder -merge -useContext +onlyGivenNames x7
  extract_lets -underBinder -merge -useContext +onlyGivenNames x8
  extract_lets -underBinder -merge -useContext +onlyGivenNames x9
  extract_lets -underBinder -merge -useContext +onlyGivenNames x10
  extract_lets -underBinder -merge -useContext +onlyGivenNames x11
  extract_lets -underBinder -merge -useContext +onlyGivenNames x12
  extract_lets -underBinder -merge -useContext +onlyGivenNames x13
  have h14 : Keeps a x13 := (deviceWrite_keeps (by assumption))
  clear_value x13
  extract_lets -underBinder -merge -useContext +onlyGivenNames x15
  have h16 : Keeps a x15 := (deviceWrite_keeps (by assumption))
  clear_value x15
  extract_lets -underBinder -merge -useContext +onlyGivenNames x17
  have h18 : Keeps a x17 := (deviceWrite_keeps (by assumption))
  clear_value x17
  extract_lets -underBinder -merge -useContext +onlyGivenNames x19
  have h20 : Keeps a x19 := (deviceWrite_keeps (by assumption))
  clear_value x19
  extract_lets -underBinder -merge -useContext +onlyGivenNames x21
  have h22 : Keeps a x21 := (deviceWrite_keeps (by assumption))
  clear_value x21
  extract_lets -underBinder -merge -useContext +onlyGivenNames x23
  have h28 : Keeps a x23 := by
    unfold x23
    refine forUpTo_keeps (P := Keeps a) ?_ (by assumption)
    intro y24 y25 k26
    extract_lets -underBinder -merge -useContext +onlyGivenNames x27
    exact deviceWrite_keeps (by assumption)
  clear_value x23
  extract_lets -underBinder -merge -useContext +onlyGivenNames x29
  have h30 : Keeps a x29 := (deviceWrite_keeps (by assumption))
  clear_value x29
  extract_lets -underBinder -merge -useContext +onlyGivenNames x31
  extract_lets -underBinder -merge -useContext +onlyGivenNames x32
  have h33 : Keeps a x32 := (deviceWrite_keeps (by assumption))
  clear_value x32
  extract_lets -underBinder -merge -useContext +onlyGivenNames x34
  have h38 : Keeps a x34 := by
    unfold x34
    refine forEach_keeps (P := Keeps a) ?_ (by assumption)
    intro y35 y36 k37
    exact deviceWrite_keeps (by assumption)
  clear_value x34
  extract_lets -underBinder -merge -useContext +onlyGivenNames x39
  have h43 : Keeps a x39 := by
    unfold x39
    refine forEach_keeps (P := Keeps a) ?_ (by assumption)
    intro y40 y41 k42
    exact deviceWrite_keeps (by assumption)
  clear_value x39
  extract_lets -underBinder -merge -useContext +onlyGivenNames x44
  have h48 : Keeps a x44 := by
    unfold x44
    refine forEach_keeps (P := Keeps a) ?_ (by assumption)
    intro y45 y46 k47
    exact deviceWrite_keeps (by assumption)
  clear_value x44
  extract_lets -underBinder -merge -useContext +onlyGivenNames x49
  extract_lets -underBinder -merge -useContext +onlyGivenNames x50
  have h51 : Keeps a x50 := (modPond_keeps (by assumption))
  clear_value x50
  exact KeepsSnd.mk (by assumption)

theorem beginMove_keeps {a v0 v1} (g1 : Keeps a v1) :
    Keeps a (Sys2Proof.Machine.beginMove v0 v1) := by
  unfold Sys2Proof.Machine.beginMove
  extract_lets -underBinder -merge -useContext +onlyGivenNames x0
  extract_lets -underBinder -merge -useContext +onlyGivenNames x1
  have h2 : Keeps a x1 := (setRun_keeps (by assumption))
  clear_value x1
  refine Keeps.ite (by assumption) ?_
  refine forEach_keeps (P := Keeps a) ?_ (by assumption)
  intro y3 y4 k5
  exact setRun_keeps (by assumption)

theorem moversAtEdge_keeps {a v0} (g0 : Keeps a v0) :
    Keeps a (Sys2Proof.Machine.moversAtEdge v0) := by
  unfold Sys2Proof.Machine.moversAtEdge
  refine forEach_keeps (P := Keeps a) ?_ (by assumption)
  intro y0 y1 k2
  exact (Keeps.ite (setRun_keeps (by assumption)) (by assumption))

theorem execSwitchOutSave_keeps {a v0 v1} (g1 : Keeps a v1) :
    KeepsOut a (Sys2Proof.Machine.execSwitchOutSave v0 v1) := by
  unfold Sys2Proof.Machine.execSwitchOutSave
  refine KeepsOut.ite ?_ KeepsOut.fault
  refine KeepsOut.next ?_
  split
  · assumption
  · extract_lets -underBinder -merge -useContext +onlyGivenNames x0
    refine Keeps.ite (by assumption) ?_
    extract_lets -underBinder -merge -useContext +onlyGivenNames x1
    have h2 : Keeps a x1 := (chargeTask_keeps (by assumption))
    clear_value x1
    extract_lets -underBinder -merge -useContext +onlyGivenNames x3
    split
    rename_i m4 m5 e6
    have h7 := KeepsSnd.of_eq e6 (by
      refine foldl_keeps (P := KeepsSnd a) ?_ (KeepsSnd.mk (by assumption))
      intro y8 y9 k10
      split
      rename_i m11 m12 e13
      have h14 := KeepsSnd.of_eq e13 (saveRank_keeps (by assumption))
      exact KeepsSnd.mk (by assumption)
      )
    exact (beginMove_keeps (setRun_keeps (by assumption)))

theorem traceSwitchOut_keeps {a v0 v1 v2 v3} (g3 : Keeps a v3) :
    Keeps a (Sys2Proof.Machine.traceSwitchOut v0 v1 v2 v3) := by
  unfold Sys2Proof.Machine.traceSwitchOut
  extract_lets -underBinder -merge -useContext +onlyGivenNames x0
  refine forEach_keeps (P := Keeps a) ?_ (by assumption)
  intro y1 y2 k3
  extract_lets -underBinder -merge -useContext +onlyGivenNames x4
  extract_lets -underBinder -merge -useContext +onlyGivenNames x5
  extract_lets -underBinder -merge -useContext +onlyGivenNames x6
  extract_lets -underBinder -merge -useContext +onlyGivenNames x7
  extract_lets -underBinder -merge -useContext +onlyGivenNames x8
  have h9 : Keeps a x8 := (Keeps.ite (traceFault_keeps (by assumption)) (by assumption))
  clear_value x8
  exact traceInfo_keeps (by assumption)

theorem countDispatchWait_keeps {a v0 v1 v2} (g2 : Keeps a v2) :
    Keeps a (Sys2Proof.Machine.countDispatchWait v0 v1 v2) := by
  unfold Sys2Proof.Machine.countDispatchWait
  extract_lets -underBinder -merge -useContext +onlyGivenNames x0
  exact (Keeps.ite (by assumption) (addObj_keeps (setGang_keeps (by assumption))))

theorem execSwitchOutDone_keeps {a v0 v1} (g1 : Keeps a v1) :
    KeepsOut a (Sys2Proof.Machine.execSwitchOutDone v0 v1) := by
  unfold Sys2Proof.Machine.execSwitchOutDone
  refine KeepsOut.ite ?_ KeepsOut.fault
  refine KeepsOut.next ?_
  split
  · assumption
  · refine Keeps.ite (by assumption) ?_
    split
    rename_i m15 m16 e17
    have h18 := KeepsSnd.of_eq e17 (freeWord_keeps (by assumption))
    extract_lets -underBinder -merge -useContext +onlyGivenNames x0
    have h1 : Keeps a x0 := (traceSwitchOut_keeps (chargeTask_keeps (advanceTo_keeps (by assumption))))
    clear_value x0
    extract_lets -underBinder -merge -useContext +onlyGivenNames x2
    extract_lets -underBinder -merge -useContext +onlyGivenNames x3
    have h4 : Keeps a x3 := (addObj_keeps (addObj_keeps (by assumption)))
    clear_value x3
    extract_lets -underBinder -merge -useContext +onlyGivenNames x5
    extract_lets -underBinder -merge -useContext +onlyGivenNames x6
    have h7 : Keeps a x6 := (setTaskField_keeps (by assumption))
    clear_value x6
    extract_lets -underBinder -merge -useContext +onlyGivenNames x8
    have h9 : Keeps a x8 := (setTaskField_keeps (by assumption))
    clear_value x8
    extract_lets -underBinder -merge -useContext +onlyGivenNames x10
    have h11 : Keeps a x10 := (countDispatchWait_keeps (zeroPeers_keeps (setRun_keeps (by assumption))))
    clear_value x10
    extract_lets -underBinder -merge -useContext +onlyGivenNames x12
    extract_lets -underBinder -merge -useContext +onlyGivenNames x13
    have h14 : Keeps a x13 := (Keeps.same (by assumption))
    clear_value x13
    exact (Keeps.ite (freeTask_keeps (by assumption)) (Keeps.ite (holdTask_keeps (by assumption)) (setTaskState_keeps (by assumption))))

theorem execSchedulerDecision_keeps {a v0 v1} (g1 : Keeps a v1) :
    KeepsOut a (Sys2Proof.Machine.execSchedulerDecision v0 v1) := by
  unfold Sys2Proof.Machine.execSchedulerDecision
  refine KeepsOut.ite ?_ KeepsOut.fault
  refine KeepsOut.next ?_
  extract_lets -underBinder -merge -useContext +onlyGivenNames x0
  refine Keeps.ite (by assumption) ?_
  extract_lets -underBinder -merge -useContext +onlyGivenNames x1
  have h2 : Keeps a x1 := (chargeTask_keeps (by assumption))
  clear_value x1
  split
  · exact (Keeps.ite (enterTask_keeps (by assumption)) (setRun_keeps (by assumption)))
  · exact setRun_keeps (by assumption)
  · assumption
  · exact (Keeps.ite (beginMove_keeps (setRun_keeps (setTaskState_keeps (by assumption)))) (enterTask_keeps (by assumption)))

end Sys2Proof.Laws
end

