-- ==== Sys2Proof/Laws/KeepsServing.lean ====
section
/-! SUPPORT. What the operations of serving and restores keep. -/

set_option Elab.async false

namespace Sys2Proof.Laws

open Sys2Proof.Machine Sys2Proof.Safety

theorem startMember_keeps {a v0 v1 v2 v3} (g3 : Keeps a v3) :
    Keeps a (Sys2Proof.Machine.startMember v0 v1 v2 v3) := by
  unfold Sys2Proof.Machine.startMember
  extract_lets -underBinder -merge -useContext +onlyGivenNames x0
  split
  · assumption
  · extract_lets -underBinder -merge -useContext +onlyGivenNames x1
    exact startSection_keeps (by assumption)

theorem chargeServing_keeps {a v0 v1} (g1 : Keeps a v1) :
    Keeps a (Sys2Proof.Machine.chargeServing v0 v1) := by
  unfold Sys2Proof.Machine.chargeServing
  split
  · assumption
  · exact addObj_keeps (by assumption)

theorem chargeSection_keeps {a v0 v1} (g1 : Keeps a v1) :
    Keeps a (Sys2Proof.Machine.chargeSection v0 v1) := by
  unfold Sys2Proof.Machine.chargeSection
  split
  · assumption
  · exact (Keeps.ite (by assumption) (modCore_keeps (chargeServing_keeps (by assumption))))

theorem withdraw_keeps {a v0 v1 v2} (g2 : Keeps a v2) :
    Keeps a (Sys2Proof.Machine.withdraw v0 v1 v2) := by
  unfold Sys2Proof.Machine.withdraw
  extract_lets -underBinder -merge -useContext +onlyGivenNames x0
  have h1 : Keeps a x0 := (modPond_keeps (settlePond_keeps (by assumption)))
  clear_value x0
  split
  · assumption
  · exact (Keeps.ite (countIdle_keeps (modPond_keeps (by assumption))) (by assumption))

theorem runCarried_keeps {a v0 v1} (g1 : Keeps a v1) :
    Keeps a (Sys2Proof.Machine.runCarried v0 v1) := by
  unfold Sys2Proof.Machine.runCarried
  extract_lets -underBinder -merge -useContext +onlyGivenNames x0
  refine Keeps.ite (by assumption) ?_
  extract_lets -underBinder -merge -useContext +onlyGivenNames x1
  extract_lets -underBinder -merge -useContext +onlyGivenNames x2
  refine forEach_keeps (P := Keeps a) ?_ (by assumption)
  intro y3 y4 k5
  exact (startMember_keeps (withdraw_keeps (chargeSection_keeps (by assumption))))

theorem execServingDispatchStart_keeps {a v0 v1} (g1 : Keeps a v1) :
    KeepsOut a (Sys2Proof.Machine.execServingDispatchStart v0 v1) := by
  unfold Sys2Proof.Machine.execServingDispatchStart
  refine KeepsOut.ite ?_ KeepsOut.fault
  refine KeepsOut.next ?_
  extract_lets -underBinder -merge -useContext +onlyGivenNames x0
  refine Keeps.ite (by assumption) ?_
  extract_lets -underBinder -merge -useContext +onlyGivenNames x1
  extract_lets -underBinder -merge -useContext +onlyGivenNames x2
  have h3 : Keeps a x2 := (advanceTo_keeps (by assumption))
  clear_value x2
  refine Keeps.ite (Keeps.ite (raise_keeps (addObj_keeps (setGang_keeps (by assumption)))) (by assumption)) ?_
  extract_lets -underBinder -merge -useContext +onlyGivenNames x4
  have h5 : Keeps a x4 := (countDispatchWait_keeps (by assumption))
  clear_value x4
  extract_lets -underBinder -merge -useContext +onlyGivenNames x6
  extract_lets -underBinder -merge -useContext +onlyGivenNames x7
  have h8 : Keeps a x7 := (setGang_keeps (by assumption))
  clear_value x7
  extract_lets -underBinder -merge -useContext +onlyGivenNames x9
  have h10 : Keeps a x9 := (modCore_keeps (by assumption))
  clear_value x9
  exact runCarried_keeps (by assumption)

theorem skipDropped_keeps {a v0 v1} (g1 : Keeps a v1) :
    Keeps a (Sys2Proof.Machine.skipDropped v0 v1) := by
  unfold Sys2Proof.Machine.skipDropped
  extract_lets -underBinder -merge -useContext +onlyGivenNames x0
  extract_lets -underBinder -merge -useContext +onlyGivenNames x1
  refine giveAbortedAll_keeps ?_ (setGang_keeps (by assumption))
  intro y2 y3 y4 k5
  exact raise_keeps (by assumption)

theorem markFetched_keeps {a v0 v1 v2} (g2 : Keeps a v2) :
    Keeps a (Sys2Proof.Machine.markFetched v0 v1 v2) := by
  unfold Sys2Proof.Machine.markFetched
  extract_lets -underBinder -merge -useContext +onlyGivenNames x0
  have h1 : Keeps a x0 := (setGang_keeps (by assumption))
  clear_value x0
  refine forEach_keeps (P := Keeps a) ?_ (by assumption)
  intro y2 y3 k4
  extract_lets -underBinder -merge -useContext +onlyGivenNames x5
  exact setStep_keeps (by assumption)

theorem execGroupFetch_keeps {a v0 v1 v2} (g2 : Keeps a v2) :
    KeepsOut a (Sys2Proof.Machine.execGroupFetch v0 v1 v2) := by
  unfold Sys2Proof.Machine.execGroupFetch
  refine KeepsOut.ite ?_ KeepsOut.fault
  refine KeepsOut.next ?_
  refine Keeps.ite (by assumption) ?_
  extract_lets -underBinder -merge -useContext +onlyGivenNames x0
  have h1 : Keeps a x0 := (skipDropped_keeps (advanceTo_keeps (by assumption)))
  clear_value x0
  extract_lets -underBinder -merge -useContext +onlyGivenNames x2
  split
  · assumption
  · extract_lets -underBinder -merge -useContext +onlyGivenNames x3
    extract_lets -underBinder -merge -useContext +onlyGivenNames x4
    extract_lets -underBinder -merge -useContext +onlyGivenNames x5
    have h6 : Keeps a x5 := (markFetched_keeps (by assumption))
    clear_value x5
    extract_lets -underBinder -merge -useContext +onlyGivenNames x7
    have h8 : Keeps a x7 := (traceInfo_keeps (by assumption))
    clear_value x7
    extract_lets -underBinder -merge -useContext +onlyGivenNames x9
    have h10 : Keeps a x9 := (modCore_keeps (by assumption))
    clear_value x9
    extract_lets -underBinder -merge -useContext +onlyGivenNames x11
    extract_lets -underBinder -merge -useContext +onlyGivenNames x12
    extract_lets -underBinder -merge -useContext +onlyGivenNames x13
    have h14 : Keeps a x13 := (Keeps.ite (addObj_keeps (by assumption)) (by assumption))
    clear_value x13
    extract_lets -underBinder -merge -useContext +onlyGivenNames x15
    have h19 : Keeps a x15 := by
      unfold x15
      refine forEach_keeps (P := Keeps a) ?_ (by assumption)
      intro y16 y17 k18
      exact modPond_keeps (by assumption)
    clear_value x15
    refine forEach_keeps (P := Keeps a) ?_ (by assumption)
    intro y20 y21 k22
    exact startMember_keeps (by assumption)

theorem leaveSection_keeps {a v0 v1} (g1 : Keeps a v1) :
    Keeps a (Sys2Proof.Machine.leaveSection v0 v1) := by
  unfold Sys2Proof.Machine.leaveSection
  exact modCore_keeps (by assumption)

theorem endGroup_keeps {a v0 v1} (g1 : Keeps a v1) :
    Keeps a (Sys2Proof.Machine.endGroup v0 v1) := by
  unfold Sys2Proof.Machine.endGroup
  extract_lets -underBinder -merge -useContext +onlyGivenNames x0
  refine Keeps.ite (by assumption) ?_
  extract_lets -underBinder -merge -useContext +onlyGivenNames x1
  have h5 : Keeps a x1 := by
    unfold x1
    refine forEach_keeps (P := Keeps a) ?_ (by assumption)
    intro y2 y3 k4
    exact setStep_keeps (by assumption)
  clear_value x1
  exact setGang_keeps (by assumption)

theorem taskFaulted_keeps {a v0 v1} (g1 : Keeps a v1) :
    Keeps a (Sys2Proof.Machine.taskFaulted v0 v1) := by
  unfold Sys2Proof.Machine.taskFaulted
  refine Keeps.ite (by assumption) ?_
  extract_lets -underBinder -merge -useContext +onlyGivenNames x0
  have h1 : Keeps a x0 := (chargeTask_keeps (by assumption))
  clear_value x0
  split
  · assumption
  · exact (addObj_keeps (setTaskState_keeps (setTaskField_keeps (setRun_keeps (by assumption)))))

theorem returnTask_keeps {a v0 v1 v2} (g2 : Keeps a v2) :
    Keeps a (Sys2Proof.Machine.returnTask v0 v1 v2) := by
  unfold Sys2Proof.Machine.returnTask
  extract_lets -underBinder -merge -useContext +onlyGivenNames x0
  have h1 : Keeps a x0 := (modCore_keeps (by assumption))
  clear_value x0
  refine Keeps.ite ?_ (by assumption)
  split
  · assumption
  · extract_lets -underBinder -merge -useContext +onlyGivenNames x2
    have h3 : Keeps a x2 := (setTaskField_keeps (by assumption))
    clear_value x2
    exact addObj_keeps (by assumption)

theorem execRet_keeps {a v0 v1} (g1 : Keeps a v1) :
    KeepsOut a (Sys2Proof.Machine.execRet v0 v1) := by
  unfold Sys2Proof.Machine.execRet
  refine controlAt_keeps (by assumption) ?_
  intro y0 y1 y2 y3 k4
  refine Keeps.ite (by assumption) ?_
  extract_lets -underBinder -merge -useContext +onlyGivenNames x5
  extract_lets -underBinder -merge -useContext +onlyGivenNames x6
  have h7 : Keeps a x6 := (signalDone_keeps (traceInfo_keeps (by assumption)))
  clear_value x6
  refine Keeps.ite (by assumption) ?_
  split
  · exact returnTask_keeps (by assumption)
  · exact (Keeps.ite (taskFaulted_keeps (leaveSection_keeps (by assumption))) (chargeServing_keeps (leaveSection_keeps (by assumption))))
  · exact (startMember_keeps (chargeServing_keeps (leaveSection_keeps (by assumption))))
  · exact (endGroup_keeps (chargeServing_keeps (leaveSection_keeps (by assumption))))

theorem execCostExceeded_keeps {a v0 v1} (g1 : Keeps a v1) :
    KeepsOut a (Sys2Proof.Machine.execCostExceeded v0 v1) := by
  unfold Sys2Proof.Machine.execCostExceeded
  refine KeepsOut.ite ?_ KeepsOut.fault
  refine KeepsOut.next ?_
  extract_lets -underBinder -merge -useContext +onlyGivenNames x0
  refine Keeps.ite (by assumption) ?_
  extract_lets -underBinder -merge -useContext +onlyGivenNames x1
  extract_lets -underBinder -merge -useContext +onlyGivenNames x2
  have h3 : Keeps a x2 := (advanceTo_keeps (by assumption))
  clear_value x2
  exact (raise_keeps (addObj_keeps (setGang_keeps (by assumption))))

theorem allEntered_keeps {a v0 v1} (g1 : Keeps a v1) :
    Keeps a (Sys2Proof.Machine.allEntered v0 v1) := by
  unfold Sys2Proof.Machine.allEntered
  refine Keeps.ite ?_ (by assumption)
  refine forEach_keeps (P := Keeps a) ?_ (zeroPeers_keeps (by assumption))
  intro y0 y1 k2
  exact (modPond_keeps (countStalls_keeps (by assumption)))

theorem failGroup_keeps {a v0 v1 v2} (g2 : Keeps a v2) :
    Keeps a (Sys2Proof.Machine.failGroup v0 v1 v2) := by
  unfold Sys2Proof.Machine.failGroup
  extract_lets -underBinder -merge -useContext +onlyGivenNames x0
  have h5 : Keeps a x0 := by
    unfold x0
    refine giveAbortedAll_keeps ?_ (by assumption)
    intro y1 y2 y3 k4
    exact raise_keeps (by assumption)
  clear_value x0
  extract_lets -underBinder -merge -useContext +onlyGivenNames x6
  extract_lets -underBinder -merge -useContext +onlyGivenNames x7
  extract_lets -underBinder -merge -useContext +onlyGivenNames x8
  extract_lets -underBinder -merge -useContext +onlyGivenNames x9
  have h14 : Keeps a x9 := by
    unfold x9
    refine giveAbortedAll_keeps ?_ (by assumption)
    intro y10 y11 y12 k13
    exact raise_keeps (by assumption)
  clear_value x9
  exact setGang_keeps (by assumption)

theorem dropTap_keeps {a v0 v1} (g1 : Keeps a v1) :
    Keeps a (Sys2Proof.Machine.dropTap v0 v1) := by
  unfold Sys2Proof.Machine.dropTap
  split
  · assumption
  · extract_lets -underBinder -merge -useContext +onlyGivenNames x0
    have h1 : Keeps a x0 := (modPond_keeps (by assumption))
    clear_value x0
    exact (traceFault_keeps (addObj_keeps (countIdle_keeps (by assumption))))

theorem disarmTap_keeps {a v0 v1} (g1 : Keeps a v1) :
    Keeps a (Sys2Proof.Machine.disarmTap v0 v1) := by
  unfold Sys2Proof.Machine.disarmTap
  exact (Keeps.ite (by assumption) (raise_keeps (dropTap_keeps (by assumption))))

theorem disarmExiting_keeps {a v0 v1} (g1 : Keeps a v1) :
    Keeps a (Sys2Proof.Machine.disarmExiting v0 v1) := by
  unfold Sys2Proof.Machine.disarmExiting
  extract_lets -underBinder -merge -useContext +onlyGivenNames x0
  split
  · exact (Keeps.ite (disarmTap_keeps (by assumption)) (by assumption))
  · assumption

theorem endHandler_keeps {a v0 v1 v2 v3} (g3 : Keeps a v3) :
    Keeps a (Sys2Proof.Machine.endHandler v0 v1 v2 v3) := by
  unfold Sys2Proof.Machine.endHandler
  exact (Keeps.ite (taskFaulted_keeps (leaveSection_keeps (by assumption))) (chargeServing_keeps (leaveSection_keeps (by assumption))))

theorem noteExit_keeps {a v0 v1 v2 v3} (g3 : Keeps a v3) :
    Keeps a (Sys2Proof.Machine.noteExit v0 v1 v2 v3) := by
  unfold Sys2Proof.Machine.noteExit
  extract_lets -underBinder -merge -useContext +onlyGivenNames x0
  extract_lets -underBinder -merge -useContext +onlyGivenNames x1
  have h2 : Keeps a x1 := by
    unfold x1
    split
    · exact raise_keeps (by assumption)
    · assumption
  clear_value x1
  extract_lets -underBinder -merge -useContext +onlyGivenNames x3
  have h4 : Keeps a x3 := (addObj_keeps (traceFault_keeps (by assumption)))
  clear_value x3
  exact (setObj_keeps (setObj_keeps (by assumption)))

theorem execErrorHandlerEntry_keeps {a v0 v1} (g1 : Keeps a v1) :
    KeepsOut a (Sys2Proof.Machine.execErrorHandlerEntry v0 v1) := by
  unfold Sys2Proof.Machine.execErrorHandlerEntry
  refine onPond_keeps (by assumption) ?_
  intro y0
  extract_lets -underBinder -merge -useContext +onlyGivenNames x1
  have h2 : Keeps a x1 := (disarmExiting_keeps (by assumption))
  extract_lets -underBinder -merge -useContext +onlyGivenNames x3
  split
  · refine Keeps.ite (by assumption) ?_
    refine Keeps.ite (endHandler_keeps (by assumption)) ?_
    extract_lets -underBinder -merge -useContext +onlyGivenNames x4
    extract_lets -underBinder -merge -useContext +onlyGivenNames x5
    have h6 : Keeps a x5 := (noteExit_keeps (by assumption))
    extract_lets -underBinder -merge -useContext +onlyGivenNames x7
    have h8 : Keeps a x7 := (Keeps.ite (by assumption) (failGroup_keeps (chargeServing_keeps (by assumption))))
    extract_lets -underBinder -merge -useContext +onlyGivenNames x9
    have h10 : Keeps a x9 := (modCore_keeps (by assumption))
    extract_lets -underBinder -merge -useContext +onlyGivenNames x11
    extract_lets -underBinder -merge -useContext +onlyGivenNames x12
    have h13 : Keeps a x12 := (allEntered_keeps (by assumption))
    refine Keeps.ite ?_ (startSection_keeps (by assumption))
    extract_lets -underBinder -merge -useContext +onlyGivenNames x14
    have h15 : Keeps a x14 := (leaveSection_keeps (by assumption))
    exact (Keeps.ite (taskFaulted_keeps (by assumption)) (by assumption))
  · assumption

theorem execGangErrorNotify_keeps {a v0 v1} (g1 : Keeps a v1) :
    KeepsOut a (Sys2Proof.Machine.execGangErrorNotify v0 v1) := by
  unfold Sys2Proof.Machine.execGangErrorNotify
  refine onPond_keeps (by assumption) ?_
  intro y0
  extract_lets -underBinder -merge -useContext +onlyGivenNames x1
  refine Keeps.ite (by assumption) ?_
  extract_lets -underBinder -merge -useContext +onlyGivenNames x2
  extract_lets -underBinder -merge -useContext +onlyGivenNames x3
  have h8 : Keeps a x3 := by
    unfold x3
    refine forEach_keeps (P := Keeps a) ?_ (by assumption)
    intro y4 y5 k6
    extract_lets -underBinder -merge -useContext +onlyGivenNames x7
    exact (Keeps.ite (by assumption) (Keeps.ite (modCore_keeps (by assumption)) (Keeps.ite (by assumption) (startExit_keeps (by assumption)))))
  clear_value x3
  exact (Keeps.ite (allEntered_keeps (by assumption)) (by assumption))

theorem reloadBlocks_keeps {a v0 v1 v2} (g2 : Keeps a v2) :
    Keeps a (Sys2Proof.Machine.reloadBlocks v0 v1 v2) := by
  unfold Sys2Proof.Machine.reloadBlocks
  extract_lets -underBinder -merge -useContext +onlyGivenNames x0
  extract_lets -underBinder -merge -useContext +onlyGivenNames x1
  extract_lets -underBinder -merge -useContext +onlyGivenNames x2
  exact (noteDecoded_keeps (modPond_keeps (by assumption)))

theorem checkResident_keeps {a v0 v1 v2} (g2 : Keeps a v2) :
    Keeps a (Sys2Proof.Machine.checkResident v0 v1 v2) := by
  unfold Sys2Proof.Machine.checkResident
  extract_lets -underBinder -merge -useContext +onlyGivenNames x0
  split
  · exact startExit_keeps (by assumption)
  · exact (Keeps.ite (startExit_keeps (by assumption)) (by assumption))

theorem restoreRank_keeps {a v0 v1 v2 v3} (g3 : Keeps a v3) :
    Keeps a (Sys2Proof.Machine.restoreRank v0 v1 v2 v3) := by
  unfold Sys2Proof.Machine.restoreRank
  extract_lets -underBinder -merge -useContext +onlyGivenNames x0
  extract_lets -underBinder -merge -useContext +onlyGivenNames x1
  extract_lets -underBinder -merge -useContext +onlyGivenNames x2
  extract_lets -underBinder -merge -useContext +onlyGivenNames x3
  extract_lets -underBinder -merge -useContext +onlyGivenNames x4
  extract_lets -underBinder -merge -useContext +onlyGivenNames x5
  extract_lets -underBinder -merge -useContext +onlyGivenNames x6
  have h7 : Keeps a x6 := (by assumption)
  clear_value x6
  extract_lets -underBinder -merge -useContext +onlyGivenNames x8
  have h9 : Keeps a x8 := (modPond_keeps (by assumption))
  clear_value x8
  extract_lets -underBinder -merge -useContext +onlyGivenNames x10
  have h11 : Keeps a x10 := (loadTables_keeps (by assumption))
  clear_value x10
  refine Keeps.ite (startSection_keeps (by assumption)) ?_
  extract_lets -underBinder -merge -useContext +onlyGivenNames x12
  extract_lets -underBinder -merge -useContext +onlyGivenNames x13
  have h14 : Keeps a x13 := (modPond_keeps (by assumption))
  clear_value x13
  extract_lets -underBinder -merge -useContext +onlyGivenNames x15
  have h16 : Keeps a x15 := (reloadBlocks_keeps (by assumption))
  clear_value x15
  extract_lets -underBinder -merge -useContext +onlyGivenNames x17
  have h18 : Keeps a x17 := (Keeps.ite (modPond_keeps (by assumption)) (by assumption))
  clear_value x17
  exact checkResident_keeps (by assumption)

theorem execRestoreDone_keeps {a v0 v1} (g1 : Keeps a v1) :
    KeepsOut a (Sys2Proof.Machine.execRestoreDone v0 v1) := by
  unfold Sys2Proof.Machine.execRestoreDone
  refine KeepsOut.ite ?_ KeepsOut.fault
  refine KeepsOut.next ?_
  split
  · assumption
  · refine Keeps.ite (by assumption) ?_
    extract_lets -underBinder -merge -useContext +onlyGivenNames x0
    extract_lets -underBinder -merge -useContext +onlyGivenNames x1
    extract_lets -underBinder -merge -useContext +onlyGivenNames x2
    split
    rename_i m13 m14 e15
    have h16 := KeepsSnd.of_eq e15 (freeWord_keeps (by assumption))
    extract_lets -underBinder -merge -useContext +onlyGivenNames x3
    extract_lets -underBinder -merge -useContext +onlyGivenNames x4
    have h5 : Keeps a x4 := (chargeTask_keeps (advanceTo_keeps (by assumption)))
    clear_value x4
    extract_lets -underBinder -merge -useContext +onlyGivenNames x6
    have h10 : Keeps a x6 := by
      unfold x6
      refine addObj_keeps ?_
      refine forEach_keeps (P := Keeps a) ?_ (by assumption)
      intro y7 y8 k9
      exact restoreRank_keeps (by assumption)
    clear_value x6
    extract_lets -underBinder -merge -useContext +onlyGivenNames x11
    have h12 : Keeps a x11 := (traceTask_keeps (by assumption))
    clear_value x11
    split
    · assumption
    · exact setRun_keeps (by assumption)

end Sys2Proof.Laws
end

