-- ==== Sys2Proof/Laws/KeepsLoader.lean ====
section
/-! SUPPORT. What the operations of the loader keep. -/

set_option Elab.async false

namespace Sys2Proof.Laws

open Sys2Proof.Machine Sys2Proof.Safety

theorem settleDirectory_keeps {a v0 v1} (g1 : Keeps a v1) :
    Keeps a (Sys2Proof.Machine.settleDirectory v0 v1) := by
  unfold Sys2Proof.Machine.settleDirectory
  extract_lets -underBinder -merge -useContext +onlyGivenNames x0
  extract_lets -underBinder -merge -useContext +onlyGivenNames x1
  exact (Keeps.ite (by assumption) (setDir_keeps (by assumption)))

theorem settleDirectories_keeps {a v0} (g0 : Keeps a v0) :
    Keeps a (Sys2Proof.Machine.settleDirectories v0) := by
  unfold Sys2Proof.Machine.settleDirectories
  refine forUpTo_keeps (P := Keeps a) ?_ (by assumption)
  intro y0 y1 k2
  exact settleDirectory_keeps (by assumption)

theorem takeProgram_keeps {a v0 v1 v2} (g2 : Keeps a v2) :
    Keeps a (Sys2Proof.Machine.takeProgram v0 v1 v2) := by
  unfold Sys2Proof.Machine.takeProgram
  refine forEach_keeps (P := Keeps a) ?_ (by assumption)
  intro y0 y1 k2
  refine forEach_keeps (P := Keeps a) ?_ (by assumption)
  intro y3 y4 k5
  exact modPond_keeps (by assumption)

theorem blockBankWrite_keeps {a v0 v1 v2} (g2 : Keeps a v2) :
    Keeps a (Sys2Proof.Machine.blockBankWrite v0 v1 v2) := by
  unfold Sys2Proof.Machine.blockBankWrite
  exact (raise_keeps (traceFault_keeps (addObj_keeps (by assumption))))

theorem finishLoad_keeps {a v0 v1} (g1 : Keeps a v1) :
    Keeps a (Sys2Proof.Machine.finishLoad v0 v1) := by
  unfold Sys2Proof.Machine.finishLoad
  exact (setObj_keeps (setObj_keeps (setObj_keeps (setObj_keeps (by assumption)))))

theorem execProgramLoadDone_keeps {a v0} (g0 : Keeps a v0) :
    KeepsOut a (Sys2Proof.Machine.execProgramLoadDone v0) := by
  unfold Sys2Proof.Machine.execProgramLoadDone
  refine KeepsOut.next ?_
  refine Keeps.ite (by assumption) ?_
  extract_lets -underBinder -merge -useContext +onlyGivenNames x0
  extract_lets -underBinder -merge -useContext +onlyGivenNames x1
  extract_lets -underBinder -merge -useContext +onlyGivenNames x2
  extract_lets -underBinder -merge -useContext +onlyGivenNames x3
  refine Keeps.ite (finishLoad_keeps (unmappedAccess_keeps (by assumption))) ?_
  refine Keeps.ite (Keeps.same (by assumption)) ?_
  extract_lets -underBinder -merge -useContext +onlyGivenNames x4
  have h5 : Keeps a x4 := (countWait_keeps (by assumption))
  clear_value x4
  extract_lets -underBinder -merge -useContext +onlyGivenNames x6
  extract_lets -underBinder -merge -useContext +onlyGivenNames x7
  have h8 : Keeps a x7 := (Keeps.same (by assumption))
  clear_value x7
  refine Keeps.ite (finishLoad_keeps (unmappedAccess_keeps (by assumption))) ?_
  refine Keeps.ite (finishLoad_keeps (by assumption)) ?_
  extract_lets -underBinder -merge -useContext +onlyGivenNames x9
  extract_lets -underBinder -merge -useContext +onlyGivenNames x10
  refine Keeps.ite (finishLoad_keeps (by assumption)) ?_
  extract_lets -underBinder -merge -useContext +onlyGivenNames x11
  have h12 : Keeps a x11 := (setDir_keeps (takeProgram_keeps (by assumption)))
  clear_value x11
  exact (setObj_keeps (finishLoad_keeps (followUnavailable_keeps (settleDirectory_keeps (by assumption)))))

theorem quitPond_keeps {a v0 v1 v2} (g2 : Keeps a v2) :
    Keeps a (Sys2Proof.Machine.quitPond v0 v1 v2) := by
  unfold Sys2Proof.Machine.quitPond
  extract_lets -underBinder -merge -useContext +onlyGivenNames x0
  have h1 : Keeps a x0 := (settlePond_keeps (by assumption))
  clear_value x0
  extract_lets -underBinder -merge -useContext +onlyGivenNames x2
  extract_lets -underBinder -merge -useContext +onlyGivenNames x3
  have h4 : Keeps a x3 := (Keeps.ite (disarmTap_keeps (by assumption)) (by assumption))
  clear_value x3
  exact modPond_keeps (by assumption)

theorem quitTask_keeps {a v0 v1} (g1 : Keeps a v1) :
    Keeps a (Sys2Proof.Machine.quitTask v0 v1) := by
  unfold Sys2Proof.Machine.quitTask
  split
  · assumption
  · extract_lets -underBinder -merge -useContext +onlyGivenNames x0
    extract_lets -underBinder -merge -useContext +onlyGivenNames x1
    have h2 : Keeps a x1 := (setRun_keeps (chargeTask_keeps (by assumption)))
    clear_value x1
    refine forEach_keeps (P := Keeps a) ?_ (by assumption)
    intro y3 y4 k5
    exact (Keeps.ite (by assumption) (quitPond_keeps (by assumption)))

theorem endAbsentTasks_keeps {a v0 v1} (g1 : Keeps a v1) :
    Keeps a (Sys2Proof.Machine.endAbsentTasks v0 v1) := by
  unfold Sys2Proof.Machine.endAbsentTasks
  refine forEach_keeps (P := Keeps a) ?_ (by assumption)
  intro y0 y1 k2
  exact (Keeps.ite (by assumption) (freeTask_keeps (Keeps.ite (quitTask_keeps (by assumption)) (by assumption))))

theorem setShareArea_keeps {a v0 v1} (g1 : Keeps a v1) :
    Keeps a (Sys2Proof.Machine.setShareArea v0 v1) := by
  unfold Sys2Proof.Machine.setShareArea
  extract_lets -underBinder -merge -useContext +onlyGivenNames x0
  have h4 : Keeps a x0 := by
    unfold x0
    refine Keeps.ite ?_ (by assumption)
    refine forEach_keeps (P := Keeps a) ?_ (by assumption)
    intro y1 y2 k3
    exact quitTask_keeps (by assumption)
  clear_value x0
  exact setObj_keeps (by assumption)

theorem switchGang_keeps {a v0 v1} (g1 : Keeps a v1) :
    Keeps a (Sys2Proof.Machine.switchGang v0 v1) := by
  unfold Sys2Proof.Machine.switchGang
  extract_lets -underBinder -merge -useContext +onlyGivenNames x0
  have h4 : Keeps a x0 := by
    unfold x0
    refine forEach_keeps (P := Keeps a) ?_ (by assumption)
    intro y1 y2 k3
    exact (Keeps.ite (by assumption) (modPond_keeps (by assumption)))
  clear_value x0
  exact endAbsentTasks_keeps (by assumption)

theorem clearGangBank_keeps {a v0 v1} (g1 : Keeps a v1) :
    Keeps a (Sys2Proof.Machine.clearGangBank v0 v1) := by
  unfold Sys2Proof.Machine.clearGangBank
  refine forEach_keeps (P := Keeps a) ?_ (by assumption)
  intro y0 y1 k2
  exact (Keeps.ite (by assumption) (modPond_keeps (by assumption)))

theorem bankSwitch_keeps {a v0} (g0 : Keeps a v0) :
    Keeps a (Sys2Proof.Machine.bankSwitch v0) := by
  unfold Sys2Proof.Machine.bankSwitch
  refine Keeps.ite (by assumption) ?_
  refine Keeps.ite (setObj_keeps (setObj_keeps (by assumption))) ?_
  extract_lets -underBinder -merge -useContext +onlyGivenNames x0
  extract_lets -underBinder -merge -useContext +onlyGivenNames x1
  extract_lets -underBinder -merge -useContext +onlyGivenNames x2
  have h6 : Keeps a x2 := by
    unfold x2
    refine forEach_keeps (P := Keeps a) ?_ (by assumption)
    intro y3 y4 k5
    exact switchGang_keeps (by assumption)
  clear_value x2
  extract_lets -underBinder -merge -useContext +onlyGivenNames x7
  extract_lets -underBinder -merge -useContext +onlyGivenNames x8
  have h9 : Keeps a x8 := (Keeps.same (by assumption))
  clear_value x8
  exact (Keeps.ite (setObj_keeps (setObj_keeps (setObj_keeps (by assumption)))) (setObj_keeps (by assumption)))

theorem bankClear_keeps {a v0} (g0 : Keeps a v0) :
    Keeps a (Sys2Proof.Machine.bankClear v0) := by
  unfold Sys2Proof.Machine.bankClear
  refine Keeps.ite (by assumption) ?_
  extract_lets -underBinder -merge -useContext +onlyGivenNames x0
  extract_lets -underBinder -merge -useContext +onlyGivenNames x1
  extract_lets -underBinder -merge -useContext +onlyGivenNames x2
  have h6 : Keeps a x2 := by
    unfold x2
    refine forEach_keeps (P := Keeps a) ?_ (by assumption)
    intro y3 y4 k5
    exact clearGangBank_keeps (by assumption)
  clear_value x2
  extract_lets -underBinder -merge -useContext +onlyGivenNames x7
  extract_lets -underBinder -merge -useContext +onlyGivenNames x8
  have h9 : Keeps a x8 := (Keeps.same (by assumption))
  clear_value x8
  exact (settleDirectories_keeps (Keeps.ite (setObj_keeps (by assumption)) (by assumption)))

theorem rewriteSlots_keeps {a v0} (g0 : Keeps a v0) :
    Keeps a (Sys2Proof.Machine.rewriteSlots v0) := by
  unfold Sys2Proof.Machine.rewriteSlots
  refine forEach_keeps (P := Keeps a) ?_ (by assumption)
  intro y0 y1 k2
  exact (Keeps.ite (modPond_keeps (by assumption)) (by assumption))

end Sys2Proof.Laws
end

