-- ==== Sys2Proof/Laws/KeepsOwner.lean ====
section
/-! SUPPORT. What the operations of ownership, faults and requests keep. -/

set_option Elab.async false

namespace Sys2Proof.Laws

open Sys2Proof.Machine Sys2Proof.Safety

theorem dropCopies_keeps {a m s} (h : Keeps a s) : Keeps a (dropCopies m s) :=
  h.tables fun c => { c with copies := MapSorted.filter _ _ c.copies }

theorem enterMaster_keeps {a v0 v1} (g1 : Keeps a v1) :
    KeepsOpt a (Sys2Proof.Machine.enterMaster v0 v1) := by
  unfold Sys2Proof.Machine.enterMaster
  exact (KeepsOpt.ite (KeepsOpt.some (by assumption)) (KeepsOpt.ite (KeepsOpt.some (Keeps.same (by assumption))) (KeepsOpt.ite KeepsOpt.none (KeepsOpt.some (dropCopies_keeps (Keeps.same (by assumption)))))))

theorem execMasterTableTimeout_keeps {a v0 v1} (g1 : Keeps a v1) :
    KeepsOut a (Sys2Proof.Machine.execMasterTableTimeout v0 v1) := by
  unfold Sys2Proof.Machine.execMasterTableTimeout
  refine KeepsOut.ite ?_ KeepsOut.fault
  refine KeepsOut.next ?_
  split
  · assumption
  · refine Keeps.ite (by assumption) ?_
    extract_lets -underBinder -merge -useContext +onlyGivenNames x0
    have h1 : Keeps a x0 := (advanceTo_keeps (by assumption))
    clear_value x0
    exact (dropCopies_keeps (Keeps.same (by assumption)))

theorem resumeClocks_keeps {a v0 v1} (g1 : Keeps a v1) :
    Keeps a (Sys2Proof.Machine.resumeClocks v0 v1) := by
  unfold Sys2Proof.Machine.resumeClocks
  exact Keeps.same (by assumption)

theorem firmwareSignal_keeps {a v0} (g0 : Keeps a v0) :
    Keeps a (Sys2Proof.Machine.firmwareSignal v0) := by
  unfold Sys2Proof.Machine.firmwareSignal
  exact (Keeps.ite (signalVector_keeps (by assumption)) (by assumption))

theorem activationDone_keeps {a v0 v1} (g1 : Keeps a v1) :
    Keeps a (Sys2Proof.Machine.activationDone v0 v1) := by
  unfold Sys2Proof.Machine.activationDone
  extract_lets -underBinder -merge -useContext +onlyGivenNames x0
  have h1 : Keeps a x0 := (setObj_keeps (setObj_keeps (by assumption)))
  clear_value x0
  extract_lets -underBinder -merge -useContext +onlyGivenNames x2
  have h3 : Keeps a x2 := (addObj_keeps (by assumption))
  clear_value x2
  extract_lets -underBinder -merge -useContext +onlyGivenNames x4
  exact (firmwareSignal_keeps (Keeps.same (by assumption)))

theorem resumeService_keeps {a v0} (g0 : Keeps a v0) :
    Keeps a (Sys2Proof.Machine.resumeService v0) := by
  unfold Sys2Proof.Machine.resumeService
  split
  · assumption
  · extract_lets -underBinder -merge -useContext +onlyGivenNames x0
    extract_lets -underBinder -merge -useContext +onlyGivenNames x1
    have h2 : Keeps a x1 := (resumeClocks_keeps (by assumption))
    clear_value x1
    exact (Keeps.ite (activationDone_keeps (by assumption)) (by assumption))

theorem endHandover_keeps {a v0} (g0 : Keeps a v0) :
    Keeps a (Sys2Proof.Machine.endHandover v0) := by
  unfold Sys2Proof.Machine.endHandover
  extract_lets -underBinder -merge -useContext +onlyGivenNames x0
  have h1 : Keeps a x0 := (setObj_keeps (by assumption))
  clear_value x0
  extract_lets -underBinder -merge -useContext +onlyGivenNames x2
  extract_lets -underBinder -merge -useContext +onlyGivenNames x3
  have h4 : Keeps a x3 := (Keeps.same (by assumption))
  clear_value x3
  exact (Keeps.ite (setObj_keeps (by assumption)) (by assumption))

theorem becomeOwner_keeps {a v0 v1} (g1 : Keeps a v1) :
    Keeps a (Sys2Proof.Machine.becomeOwner v0 v1) := by
  unfold Sys2Proof.Machine.becomeOwner
  extract_lets -underBinder -merge -useContext +onlyGivenNames x0
  have h1 : Keeps a x0 := (endHandover_keeps (by assumption))
  clear_value x0
  extract_lets -underBinder -merge -useContext +onlyGivenNames x2
  have h3 : Keeps a x2 := (setObj_keeps (setObj_keeps (by assumption)))
  clear_value x2
  exact Keeps.same (by assumption)

theorem cancelRequests_keeps {a v0} (g0 : Keeps a v0) :
    Keeps a (Sys2Proof.Machine.cancelRequests v0) := by
  unfold Sys2Proof.Machine.cancelRequests
  extract_lets -underBinder -merge -useContext +onlyGivenNames x0
  have h4 : Keeps a x0 := by
    unfold x0
    refine forEach_keeps (P := Keeps a) ?_ (by assumption)
    intro y1 y2 k3
    exact (Keeps.ite (addObj_keeps (setObj_keeps (by assumption))) (by assumption))
  clear_value x0
  exact (Keeps.ite (addObj_keeps (setObj_keeps (Keeps.same (by assumption)))) (by assumption))

theorem vacate_keeps {a v0} (g0 : Keeps a v0) :
    Keeps a (Sys2Proof.Machine.vacate v0) := by
  unfold Sys2Proof.Machine.vacate
  extract_lets -underBinder -merge -useContext +onlyGivenNames x0
  have h1 : Keeps a x0 := (endHandover_keeps (by assumption))
  clear_value x0
  extract_lets -underBinder -merge -useContext +onlyGivenNames x2
  have h3 : Keeps a x2 := (setObj_keeps (setObj_keeps (by assumption)))
  clear_value x2
  exact (restage_keeps (cancelRequests_keeps (Keeps.same (by assumption))))

theorem expireLease_keeps {a v0} (g0 : Keeps a v0) :
    Keeps a (Sys2Proof.Machine.expireLease v0) := by
  unfold Sys2Proof.Machine.expireLease
  exact (raise_keeps (vacate_keeps (addObj_keeps (by assumption))))

theorem endHostLease_keeps {a v0} (g0 : Keeps a v0) :
    Keeps a (Sys2Proof.Machine.endHostLease v0) := by
  unfold Sys2Proof.Machine.endHostLease
  exact (Keeps.ite (expireLease_keeps (by assumption)) (by assumption))

theorem execLeaseExpiry_keeps {a v0} (g0 : Keeps a v0) :
    KeepsOut a (Sys2Proof.Machine.execLeaseExpiry v0) := by
  unfold Sys2Proof.Machine.execLeaseExpiry
  refine KeepsOut.next ?_
  split
  · exact (Keeps.ite (expireLease_keeps (advanceTo_keeps (by assumption))) (by assumption))
  · assumption

theorem execElectionClose_keeps {a v0} (g0 : Keeps a v0) :
    KeepsOut a (Sys2Proof.Machine.execElectionClose v0) := by
  unfold Sys2Proof.Machine.execElectionClose
  refine KeepsOut.next ?_
  split
  · refine Keeps.ite (by assumption) ?_
    extract_lets -underBinder -merge -useContext +onlyGivenNames x0
    have h1 : Keeps a x0 := (addObj_keeps (advanceTo_keeps (by assumption)))
    clear_value x0
    split
    · exact becomeOwner_keeps (by assumption)
    · exact (setObj_keeps (Keeps.same (by assumption)))
  · assumption

theorem execHandoverTimeout_keeps {a v0} (g0 : Keeps a v0) :
    KeepsOut a (Sys2Proof.Machine.execHandoverTimeout v0) := by
  unfold Sys2Proof.Machine.execHandoverTimeout
  refine KeepsOut.next ?_
  split
  · exact (Keeps.ite (endHandover_keeps (advanceTo_keeps (by assumption))) (by assumption))
  · assumption

theorem claimEffect_keeps {a v0 v1 v2} (g2 : Keeps a v2) :
    Keeps a (Sys2Proof.Machine.claimEffect v0 v1 v2) := by
  unfold Sys2Proof.Machine.claimEffect
  extract_lets -underBinder -merge -useContext +onlyGivenNames x0
  extract_lets -underBinder -merge -useContext +onlyGivenNames x1
  have h2 : Keeps a x1 := (Keeps.ite (setObj_keeps (Keeps.same (by assumption))) (by assumption))
  clear_value x1
  exact Keeps.same (by assumption)

theorem refreshLease_keeps {a v0} (g0 : Keeps a v0) :
    Keeps a (Sys2Proof.Machine.refreshLease v0) := by
  unfold Sys2Proof.Machine.refreshLease
  exact Keeps.same (by assumption)

theorem nameSuccessor_keeps {a v0 v1} (g1 : Keeps a v1) :
    Keeps a (Sys2Proof.Machine.nameSuccessor v0 v1) := by
  unfold Sys2Proof.Machine.nameSuccessor
  refine Keeps.ite (endHandover_keeps (by assumption)) ?_
  refine setObj_keeps ?_
  extract_lets -underBinder -merge -useContext +onlyGivenNames x0
  have h1 : Keeps a x0 := (setObj_keeps (by assumption))
  clear_value x0
  exact Keeps.same (by assumption)

theorem acceptHandover_keeps {a v0 v1} (g1 : Keeps a v1) :
    Keeps a (Sys2Proof.Machine.acceptHandover v0 v1) := by
  unfold Sys2Proof.Machine.acceptHandover
  exact (becomeOwner_keeps (addObj_keeps (by assumption)))

theorem seizeOwnership_keeps {a v0} (g0 : Keeps a v0) :
    Keeps a (Sys2Proof.Machine.seizeOwnership v0) := by
  unfold Sys2Proof.Machine.seizeOwnership
  exact (raise_keeps (becomeOwner_keeps (addObj_keeps (by assumption))))

theorem requestRowRepair_keeps {a v0 v1} (g1 : Keeps a v1) :
    Keeps a (Sys2Proof.Machine.requestRowRepair v0 v1) := by
  unfold Sys2Proof.Machine.requestRowRepair
  exact (Keeps.ite (by assumption) (Keeps.same (by assumption)))

theorem rowsExhausted_keeps {a v0 v1} (g1 : Keeps a v1) :
    Keeps a (Sys2Proof.Machine.rowsExhausted v0 v1) := by
  unfold Sys2Proof.Machine.rowsExhausted
  exact (degrade_keeps (addObj_keeps (by assumption)))

theorem repairRow_keeps {a r s} (h : Keeps a s) : Keeps a (repairRow r s) := by
  unfold repairRow
  extract_lets -underBinder -merge -useContext +onlyGivenNames k spare used ti t use
  have ht : Keeps a t := h.same
  clear_value t
  have hu : Keeps a (use t) := ht.same
  refine Keeps.ite ?_ (Keeps.ite (rowsExhausted_keeps hu) ht)
  extract_lets -underBinder -merge -useContext +onlyGivenNames z z2 w
  have hw : Keeps a w := addObj_keeps hu.same
  exact Keeps.ite (rowsExhausted_keeps hw) hw

theorem execRowRepair_keeps {a v0} (g0 : Keeps a v0) :
    KeepsOut a (Sys2Proof.Machine.execRowRepair v0) := by
  unfold Sys2Proof.Machine.execRowRepair
  refine KeepsOut.next ?_
  split
  · assumption
  · exact (Keeps.ite (repairRow_keeps (by assumption)) (Keeps.ite (repairRow_keeps (Keeps.same (by assumption))) (by assumption)))

theorem repairSource_keeps {a v0 v1} (g1 : Keeps a v1) :
    Keeps a (Sys2Proof.Machine.repairSource v0 v1) := by
  unfold Sys2Proof.Machine.repairSource
  refine Keeps.ite ?_ ?_
  · refine failPond_keeps ?_ (by assumption)
    intro y0 y1 y2 k3
    exact raise_keeps (by assumption)
  · refine Keeps.ite ?_ ?_
    · extract_lets -underBinder -merge -useContext +onlyGivenNames x4
      exact startEvacuation_keeps (by assumption)
    · refine Keeps.ite ?_ (Keeps.ite (requestRowRepair_keeps (by assumption)) (by assumption))
      refine forEach_keeps (P := Keeps a) ?_ (by assumption)
      intro y5 y6 k7
      exact startEvacuation_keeps (by assumption)

theorem noteEscalation_keeps {a v0 v1} (g1 : Keeps a v1) :
    Keeps a (Sys2Proof.Machine.noteEscalation v0 v1) := by
  unfold Sys2Proof.Machine.noteEscalation
  extract_lets -underBinder -merge -useContext +onlyGivenNames x0
  exact (Keeps.ite (degrade_keeps (by assumption)) (by assumption))

theorem serviceTarget_keeps {a v0 v1} (g1 : Keeps a v1) :
    Keeps a (Sys2Proof.Machine.serviceTarget v0 v1) := by
  unfold Sys2Proof.Machine.serviceTarget
  split
  · exact driveErrN_keeps (by assumption)
  · exact (driveErrN_keeps (repairSource_keeps (by assumption)))
  · exact chipReset_keeps (by assumption)
  · assumption

theorem execEscalationExpiry_keeps {a v0 v1} (g1 : Keeps a v1) :
    KeepsOut a (Sys2Proof.Machine.execEscalationExpiry v0 v1) := by
  unfold Sys2Proof.Machine.execEscalationExpiry
  refine KeepsOut.ite ?_ KeepsOut.fault
  refine KeepsOut.next ?_
  extract_lets -underBinder -merge -useContext +onlyGivenNames x0
  refine Keeps.ite (by assumption) ?_
  extract_lets -underBinder -merge -useContext +onlyGivenNames x1
  have h2 : Keeps a x1 := (stopTimer_keeps (advanceTo_keeps (by assumption)))
  clear_value x1
  extract_lets -underBinder -merge -useContext +onlyGivenNames x3
  extract_lets -underBinder -merge -useContext +onlyGivenNames x4
  have h5 : Keeps a x4 := (Keeps.same (by assumption))
  clear_value x4
  exact (serviceTarget_keeps (noteEscalation_keeps (addObj_keeps (addObj_keeps (by assumption)))))

theorem execPondWatchdogTimeout_keeps {a v0 v1} (g1 : Keeps a v1) :
    KeepsOut a (Sys2Proof.Machine.execPondWatchdogTimeout v0 v1) := by
  unfold Sys2Proof.Machine.execPondWatchdogTimeout
  refine onPond_keeps (by assumption) ?_
  intro y0
  split
  · assumption
  · exact (Keeps.ite (by assumption) (raise_keeps (advanceTo_keeps (by assumption))))

theorem copyTable_keeps {a v0 v1 v2 v3} (g3 : Keeps a v3) :
    Keeps a (Sys2Proof.Machine.copyTable v0 v1 v2 v3) := by
  unfold Sys2Proof.Machine.copyTable
  extract_lets -underBinder -merge -useContext +onlyGivenNames x0
  extract_lets -underBinder -merge -useContext +onlyGivenNames x1
  exact (Keeps.ite (noteTable_keeps (by assumption)) (modPond_keeps (by assumption)))

theorem copyInto_keeps {a v0 v1 v2 v3} (g3 : Keeps a v3) :
    Keeps a (Sys2Proof.Machine.copyInto v0 v1 v2 v3) := by
  unfold Sys2Proof.Machine.copyInto
  extract_lets -underBinder -merge -useContext +onlyGivenNames x0
  extract_lets -underBinder -merge -useContext +onlyGivenNames x1
  extract_lets -underBinder -merge -useContext +onlyGivenNames x2
  extract_lets -underBinder -merge -useContext +onlyGivenNames x3
  extract_lets -underBinder -merge -useContext +onlyGivenNames x4
  have h5 : Keeps a x4 := (setPond_keeps (by assumption))
  clear_value x4
  refine forEach_keeps (P := Keeps a) ?_ (by assumption)
  intro y6 y7 k8
  exact copyTable_keeps (by assumption)

theorem setReplacement_keeps {a v0 v1 v2} (g2 : Keeps a v2) :
    Keeps a (Sys2Proof.Machine.setReplacement v0 v1 v2) := by
  unfold Sys2Proof.Machine.setReplacement
  exact Keeps.same (by assumption)

theorem execSpareCopyDone_keeps {a v0 v1} (g1 : Keeps a v1) :
    KeepsOut a (Sys2Proof.Machine.execSpareCopyDone v0 v1) := by
  unfold Sys2Proof.Machine.execSpareCopyDone
  refine KeepsOut.next ?_
  split
  · assumption
  · split
    · assumption
    · refine Keeps.ite (setReplacement_keeps (copyInto_keeps (by assumption))) ?_
      refine Keeps.ite (by assumption) ?_
      refine spareFailed_keeps ?_ (by assumption)
      intro y0 y1 y2 k3
      exact raise_keeps (by assumption)

theorem finishReplacement_keeps {a v0 v1} (g1 : Keeps a v1) :
    Keeps a (Sys2Proof.Machine.finishReplacement v0 v1) := by
  unfold Sys2Proof.Machine.finishReplacement
  extract_lets -underBinder -merge -useContext +onlyGivenNames x0
  extract_lets -underBinder -merge -useContext +onlyGivenNames x1
  have h2 : Keeps a x1 := (Keeps.same (by assumption))
  clear_value x1
  split
  · exact (makeAbsent_keeps (setPond_keeps (retirePond_keeps (settlePond_keeps (by assumption)))))
  · refine Keeps.ite (by assumption) ?_
    extract_lets -underBinder -merge -useContext +onlyGivenNames x3
    have h4 : Keeps a x3 := (setPond_keeps (retirePond_keeps (settlePond_keeps (by assumption))))
    clear_value x3
    extract_lets -underBinder -merge -useContext +onlyGivenNames x5
    have h6 : Keeps a x5 := (setPondState_keeps (by assumption))
    clear_value x5
    extract_lets -underBinder -merge -useContext +onlyGivenNames x7
    extract_lets -underBinder -merge -useContext +onlyGivenNames x8
    have h9 : Keeps a x8 := (closeContexts_keeps (Keeps.same (by assumption)))
    clear_value x8
    exact Keeps.same (by assumption)

theorem switchSpares_keeps {a v0} (g0 : Keeps a v0) :
    Keeps a (Sys2Proof.Machine.switchSpares v0) := by
  unfold Sys2Proof.Machine.switchSpares
  extract_lets -underBinder -merge -useContext +onlyGivenNames x0
  refine Keeps.ite (by assumption) ?_
  refine settleDirectories_keeps ?_
  refine forEach_keeps (P := Keeps a) ?_ (by assumption)
  intro y1 y2 k3
  exact finishReplacement_keeps (by assumption)

theorem execPowerPhaseFailure_keeps {a v0} (g0 : Keeps a v0) :
    KeepsOut a (Sys2Proof.Machine.execPowerPhaseFailure v0) := by
  unfold Sys2Proof.Machine.execPowerPhaseFailure
  refine KeepsOut.next ?_
  extract_lets -underBinder -merge -useContext +onlyGivenNames x0
  refine Keeps.ite (by assumption) ?_
  extract_lets -underBinder -merge -useContext +onlyGivenNames x1
  have h2 : Keeps a x1 := (raise_keeps (addObj_keeps (setObj_keeps (by assumption))))
  clear_value x1
  exact (Keeps.ite (raiseCause_keeps (by assumption)) (by assumption))

theorem execServiceCoreWatchdog_keeps {a v0} (g0 : Keeps a v0) :
    KeepsOut a (Sys2Proof.Machine.execServiceCoreWatchdog v0) := by
  unfold Sys2Proof.Machine.execServiceCoreWatchdog
  refine KeepsOut.next ?_
  extract_lets -underBinder -merge -useContext +onlyGivenNames x0
  extract_lets -underBinder -merge -useContext +onlyGivenNames x1
  extract_lets -underBinder -merge -useContext +onlyGivenNames x2
  have h3 : Keeps a x2 := (pauseService_keeps (Keeps.same (by assumption)))
  clear_value x2
  extract_lets -underBinder -merge -useContext +onlyGivenNames x4
  have h5 : Keeps a x4 := (raise_keeps (addObj_keeps (by assumption)))
  clear_value x4
  refine Keeps.ite ?_ (by assumption)
  extract_lets -underBinder -merge -useContext +onlyGivenNames x6
  have h7 : Keeps a x6 := (raise_keeps (by assumption))
  clear_value x6
  exact (Keeps.ite (setObj_keeps (by assumption)) (by assumption))

theorem execActivationTimeout_keeps {a v0} (g0 : Keeps a v0) :
    KeepsOut a (Sys2Proof.Machine.execActivationTimeout v0) := by
  unfold Sys2Proof.Machine.execActivationTimeout
  refine KeepsOut.next ?_
  split
  · assumption
  · extract_lets -underBinder -merge -useContext +onlyGivenNames x0
    have h1 : Keeps a x0 := (advanceTo_keeps (by assumption))
    clear_value x0
    extract_lets -underBinder -merge -useContext +onlyGivenNames x2
    have h3 : Keeps a x2 := by
      unfold x2
      split
      · exact (setObj_keeps (resumeClocks_keeps (by assumption)))
      · assumption
    clear_value x2
    extract_lets -underBinder -merge -useContext +onlyGivenNames x4
    extract_lets -underBinder -merge -useContext +onlyGivenNames x5
    have h6 : Keeps a x5 := (Keeps.same (by assumption))
    clear_value x5
    exact (firmwareSignal_keeps (raise_keeps (setObj_keeps (by assumption))))

theorem execChipEngineUnitFailed_keeps {a v0 v1 v2} (g2 : Keeps a v2) :
    KeepsOut a (Sys2Proof.Machine.execChipEngineUnitFailed v0 v1 v2) := by
  unfold Sys2Proof.Machine.execChipEngineUnitFailed
  refine KeepsOut.ite ?_ KeepsOut.fault
  refine KeepsOut.next ?_
  refine Keeps.ite (by assumption) ?_
  extract_lets -underBinder -merge -useContext +onlyGivenNames x0
  extract_lets -underBinder -merge -useContext +onlyGivenNames x1
  have h2 : Keeps a x1 := (Keeps.same (by assumption))
  clear_value x1
  extract_lets -underBinder -merge -useContext +onlyGivenNames x3
  have h4 : Keeps a x3 := (raiseCause_keeps (by assumption))
  clear_value x3
  exact (Keeps.ite (endCause_keeps (by assumption)) (by assumption))

theorem sendFrame_keeps {a v0 v1 v2 v3 v4} (g4 : Keeps a v4) :
    Keeps a (Sys2Proof.Machine.sendFrame v0 v1 v2 v3 v4) := by
  unfold Sys2Proof.Machine.sendFrame
  exact (Keeps.ite (sendCan_keeps (by assumption)) (by assumption))

theorem sendBoth_keeps {a v0 v1 v2 v3} (g3 : Keeps a v3) :
    Keeps a (Sys2Proof.Machine.sendBoth v0 v1 v2 v3) := by
  unfold Sys2Proof.Machine.sendBoth
  exact (sendFrame_keeps (sendFrame_keeps (by assumption)))

theorem nodeDefaults_keeps {a v0 v1} (g1 : Keeps a v1) :
    Keeps a (Sys2Proof.Machine.nodeDefaults v0 v1) := by
  unfold Sys2Proof.Machine.nodeDefaults
  extract_lets -underBinder -merge -useContext +onlyGivenNames x0
  have h1 : Keeps a x0 := (setObj_keeps (by assumption))
  clear_value x0
  refine forUpTo_keeps (P := Keeps a) ?_ (by assumption)
  intro y2 y3 k4
  exact setObj_keeps (by assumption)

theorem resetComm_keeps {a s} (h : Keeps a s) : Keeps a (resetComm s) := by
  unfold resetComm
  extract_lets -underBinder -merge -useContext +onlyGivenNames ca t n t1 ca2 t2 t3
  have ht : Keeps a t :=
    (h.tables (t := { s with dict := mapEraseRange s.dict (0x1000 * 256) (0x2000 * 256) })
      fun c => { c with dict := MapSorted.filter _ _ c.dict }).same
  clear_value t
  have h1 : Keeps a t1 := nodeDefaults_keeps (setObj_keeps ht)
  clear_value t1
  have h2 : Keeps a t2 := setObj_keeps h1.same
  clear_value t2
  have h3 : Keeps a t3 := sendBoth_keeps h2
  clear_value t3
  exact setObj_keeps h3

theorem beginExit_keeps {a v0} (g0 : Keeps a v0) :
    Keeps a (Sys2Proof.Machine.beginExit v0) := by
  unfold Sys2Proof.Machine.beginExit
  exact (addObj_keeps (setObj_keeps (Keeps.same (by assumption))))

theorem recordWake_keeps {a v0 v1 v2 v3} (g3 : Keeps a v3) :
    Keeps a (Sys2Proof.Machine.recordWake v0 v1 v2 v3) := by
  unfold Sys2Proof.Machine.recordWake
  extract_lets -underBinder -merge -useContext +onlyGivenNames x0
  have h1 : Keeps a x0 := (setObj_keeps (setObj_keeps (by assumption)))
  clear_value x0
  extract_lets -underBinder -merge -useContext +onlyGivenNames x2
  have h3 : Keeps a x2 := (setObj_keeps (setObj_keeps (by assumption)))
  clear_value x2
  exact Keeps.same (by assumption)

theorem wakeEvent_keeps {a v0 v1 v2} (g2 : Keeps a v2) :
    Keeps a (Sys2Proof.Machine.wakeEvent v0 v1 v2) := by
  unfold Sys2Proof.Machine.wakeEvent
  refine Keeps.ite (by assumption) ?_
  refine Keeps.ite ?_ (Keeps.ite (beginExit_keeps (recordWake_keeps (by assumption))) (by assumption))
  extract_lets -underBinder -merge -useContext +onlyGivenNames x0
  have h1 : Keeps a x0 := (addObj_keeps (by assumption))
  clear_value x0
  exact (Keeps.ite (by assumption) (recordWake_keeps (by assumption)))

theorem actPower_keeps {a v0 v1 v2} (g2 : Keeps a v2) :
    Keeps a (Sys2Proof.Machine.actPower v0 v1 v2) := by
  unfold Sys2Proof.Machine.actPower
  extract_lets -underBinder -merge -useContext +onlyGivenNames x0
  refine Keeps.ite (Keeps.same (by assumption)) ?_
  extract_lets -underBinder -merge -useContext +onlyGivenNames x1
  extract_lets -underBinder -merge -useContext +onlyGivenNames x2
  have h3 : Keeps a x2 := (Keeps.same (by assumption))
  clear_value x2
  refine Keeps.ite ?_ (by assumption)
  extract_lets -underBinder -merge -useContext +onlyGivenNames x4
  exact (wakeEvent_keeps (Keeps.same (by assumption)))

theorem requestPower_keeps {a v0 v1 v2} (g2 : Keeps a v2) :
    Keeps a (Sys2Proof.Machine.requestPower v0 v1 v2) := by
  unfold Sys2Proof.Machine.requestPower
  extract_lets -underBinder -merge -useContext +onlyGivenNames x0
  have h1 : Keeps a x0 := (setObj_keeps (by assumption))
  clear_value x0
  exact (Keeps.ite (actPower_keeps (by assumption)) (Keeps.same (by assumption)))

theorem ackSource_keeps {a v0 v1} (g1 : Keeps a v1) :
    Keeps a (Sys2Proof.Machine.ackSource v0 v1) := by
  unfold Sys2Proof.Machine.ackSource
  exact (Keeps.ite (setObj_keeps (stopTimer_keeps (by assumption))) (by assumption))

theorem clearPonds_keeps {a v0 v1} (g1 : Keeps a v1) :
    Keeps a (Sys2Proof.Machine.clearPonds v0 v1) := by
  unfold Sys2Proof.Machine.clearPonds
  extract_lets -underBinder -merge -useContext +onlyGivenNames x0
  extract_lets -underBinder -merge -useContext +onlyGivenNames x1
  have h6 : Keeps a x1 := by
    unfold x1
    refine forUpTo_keeps (P := Keeps a) ?_ (by assumption)
    intro y2 y3 k4
    extract_lets -underBinder -merge -useContext +onlyGivenNames x5
    exact (Keeps.ite (setObj_keeps (by assumption)) (by assumption))
  clear_value x1
  exact Keeps.same (by assumption)

theorem settleFirst_keeps {a v0} (g0 : Keeps a v0) :
    Keeps a (Sys2Proof.Machine.settleFirst v0) := by
  unfold Sys2Proof.Machine.settleFirst
  exact Keeps.same (by assumption)

theorem settleErrN_keeps {a v0} (g0 : Keeps a v0) :
    Keeps a (Sys2Proof.Machine.settleErrN v0) := by
  unfold Sys2Proof.Machine.settleErrN
  exact (Keeps.ite (by assumption) (setObj_keeps (by assumption)))

theorem clearSource_keeps {a v0 v1} (g1 : Keeps a v1) :
    Keeps a (Sys2Proof.Machine.clearSource v0 v1) := by
  unfold Sys2Proof.Machine.clearSource
  refine Keeps.ite (by assumption) ?_
  refine Keeps.ite (addObj_keeps (addObj_keeps (by assumption))) ?_
  extract_lets -underBinder -merge -useContext +onlyGivenNames x0
  have h1 : Keeps a x0 := (clearPonds_keeps (stopTimer_keeps (setObj_keeps (setObj_keeps (by assumption)))))
  clear_value x0
  exact Keeps.same (by assumption)

theorem clearMask_keeps {a v0 v1 v2} (g2 : Keeps a v2) :
    Keeps a (Sys2Proof.Machine.clearMask v0 v1 v2) := by
  unfold Sys2Proof.Machine.clearMask
  extract_lets -underBinder -merge -useContext +onlyGivenNames x0
  extract_lets -underBinder -merge -useContext +onlyGivenNames x1
  have h5 : Keeps a x1 := by
    unfold x1
    refine forUpTo_keeps (P := Keeps a) ?_ (by assumption)
    intro y2 y3 k4
    exact (Keeps.ite (clearSource_keeps (by assumption)) (by assumption))
  clear_value x1
  extract_lets -underBinder -merge -useContext +onlyGivenNames x6
  have h7 : Keeps a x6 := (settleErrN_keeps (settleFirst_keeps (by assumption)))
  clear_value x6
  exact (Keeps.ite (emcyAllClear_keeps (by assumption)) (by assumption))

theorem ackMask_keeps {a v0 v1 v2} (g2 : Keeps a v2) :
    Keeps a (Sys2Proof.Machine.ackMask v0 v1 v2) := by
  unfold Sys2Proof.Machine.ackMask
  refine forUpTo_keeps (P := Keeps a) ?_ (by assumption)
  intro y0 y1 k2
  exact (Keeps.ite (ackSource_keeps (by assumption)) (by assumption))

theorem requestMargin_keeps {a v0} (g0 : Keeps a v0) :
    KeepsSnd a (Sys2Proof.Machine.requestMargin v0) := by
  unfold Sys2Proof.Machine.requestMargin
  extract_lets -underBinder -merge -useContext +onlyGivenNames x0
  extract_lets -underBinder -merge -useContext +onlyGivenNames x1
  exact (KeepsSnd.ite (KeepsSnd.mk (setObj_keeps (by assumption))) (KeepsSnd.ite (KeepsSnd.mk (by assumption)) (KeepsSnd.ite (KeepsSnd.mk (setObj_keeps (by assumption))) (KeepsSnd.mk (setObj_keeps (Keeps.same (by assumption)))))))

theorem requestRetire_keeps {a v0} (g0 : Keeps a v0) :
    KeepsSnd a (Sys2Proof.Machine.requestRetire v0) := by
  unfold Sys2Proof.Machine.requestRetire
  extract_lets -underBinder -merge -useContext +onlyGivenNames x0
  extract_lets -underBinder -merge -useContext +onlyGivenNames x1
  refine KeepsSnd.ite (KeepsSnd.mk (by assumption)) ?_
  refine KeepsSnd.ite (KeepsSnd.mk (by assumption)) ?_
  extract_lets -underBinder -merge -useContext +onlyGivenNames x2
  refine KeepsSnd.ite (KeepsSnd.mk (setObj_keeps (by assumption))) ?_
  extract_lets -underBinder -merge -useContext +onlyGivenNames x3
  have h4 : Keeps a x3 := (setObj_keeps (setObj_keeps (by assumption)))
  clear_value x3
  exact (KeepsSnd.mk (startEvacuation_keeps (Keeps.same (by assumption))))

theorem requestActivation_keeps {a v0} (g0 : Keeps a v0) :
    KeepsSnd a (Sys2Proof.Machine.requestActivation v0) := by
  unfold Sys2Proof.Machine.requestActivation
  exact (KeepsSnd.ite (KeepsSnd.mk (by assumption)) (KeepsSnd.ite (KeepsSnd.mk (firmwareSignal_keeps (setObj_keeps (by assumption)))) (KeepsSnd.mk (setObj_keeps (by assumption)))))

theorem requestVerify_keeps {a v0} (g0 : Keeps a v0) :
    KeepsSnd a (Sys2Proof.Machine.requestVerify v0) := by
  unfold Sys2Proof.Machine.requestVerify
  refine KeepsSnd.ite (KeepsSnd.mk (firmwareSignal_keeps (setObj_keeps (by assumption)))) ?_
  extract_lets -underBinder -merge -useContext +onlyGivenNames x0
  extract_lets -underBinder -merge -useContext +onlyGivenNames x1
  extract_lets -underBinder -merge -useContext +onlyGivenNames x2
  exact (KeepsSnd.mk (setObj_keeps (Keeps.same (by assumption))))

theorem requestBurn_keeps {a s} (h : Keeps a s) : Keeps a (requestBurn s) :=
  setObj_keeps (h.secured ⟨id, id, le_rfl, le_max_left _ _⟩)

theorem lockDebug_keeps {a s} (h : Keeps a s) : Keeps a (lockDebug s) :=
  endCause_keeps (h.secured ⟨id, fun _ _ => rfl, le_rfl, le_rfl⟩)

theorem burnDisable_keeps {a s} (h : Keeps a s) : Keeps a (burnDisable s) :=
  endCause_keeps (h.secured ⟨fun _ => rfl, fun _ _ => rfl, le_rfl, le_rfl⟩)

end Sys2Proof.Laws
end

