-- ==== Sys2Proof/Laws/KeepsDict.lean ====
section
/-! SUPPORT. What the operations of writes to the dictionary keep. -/

set_option Elab.async false

namespace Sys2Proof.Laws

open Sys2Proof.Machine Sys2Proof.Safety

theorem requestWrite_keeps {a v0 v1 v2} (g2 : Keeps a v2) :
    Keeps a (Sys2Proof.Machine.requestWrite v0 v1 v2) := by
  unfold Sys2Proof.Machine.requestWrite
  exact (Keeps.ite (setObj_keeps (by assumption)) (by assumption))

theorem selectSource_keeps {a v0 v1} (g1 : Keeps a v1) :
    Keeps a (Sys2Proof.Machine.selectSource v0 v1) := by
  unfold Sys2Proof.Machine.selectSource
  extract_lets -underBinder -merge -useContext +onlyGivenNames x0
  have h1 : Keeps a x0 := (setObj_keeps (by assumption))
  clear_value x0
  exact (Keeps.ite (setObj_keeps (by assumption)) (Keeps.same (by assumption)))

theorem readopt_keeps {a v0 v1} (g1 : Keeps a v1) :
    Keeps a (Sys2Proof.Machine.readopt v0 v1) := by
  unfold Sys2Proof.Machine.readopt
  exact (Keeps.ite (setObj_keeps (by assumption)) (Keeps.ite (by assumption) (setObj_keeps (by assumption))))

theorem requestLoad_keeps {a v0} (g0 : Keeps a v0) :
    KeepsSnd a (Sys2Proof.Machine.requestLoad v0) := by
  unfold Sys2Proof.Machine.requestLoad
  exact (KeepsSnd.ite (KeepsSnd.mk (setObj_keeps (by assumption))) (KeepsSnd.mk (setObj_keeps (Keeps.same (by assumption)))))

theorem trainBrooks_keeps {a v0} (g0 : Keeps a v0) :
    Keeps a (Sys2Proof.Machine.trainBrooks v0) := by
  unfold Sys2Proof.Machine.trainBrooks
  refine forUpTo_keeps (P := Keeps a) ?_ (by assumption)
  intro y0 y1 k2
  exact (Keeps.ite (setObj_keeps (by assumption)) (by assumption))

theorem enableFabric_keeps {a v0 v1} (g1 : Keeps a v1) :
    Keeps a (Sys2Proof.Machine.enableFabric v0 v1) := by
  unfold Sys2Proof.Machine.enableFabric
  extract_lets -underBinder -merge -useContext +onlyGivenNames x0
  have h1 : Keeps a x0 := (setObj_keeps (by assumption))
  clear_value x0
  exact (Keeps.ite (trainBrooks_keeps (by assumption)) (by assumption))

theorem actOne_keeps {a v0 v1 v2} (g2 : Keeps a v2) :
    Keeps a (Sys2Proof.Machine.actOne v0 v1 v2) := by
  unfold Sys2Proof.Machine.actOne
  exact (Keeps.ite (setObj_keeps (Keeps.same (by assumption))) (Keeps.ite (setObj_keeps (Keeps.same (by assumption))) (Keeps.ite (requestBurn_keeps (by assumption)) (Keeps.ite (lockDebug_keeps (by assumption)) (Keeps.ite (burnDisable_keeps (by assumption)) (Keeps.ite (acceptHandover_keeps (by assumption)) (Keeps.ite (vacate_keeps (by assumption)) (Keeps.ite (seizeOwnership_keeps (by assumption)) (Keeps.ite (resetComm_keeps (by assumption)) (Keeps.ite (raise_keeps (retrainBrook_keeps (by assumption))) (setObj_keeps (by assumption))))))))))))

theorem resultRequest_keeps {a k v s r} (h : Keeps a s) (e : resultRequest k v s = some r) : KeepsSnd a r := by
  have all : ∀ o : Option (Nat × State), (∀ x, o = some x → KeepsSnd a x) → o = some r → KeepsSnd a r := fun _ k => k r
  refine all _ ?_ e
  unfold resultRequest
  intro x hx
  repeat' split at hx
  all_goals first
    | (cases hx; done)
    | (obtain rfl := Option.some.inj hx
       first
         | exact requestLoad_keeps h
         | exact requestMargin_keeps h
         | exact requestRetire_keeps h
         | exact requestActivation_keeps h
         | exact requestVerify_keeps h)

theorem copyWrite_keeps {a s} {k v : Nat} (d : Nat) (h : Keeps a s) :
    Keeps a { s with copies := mapPut d s.copies k v } :=
  h.tables fun c => { c with copies := mapPut_sorted _ _ _ _ c.copies }

theorem applyWrite_keeps {a m k v x s} (h : Keeps a s) : KeepsSnd a (applyWrite m k v x s) := by
  unfold applyWrite
  split
  · rename_i heq
    exact resultRequest_keeps h heq
  · refine KeepsSnd.ite (KeepsSnd.mk (Keeps.ite (actOne_keeps h) h)) ?_
    refine KeepsSnd.ite (KeepsSnd.mk (copyWrite_keeps _ h)) ?_
    refine KeepsSnd.ite (KeepsSnd.mk (failPond_keeps (fun {_ _ _} hk => raise_keeps hk) (setObj_keeps h))) ?_
    refine KeepsSnd.ite (KeepsSnd.mk (selectSource_keeps h)) ?_
    refine KeepsSnd.ite (KeepsSnd.mk (readopt_keeps h)) ?_
    refine KeepsSnd.ite (KeepsSnd.mk (followArea_keeps (readRecords_keeps (setObj_keeps h)))) ?_
    refine KeepsSnd.ite (KeepsSnd.mk (enableFabric_keeps h)) ?_
    refine KeepsSnd.ite (KeepsSnd.mk (setShareArea_keeps h)) (KeepsSnd.ite (KeepsSnd.mk (setObj_keeps h)) ?_)
    refine KeepsSnd.ite (KeepsSnd.mk (ackMask_keeps h)) (KeepsSnd.ite (KeepsSnd.mk (ackMask_keeps h)) ?_)
    refine KeepsSnd.ite (KeepsSnd.mk (clearMask_keeps h)) (KeepsSnd.ite (KeepsSnd.mk (clearMask_keeps h)) ?_)
    refine KeepsSnd.ite (KeepsSnd.mk (requestPower_keeps h)) ?_
    refine KeepsSnd.ite (KeepsSnd.ite (KeepsSnd.mk (claimEffect_keeps h)) (KeepsSnd.mk (addObj_keeps h))) ?_
    refine KeepsSnd.ite (KeepsSnd.mk (refreshLease_keeps h)) (KeepsSnd.ite (KeepsSnd.mk (nameSuccessor_keeps h)) ?_)
    exact KeepsSnd.mk (setObj_keeps h)

theorem dictWrite_keeps {a v0 v1 v2 v3 v4 v5 v6} (g6 : Keeps a v6) :
    KeepsSnd a (Sys2Proof.Machine.dictWrite v0 v1 v2 v3 v4 v5 v6) := by
  unfold Sys2Proof.Machine.dictWrite
  split
  · exact KeepsSnd.mk (by assumption)
  · extract_lets -underBinder -merge -useContext +onlyGivenNames x0
    exact (KeepsSnd.ite (KeepsSnd.mk (by assumption)) (KeepsSnd.ite (KeepsSnd.mk (by assumption)) (KeepsSnd.ite (KeepsSnd.mk (addObj_keeps (by assumption))) (KeepsSnd.ite (KeepsSnd.mk (by assumption)) (KeepsSnd.ite (KeepsSnd.mk (by assumption)) (KeepsSnd.ite (KeepsSnd.mk (by assumption)) (applyWrite_keeps (by assumption))))))))

theorem countAccess_keeps {a v0 v1} (g1 : Keeps a v1) :
    Keeps a (Sys2Proof.Machine.countAccess v0 v1) := by
  unfold Sys2Proof.Machine.countAccess
  extract_lets -underBinder -merge -useContext +onlyGivenNames x0
  have h1 : Keeps a x0 := (addObj_keeps (by assumption))
  clear_value x0
  exact (Keeps.ite (by assumption) (addObj_keeps (by assumption)))

theorem noteCell_keeps {a v0 v1 v2 v3} (g3 : Keeps a v3) :
    Keeps a (Sys2Proof.Machine.noteCell v0 v1 v2 v3) := by
  unfold Sys2Proof.Machine.noteCell
  exact Keeps.same (by assumption)

theorem cellDone_keeps {a v0 v1 v2 v3} (g3 : Keeps a v3) :
    Keeps a (Sys2Proof.Machine.cellDone v0 v1 v2 v3) := by
  unfold Sys2Proof.Machine.cellDone
  exact (Keeps.ite (by assumption) (noteCell_keeps (by assumption)))

theorem windowWrite_keeps {a v0 v1 v2 v3 v4 v5} (g5 : Keeps a v5) :
    KeepsSnd a (Sys2Proof.Machine.windowWrite v0 v1 v2 v3 v4 v5) := by
  unfold Sys2Proof.Machine.windowWrite
  split
  rename_i m0 m1 e2
  have h3 := KeepsSnd.of_eq e2 (by
    refine KeepsSnd.ite (KeepsSnd.mk (by assumption)) ?_
    split
    · exact KeepsSnd.mk (by assumption)
    · exact (KeepsSnd.ite (KeepsSnd.mk (by assumption)) (KeepsSnd.ite (KeepsSnd.mk (by assumption)) (dictWrite_keeps (by assumption))))
    )
  exact (KeepsSnd.mk (cellDone_keeps (by assumption)))

theorem windowRead_keeps {a v0 v1 v2 v3 v4} (g4 : Keeps a v4) :
    KeepsSnd a (Sys2Proof.Machine.windowRead v0 v1 v2 v3 v4) := by
  unfold Sys2Proof.Machine.windowRead
  extract_lets -underBinder -merge -useContext +onlyGivenNames x0
  extract_lets -underBinder -merge -useContext +onlyGivenNames x1
  exact (KeepsSnd.mk (cellDone_keeps (countAccess_keeps (by assumption))))

theorem readResultCell_keeps {a v0} (g0 : Keeps a v0) :
    KeepsSnd a (Sys2Proof.Machine.readResultCell v0) := by
  unfold Sys2Proof.Machine.readResultCell
  extract_lets -underBinder -merge -useContext +onlyGivenNames x0
  exact (KeepsSnd.mk (Keeps.same (by assumption)))

theorem debugWrite_keeps {a v0 v1 v2 v3} (g3 : Keeps a v3) :
    KeepsSnd a (Sys2Proof.Machine.debugWrite v0 v1 v2 v3) := by
  unfold Sys2Proof.Machine.debugWrite
  split
  · exact KeepsSnd.mk (by assumption)
  · exact (KeepsSnd.ite (KeepsSnd.mk (by assumption)) (dictWrite_keeps (by assumption)))

theorem masterWrite_keeps {a v0 v1 v2 v3 v4 v5 v6} (g6 : Keeps a v6) :
    Keeps a (Sys2Proof.Machine.masterWrite v0 v1 v2 v3 v4 v5 v6) := by
  unfold Sys2Proof.Machine.masterWrite
  refine Keeps.ite (by assumption) ?_
  extract_lets -underBinder -merge -useContext +onlyGivenNames x0
  have h1 : Keeps a x0 := (resumeService_keeps (by assumption))
  clear_value x0
  refine Keeps.ite ?_ ?_
  · extract_lets -underBinder -merge -useContext +onlyGivenNames x2
    have h3 : KeepsSnd a x2 := (windowWrite_keeps (by assumption))
    clear_value x2
    exact countAccess_keeps (by assumption)
  · refine Keeps.ite ?_ ?_
    · extract_lets -underBinder -merge -useContext +onlyGivenNames x4
      have h5 : KeepsSnd a x4 := (debugWrite_keeps (by assumption))
      clear_value x4
      extract_lets -underBinder -merge -useContext +onlyGivenNames x6
      have h7 : Keeps a x6 := (countAccess_keeps (by assumption))
      clear_value x6
      exact Keeps.same (by assumption)
    · extract_lets -underBinder -merge -useContext +onlyGivenNames x8
      extract_lets -underBinder -merge -useContext +onlyGivenNames x9
      split
      · exact (sendUsdo_keeps (countAccess_keeps (by assumption)))
      · rename_i m12 e13
        have h14 := KeepsOpt.of_eq e13 (enterMaster_keeps (by assumption))
        refine Keeps.ite (sendUsdo_keeps (countAccess_keeps (by assumption))) ?_
        extract_lets -underBinder -merge -useContext +onlyGivenNames x10
        have h11 : KeepsSnd a x10 := (dictWrite_keeps (by assumption))
        clear_value x10
        exact (sendUsdo_keeps (countAccess_keeps (by assumption)))

theorem writeObject_keeps {a v0 v1 v2 v3 v4} (g4 : Keeps a v4) :
    KeepsOut a (Sys2Proof.Machine.writeObject v0 v1 v2 v3 v4) := by
  unfold Sys2Proof.Machine.writeObject
  exact (KeepsOut.ite (KeepsOut.next (masterWrite_keeps (by assumption))) KeepsOut.fault)

theorem execRegisterWrite_keeps {a v0 v1 v2 v3 v4 v5} (g5 : Keeps a v5) :
    KeepsOut a (Sys2Proof.Machine.execRegisterWrite v0 v1 v2 v3 v4 v5) := by
  unfold Sys2Proof.Machine.execRegisterWrite
  exact (KeepsOut.ite (KeepsOut.next (masterWrite_keeps (by assumption))) KeepsOut.fault)

theorem execSourceSelectWrite_keeps {a v0 v1 v2} (g2 : Keeps a v2) :
    KeepsOut a (Sys2Proof.Machine.execSourceSelectWrite v0 v1 v2) := by
  unfold Sys2Proof.Machine.execSourceSelectWrite
  exact writeObject_keeps (by assumption)

theorem execReadoptRequest_keeps {a v0 v1} (g1 : Keeps a v1) :
    KeepsOut a (Sys2Proof.Machine.execReadoptRequest v0 v1) := by
  unfold Sys2Proof.Machine.execReadoptRequest
  exact writeObject_keeps (by assumption)

theorem execReadoptWithdraw_keeps {a v0 v1} (g1 : Keeps a v1) :
    KeepsOut a (Sys2Proof.Machine.execReadoptWithdraw v0 v1) := by
  unfold Sys2Proof.Machine.execReadoptWithdraw
  exact writeObject_keeps (by assumption)

theorem execStagedBasinWrite_keeps {a v0 v1 v2 v3 v4} (g4 : Keeps a v4) :
    KeepsOut a (Sys2Proof.Machine.execStagedBasinWrite v0 v1 v2 v3 v4) := by
  unfold Sys2Proof.Machine.execStagedBasinWrite
  exact (KeepsOut.ite (writeObject_keeps (by assumption)) (KeepsOut.next (by assumption)))

theorem execBasinCommitRequest_keeps {a v0 v1} (g1 : Keeps a v1) :
    KeepsOut a (Sys2Proof.Machine.execBasinCommitRequest v0 v1) := by
  unfold Sys2Proof.Machine.execBasinCommitRequest
  exact writeObject_keeps (by assumption)

theorem execTestSpareRequest_keeps {a v0 v1 v2} (g2 : Keeps a v2) :
    KeepsOut a (Sys2Proof.Machine.execTestSpareRequest v0 v1 v2) := by
  unfold Sys2Proof.Machine.execTestSpareRequest
  exact writeObject_keeps (by assumption)

theorem execLoadRequest_keeps {a v0 v1} (g1 : Keeps a v1) :
    KeepsOut a (Sys2Proof.Machine.execLoadRequest v0 v1) := by
  unfold Sys2Proof.Machine.execLoadRequest
  exact writeObject_keeps (by assumption)

theorem execBankSwitchRequest_keeps {a v0 v1} (g1 : Keeps a v1) :
    KeepsOut a (Sys2Proof.Machine.execBankSwitchRequest v0 v1) := by
  unfold Sys2Proof.Machine.execBankSwitchRequest
  exact writeObject_keeps (by assumption)

theorem execClearBankRequest_keeps {a v0 v1} (g1 : Keeps a v1) :
    KeepsOut a (Sys2Proof.Machine.execClearBankRequest v0 v1) := by
  unfold Sys2Proof.Machine.execClearBankRequest
  exact writeObject_keeps (by assumption)

theorem execStateStrideWrite_keeps {a v0 v1 v2} (g2 : Keeps a v2) :
    KeepsOut a (Sys2Proof.Machine.execStateStrideWrite v0 v1 v2) := by
  unfold Sys2Proof.Machine.execStateStrideWrite
  exact writeObject_keeps (by assumption)

theorem execPoolConfigWrite_keeps {a v0 v1 v2 v3 v4} (g4 : Keeps a v4) :
    KeepsOut a (Sys2Proof.Machine.execPoolConfigWrite v0 v1 v2 v3 v4) := by
  unfold Sys2Proof.Machine.execPoolConfigWrite
  exact (KeepsOut.ite (writeObject_keeps (by assumption)) KeepsOut.fault)

theorem execAdoptRequest_keeps {a v0 v1} (g1 : Keeps a v1) :
    KeepsOut a (Sys2Proof.Machine.execAdoptRequest v0 v1) := by
  unfold Sys2Proof.Machine.execAdoptRequest
  exact writeObject_keeps (by assumption)

theorem execFabricCommitRequest_keeps {a v0 v1} (g1 : Keeps a v1) :
    KeepsOut a (Sys2Proof.Machine.execFabricCommitRequest v0 v1) := by
  unfold Sys2Proof.Machine.execFabricCommitRequest
  exact writeObject_keeps (by assumption)

theorem taskRequest_keeps {a v0 v1 v2 v3} (g3 : Keeps a v3) :
    KeepsOut a (Sys2Proof.Machine.taskRequest v0 v1 v2 v3) := by
  unfold Sys2Proof.Machine.taskRequest
  exact (KeepsOut.ite (KeepsOut.next (masterWrite_keeps (masterWrite_keeps (masterWrite_keeps (by assumption))))) KeepsOut.fault)

theorem execTaskStart_keeps {a v0 v1 v2} (g2 : Keeps a v2) :
    KeepsOut a (Sys2Proof.Machine.execTaskStart v0 v1 v2) := by
  unfold Sys2Proof.Machine.execTaskStart
  exact taskRequest_keeps (by assumption)

theorem execTaskEnd_keeps {a v0 v1 v2} (g2 : Keeps a v2) :
    KeepsOut a (Sys2Proof.Machine.execTaskEnd v0 v1 v2) := by
  unfold Sys2Proof.Machine.execTaskEnd
  exact taskRequest_keeps (by assumption)

theorem execAcknowledgeSources_keeps {a v0 v1 v2 v3} (g3 : Keeps a v3) :
    KeepsOut a (Sys2Proof.Machine.execAcknowledgeSources v0 v1 v2 v3) := by
  unfold Sys2Proof.Machine.execAcknowledgeSources
  exact writeObject_keeps (by assumption)

theorem execClearSources_keeps {a v0 v1 v2 v3} (g3 : Keeps a v3) :
    KeepsOut a (Sys2Proof.Machine.execClearSources v0 v1 v2 v3) := by
  unfold Sys2Proof.Machine.execClearSources
  exact writeObject_keeps (by assumption)

theorem execRegimeRequest_keeps {a v0 v1 v2} (g2 : Keeps a v2) :
    KeepsOut a (Sys2Proof.Machine.execRegimeRequest v0 v1 v2) := by
  unfold Sys2Proof.Machine.execRegimeRequest
  exact writeObject_keeps (by assumption)

theorem execRetireRequest_keeps {a v0 v1} (g1 : Keeps a v1) :
    KeepsOut a (Sys2Proof.Machine.execRetireRequest v0 v1) := by
  unfold Sys2Proof.Machine.execRetireRequest
  exact writeObject_keeps (by assumption)

theorem execActivationRequest_keeps {a v0 v1} (g1 : Keeps a v1) :
    KeepsOut a (Sys2Proof.Machine.execActivationRequest v0 v1) := by
  unfold Sys2Proof.Machine.execActivationRequest
  exact writeObject_keeps (by assumption)

theorem execVerifyRequest_keeps {a v0 v1} (g1 : Keeps a v1) :
    KeepsOut a (Sys2Proof.Machine.execVerifyRequest v0 v1) := by
  unfold Sys2Proof.Machine.execVerifyRequest
  exact writeObject_keeps (by assumption)

theorem execBurnRequest_keeps {a v0 v1} (g1 : Keeps a v1) :
    KeepsOut a (Sys2Proof.Machine.execBurnRequest v0 v1) := by
  unfold Sys2Proof.Machine.execBurnRequest
  exact writeObject_keeps (by assumption)

theorem execRelock_keeps {a v0 v1} (g1 : Keeps a v1) :
    KeepsOut a (Sys2Proof.Machine.execRelock v0 v1) := by
  unfold Sys2Proof.Machine.execRelock
  exact writeObject_keeps (by assumption)

theorem execPermanentDebugDisable_keeps {a v0 v1} (g1 : Keeps a v1) :
    KeepsOut a (Sys2Proof.Machine.execPermanentDebugDisable v0 v1) := by
  unfold Sys2Proof.Machine.execPermanentDebugDisable
  exact writeObject_keeps (by assumption)

theorem execMarginRequest_keeps {a v0 v1} (g1 : Keeps a v1) :
    KeepsOut a (Sys2Proof.Machine.execMarginRequest v0 v1) := by
  unfold Sys2Proof.Machine.execMarginRequest
  exact writeObject_keeps (by assumption)

theorem execPowerStateRequest_keeps {a v0 v1 v2} (g2 : Keeps a v2) :
    KeepsOut a (Sys2Proof.Machine.execPowerStateRequest v0 v1 v2) := by
  unfold Sys2Proof.Machine.execPowerStateRequest
  exact writeObject_keeps (by assumption)

theorem execClaim_keeps {a v0 v1 v2} (g2 : Keeps a v2) :
    KeepsOut a (Sys2Proof.Machine.execClaim v0 v1 v2) := by
  unfold Sys2Proof.Machine.execClaim
  exact writeObject_keeps (by assumption)

theorem execLeaseHeartbeat_keeps {a v0 v1} (g1 : Keeps a v1) :
    KeepsOut a (Sys2Proof.Machine.execLeaseHeartbeat v0 v1) := by
  unfold Sys2Proof.Machine.execLeaseHeartbeat
  exact writeObject_keeps (by assumption)

theorem execRelease_keeps {a v0 v1} (g1 : Keeps a v1) :
    KeepsOut a (Sys2Proof.Machine.execRelease v0 v1) := by
  unfold Sys2Proof.Machine.execRelease
  exact writeObject_keeps (by assumption)

theorem execSuccessor_keeps {a v0 v1 v2} (g2 : Keeps a v2) :
    KeepsOut a (Sys2Proof.Machine.execSuccessor v0 v1 v2) := by
  unfold Sys2Proof.Machine.execSuccessor
  exact writeObject_keeps (by assumption)

theorem execAccept_keeps {a v0 v1} (g1 : Keeps a v1) :
    KeepsOut a (Sys2Proof.Machine.execAccept v0 v1) := by
  unfold Sys2Proof.Machine.execAccept
  exact writeObject_keeps (by assumption)

theorem execSeize_keeps {a v0 v1} (g1 : Keeps a v1) :
    KeepsOut a (Sys2Proof.Machine.execSeize v0 v1) := by
  unfold Sys2Proof.Machine.execSeize
  exact writeObject_keeps (by assumption)

theorem execResetCommunication_keeps {a v0 v1} (g1 : Keeps a v1) :
    KeepsOut a (Sys2Proof.Machine.execResetCommunication v0 v1) := by
  unfold Sys2Proof.Machine.execResetCommunication
  exact writeObject_keeps (by assumption)

theorem mailboxAccess_keeps {a v0 v1 v2 v3 v4} (g4 : Keeps a v4) :
    Keeps a (Sys2Proof.Machine.mailboxAccess v0 v1 v2 v3 v4) := by
  unfold Sys2Proof.Machine.mailboxAccess
  extract_lets -underBinder -merge -useContext +onlyGivenNames x0
  have h1 : ∀ {y0 y1 y2 y3}, Keeps a y3 → Keeps a (x0 y0 y1 y2 y3) := by
    intro y2 y3 y4 y5 k6
    unfold x0
    exact Keeps.same (by assumption)
  clear_value x0
  extract_lets -underBinder -merge -useContext +onlyGivenNames x7
  have h8 : KeepsSnd a x7 := (dictWrite_keeps (by assumption))
  clear_value x7
  extract_lets -underBinder -merge -useContext +onlyGivenNames x9
  extract_lets -underBinder -merge -useContext +onlyGivenNames x10
  have h11 : Keeps a x10 := (Keeps.ite (h1 (countAccess_keeps (by assumption))) (h1 (countAccess_keeps (by assumption))))
  clear_value x10
  extract_lets -underBinder -merge -useContext +onlyGivenNames x12
  extract_lets -underBinder -merge -useContext +onlyGivenNames x13
  have h14 : Keeps a x13 := (Keeps.freshUp (by assumption))
  clear_value x13
  exact (Keeps.ite (signalVector_keeps (by assumption)) (by assumption))

theorem execMailboxGo_keeps {a v0 v1 v2 v3 v4} (g4 : Keeps a v4) :
    KeepsOut a (Sys2Proof.Machine.execMailboxGo v0 v1 v2 v3 v4) := by
  unfold Sys2Proof.Machine.execMailboxGo
  exact (KeepsOut.next (Keeps.ite (by assumption) (Keeps.ite (addObj_keeps (by assumption)) (mailboxAccess_keeps (resumeService_keeps (by assumption))))))

end Sys2Proof.Laws
end

