-- ==== Sys2Proof/Laws/KeepsCan.lean ====
section
/-! SUPPORT. What the operations of the CAN ports keep. -/

set_option Elab.async false

namespace Sys2Proof.Laws

open Sys2Proof.Machine Sys2Proof.Safety

theorem onPort_keeps {a v0 v1 v2} (g1 : Keeps a v1) (g2 : ∀ {y0}, Keeps a y0 → Keeps a (v2 y0)) :
    KeepsOut a (Sys2Proof.Machine.onPort v0 v1 v2) := by
  unfold Sys2Proof.Machine.onPort
  exact (KeepsOut.ite (KeepsOut.next (g2 (by assumption))) KeepsOut.fault)

theorem countReceived_keeps {a v0 v1} (g1 : Keeps a v1) :
    Keeps a (Sys2Proof.Machine.countReceived v0 v1) := by
  unfold Sys2Proof.Machine.countReceived
  exact addObj_keeps (by assumption)

theorem endSession_keeps {a v0 v1 v2} (g2 : Keeps a v2) :
    Keeps a (Sys2Proof.Machine.endSession v0 v1 v2) := by
  unfold Sys2Proof.Machine.endSession
  exact Keeps.same (by assumption)

theorem putSession_keeps {a v0 v1} (g1 : Keeps a v1) :
    Keeps a (Sys2Proof.Machine.putSession v0 v1) := by
  unfold Sys2Proof.Machine.putSession
  extract_lets -underBinder -merge -useContext +onlyGivenNames x0
  have h1 : Keeps a x0 := (endSession_keeps (by assumption))
  clear_value x0
  exact Keeps.same (by assumption)

theorem abortSession_keeps {a v0 v1 v2 v3} (g3 : Keeps a v3) :
    Keeps a (Sys2Proof.Machine.abortSession v0 v1 v2 v3) := by
  unfold Sys2Proof.Machine.abortSession
  exact (sendUsdo_keeps (endSession_keeps (by assumption)))

theorem answer_keeps {a v0 v1 v2 v3 v4} (g4 : Keeps a v4) :
    Keeps a (Sys2Proof.Machine.answer v0 v1 v2 v3 v4) := by
  unfold Sys2Proof.Machine.answer
  extract_lets -underBinder -merge -useContext +onlyGivenNames x0
  have h1 : Keeps a x0 := (countAccess_keeps (by assumption))
  clear_value x0
  exact (Keeps.ite (sendUsdo_keeps (by assumption)) (abortSession_keeps (by assumption)))

theorem clientWrite_keeps {a v0 v1 v2 v3 v4 v5} (g5 : Keeps a v5) :
    Keeps a (Sys2Proof.Machine.clientWrite v0 v1 v2 v3 v4 v5) := by
  unfold Sys2Proof.Machine.clientWrite
  extract_lets -underBinder -merge -useContext +onlyGivenNames x0
  extract_lets -underBinder -merge -useContext +onlyGivenNames x1
  have h2 : KeepsSnd a x1 := (dictWrite_keeps (by assumption))
  clear_value x1
  exact answer_keeps (by assumption)

theorem nextSegment_keeps {a v0 v1 v2 v3} (g3 : Keeps a v3) :
    Keeps a (Sys2Proof.Machine.nextSegment v0 v1 v2 v3) := by
  unfold Sys2Proof.Machine.nextSegment
  extract_lets -underBinder -merge -useContext +onlyGivenNames x0
  extract_lets -underBinder -merge -useContext +onlyGivenNames x1
  extract_lets -underBinder -merge -useContext +onlyGivenNames x2
  have h3 : Keeps a x2 := (Keeps.ite (endSession_keeps (by assumption)) (putSession_keeps (by assumption)))
  clear_value x2
  exact sendUsdo_keeps (by assumption)

theorem takeSegment_keeps {a v0 v1 v2 v3 v4 v5} (g5 : Keeps a v5) :
    Keeps a (Sys2Proof.Machine.takeSegment v0 v1 v2 v3 v4 v5) := by
  unfold Sys2Proof.Machine.takeSegment
  extract_lets -underBinder -merge -useContext +onlyGivenNames x0
  exact (Keeps.ite (abortSession_keeps (countAccess_keeps (by assumption))) (Keeps.ite (clientWrite_keeps (endSession_keeps (by assumption))) (sendUsdo_keeps (putSession_keeps (by assumption)))))

theorem serveUsdo_keeps {a p c f s} (h : Keeps a s) : Keeps a (serveUsdo p c f s) := by
  unfold serveUsdo
  extract_lets -underBinder -merge -useContext +onlyGivenNames m opening
  have ho : ∀ {g : State → State}, Keeps a (g s) → Keeps a (opening g) := by
    intro g hg
    unfold opening
    exact Keeps.ite hg (abortSession_keeps (countAccess_keeps h))
  clear_value opening
  split
  · exact ho (answer_keeps h)
  · exact ho (clientWrite_keeps h)
  · refine ho ?_
    extract_lets r x
    exact Keeps.ite (nextSegment_keeps (countAccess_keeps h)) (abortSession_keeps (countAccess_keeps h))
  · refine ho ?_
    exact sendCan_keeps (putSession_keeps h)
  · split
    · exact Keeps.ite (abortSession_keeps h) (nextSegment_keeps h)
    · exact abortSession_keeps (countAccess_keeps h)
  · split
    · exact Keeps.ite (takeSegment_keeps h) (abortSession_keeps h)
    · exact abortSession_keeps (countAccess_keeps h)
  · exact endSession_keeps h
  · exact abortSession_keeps (countAccess_keeps h)

theorem execUsdoRequest_keeps {a v0 v1 v2 v3} (g3 : Keeps a v3) :
    KeepsOut a (Sys2Proof.Machine.execUsdoRequest v0 v1 v2 v3) := by
  unfold Sys2Proof.Machine.execUsdoRequest
  refine KeepsOut.ite ?_ KeepsOut.fault
  refine KeepsOut.next ?_
  refine Keeps.ite (by assumption) ?_
  extract_lets -underBinder -merge -useContext +onlyGivenNames x0
  have h1 : Keeps a x0 := (countReceived_keeps (resumeService_keeps (by assumption)))
  clear_value x0
  split
  · exact (abortSession_keeps (countAccess_keeps (by assumption)))
  · rename_i m2 e3
    have h4 := KeepsOpt.of_eq e3 (enterMaster_keeps (by assumption))
    exact serveUsdo_keeps (by assumption)

theorem execUsdoSessionTimeout_keeps {a v0 v1 v2} (g2 : Keeps a v2) :
    KeepsOut a (Sys2Proof.Machine.execUsdoSessionTimeout v0 v1 v2) := by
  unfold Sys2Proof.Machine.execUsdoSessionTimeout
  refine onPort_keeps (by assumption) ?_
  intro y0 k1
  split
  · assumption
  · extract_lets -underBinder -merge -useContext +onlyGivenNames x2
    have h3 : Keeps a x2 := (countAccess_keeps (advanceTo_keeps (by assumption)))
    clear_value x2
    exact (Keeps.ite (abortSession_keeps (by assumption)) (endSession_keeps (by assumption)))

theorem onNmt_keeps {a v0 v1 v2} (g1 : Keeps a v1) (g2 : ∀ {y0}, Keeps a y0 → Keeps a (v2 y0)) :
    KeepsOut a (Sys2Proof.Machine.onNmt v0 v1 v2) := by
  unfold Sys2Proof.Machine.onNmt
  refine onPort_keeps (by assumption) ?_
  intro y0 k1
  exact (Keeps.ite (g2 (countReceived_keeps (by assumption))) (by assumption))

theorem execNmtStart_keeps {a v0 v1} (g1 : Keeps a v1) :
    KeepsOut a (Sys2Proof.Machine.execNmtStart v0 v1) := by
  unfold Sys2Proof.Machine.execNmtStart
  refine onNmt_keeps (by assumption) ?_
  intro y0 k1
  exact setObj_keeps (by assumption)

theorem execNmtStop_keeps {a v0 v1} (g1 : Keeps a v1) :
    KeepsOut a (Sys2Proof.Machine.execNmtStop v0 v1) := by
  unfold Sys2Proof.Machine.execNmtStop
  refine onNmt_keeps (by assumption) ?_
  intro y0 k1
  exact setObj_keeps (by assumption)

theorem execNmtEnterPreoperational_keeps {a v0 v1} (g1 : Keeps a v1) :
    KeepsOut a (Sys2Proof.Machine.execNmtEnterPreoperational v0 v1) := by
  unfold Sys2Proof.Machine.execNmtEnterPreoperational
  refine onNmt_keeps (by assumption) ?_
  intro y0 k1
  exact setObj_keeps (by assumption)

theorem execNmtResetNode_keeps {a v0 v1} (g1 : Keeps a v1) :
    KeepsOut a (Sys2Proof.Machine.execNmtResetNode v0 v1) := by
  unfold Sys2Proof.Machine.execNmtResetNode
  refine onNmt_keeps (by assumption) ?_
  intro y0 k1
  exact resetComm_keeps (by assumption)

theorem execNmtResetCommunication_keeps {a v0 v1} (g1 : Keeps a v1) :
    KeepsOut a (Sys2Proof.Machine.execNmtResetCommunication v0 v1) := by
  unfold Sys2Proof.Machine.execNmtResetCommunication
  refine onNmt_keeps (by assumption) ?_
  intro y0 k1
  exact resetComm_keeps (by assumption)

theorem execHeartbeat_keeps {a v0} (g0 : Keeps a v0) :
    KeepsOut a (Sys2Proof.Machine.execHeartbeat v0) := by
  unfold Sys2Proof.Machine.execHeartbeat
  refine KeepsOut.next ?_
  extract_lets -underBinder -merge -useContext +onlyGivenNames x0
  refine Keeps.ite (by assumption) ?_
  extract_lets -underBinder -merge -useContext +onlyGivenNames x1
  have h2 : Keeps a x1 := (advanceTo_keeps (by assumption))
  clear_value x1
  exact (sendBoth_keeps (Keeps.same (by assumption)))

theorem execEmcyInhibitExpiry_keeps {a v0 v1} (g1 : Keeps a v1) :
    KeepsOut a (Sys2Proof.Machine.execEmcyInhibitExpiry v0 v1) := by
  unfold Sys2Proof.Machine.execEmcyInhibitExpiry
  refine onPort_keeps (by assumption) ?_
  intro y0 k1
  split
  · assumption
  · refine Keeps.ite (by assumption) ?_
    extract_lets -underBinder -merge -useContext +onlyGivenNames x2
    have h3 : Keeps a x2 := (advanceTo_keeps (by assumption))
    clear_value x2
    extract_lets -underBinder -merge -useContext +onlyGivenNames x4
    extract_lets -underBinder -merge -useContext +onlyGivenNames x5
    have h6 : Keeps a x5 := (Keeps.same (by assumption))
    clear_value x5
    extract_lets -underBinder -merge -useContext +onlyGivenNames x7
    have h8 : Keeps a x7 := (emcyOn_keeps (by assumption))
    clear_value x7
    exact Keeps.same (by assumption)

theorem sendTpdo_keeps {a v0 v1} (g1 : Keeps a v1) :
    Keeps a (Sys2Proof.Machine.sendTpdo v0 v1) := by
  unfold Sys2Proof.Machine.sendTpdo
  extract_lets -underBinder -merge -useContext +onlyGivenNames x0
  extract_lets -underBinder -merge -useContext +onlyGivenNames x1
  extract_lets -underBinder -merge -useContext +onlyGivenNames x2
  have h3 : Keeps a x2 := (Keeps.same (by assumption))
  clear_value x2
  exact sendBoth_keeps (by assumption)

theorem triggerTpdo_keeps {a v0 v1} (g1 : Keeps a v1) :
    Keeps a (Sys2Proof.Machine.triggerTpdo v0 v1) := by
  unfold Sys2Proof.Machine.triggerTpdo
  exact (Keeps.ite (by assumption) (Keeps.ite (Keeps.same (by assumption)) (sendTpdo_keeps (by assumption))))

theorem tpdoEdge_keeps {a v0} (g0 : Keeps a v0) :
    Keeps a (Sys2Proof.Machine.tpdoEdge v0) := by
  unfold Sys2Proof.Machine.tpdoEdge
  refine forUpTo_keeps (P := Keeps a) ?_ (by assumption)
  intro y0 y1 k2
  extract_lets -underBinder -merge -useContext +onlyGivenNames x3
  extract_lets -underBinder -merge -useContext +onlyGivenNames x4
  extract_lets -underBinder -merge -useContext +onlyGivenNames x5
  extract_lets -underBinder -merge -useContext +onlyGivenNames x6
  have h7 : Keeps a x6 := (Keeps.same (by assumption))
  clear_value x6
  exact (Keeps.ite (by assumption) (triggerTpdo_keeps (by assumption)))

theorem execTpdoInhibitExpiry_keeps {a v0 v1} (g1 : Keeps a v1) :
    KeepsOut a (Sys2Proof.Machine.execTpdoInhibitExpiry v0 v1) := by
  unfold Sys2Proof.Machine.execTpdoInhibitExpiry
  refine KeepsOut.ite ?_ KeepsOut.fault
  refine KeepsOut.next ?_
  refine Keeps.ite ?_ (by assumption)
  extract_lets -underBinder -merge -useContext +onlyGivenNames x0
  have h1 : Keeps a x0 := (advanceTo_keeps (by assumption))
  clear_value x0
  exact (Keeps.ite (sendTpdo_keeps (by assumption)) (Keeps.same (by assumption)))

theorem execTpdoEventTimer_keeps {a v0 v1} (g1 : Keeps a v1) :
    KeepsOut a (Sys2Proof.Machine.execTpdoEventTimer v0 v1) := by
  unfold Sys2Proof.Machine.execTpdoEventTimer
  refine KeepsOut.ite ?_ KeepsOut.fault
  refine KeepsOut.next ?_
  extract_lets -underBinder -merge -useContext +onlyGivenNames x0
  exact (Keeps.ite (by assumption) (triggerTpdo_keeps (advanceTo_keeps (by assumption))))

theorem followBus_keeps {a v0} (g0 : Keeps a v0) :
    Keeps a (Sys2Proof.Machine.followBus v0) := by
  unfold Sys2Proof.Machine.followBus
  exact followCause_keeps (by assumption)

theorem execBusOff_keeps {a v0 v1} (g1 : Keeps a v1) :
    KeepsOut a (Sys2Proof.Machine.execBusOff v0 v1) := by
  unfold Sys2Proof.Machine.execBusOff
  refine onPort_keeps (by assumption) ?_
  intro y0 k1
  exact (Keeps.ite (by assumption) (followBus_keeps (addObj_keeps (setObj_keeps (by assumption)))))

theorem execBusOffRecovery_keeps {a v0 v1} (g1 : Keeps a v1) :
    KeepsOut a (Sys2Proof.Machine.execBusOffRecovery v0 v1) := by
  unfold Sys2Proof.Machine.execBusOffRecovery
  refine onPort_keeps (by assumption) ?_
  intro y0 k1
  refine Keeps.ite ?_ (by assumption)
  extract_lets -underBinder -merge -useContext +onlyGivenNames x2
  have h3 : Keeps a x2 := (setObj_keeps (setObj_keeps (by assumption)))
  clear_value x2
  exact (followBus_keeps (setObj_keeps (by assumption)))

end Sys2Proof.Laws
end

