-- ==== Sys2Proof/Laws/KeepsEdge.lean ====
section
/-! SUPPORT. What the operations of commits and used edges keep. -/

set_option Elab.async false

namespace Sys2Proof.Laws

open Sys2Proof.Machine Sys2Proof.Safety

theorem markLate_keeps {a v0 v1 v2} (g2 : Keeps a v2) :
    Keeps a (Sys2Proof.Machine.markLate v0 v1 v2) := by
  unfold Sys2Proof.Machine.markLate
  extract_lets -underBinder -merge -useContext +onlyGivenNames x0
  extract_lets -underBinder -merge -useContext +onlyGivenNames x1
  have h2 : Keeps a x1 := (setStep_keeps (by assumption))
  clear_value x1
  extract_lets -underBinder -merge -useContext +onlyGivenNames x3
  extract_lets -underBinder -merge -useContext +onlyGivenNames x4
  have h5 : Keeps a x4 := (setFuture_keeps (by assumption))
  clear_value x4
  exact (raise_keeps (countStep_keeps (addObj_keeps (by assumption))))

theorem carryGang_keeps {a v0 v1} (g1 : Keeps a v1) :
    Keeps a (Sys2Proof.Machine.carryGang v0 v1) := by
  unfold Sys2Proof.Machine.carryGang
  extract_lets -underBinder -merge -useContext +onlyGivenNames x0
  extract_lets -underBinder -merge -useContext +onlyGivenNames x1
  extract_lets -underBinder -merge -useContext +onlyGivenNames x2
  have h7 : Keeps a x2 := by
    unfold x2
    refine giveAbortedAll_keeps ?_ (by assumption)
    intro y3 y4 y5 k6
    exact raise_keeps (by assumption)
  clear_value x2
  extract_lets -underBinder -merge -useContext +onlyGivenNames x8
  refine Keeps.ite (setGang_keeps (by assumption)) ?_
  refine forEach_keeps (P := Keeps a) ?_ (setGang_keeps (by assumption))
  intro y9 y10 k11
  exact markLate_keeps (by assumption)

theorem endServing_keeps {a v0 v1} (g1 : Keeps a v1) :
    Keeps a (Sys2Proof.Machine.endServing v0 v1) := by
  unfold Sys2Proof.Machine.endServing
  extract_lets -underBinder -merge -useContext +onlyGivenNames x0
  extract_lets -underBinder -merge -useContext +onlyGivenNames x1
  have h6 : Keeps a x1 := by
    unfold x1
    refine Keeps.ite ?_ (by assumption)
    refine stopGang_keeps ?_ (by assumption)
    intro y2 y3 y4 k5
    exact raise_keeps (by assumption)
  clear_value x1
  extract_lets -underBinder -merge -useContext +onlyGivenNames x7
  extract_lets -underBinder -merge -useContext +onlyGivenNames x8
  have h13 : Keeps a x8 := by
    unfold x8
    refine giveAbortedAll_keeps ?_ (setGang_keeps (by assumption))
    intro y9 y10 y11 k12
    exact raise_keeps (by assumption)
  clear_value x8
  exact carryGang_keeps (by assumption)

theorem contextHalt_keeps {a v0 v1 v2} (g2 : Keeps a v2) :
    Keeps a (Sys2Proof.Machine.contextHalt v0 v1 v2) := by
  unfold Sys2Proof.Machine.contextHalt
  refine Keeps.ite ?_ (by assumption)
  extract_lets -underBinder -merge -useContext +onlyGivenNames x0
  extract_lets -underBinder -merge -useContext +onlyGivenNames x1
  have h2 : Keeps a x1 := (setStep_keeps (by assumption))
  clear_value x1
  exact (addObj_keeps (setFuture_keeps (by assumption)))

theorem commitFuture_keeps {a v0 v1} (g1 : Keeps a v1) :
    Keeps a (Sys2Proof.Machine.commitFuture v0 v1) := by
  unfold Sys2Proof.Machine.commitFuture
  extract_lets -underBinder -merge -useContext +onlyGivenNames x0
  extract_lets -underBinder -merge -useContext +onlyGivenNames x1
  split
  rename_i m20 m21 e22
  have h23 := KeepsSnd.of_eq e22 (freeWord_keeps (by assumption))
  split
  rename_i m16 m17 e18
  have h19 := KeepsSnd.of_eq e18 (freeWord_keeps (by assumption))
  extract_lets -underBinder -merge -useContext +onlyGivenNames x2
  have h3 : Keeps a x2 := (deviceWrite_keeps (by assumption))
  clear_value x2
  extract_lets -underBinder -merge -useContext +onlyGivenNames x4
  have h5 : Keeps a x4 := by
    unfold x4
    split
    · exact addObj_keeps (by assumption)
    · assumption
  clear_value x4
  extract_lets -underBinder -merge -useContext +onlyGivenNames x6
  have h7 : Keeps a x6 := (Keeps.ite (countStep_keeps (by assumption)) (by assumption))
  clear_value x6
  extract_lets -underBinder -merge -useContext +onlyGivenNames x8
  have h9 : Keeps a x8 := (Keeps.ite (advanceFuture_keeps (by assumption)) (Keeps.ite (by assumption) (dropPending_keeps (by assumption))))
  clear_value x8
  extract_lets -underBinder -merge -useContext +onlyGivenNames x10
  extract_lets -underBinder -merge -useContext +onlyGivenNames x11
  have h12 : Keeps a x11 := (setFuture_keeps (by assumption))
  clear_value x11
  extract_lets -underBinder -merge -useContext +onlyGivenNames x13
  extract_lets -underBinder -merge -useContext +onlyGivenNames x14
  have h15 : Keeps a x14 := (Keeps.ite (by assumption) (setStep_keeps (by assumption)))
  clear_value x14
  exact contextHalt_keeps (by assumption)

theorem commitAll_keeps {a v0} (g0 : Keeps a v0) :
    Keeps a (Sys2Proof.Machine.commitAll v0) := by
  unfold Sys2Proof.Machine.commitAll
  refine forEach_keeps (P := Keeps a) ?_ (by assumption)
  intro y0 y1 k2
  exact commitFuture_keeps (by assumption)

theorem countMirror_keeps {a v0} (g0 : Keeps a v0) :
    Keeps a (Sys2Proof.Machine.countMirror v0) := by
  unfold Sys2Proof.Machine.countMirror
  extract_lets -underBinder -merge -useContext +onlyGivenNames x0
  have h1 : Keeps a x0 := (addObj_keeps (Keeps.freshUp (by assumption)))
  clear_value x0
  exact (Keeps.ite (addObj_keeps (by assumption)) (by assumption))

theorem mirrorRecord_keeps {a v0 v1 v2} (g2 : Keeps a v2) :
    Keeps a (Sys2Proof.Machine.mirrorRecord v0 v1 v2) := by
  unfold Sys2Proof.Machine.mirrorRecord
  exact (Keeps.ite (countMirror_keeps (send_keeps (by assumption))) (by assumption))

theorem writeRecord_keeps {a v0 v1} (g1 : Keeps a v1) :
    Keeps a (Sys2Proof.Machine.writeRecord v0 v1) := by
  unfold Sys2Proof.Machine.writeRecord
  extract_lets -underBinder -merge -useContext +onlyGivenNames x0
  extract_lets -underBinder -merge -useContext +onlyGivenNames x1
  extract_lets -underBinder -merge -useContext +onlyGivenNames x2
  have h3 : Keeps a x2 := (deviceWrite_keeps (by assumption))
  clear_value x2
  extract_lets -underBinder -merge -useContext +onlyGivenNames x4
  extract_lets -underBinder -merge -useContext +onlyGivenNames x5
  have h6 : Keeps a x5 := (setObj_keeps (Keeps.same (by assumption)))
  clear_value x5
  extract_lets -underBinder -merge -useContext +onlyGivenNames x7
  have h8 : Keeps a x7 := (mirrorRecord_keeps (by assumption))
  clear_value x7
  exact (Keeps.ite (signalVector_keeps (by assumption)) (by assumption))

theorem deferRepairs_keeps {a v0} (g0 : Keeps a v0) :
    Keeps a (Sys2Proof.Machine.deferRepairs v0) := by
  unfold Sys2Proof.Machine.deferRepairs
  exact (Keeps.ite (addObj_keeps (by assumption)) (by assumption))

theorem execServingEnd_keeps {a v0} (g0 : Keeps a v0) :
    KeepsOut a (Sys2Proof.Machine.execServingEnd v0) := by
  unfold Sys2Proof.Machine.execServingEnd
  refine KeepsOut.next ?_
  refine Keeps.ite (by assumption) ?_
  extract_lets -underBinder -merge -useContext +onlyGivenNames x0
  have h1 : Keeps a x0 := (advanceTo_keeps (by assumption))
  clear_value x0
  extract_lets -underBinder -merge -useContext +onlyGivenNames x2
  have h6 : Keeps a x2 := by
    unfold x2
    refine forEach_keeps (P := Keeps a) ?_ (by assumption)
    intro y3 y4 k5
    exact endServing_keeps (by assumption)
  clear_value x2
  extract_lets -underBinder -merge -useContext +onlyGivenNames x7
  extract_lets -underBinder -merge -useContext +onlyGivenNames x8
  extract_lets -underBinder -merge -useContext +onlyGivenNames x9
  have h10 : Keeps a x9 := (commitAll_keeps (Keeps.same (by assumption)))
  clear_value x9
  extract_lets -underBinder -merge -useContext +onlyGivenNames x11
  have h12 : Keeps a x11 := (deferRepairs_keeps (advanceTo_keeps (by assumption)))
  clear_value x11
  exact (triggerTpdo_keeps (writeRecord_keeps (by assumption)))

theorem captureBasin_keeps {a v0 v1} (g1 : Keeps a v1) :
    Keeps a (Sys2Proof.Machine.captureBasin v0 v1) := by
  unfold Sys2Proof.Machine.captureBasin
  exact (Keeps.ite (setObj_keeps (setObj_keeps (setObj_keeps (by assumption)))) (setObj_keeps (setObj_keeps (setObj_keeps (by assumption)))))

theorem settleWaits_keeps {a v0} (g0 : Keeps a v0) :
    Keeps a (Sys2Proof.Machine.settleWaits v0) := by
  unfold Sys2Proof.Machine.settleWaits
  extract_lets -underBinder -merge -useContext +onlyGivenNames x0
  have h4 : Keeps a x0 := by
    unfold x0
    refine countWait_keeps ?_
    refine forEach_keeps (P := Keeps a) ?_ (by assumption)
    intro y1 y2 k3
    exact countWait_keeps (by assumption)
  clear_value x0
  extract_lets -underBinder -merge -useContext +onlyGivenNames x5
  have h12 : Keeps a x5 := by
    unfold x5
    refine forEach_keeps (P := Keeps a) ?_ ?_
    · intro y6 y7 k8
      exact addObj_keeps (by assumption)
    · refine forEach_keeps (P := Keeps a) ?_ (by assumption)
      intro y9 y10 k11
      exact countPark_keeps (by assumption)
  clear_value x5
  exact Keeps.same (by assumption)

theorem settleEdge_keeps {a v0} (g0 : Keeps a v0) :
    Keeps a (Sys2Proof.Machine.settleEdge v0) := by
  unfold Sys2Proof.Machine.settleEdge
  extract_lets -underBinder -merge -useContext +onlyGivenNames x0
  have h4 : Keeps a x0 := by
    unfold x0
    refine forEach_keeps (P := Keeps a) ?_ (settleWaits_keeps (by assumption))
    intro y1 y2 k3
    exact (chargeSection_keeps (settlePond_keeps (by assumption)))
  clear_value x0
  extract_lets -underBinder -merge -useContext +onlyGivenNames x5
  have h9 : Keeps a x5 := by
    unfold x5
    refine forEach_keeps (P := Keeps a) ?_ (by assumption)
    intro y6 y7 k8
    exact chargeTask_keeps (by assumption)
  clear_value x5
  refine moversAtEdge_keeps ?_
  refine forEach_keeps (P := Keeps a) ?_ (by assumption)
  intro y10 y11 k12
  exact countDispatchWait_keeps (by assumption)

theorem captureCounters_keeps {a v0} (g0 : Keeps a v0) :
    Keeps a (Sys2Proof.Machine.captureCounters v0) := by
  unfold Sys2Proof.Machine.captureCounters
  extract_lets -underBinder -merge -useContext +onlyGivenNames x0
  have h4 : Keeps a x0 := by
    unfold x0
    refine forUpTo_keeps (P := Keeps a) ?_ (by assumption)
    intro y1 y2 k3
    exact captureBasin_keeps (by assumption)
  clear_value x0
  extract_lets -underBinder -merge -useContext +onlyGivenNames x5
  exact Keeps.same (by assumption)

theorem setPhases_keeps {a v0 v1 v2} (g2 : Keeps a v2) :
    Keeps a (Sys2Proof.Machine.setPhases v0 v1 v2) := by
  unfold Sys2Proof.Machine.setPhases
  extract_lets -underBinder -merge -useContext +onlyGivenNames x0
  exact (setObj_keeps (setObj_keeps (setObj_keeps (by assumption))))

theorem applyParameters_keeps {a s} (h : Keeps a s) : Keeps a (applyParameters s) := by
  unfold applyParameters
  extract_lets -underBinder -merge -useContext +onlyGivenNames t ti u us
  have ht : Keeps a t := Keeps.ite (setObj_keeps h) h
  clear_value t
  have hu : Keeps a u :=
    (ht.tables (t := { t with inForce := t.dict }) fun c => { c with inForce := c.dict }).same
  clear_value u
  exact setPhases_keeps hu

theorem updateDerate_keeps {a v0} (g0 : Keeps a v0) :
    Keeps a (Sys2Proof.Machine.updateDerate v0) := by
  unfold Sys2Proof.Machine.updateDerate
  exact setObj_keeps (by assumption)

theorem enterRegime_keeps {a v0 v1} (g1 : Keeps a v1) :
    Keeps a (Sys2Proof.Machine.enterRegime v0 v1) := by
  unfold Sys2Proof.Machine.enterRegime
  extract_lets -underBinder -merge -useContext +onlyGivenNames x0
  have h1 : Keeps a x0 := (setObj_keeps (by assumption))
  clear_value x0
  extract_lets -underBinder -merge -useContext +onlyGivenNames x2
  extract_lets -underBinder -merge -useContext +onlyGivenNames x3
  have h4 : Keeps a x3 := (Keeps.same (by assumption))
  clear_value x3
  refine Keeps.ite ?_ (by assumption)
  refine forUpTo_keeps (P := Keeps a) ?_ (by assumption)
  intro y5 y6 k7
  exact (Keeps.ite (startTimer_keeps (by assumption)) (by assumption))

theorem changeRegime_keeps {a v0} (g0 : Keeps a v0) :
    Keeps a (Sys2Proof.Machine.changeRegime v0) := by
  unfold Sys2Proof.Machine.changeRegime
  extract_lets -underBinder -merge -useContext +onlyGivenNames x0
  exact (Keeps.ite (by assumption) (enterRegime_keeps (by assumption)))

theorem stopAllTasks_keeps {a v0} (g0 : Keeps a v0) :
    Keeps a (Sys2Proof.Machine.stopAllTasks v0) := by
  unfold Sys2Proof.Machine.stopAllTasks
  refine forEach_keeps (P := Keeps a) ?_ (by assumption)
  intro y0 y1 k2
  exact requestStop_keeps (by assumption)

theorem beginEntry_keeps {a v0} (g0 : Keeps a v0) :
    Keeps a (Sys2Proof.Machine.beginEntry v0) := by
  unfold Sys2Proof.Machine.beginEntry
  split
  · assumption
  · refine Keeps.ite (by assumption) ?_
    refine Keeps.ite (setObj_keeps (by assumption)) ?_
    refine Keeps.ite ?_ ?_
    · extract_lets -underBinder -merge -useContext +onlyGivenNames x0
      extract_lets -underBinder -merge -useContext +onlyGivenNames x1
      have h2 : Keeps a x1 := (Keeps.same (by assumption))
      clear_value x1
      exact (setObj_keeps (addObj_keeps (setObj_keeps (by assumption))))
    · extract_lets -underBinder -merge -useContext +onlyGivenNames x3
      extract_lets -underBinder -merge -useContext +onlyGivenNames x4
      have h5 : Keeps a x4 := (Keeps.same (by assumption))
      clear_value x4
      exact (stopAllTasks_keeps (setObj_keeps (setObj_keeps (by assumption))))

theorem handover_keeps {a v0} (g0 : Keeps a v0) :
    Keeps a (Sys2Proof.Machine.handover v0) := by
  unfold Sys2Proof.Machine.handover
  refine Keeps.ite ?_ (by assumption)
  refine pauseService_keeps ?_
  extract_lets -underBinder -merge -useContext +onlyGivenNames x0
  have h1 : Keeps a x0 := (setObj_keeps (by assumption))
  clear_value x0
  exact Keeps.same (by assumption)

theorem clearPeers_keeps {a v0} (g0 : Keeps a v0) :
    Keeps a (Sys2Proof.Machine.clearPeers v0) := by
  unfold Sys2Proof.Machine.clearPeers
  extract_lets -underBinder -merge -useContext +onlyGivenNames x0
  refine forEach_keeps (P := Keeps a) ?_ (by assumption)
  intro y1 y2 k3
  exact (Keeps.ite (zeroPeers_keeps (by assumption)) (by assumption))

theorem releaseGates_keeps {a v0} (g0 : Keeps a v0) :
    Keeps a (Sys2Proof.Machine.releaseGates v0) := by
  unfold Sys2Proof.Machine.releaseGates
  refine forEach_keeps (P := Keeps a) ?_ (by assumption)
  intro y0 y1 k2
  exact (Keeps.ite (modPond_keeps (by assumption)) (by assumption))

theorem edgeWork_keeps {a v0} (g0 : Keeps a v0) :
    Keeps a (Sys2Proof.Machine.edgeWork v0) := by
  unfold Sys2Proof.Machine.edgeWork
  extract_lets -underBinder -merge -useContext +onlyGivenNames x0
  have h1 : Keeps a x0 := (switchSpares_keeps (by assumption))
  clear_value x0
  extract_lets -underBinder -merge -useContext +onlyGivenNames x2
  have h3 : Keeps a x2 := (basinCommit_keeps (by assumption))
  clear_value x2
  extract_lets -underBinder -merge -useContext +onlyGivenNames x4
  have h5 : Keeps a x4 := (rewriteSlots_keeps (bankClear_keeps (bankSwitch_keeps (by assumption))))
  clear_value x4
  extract_lets -underBinder -merge -useContext +onlyGivenNames x6
  have h10 : Keeps a x6 := by
    unfold x6
    refine checkWatermarks_keeps ?_
    refine forUpTo_keeps (P := Keeps a) ?_ (returnPages_keeps (by assumption))
    intro y7 y8 k9
    exact settlePool_keeps (by assumption)
  clear_value x6
  extract_lets -underBinder -merge -useContext +onlyGivenNames x11
  have h12 : Keeps a x11 := (stopServingTasks_keeps (by assumption))
  clear_value x11
  extract_lets -underBinder -merge -useContext +onlyGivenNames x13
  have h14 : Keeps a x13 := (fabricCommit_keeps (numericsEdge_keeps (by assumption)))
  clear_value x13
  extract_lets -underBinder -merge -useContext +onlyGivenNames x15
  have h16 : Keeps a x15 := (updateHolds_keeps (applyTaskRequest_keeps (by assumption)))
  clear_value x15
  extract_lets -underBinder -merge -useContext +onlyGivenNames x17
  have h18 : Keeps a x17 := (changeRegime_keeps (updateDerate_keeps (by assumption)))
  clear_value x17
  extract_lets -underBinder -merge -useContext +onlyGivenNames x19
  have h20 : Keeps a x19 := (handover_keeps (beginEntry_keeps (by assumption)))
  clear_value x19
  exact (clearPeers_keeps (retryEvacuation_keeps (by assumption)))

theorem pulseTickOut_keeps {a v0} (g0 : Keeps a v0) :
    Keeps a (Sys2Proof.Machine.pulseTickOut v0) := by
  unfold Sys2Proof.Machine.pulseTickOut
  refine Keeps.ite (by assumption) ?_
  split
  rename_i m1 m2 e3
  have h4 := KeepsSnd.of_eq e3 (freeWord_keeps (by assumption))
  extract_lets -underBinder -merge -useContext +onlyGivenNames x0
  exact (send_keeps (Keeps.same (by assumption)))

theorem usedEdge_keeps {a t f s} (hf : ∀ {y}, Keeps a y → Keeps a (f y)) (h : Keeps a s) :
    Keeps a (usedEdge t f s) := by
  unfold usedEdge
  extract_lets -underBinder -merge -useContext +onlyGivenNames t1 t2 t3 ti we t4 t5
  have h1 : Keeps a t1 := settleEdge_keeps (advanceTo_keeps h)
  clear_value t1
  have h2 : Keeps a t2 := by
    unfold t2
    split
    · exact Keeps.ite (resumeService_keeps h1) h1
    · exact h1
  clear_value t2
  have h3 : Keeps a t3 := setObj_keeps h2
  clear_value t3
  have h4 : Keeps a t4 :=
    (h3.tables (t := { t3 with gangs := mapGangs clearGang t3.gangs })
      fun c => { c with gangs := mapGangs_sorted _ _ c.gangs }).same
  clear_value t4
  have h5 : Keeps a t5 := applyParameters_keeps (hf h4)
  exact tpdoEdge_keeps (captureCounters_keeps (edgeWork_keeps (releaseGates_keeps (pulseTickOut_keeps h5))))

theorem execInternalGeneratorEdge_keeps {a v0} (g0 : Keeps a v0) :
    KeepsOut a (Sys2Proof.Machine.execInternalGeneratorEdge v0) := by
  unfold Sys2Proof.Machine.execInternalGeneratorEdge
  refine KeepsOut.next ?_
  refine Keeps.ite ?_ (by assumption)
  refine usedEdge_keeps ?_ (by assumption)
  intro y0 k1
  assumption

theorem noteSwitch_keeps {a v0} (g0 : Keeps a v0) :
    Keeps a (Sys2Proof.Machine.noteSwitch v0) := by
  unfold Sys2Proof.Machine.noteSwitch
  exact (setObj_keeps (addObj_keeps (by assumption)))

theorem adoptTickIn_keeps {a v0} (g0 : Keeps a v0) :
    Keeps a (Sys2Proof.Machine.adoptTickIn v0) := by
  unfold Sys2Proof.Machine.adoptTickIn
  extract_lets -underBinder -merge -useContext +onlyGivenNames x0
  have h1 : Keeps a x0 := (setObj_keeps (setObj_keeps (setObj_keeps (by assumption))))
  clear_value x0
  exact (followCause_keeps (noteSwitch_keeps (Keeps.same (by assumption))))

theorem execTickInEdge_keeps {a t r s} (h : Keeps a s) : KeepsOut a (execTickInEdge t r s) := by
  unfold execTickInEdge
  refine KeepsOut.next ?_
  extract_lets mine t1
  refine Keeps.ite h ?_
  have h1 : Keeps a t1 := advanceTo_keeps h
  clear_value t1
  refine Keeps.ite (addObj_keeps h1) ?_
  split
  rename_i v t2 heq
  have h2 : Keeps a t2 := KeepsSnd.of_eq heq (freeWord_keeps h1)
  refine usedEdge_keeps ?_ h2
  intro y hy
  split
  · exact adoptTickIn_keeps hy
  · exact hy

theorem takeOver_keeps {a v0} (g0 : Keeps a v0) :
    Keeps a (Sys2Proof.Machine.takeOver v0) := by
  unfold Sys2Proof.Machine.takeOver
  exact (raiseCause_keeps (noteSwitch_keeps (setObj_keeps (Keeps.same (by assumption)))))

theorem execTickSourceTakeover_keeps {a v0} (g0 : Keeps a v0) :
    KeepsOut a (Sys2Proof.Machine.execTickSourceTakeover v0) := by
  unfold Sys2Proof.Machine.execTickSourceTakeover
  refine KeepsOut.next ?_
  refine Keeps.ite ?_ (by assumption)
  refine usedEdge_keeps ?_ (by assumption)
  intro y0 k1
  exact takeOver_keeps (by assumption)

theorem execReadoptFallback_keeps {a v0} (g0 : Keeps a v0) :
    KeepsOut a (Sys2Proof.Machine.execReadoptFallback v0) := by
  unfold Sys2Proof.Machine.execReadoptFallback
  refine KeepsOut.next ?_
  refine Keeps.ite ?_ (by assumption)
  refine usedEdge_keeps ?_ (by assumption)
  intro y0 k1
  exact (setObj_keeps (setObj_keeps (by assumption)))

theorem beginStagger_keeps {a v0} (g0 : Keeps a v0) :
    Keeps a (Sys2Proof.Machine.beginStagger v0) := by
  unfold Sys2Proof.Machine.beginStagger
  refine Keeps.ite (by assumption) ?_
  extract_lets -underBinder -merge -useContext +onlyGivenNames x0
  extract_lets -underBinder -merge -useContext +onlyGivenNames x1
  have h2 : Keeps a x1 := (advanceTo_keeps (Keeps.same (by assumption)))
  clear_value x1
  refine forEach_keeps (P := Keeps a) ?_ (by assumption)
  intro y3 y4 k5
  exact (Keeps.ite (modPond_keeps (by assumption)) (by assumption))

theorem execArrayStartStaggerRelease_keeps {a v0 v1} (g1 : Keeps a v1) :
    KeepsOut a (Sys2Proof.Machine.execArrayStartStaggerRelease v0 v1) := by
  unfold Sys2Proof.Machine.execArrayStartStaggerRelease
  refine onPond_keeps (by assumption) ?_
  intro y0
  refine Keeps.ite (by assumption) ?_
  extract_lets -underBinder -merge -useContext +onlyGivenNames x1
  have h2 : Keeps a x1 := (advanceTo_keeps (beginStagger_keeps (by assumption)))
  clear_value x1
  exact modPond_keeps (by assumption)

end Sys2Proof.Laws
end

