-- ==== Sys2Proof/Laws/KeepsIntake.lean ====
section
/-! SUPPORT. What the operations of intake and boxes keep. -/

set_option Elab.async false

namespace Sys2Proof.Laws

open Sys2Proof.Machine Sys2Proof.Safety

theorem setUses_keeps {a v0 v1} (g0 : Keeps a v0) :
    Keeps a (Sys2Proof.Machine.setUses v0 v1) := by
  unfold Sys2Proof.Machine.setUses
  exact Keeps.same (by assumption)

theorem noteUnitWait_keeps {a v0 v1 v2} (g2 : Keeps a v2) :
    Keeps a (Sys2Proof.Machine.noteUnitWait v0 v1 v2) := by
  unfold Sys2Proof.Machine.noteUnitWait
  exact modPond_keeps (by assumption)

theorem endUnitWait_keeps {a v0 v1 v2} (g2 : Keeps a v2) :
    Keeps a (Sys2Proof.Machine.endUnitWait v0 v1 v2) := by
  unfold Sys2Proof.Machine.endUnitWait
  split
  · assumption
  · exact (modPond_keeps (countWait_keeps (by assumption)))

theorem execChipUnitDispatch_keeps {a v0 v1} (g1 : Keeps a v1) :
    KeepsOut a (Sys2Proof.Machine.execChipUnitDispatch v0 v1) := by
  unfold Sys2Proof.Machine.execChipUnitDispatch
  refine KeepsOut.ite ?_ KeepsOut.fault
  extract_lets -underBinder -merge -useContext +onlyGivenNames x0
  refine KeepsOut.next ?_
  split
  · extract_lets -underBinder -merge -useContext +onlyGivenNames x1
    exact (setUses_keeps (endUnitWait_keeps (by assumption)))
  · refine forEach_keeps (P := Keeps a) ?_ (by assumption)
    intro y2 y3 k4
    exact noteUnitWait_keeps (by assumption)
  · assumption

theorem settleUse_keeps {a v0 v1 v2 v3} (_ : Keeps a v2) (g3 : Keeps a v3) :
    Keeps a (Sys2Proof.Machine.settleUse v0 v1 v2 v3) := by
  unfold Sys2Proof.Machine.settleUse
  extract_lets -underBinder -merge -useContext +onlyGivenNames x0
  extract_lets -underBinder -merge -useContext +onlyGivenNames x1
  exact (Keeps.ite (setUses_keeps (by assumption)) (Keeps.ite (setUses_keeps (by assumption)) (by assumption)))

theorem onUnitHead_keeps {a v0 v1 v2 v3 v4 v5 v6} (g4 : Keeps a v4) (g6 : ∀ {y0 y1 y2}, Keeps a y2 → KeepsSt a (v6 y0 y1 y2)) :
    KeepsOut a (Sys2Proof.Machine.onUnitHead v0 v1 v2 v3 v4 v5 v6) := by
  unfold Sys2Proof.Machine.onUnitHead
  split
  · rename_i m0 e1
    have h2 := KeepsOut.of_eq e1 (by
      refine onHead_keeps (by assumption) ?_
      intro y3 y4 y5 k6
      exact g6 (by assumption)
      )
    exact (KeepsOut.next (Keeps.ite (by assumption) (settleUse_keeps (by assumption) (by assumption))))
  · refine onHead_keeps (by assumption) ?_
    intro y7 y8 y9 k10
    exact g6 (by assumption)

theorem noteReport_keeps {a v0 v1 v2 v3 v4} (g4 : Keeps a v4) :
    Keeps a (Sys2Proof.Machine.noteReport v0 v1 v2 v3 v4) := by
  unfold Sys2Proof.Machine.noteReport
  exact setUses_keeps (by assumption)

theorem setCtx_keeps {a v0 v1 v2} (g0 : Keeps a v0) :
    Keeps a (Sys2Proof.Machine.setCtx v0 v1 v2) := by
  unfold Sys2Proof.Machine.setCtx
  exact Keeps.same (by assumption)

theorem execIctx_keeps {a v0 v1} (g1 : Keeps a v1) :
    KeepsOut a (Sys2Proof.Machine.execIctx v0 v1) := by
  unfold Sys2Proof.Machine.execIctx
  refine onUnitHead_keeps (by assumption) ?_
  intro y0 y1 y2 k3
  extract_lets -underBinder -merge -useContext +onlyGivenNames x4
  exact (ran_keeps (setCtx_keeps (by assumption)))

theorem writeBlock_keeps {a v0 v1 v2 v3 v4 v5 v6 v7} (g7 : KeepsFst a v7) :
    KeepsFst a (Sys2Proof.Machine.writeBlock v0 v1 v2 v3 v4 v5 v6 v7) := by
  unfold Sys2Proof.Machine.writeBlock
  extract_lets -underBinder -merge -useContext +onlyGivenNames x0
  have h1 : Keeps a x0 := (by assumption)
  clear_value x0
  extract_lets -underBinder -merge -useContext +onlyGivenNames x2
  extract_lets -underBinder -merge -useContext +onlyGivenNames x3
  split
  extract_lets -underBinder -merge -useContext +onlyGivenNames x4
  have h5 : Keeps a x4 := (deviceAgentWrite_keeps (by assumption))
  clear_value x4
  extract_lets -underBinder -merge -useContext +onlyGivenNames x6
  have h7 : Keeps a x6 := (Keeps.ite (deviceAgentWrite_keeps (by assumption)) (by assumption))
  clear_value x6
  extract_lets -underBinder -merge -useContext +onlyGivenNames x8
  have h9 : Keeps a x8 := (noteConverted_keeps (noteEncoded_keeps (by assumption)))
  clear_value x8
  exact KeepsFst.mk (by assumption)

theorem writePlain_keeps {a v0 v1 v2 v3 v4 v5} (g5 : KeepsFst a v5) :
    KeepsFst a (Sys2Proof.Machine.writePlain v0 v1 v2 v3 v4 v5) := by
  unfold Sys2Proof.Machine.writePlain
  refine foldl_keeps (P := KeepsFst a) ?_ (by assumption)
  intro y0 y1 k2
  refine foldl_keeps (P := KeepsFst a) ?_ (by assumption)
  intro y3 y4 k5
  exact writeBlock_keeps (by assumption)

theorem writeSegments_keeps {a v0 v1 v2 v3 v4 v5} (g5 : KeepsFst a v5) :
    KeepsFst a (Sys2Proof.Machine.writeSegments v0 v1 v2 v3 v4 v5) := by
  unfold Sys2Proof.Machine.writeSegments
  extract_lets -underBinder -merge -useContext +onlyGivenNames x0
  refine foldl_keeps (P := KeepsFst a) ?_ (by assumption)
  intro y1 y2 k3
  refine foldl_keeps (P := KeepsFst a) ?_ (by assumption)
  intro y4 y5 k6
  extract_lets -underBinder -merge -useContext +onlyGivenNames x7
  refine foldl_keeps (P := KeepsFst a) ?_ (by assumption)
  intro y8 y9 k10
  refine foldl_keeps (P := KeepsFst a) ?_ (by assumption)
  intro y11 y12 k13
  extract_lets -underBinder -merge -useContext +onlyGivenNames x14
  extract_lets -underBinder -merge -useContext +onlyGivenNames x15
  exact writeBlock_keeps (by assumption)

theorem writePicture_keeps {a v0 v1 v2 v3 v4 v5} (g5 : Keeps a v5) :
    KeepsFst a (Sys2Proof.Machine.writePicture v0 v1 v2 v3 v4 v5) := by
  unfold Sys2Proof.Machine.writePicture
  extract_lets -underBinder -merge -useContext +onlyGivenNames x0
  refine KeepsFst.ite (KeepsFst.mk (addObj_keeps (by assumption))) ?_
  extract_lets -underBinder -merge -useContext +onlyGivenNames x1
  have h2 : Keeps a x1 := (countBytes_keeps (by assumption))
  clear_value x1
  exact (KeepsFst.ite (writeSegments_keeps (KeepsFst.mk (by assumption))) (writePlain_keeps (KeepsFst.mk (by assumption))))

theorem streamError_keeps {a v0 v1} (g1 : Keeps a v1) :
    Keeps a (Sys2Proof.Machine.streamError v0 v1) := by
  unfold Sys2Proof.Machine.streamError
  exact (raise_keeps (setCtx_keeps (addObj_keeps (by assumption))))

theorem releasePicture_keeps {a v0 v1 v2 v3 v4 v5 v6} (g6 : Keeps a v6) :
    KeepsFst a (Sys2Proof.Machine.releasePicture v0 v1 v2 v3 v4 v5 v6) := by
  unfold Sys2Proof.Machine.releasePicture
  split
  rename_i m2 m3 e4
  have h5 := KeepsFst.of_eq e4 (writePicture_keeps (by assumption))
  extract_lets -underBinder -merge -useContext +onlyGivenNames x0
  have h1 : Keeps a x0 := (addObj_keeps (by assumption))
  clear_value x0
  exact (KeepsFst.mk (Keeps.ite (addObj_keeps (by assumption)) (by assumption)))

theorem runDecode_keeps {a v0 v1 v2 v3} (g3 : Keeps a v3) :
    KeepsSt a (Sys2Proof.Machine.runDecode v0 v1 v2 v3) := by
  unfold Sys2Proof.Machine.runDecode
  extract_lets -underBinder -merge -useContext +onlyGivenNames x0
  extract_lets -underBinder -merge -useContext +onlyGivenNames x1
  extract_lets -underBinder -merge -useContext +onlyGivenNames x2
  extract_lets -underBinder -merge -useContext +onlyGivenNames x3
  extract_lets -underBinder -merge -useContext +onlyGivenNames x4
  refine KeepsSt.ite (ended_keeps (raise_keeps (by assumption))) ?_
  refine KeepsSt.ite (ended_keeps (unmappedAccess_keeps (by assumption))) ?_
  refine KeepsSt.ite (ended_keeps (by assumption)) ?_
  extract_lets -underBinder -merge -useContext +onlyGivenNames x5
  extract_lets -underBinder -merge -useContext +onlyGivenNames x6
  extract_lets -underBinder -merge -useContext +onlyGivenNames x7
  extract_lets -underBinder -merge -useContext +onlyGivenNames x8
  extract_lets -underBinder -merge -useContext +onlyGivenNames x9
  have h10 : Keeps a x9 := (by assumption)
  clear_value x9
  extract_lets -underBinder -merge -useContext +onlyGivenNames x11
  have h12 : Keeps a x11 := (countBytes_keeps (Keeps.freshUp g3))
  clear_value x11
  extract_lets -underBinder -merge -useContext +onlyGivenNames x13
  have h14 : ∀ {y0 y1 y2 y3 y4 y5 y6}, Keeps a y6 → KeepsSt a (x13 y0 y1 y2 y3 y4 y5 y6) := by
    intro y15 y16 y17 y18 y19 y20 y21 k22
    unfold x13
    exact (ran_keeps (noteReport_keeps (deviceWrite_keeps (by assumption))))
  clear_value x13
  refine KeepsSt.ite (h14 (addObj_keeps (by assumption))) ?_
  refine KeepsSt.ite (h14 (streamError_keeps (by assumption))) ?_
  extract_lets -underBinder -merge -useContext +onlyGivenNames x23
  split
  · exact (h14 (setCtx_keeps (by assumption)))
  · extract_lets -underBinder -merge -useContext +onlyGivenNames x24
    extract_lets -underBinder -merge -useContext +onlyGivenNames x25
    extract_lets -underBinder -merge -useContext +onlyGivenNames x26
    have h27 : KeepsFst a x26 := (releasePicture_keeps (setCtx_keeps (by assumption)))
    clear_value x26
    exact h14 (by assumption)

theorem decodeRow_keeps {a v0 v1 v2} (g2 : Keeps a v2) :
    KeepsOut a (Sys2Proof.Machine.decodeRow v0 v1 v2) := by
  unfold Sys2Proof.Machine.decodeRow
  split
  · rename_i m0 e1
    have h2 := KeepsOut.of_eq e1 (by
      refine onHead_keeps (by assumption) ?_
      intro y3 y4 y5 k6
      exact runDecode_keeps (by assumption)
      )
    exact (KeepsOut.next (Keeps.ite (by assumption) (settleUse_keeps (by assumption) (by assumption))))
  · refine onHead_keeps (by assumption) ?_
    intro y7 y8 y9 k10
    exact runDecode_keeps (by assumption)

theorem execDecode_keeps {a v0 v1} (g1 : Keeps a v1) :
    KeepsOut a (Sys2Proof.Machine.execDecode v0 v1) := by
  unfold Sys2Proof.Machine.execDecode
  exact decodeRow_keeps (by assumption)

theorem execFlush_keeps {a v0 v1} (g1 : Keeps a v1) :
    KeepsOut a (Sys2Proof.Machine.execFlush v0 v1) := by
  unfold Sys2Proof.Machine.execFlush
  exact decodeRow_keeps (by assumption)

theorem runBoxsel_keeps {a v0 v1 v2} (g2 : Keeps a v2) :
    KeepsSt a (Sys2Proof.Machine.runBoxsel v0 v1 v2) := by
  unfold Sys2Proof.Machine.runBoxsel
  extract_lets -underBinder -merge -useContext +onlyGivenNames x0
  refine KeepsSt.ite (ended_keeps (by assumption)) ?_
  extract_lets -underBinder -merge -useContext +onlyGivenNames x1
  extract_lets -underBinder -merge -useContext +onlyGivenNames x2
  extract_lets -underBinder -merge -useContext +onlyGivenNames x3
  extract_lets -underBinder -merge -useContext +onlyGivenNames x4
  extract_lets -underBinder -merge -useContext +onlyGivenNames x5
  extract_lets -underBinder -merge -useContext +onlyGivenNames x6
  extract_lets -underBinder -merge -useContext +onlyGivenNames x7
  extract_lets -underBinder -merge -useContext +onlyGivenNames x8
  extract_lets -underBinder -merge -useContext +onlyGivenNames x9
  extract_lets -underBinder -merge -useContext +onlyGivenNames x10
  extract_lets -underBinder -merge -useContext +onlyGivenNames x11
  have h12 : Keeps a x11 := (countBytes_keeps (by assumption))
  clear_value x11
  extract_lets -underBinder -merge -useContext +onlyGivenNames x13
  have h14 : Keeps a x13 := (addObj_keeps (addObj_keeps (addObj_keeps (by assumption))))
  clear_value x13
  extract_lets -underBinder -merge -useContext +onlyGivenNames x15
  have h16 : Keeps a x15 := (addObj_keeps (Keeps.ite (addObj_keeps (by assumption)) (by assumption)))
  clear_value x15
  extract_lets -underBinder -merge -useContext +onlyGivenNames x17
  have h18 : Keeps a x17 := (Keeps.ite (addObj_keeps (by assumption)) (deviceAgentWrite_keeps (countBytes_keeps (by assumption))))
  clear_value x17
  exact (ran_keeps (noteReport_keeps (by assumption)))

theorem execBoxsel_keeps {a v0 v1} (g1 : Keeps a v1) :
    KeepsOut a (Sys2Proof.Machine.execBoxsel v0 v1) := by
  unfold Sys2Proof.Machine.execBoxsel
  split
  · rename_i m0 e1
    have h2 := KeepsOut.of_eq e1 (by
      refine onHead_keeps (by assumption) ?_
      intro y3 y4 y5 k6
      exact runBoxsel_keeps (by assumption)
      )
    exact (KeepsOut.next (Keeps.ite (by assumption) (settleUse_keeps (by assumption) (by assumption))))
  · refine onHead_keeps (by assumption) ?_
    intro y7 y8 y9 k10
    exact runBoxsel_keeps (by assumption)

end Sys2Proof.Laws
end

