-- ==== Sys2Proof/Laws/KeepsBoot.lean ====
section
/-! SUPPORT. What the operations of boot and completions keep. -/

set_option Elab.async false

namespace Sys2Proof.Laws

open Sys2Proof.Machine Sys2Proof.Safety

theorem advanceWithin_keeps {a v0 v1} (g1 : Keeps a v1) :
    Keeps a (Sys2Proof.Machine.advanceWithin v0 v1) := by
  unfold Sys2Proof.Machine.advanceWithin
  refine Keeps.ite (by assumption) ?_
  split
  rename_i m0 m1 e2
  have h3 := KeepsSnd.of_eq e2 (freeWord_keeps (by assumption))
  exact advanceTo_keeps (by assumption)

theorem writeSlot_keeps {a v0 v1 v2} (g2 : Keeps a v2) :
    Keeps a (Sys2Proof.Machine.writeSlot v0 v1 v2) := by
  unfold Sys2Proof.Machine.writeSlot
  exact Keeps.same (by assumption)

theorem enterStage_keeps {a v0 v1} (g1 : Keeps a v1) :
    Keeps a (Sys2Proof.Machine.enterStage v0 v1) := by
  unfold Sys2Proof.Machine.enterStage
  exact setObj_keeps (by assumption)

theorem noteFailure_keeps {a v0 v1 v2} (g2 : Keeps a v2) :
    Keeps a (Sys2Proof.Machine.noteFailure v0 v1 v2) := by
  unfold Sys2Proof.Machine.noteFailure
  exact (Keeps.ite (setObj_keeps (by assumption)) (by assumption))

theorem bootFirmware_keeps {a v0 v1} (g1 : Keeps a v1) :
    Keeps a (Sys2Proof.Machine.bootFirmware v0 v1) := by
  unfold Sys2Proof.Machine.bootFirmware
  extract_lets -underBinder -merge -useContext +onlyGivenNames x0
  extract_lets -underBinder -merge -useContext +onlyGivenNames x1
  refine Keeps.ite (enterStage_keeps (Keeps.same (by assumption))) ?_
  extract_lets -underBinder -merge -useContext +onlyGivenNames x2
  refine Keeps.ite ?_ ?_
  · extract_lets -underBinder -merge -useContext +onlyGivenNames x3
    have h4 : Keeps a x3 := (Keeps.ite (raise_keeps (by assumption)) (by assumption))
    clear_value x3
    exact (enterStage_keeps (Keeps.same (by assumption)))
  · extract_lets -underBinder -merge -useContext +onlyGivenNames x5
    have h6 : Keeps a x5 := (raise_keeps (by assumption))
    clear_value x5
    exact (setObj_keeps (Keeps.same (by assumption)))

theorem startFirmware_keeps {a v0} (g0 : Keeps a v0) :
    Keeps a (Sys2Proof.Machine.startFirmware v0) := by
  unfold Sys2Proof.Machine.startFirmware
  extract_lets -underBinder -merge -useContext +onlyGivenNames x0
  have h1 : Keeps a x0 := (resetComm_keeps (by assumption))
  clear_value x0
  exact (followCause_keeps (followCause_keeps (followCause_keeps (by assumption))))

theorem failMembers_keeps {a v0 v1} (g1 : Keeps a v1) :
    Keeps a (Sys2Proof.Machine.failMembers v0 v1) := by
  unfold Sys2Proof.Machine.failMembers
  refine forEach_keeps (P := Keeps a) ?_ (by assumption)
  intro y0 y1 k2
  refine forEach_keeps (P := Keeps a) ?_ (by assumption)
  intro y3 y4 k5
  exact setMember_keeps (by assumption)

theorem screenMember_keeps {a v0 v1 v2} (g2 : Keeps a v2) :
    Keeps a (Sys2Proof.Machine.screenMember v0 v1 v2) := by
  unfold Sys2Proof.Machine.screenMember
  extract_lets -underBinder -merge -useContext +onlyGivenNames x0
  extract_lets -underBinder -merge -useContext +onlyGivenNames x1
  extract_lets -underBinder -merge -useContext +onlyGivenNames x2
  extract_lets -underBinder -merge -useContext +onlyGivenNames x3
  extract_lets -underBinder -merge -useContext +onlyGivenNames x4
  extract_lets -underBinder -merge -useContext +onlyGivenNames x5
  extract_lets -underBinder -merge -useContext +onlyGivenNames x6
  extract_lets -underBinder -merge -useContext +onlyGivenNames x7
  exact setMember_keeps (by assumption)

theorem screenMembers_keeps {a v0 v1} (g1 : Keeps a v1) :
    Keeps a (Sys2Proof.Machine.screenMembers v0 v1) := by
  unfold Sys2Proof.Machine.screenMembers
  extract_lets -underBinder -merge -useContext +onlyGivenNames x0
  extract_lets -underBinder -merge -useContext +onlyGivenNames x1
  have h5 : Keeps a x1 := by
    unfold x1
    refine forEach_keeps (P := Keeps a) ?_ (by assumption)
    intro y2 y3 k4
    exact screenMember_keeps (by assumption)
  clear_value x1
  exact (failMembers_keeps (Keeps.freshUp (by assumption)))

theorem placeExtent_keeps {a v0 v1} (g1 : Keeps a v1) :
    Keeps a (Sys2Proof.Machine.placeExtent v0 v1) := by
  unfold Sys2Proof.Machine.placeExtent
  split
  · exact (setExtent_keeps (takeFrame_keeps (by assumption)))
  · assumption

theorem buildRegion_keeps {a v0} (g0 : Keeps a v0) :
    Keeps a (Sys2Proof.Machine.buildRegion v0) := by
  unfold Sys2Proof.Machine.buildRegion
  refine forEach_keeps (P := Keeps a) ?_ (by assumption)
  intro y0 y1 k2
  refine forUpTo_keeps (P := Keeps a) ?_ (by assumption)
  intro y3 y4 k5
  exact placeExtent_keeps (by assumption)

theorem openMemory_keeps {a v0} (g0 : Keeps a v0) :
    Keeps a (Sys2Proof.Machine.openMemory v0) := by
  unfold Sys2Proof.Machine.openMemory
  extract_lets -underBinder -merge -useContext +onlyGivenNames x0
  have h1 : Keeps a x0 := (Keeps.ite (by assumption) (buildRegion_keeps (by assumption)))
  clear_value x0
  exact (readRecords_keeps (pumpMigrations_keeps (Keeps.same (by assumption))))

theorem replaceAtBoot_keeps {a l fuel r s} (h : Keeps a s) : Keeps a (replaceAtBoot l fuel r s) := by
  induction fuel generalizing r s with
  | zero => exact h
  | succ n ih =>
    unfold replaceAtBoot
    have hr : ∀ ph, Keeps a (retirePond ph s) := fun ph => retirePond_keeps h
    extract_lets pick
    clear_value pick
    split
    · exact makeAbsent_keeps (hr _)
    · exact Keeps.ite (ih (hr _)) (setPondState_keeps (hr _)).same

theorem numberPonds_keeps {a v0} (g0 : Keeps a v0) :
    Keeps a (Sys2Proof.Machine.numberPonds v0) := by
  unfold Sys2Proof.Machine.numberPonds
  refine Keeps.ite ?_ (by assumption)
  extract_lets -underBinder -merge -useContext +onlyGivenNames x0
  exact Keeps.same (by assumption)

theorem powerPonds_keeps {a v0} (g0 : Keeps a v0) :
    Keeps a (Sys2Proof.Machine.powerPonds v0) := by
  unfold Sys2Proof.Machine.powerPonds
  refine forEach_keeps (P := Keeps a) ?_ (by assumption)
  intro y0 y1 k2
  exact modPond_keeps (by assumption)

theorem mapPonds_keeps {a v0 v1} (g1 : Keeps a v1) :
    Keeps a (Sys2Proof.Machine.mapPonds v0 v1) := by
  unfold Sys2Proof.Machine.mapPonds
  extract_lets -underBinder -merge -useContext +onlyGivenNames x0
  extract_lets -underBinder -merge -useContext +onlyGivenNames x1
  extract_lets -underBinder -merge -useContext +onlyGivenNames x2
  have h3 : Keeps a x2 := (Keeps.same (by assumption))
  clear_value x2
  extract_lets -underBinder -merge -useContext +onlyGivenNames x4
  have h8 : Keeps a x4 := by
    unfold x4
    refine forEach_keeps (P := Keeps a) ?_ (by assumption)
    intro y5 y6 k7
    exact replaceAtBoot_keeps (by assumption)
  clear_value x4
  extract_lets -underBinder -merge -useContext +onlyGivenNames x9
  have h10 : Keeps a x9 := (Keeps.ite (raiseCause_keeps (by assumption)) (by assumption))
  clear_value x9
  extract_lets -underBinder -merge -useContext +onlyGivenNames x11
  have h12 : Keeps a x11 := (powerPonds_keeps (numberPonds_keeps (by assumption)))
  clear_value x11
  exact (Keeps.ite (trainBrooks_keeps (by assumption)) (by assumption))

theorem openTicks_keeps {a v0} (g0 : Keeps a v0) :
    Keeps a (Sys2Proof.Machine.openTicks v0) := by
  unfold Sys2Proof.Machine.openTicks
  extract_lets -underBinder -merge -useContext +onlyGivenNames x0
  extract_lets -underBinder -merge -useContext +onlyGivenNames x1
  have h2 : Keeps a x1 := (Keeps.same (by assumption))
  clear_value x1
  exact (signalVector_keeps (enterRegime_keeps (by assumption)))

theorem endBoot_keeps {a v0} (g0 : Keeps a v0) :
    Keeps a (Sys2Proof.Machine.endBoot v0) := by
  unfold Sys2Proof.Machine.endBoot
  exact (setObj_keeps (openTicks_keeps (by assumption)))

theorem runStage_keeps {a v0 v1} (g1 : Keeps a v1) :
    Keeps a (Sys2Proof.Machine.runStage v0 v1) := by
  unfold Sys2Proof.Machine.runStage
  split
  · exact (enterStage_keeps (noteFailure_keeps (setObj_keeps (by assumption))))
  · exact bootFirmware_keeps (by assumption)
  · exact (enterStage_keeps (startFirmware_keeps (noteFailure_keeps (by assumption))))
  · exact (enterStage_keeps (failMembers_keeps (noteFailure_keeps (by assumption))))
  · exact (enterStage_keeps (noteFailure_keeps (by assumption)))
  · exact (enterStage_keeps (screenMembers_keeps (noteFailure_keeps (by assumption))))
  · exact (enterStage_keeps (openMemory_keeps (noteFailure_keeps (by assumption))))
  · extract_lets -underBinder -merge -useContext +onlyGivenNames x0
    exact (enterStage_keeps (mapPonds_keeps (noteFailure_keeps (by assumption))))
  · exact (endBoot_keeps (noteFailure_keeps (by assumption)))
  · assumption

theorem execBootStageEnd_keeps {a v0 v1} (g1 : Keeps a v1) :
    KeepsOut a (Sys2Proof.Machine.execBootStageEnd v0 v1) := by
  unfold Sys2Proof.Machine.execBootStageEnd
  exact (KeepsOut.next (Keeps.ite (by assumption) (runStage_keeps (advanceWithin_keeps (by assumption)))))

theorem execModrstNRelease_keeps {a v0 v1} (g1 : Keeps a v1) :
    KeepsOut a (Sys2Proof.Machine.execModrstNRelease v0 v1) := by
  unfold Sys2Proof.Machine.execModrstNRelease
  refine KeepsOut.next ?_
  refine Keeps.ite (by assumption) ?_
  extract_lets -underBinder -merge -useContext +onlyGivenNames x0
  extract_lets -underBinder -merge -useContext +onlyGivenNames x1
  have h2 : Keeps a x1 := (Keeps.same (by assumption))
  clear_value x1
  exact (Keeps.ite (startBoot_keeps (by assumption)) (by assumption))

theorem execModrstNAssert_keeps {a v0} (g0 : Keeps a v0) :
    KeepsOut a (Sys2Proof.Machine.execModrstNAssert v0) := by
  unfold Sys2Proof.Machine.execModrstNAssert
  exact (KeepsOut.next (chipReset_keeps (Keeps.same (by assumption))))

theorem stageImage_keeps {a v0 v1} (g1 : Keeps a v1) :
    Keeps a (Sys2Proof.Machine.stageImage v0 v1) := by
  unfold Sys2Proof.Machine.stageImage
  extract_lets -underBinder -merge -useContext +onlyGivenNames x0
  have h1 : Keeps a x0 := (setObj_keeps (setObj_keeps (by assumption)))
  clear_value x0
  refine Keeps.ite ?_ ?_
  · extract_lets -underBinder -merge -useContext +onlyGivenNames x2
    have h3 : Keeps a x2 := (writeSlot_keeps (by assumption))
    clear_value x2
    exact (setObj_keeps (Keeps.same (by assumption)))
  · extract_lets -underBinder -merge -useContext +onlyGivenNames x4
    have h5 : Keeps a x4 := (writeSlot_keeps (by assumption))
    clear_value x4
    exact Keeps.same (by assumption)

theorem execVerifyDone_keeps {a v0} (g0 : Keeps a v0) :
    KeepsOut a (Sys2Proof.Machine.execVerifyDone v0) := by
  unfold Sys2Proof.Machine.execVerifyDone
  refine KeepsOut.next ?_
  split
  · assumption
  · extract_lets -underBinder -merge -useContext +onlyGivenNames x0
    extract_lets -underBinder -merge -useContext +onlyGivenNames x1
    have h2 : Keeps a x1 := (Keeps.same (by assumption))
    clear_value x1
    extract_lets -underBinder -merge -useContext +onlyGivenNames x3
    split
    rename_i m10 m11 e12
    have h13 := KeepsSnd.of_eq e12 (KeepsSnd.ite (KeepsSnd.mk (by assumption)) (KeepsSnd.mk (Keeps.freshUp (by assumption))))
    extract_lets -underBinder -merge -useContext +onlyGivenNames x4
    have h5 : Keeps a x4 := (Keeps.ite (raise_keeps (by assumption)) (by assumption))
    clear_value x4
    extract_lets -underBinder -merge -useContext +onlyGivenNames x6
    have h7 : Keeps a x6 := (setObj_keeps (setObj_keeps (by assumption)))
    clear_value x6
    extract_lets -underBinder -merge -useContext +onlyGivenNames x8
    have h9 : Keeps a x8 := (Keeps.ite (stageImage_keeps (by assumption)) (by assumption))
    clear_value x8
    exact firmwareSignal_keeps (by assumption)

theorem tapFault_keeps {a v0 v1 v2} (g2 : Keeps a v2) :
    Keeps a (Sys2Proof.Machine.tapFault v0 v1 v2) := by
  unfold Sys2Proof.Machine.tapFault
  split
  · assumption
  · refine Keeps.ite ?_ (by assumption)
    extract_lets -underBinder -merge -useContext +onlyGivenNames x0
    have h1 : Keeps a x0 := (startExit_keeps (dropTap_keeps (by assumption)))
    clear_value x0
    exact (Keeps.ite (by assumption) (raise_keeps (by assumption)))

theorem countAttention_keeps {a v0 v1 v2} (g2 : Keeps a v2) :
    Keeps a (Sys2Proof.Machine.countAttention v0 v1 v2) := by
  unfold Sys2Proof.Machine.countAttention
  refine Keeps.ite ?_ (by assumption)
  refine forEach_keeps (P := Keeps a) ?_ (by assumption)
  intro y0 y1 k2
  split
  · assumption
  · exact addObj_keeps (by assumption)

theorem finishUnit_keeps {a v0 v1 v2} (g2 : Keeps a v2) :
    Keeps a (Sys2Proof.Machine.finishUnit v0 v1 v2) := by
  unfold Sys2Proof.Machine.finishUnit
  split
  · assumption
  · extract_lets -underBinder -merge -useContext +onlyGivenNames x0
    extract_lets -underBinder -merge -useContext +onlyGivenNames x1
    have h2 : Keeps a x1 := (setUses_keeps (by assumption))
    clear_value x1
    refine Keeps.ite (addObj_keeps (Keeps.ite (deviceWrite_keeps (by assumption)) (by assumption))) ?_
    extract_lets -underBinder -merge -useContext +onlyGivenNames x3
    have h4 : Keeps a x3 := (addObj_keeps (by assumption))
    clear_value x3
    refine Keeps.ite (by assumption) ?_
    extract_lets -underBinder -merge -useContext +onlyGivenNames x5
    have h6 : Keeps a x5 := (deviceWrite_keeps (by assumption))
    clear_value x5
    refine Keeps.ite (by assumption) ?_
    extract_lets -underBinder -merge -useContext +onlyGivenNames x7
    exact (deviceWrite_keeps (addObj_keeps (by assumption)))

theorem finishEngine_keeps {a v0 v1 v2} (g2 : Keeps a v2) :
    Keeps a (Sys2Proof.Machine.finishEngine v0 v1 v2) := by
  unfold Sys2Proof.Machine.finishEngine
  split
  · exact (Keeps.ite (by assumption) (addObj_keeps (by assumption)))
  · exact (Keeps.ite (completeAppend_keeps (by assumption)) (countAttention_keeps (by assumption)))
  · exact setFabCmds_keeps (by assumption)
  · exact finishUnit_keeps (by assumption)
  · exact finishUnit_keeps (by assumption)
  · exact arriveAt_keeps (by assumption)
  · assumption

theorem execCommandComplete_keeps {a v0 v1 v2 v3} (g3 : Keeps a v3) :
    KeepsOut a (Sys2Proof.Machine.execCommandComplete v0 v1 v2 v3) := by
  unfold Sys2Proof.Machine.execCommandComplete
  refine onPond_keeps (by assumption) ?_
  intro y0
  split
  · assumption
  · refine Keeps.ite (by assumption) ?_
    extract_lets -underBinder -merge -useContext +onlyGivenNames x1
    have h2 : Keeps a x1 := (advanceTo_keeps (by assumption))
    clear_value x1
    extract_lets -underBinder -merge -useContext +onlyGivenNames x3
    extract_lets -underBinder -merge -useContext +onlyGivenNames x4
    have h5 : Keeps a x4 := (modPond_keeps (by assumption))
    clear_value x4
    extract_lets -underBinder -merge -useContext +onlyGivenNames x6
    have h7 : Keeps a x6 := (traceInfo_keeps (by assumption))
    clear_value x6
    extract_lets -underBinder -merge -useContext +onlyGivenNames x8
    have h9 : Keeps a x8 := (tapFault_keeps (finishEngine_keeps (by assumption)))
    clear_value x8
    exact (signalDone_keeps (countIdle_keeps (by assumption)))

end Sys2Proof.Laws
end

