-- ==== Sys2Proof/Laws/KeepsDebug.lean ====
section
/-! SUPPORT. What the operations of the debug port and the host link keep. -/

set_option Elab.async false

namespace Sys2Proof.Laws

open Sys2Proof.Machine Sys2Proof.Safety

theorem watchLevel_keeps {a v0 v1 v2} (g2 : Keeps a v2) :
    Keeps a (Sys2Proof.Machine.watchLevel v0 v1 v2) := by
  unfold Sys2Proof.Machine.watchLevel
  exact (Keeps.ite (followCause_keeps (by assumption)) (by assumption))

theorem dropLink_keeps {a v0 v1} (g1 : Keeps a v1) :
    Keeps a (Sys2Proof.Machine.dropLink v0 v1) := by
  unfold Sys2Proof.Machine.dropLink
  refine Keeps.ite (setObj_keeps (by assumption)) ?_
  extract_lets -underBinder -merge -useContext +onlyGivenNames x0
  have h1 : Keeps a x0 := (setObj_keeps (by assumption))
  clear_value x0
  extract_lets -underBinder -merge -useContext +onlyGivenNames x2
  extract_lets -underBinder -merge -useContext +onlyGivenNames x3
  have h4 : Keeps a x3 := (Keeps.same (by assumption))
  clear_value x3
  extract_lets -underBinder -merge -useContext +onlyGivenNames x5
  have h6 : Keeps a x5 := (watchLevel_keeps (by assumption))
  clear_value x5
  extract_lets -underBinder -merge -useContext +onlyGivenNames x7
  have h8 : Keeps a x7 := (Keeps.ite (by assumption) (watchLevel_keeps (by assumption)))
  clear_value x7
  exact endHostLease_keeps (by assumption)

theorem execLinkTrained_keeps {a v0 v1 v2} (g2 : Keeps a v2) :
    KeepsOut a (Sys2Proof.Machine.execLinkTrained v0 v1 v2) := by
  unfold Sys2Proof.Machine.execLinkTrained
  refine KeepsOut.next ?_
  refine Keeps.ite (by assumption) ?_
  extract_lets -underBinder -merge -useContext +onlyGivenNames x0
  extract_lets -underBinder -merge -useContext +onlyGivenNames x1
  have h2 : Keeps a x1 := (setObj_keeps (setObj_keeps (setObj_keeps (by assumption))))
  clear_value x1
  extract_lets -underBinder -merge -useContext +onlyGivenNames x3
  extract_lets -underBinder -merge -useContext +onlyGivenNames x4
  have h5 : Keeps a x4 := (Keeps.same (by assumption))
  clear_value x4
  extract_lets -underBinder -merge -useContext +onlyGivenNames x6
  have h7 : Keeps a x6 := (watchLevel_keeps (watchLevel_keeps (by assumption)))
  clear_value x6
  exact (wakeAccesses_keeps (releaseVectors_keeps (by assumption)))

theorem execCxlLinkDown_keeps {a v0} (g0 : Keeps a v0) :
    KeepsOut a (Sys2Proof.Machine.execCxlLinkDown v0) := by
  unfold Sys2Proof.Machine.execCxlLinkDown
  exact (KeepsOut.next (Keeps.ite (by assumption) (dropLink_keeps (addObj_keeps (by assumption)))))

theorem execLinkRetrainTimer_keeps {a v0} (g0 : Keeps a v0) :
    KeepsOut a (Sys2Proof.Machine.execLinkRetrainTimer v0) := by
  unfold Sys2Proof.Machine.execLinkRetrainTimer
  refine KeepsOut.next ?_
  split
  · assumption
  · exact (Keeps.ite (by assumption) (setObj_keeps (advanceTo_keeps (by assumption))))

theorem execHotReset_keeps {a v0} (g0 : Keeps a v0) :
    KeepsOut a (Sys2Proof.Machine.execHotReset v0) := by
  unfold Sys2Proof.Machine.execHotReset
  refine KeepsOut.next ?_
  refine Keeps.ite ?_ (by assumption)
  extract_lets -underBinder -merge -useContext +onlyGivenNames x0
  have h1 : Keeps a x0 := (addObj_keeps (setObj_keeps (by assumption)))
  clear_value x0
  exact (wakeAccesses_keeps (Keeps.same (by assumption)))

theorem execMsixUnmask_keeps {a v0 v1} (g1 : Keeps a v1) :
    KeepsOut a (Sys2Proof.Machine.execMsixUnmask v0 v1) := by
  unfold Sys2Proof.Machine.execMsixUnmask
  exact (KeepsOut.ite (KeepsOut.next (releaseVectors_keeps (Keeps.same (by assumption)))) KeepsOut.fault)

theorem execPerstNAssert_keeps {a v0} (g0 : Keeps a v0) :
    KeepsOut a (Sys2Proof.Machine.execPerstNAssert v0) := by
  unfold Sys2Proof.Machine.execPerstNAssert
  refine KeepsOut.next ?_
  extract_lets -underBinder -merge -useContext +onlyGivenNames x0
  extract_lets -underBinder -merge -useContext +onlyGivenNames x1
  have h2 : Keeps a x1 := (Keeps.same (by assumption))
  clear_value x1
  refine Keeps.ite (by assumption) ?_
  extract_lets -underBinder -merge -useContext +onlyGivenNames x3
  have h4 : Keeps a x3 := (dropLink_keeps (by assumption))
  clear_value x3
  exact chipReset_keeps (by assumption)

theorem execLinkLossTimeout_keeps {a v0} (g0 : Keeps a v0) :
    KeepsOut a (Sys2Proof.Machine.execLinkLossTimeout v0) := by
  unfold Sys2Proof.Machine.execLinkLossTimeout
  refine KeepsOut.next ?_
  split
  · assumption
  · extract_lets -underBinder -merge -useContext +onlyGivenNames x0
    have h1 : Keeps a x0 := (advanceTo_keeps (by assumption))
    clear_value x0
    extract_lets -underBinder -merge -useContext +onlyGivenNames x2
    extract_lets -underBinder -merge -useContext +onlyGivenNames x3
    extract_lets -underBinder -merge -useContext +onlyGivenNames x4
    extract_lets -underBinder -merge -useContext +onlyGivenNames x5
    extract_lets -underBinder -merge -useContext +onlyGivenNames x6
    extract_lets -underBinder -merge -useContext +onlyGivenNames x7
    extract_lets -underBinder -merge -useContext +onlyGivenNames x8
    have h9 : Keeps a x8 := (Keeps.same (by assumption))
    clear_value x8
    extract_lets -underBinder -merge -useContext +onlyGivenNames x10
    have h11 : Keeps a x10 := (addObj_keeps (by assumption))
    clear_value x10
    extract_lets -underBinder -merge -useContext +onlyGivenNames x12
    have h16 : Keeps a x12 := by
      unfold x12
      refine forEach_keeps (P := Keeps a) ?_ (by assumption)
      intro y13 y14 k15
      exact countPark_keeps (by assumption)
    clear_value x12
    extract_lets -underBinder -merge -useContext +onlyGivenNames x17
    have h21 : Keeps a x17 := by
      unfold x17
      refine forEach_keeps (P := Keeps a) ?_ (by assumption)
      intro y18 y19 k20
      exact dropMigration_keeps (by assumption)
    clear_value x17
    refine serveReads_keeps ?_
    refine forEach_keeps (P := Keeps a) ?_ (by assumption)
    intro y22 y23 k24
    exact poisonExtent_keeps (by assumption)

theorem holdLines_keeps {a v0 v1 v2 v3} (g3 : Keeps a v3) :
    Keeps a (Sys2Proof.Machine.holdLines v0 v1 v2 v3) := by
  unfold Sys2Proof.Machine.holdLines
  refine Keeps.ite (by assumption) ?_
  refine forEach_keeps (P := Keeps a) ?_ (by assumption)
  intro y0 y1 k2
  extract_lets -underBinder -merge -useContext +onlyGivenNames x3
  extract_lets -underBinder -merge -useContext +onlyGivenNames x4
  extract_lets -underBinder -merge -useContext +onlyGivenNames x5
  have h6 : Keeps a x5 := (Keeps.same (by assumption))
  clear_value x5
  extract_lets -underBinder -merge -useContext +onlyGivenNames x7
  have h8 : Keeps a x7 := by
    unfold x7
    refine Keeps.ite (by assumption) ?_
    clear_value x3
    split
    · exact (addObj_keeps (snoopLine_keeps (Keeps.same (by assumption))))
    · assumption
  clear_value x7
  exact Keeps.same (by assumption)

theorem sleepAccess_keeps {a v0} (g0 : Keeps a v0) :
    Keeps a (Sys2Proof.Machine.sleepAccess v0) := by
  unfold Sys2Proof.Machine.sleepAccess
  exact (wakeEvent_keeps (addObj_keeps (by assumption)))

theorem useDecoder_keeps {a v0 v1} (g1 : Keeps a v1) :
    Keeps a (Sys2Proof.Machine.useDecoder v0 v1) := by
  unfold Sys2Proof.Machine.useDecoder
  exact Keeps.same (by assumption)

theorem execHostMemRead_keeps {a v0 v1 v2 v3} (g3 : Keeps a v3) :
    KeepsOut a (Sys2Proof.Machine.execHostMemRead v0 v1 v2 v3) := by
  unfold Sys2Proof.Machine.execHostMemRead
  refine KeepsOut.next ?_
  refine Keeps.ite (by assumption) ?_
  extract_lets -underBinder -merge -useContext +onlyGivenNames x0
  have h1 : Keeps a x0 := (useDecoder_keeps (by assumption))
  clear_value x0
  extract_lets -underBinder -merge -useContext +onlyGivenNames x2
  refine Keeps.ite (sleepAccess_keeps (send_keeps (by assumption))) ?_
  refine Keeps.ite (addObj_keeps (send_keeps (by assumption))) ?_
  refine Keeps.ite (Keeps.same (by assumption)) ?_
  extract_lets -underBinder -merge -useContext +onlyGivenNames x3
  exact (answerHost_keeps (Keeps.ite (holdLines_keeps (by assumption)) (by assumption)))

theorem hostWrite_keeps {a v0 v1 v2} (g0 : Keeps a v0) :
    Keeps a (Sys2Proof.Machine.hostWrite v0 v1 v2) := by
  unfold Sys2Proof.Machine.hostWrite
  exact (externalWrite_keeps (Keeps.ite (countBytes_keeps (by assumption)) (by assumption)))

theorem execHostMemWrite_keeps {a v0 v1 v2} (g2 : Keeps a v2) :
    KeepsOut a (Sys2Proof.Machine.execHostMemWrite v0 v1 v2) := by
  unfold Sys2Proof.Machine.execHostMemWrite
  refine KeepsOut.next ?_
  refine Keeps.ite (by assumption) ?_
  extract_lets -underBinder -merge -useContext +onlyGivenNames x0
  have h1 : Keeps a x0 := (useDecoder_keeps (by assumption))
  clear_value x0
  refine Keeps.ite (sleepAccess_keeps (send_keeps (by assumption))) ?_
  refine Keeps.ite (addObj_keeps (send_keeps (by assumption))) ?_
  extract_lets -underBinder -merge -useContext +onlyGivenNames x2
  extract_lets -underBinder -merge -useContext +onlyGivenNames x3
  extract_lets -underBinder -merge -useContext +onlyGivenNames x4
  have h5 : Keeps a x4 := (Keeps.same (by assumption))
  clear_value x4
  exact (wakeAccesses_keeps (send_keeps (hostWrite_keeps (by assumption))))

theorem execSnoopResponse_keeps {a v0 v1 v2} (g2 : Keeps a v2) :
    KeepsOut a (Sys2Proof.Machine.execSnoopResponse v0 v1 v2) := by
  unfold Sys2Proof.Machine.execSnoopResponse
  refine KeepsOut.next ?_
  extract_lets -underBinder -merge -useContext +onlyGivenNames x0
  extract_lets -underBinder -merge -useContext +onlyGivenNames x1
  have h2 : Keeps a x1 := (Keeps.same (by assumption))
  clear_value x1
  exact (wakeAccesses_keeps (Keeps.ite (by assumption) (hostWrite_keeps (by assumption))))

theorem noteMargin_keeps {a v0 v1 v2 v3} (g3 : Keeps a v3) :
    Keeps a (Sys2Proof.Machine.noteMargin v0 v1 v2 v3) := by
  unfold Sys2Proof.Machine.noteMargin
  exact (Keeps.ite (raise_keeps (Keeps.same (by assumption))) (by assumption))

theorem execMarginDone_keeps {a v0} (g0 : Keeps a v0) :
    KeepsOut a (Sys2Proof.Machine.execMarginDone v0) := by
  unfold Sys2Proof.Machine.execMarginDone
  refine KeepsOut.next ?_
  split
  · assumption
  · extract_lets -underBinder -merge -useContext +onlyGivenNames x0
    extract_lets -underBinder -merge -useContext +onlyGivenNames x1
    extract_lets -underBinder -merge -useContext +onlyGivenNames x2
    extract_lets -underBinder -merge -useContext +onlyGivenNames x3
    extract_lets -underBinder -merge -useContext +onlyGivenNames x4
    extract_lets -underBinder -merge -useContext +onlyGivenNames x5
    extract_lets -underBinder -merge -useContext +onlyGivenNames x6
    have h7 : Keeps a x6 := (Keeps.freshUp (by assumption))
    clear_value x6
    extract_lets -underBinder -merge -useContext +onlyGivenNames x8
    have h9 : Keeps a x8 := (setObj_keeps (by assumption))
    clear_value x8
    extract_lets -underBinder -merge -useContext +onlyGivenNames x10
    have h11 : Keeps a x10 := (Keeps.ite (setObj_keeps (setObj_keeps (by assumption))) (by assumption))
    clear_value x10
    extract_lets -underBinder -merge -useContext +onlyGivenNames x12
    have h13 : Keeps a x12 := (Keeps.ite (setObj_keeps (setObj_keeps (by assumption))) (by assumption))
    clear_value x12
    extract_lets -underBinder -merge -useContext +onlyGivenNames x14
    extract_lets -underBinder -merge -useContext +onlyGivenNames x15
    have h16 : Keeps a x15 := (setMember_keeps (by assumption))
    clear_value x15
    extract_lets -underBinder -merge -useContext +onlyGivenNames x17
    exact (wakeAccesses_keeps (noteMargin_keeps (setObj_keeps (by assumption))))

theorem selectTap_keeps {a c s} (h : Keeps a s) : Keeps a (selectTap c s) :=
  (h.secured (x := { s.secure with words := if c = 0x0A then s.secure.words else [] }) ⟨id, id, le_rfl, le_rfl⟩).same

theorem scan_keeps {a v0 v1 v2 v3} (g2 : Keeps a v2) (g3 : ∀ {y0}, Keeps a y0 → Keeps a (v3 y0)) :
    Keeps a (Sys2Proof.Machine.scan v0 v1 v2 v3) := by
  unfold Sys2Proof.Machine.scan
  extract_lets -underBinder -merge -useContext +onlyGivenNames x0
  have h1 : Keeps a x0 := (selectTap_keeps (by assumption))
  clear_value x0
  exact (Keeps.ite (send_keeps (by assumption)) (g3 (by assumption)))

theorem execTapReset_keeps {a v0} (g0 : Keeps a v0) :
    KeepsOut a (Sys2Proof.Machine.execTapReset v0) := by
  unfold Sys2Proof.Machine.execTapReset
  exact (KeepsOut.next (selectTap_keeps (by assumption)))

theorem capturePins_keeps {a v0} (g0 : Keeps a v0) :
    Keeps a (Sys2Proof.Machine.capturePins v0) := by
  unfold Sys2Proof.Machine.capturePins
  split
  rename_i m0 m1 e2
  have h3 := KeepsSnd.of_eq e2 (freeWord_keeps (by assumption))
  exact send_keeps (by assumption)

theorem execExtest_keeps {a v0 v1} (g1 : Keeps a v1) :
    KeepsOut a (Sys2Proof.Machine.execExtest v0 v1) := by
  unfold Sys2Proof.Machine.execExtest
  refine KeepsOut.next ?_
  extract_lets -underBinder -merge -useContext +onlyGivenNames x0
  have h1 : Keeps a x0 := (selectTap_keeps (by assumption))
  clear_value x0
  refine Keeps.ite (send_keeps (by assumption)) ?_
  extract_lets -underBinder -merge -useContext +onlyGivenNames x2
  have h3 : Keeps a x2 := (capturePins_keeps (by assumption))
  clear_value x2
  exact Keeps.same (by assumption)

theorem execSamplePreload_keeps {a v0 v1} (g1 : Keeps a v1) :
    KeepsOut a (Sys2Proof.Machine.execSamplePreload v0 v1) := by
  unfold Sys2Proof.Machine.execSamplePreload
  refine KeepsOut.next ?_
  extract_lets -underBinder -merge -useContext +onlyGivenNames x0
  have h1 : Keeps a x0 := (capturePins_keeps (selectTap_keeps (by assumption)))
  clear_value x0
  exact Keeps.same (by assumption)

theorem execIdcode_keeps {a v0} (g0 : Keeps a v0) :
    KeepsOut a (Sys2Proof.Machine.execIdcode v0) := by
  unfold Sys2Proof.Machine.execIdcode
  refine KeepsOut.next ?_
  extract_lets -underBinder -merge -useContext +onlyGivenNames x0
  have h1 : Keeps a x0 := (selectTap_keeps (by assumption))
  clear_value x0
  exact send_keeps (by assumption)

theorem execBypass_keeps {a v0} (g0 : Keeps a v0) :
    KeepsOut a (Sys2Proof.Machine.execBypass v0) := by
  unfold Sys2Proof.Machine.execBypass
  exact (KeepsOut.next (send_keeps (selectTap_keeps (by assumption))))

theorem execLockstat_keeps {a v0} (g0 : Keeps a v0) :
    KeepsOut a (Sys2Proof.Machine.execLockstat v0) := by
  unfold Sys2Proof.Machine.execLockstat
  refine KeepsOut.next ?_
  extract_lets -underBinder -merge -useContext +onlyGivenNames x0
  have h1 : Keeps a x0 := (selectTap_keeps (by assumption))
  clear_value x0
  exact send_keeps (by assumption)

theorem execNonce_keeps {a v0} (g0 : Keeps a v0) :
    KeepsOut a (Sys2Proof.Machine.execNonce v0) := by
  unfold Sys2Proof.Machine.execNonce
  refine KeepsOut.next ?_
  extract_lets -underBinder -merge -useContext +onlyGivenNames x0
  have h1 : Keeps a x0 := (selectTap_keeps (by assumption))
  clear_value x0
  exact send_keeps (by assumption)

theorem execUnlock_keeps {a w s} (h : Keeps a s) : KeepsOut a (execUnlock w s) := by
  unfold execUnlock
  refine KeepsOut.next ?_
  extract_lets t
  have ht : Keeps a t := selectTap_keeps h
  clear_value t
  refine Keeps.ite ht ?_
  exact Keeps.ite (ht.secured ⟨id, id, le_rfl, le_rfl⟩) (ht.secured ⟨id, id, le_rfl, le_rfl⟩)

theorem unlockTo_keeps {a l s} (h : Keeps a s) : Keeps a (unlockTo l s) := by
  unfold unlockTo
  split
  · exact h
  · rename_i hd
    exact raiseCause_keeps (h.secured ⟨id, fun _ k => absurd k hd, le_rfl, le_rfl⟩)

theorem execUnlockVerifyDone_keeps {a s} (h : Keeps a s) : KeepsOut a (execUnlockVerifyDone s) := by
  unfold execUnlockVerifyDone
  refine KeepsOut.next ?_
  split
  · exact h
  · extract_lets -underBinder -merge -useContext +onlyGivenNames ok se t
    have ht : Keeps a t := h.secured ⟨id, id, Nat.le_succ _, le_rfl⟩
    clear_value t
    exact Keeps.ite (unlockTo_keeps ht) (ht.secured ⟨id, id, le_rfl, le_rfl⟩)

theorem debugRead_keeps {a v0 v1 v2} (g2 : Keeps a v2) :
    Keeps a (Sys2Proof.Machine.debugRead v0 v1 v2) := by
  unfold Sys2Proof.Machine.debugRead
  extract_lets -underBinder -merge -useContext +onlyGivenNames x0
  have h1 : Keeps a x0 := (resumeService_keeps (by assumption))
  clear_value x0
  extract_lets -underBinder -merge -useContext +onlyGivenNames x2
  extract_lets -underBinder -merge -useContext +onlyGivenNames x3
  have h4 : Keeps a x3 := (countAccess_keeps (by assumption))
  clear_value x3
  split
  rename_i m5 m6 e7
  have h8 := KeepsSnd.of_eq e7 (KeepsSnd.ite (KeepsSnd.mk (by assumption)) (KeepsSnd.mk (freeWord_keeps (by assumption))))
  exact Keeps.same (by assumption)

theorem debugStore_keeps {a v0 v1 v2 v3} (g3 : Keeps a v3) :
    Keeps a (Sys2Proof.Machine.debugStore v0 v1 v2 v3) := by
  unfold Sys2Proof.Machine.debugStore
  extract_lets -underBinder -merge -useContext +onlyGivenNames x0
  have h1 : Keeps a x0 := (masterWrite_keeps (by assumption))
  clear_value x0
  split
  rename_i m2 m3 e4
  have h5 := KeepsSnd.of_eq e4 (freeWord_keeps (by assumption))
  exact Keeps.same (by assumption)

theorem execDict_keeps {a v0 v1} (g1 : Keeps a v1) :
    KeepsOut a (Sys2Proof.Machine.execDict v0 v1) := by
  unfold Sys2Proof.Machine.execDict
  refine KeepsOut.next ?_
  refine scan_keeps (by assumption) ?_
  intro y0 k1
  extract_lets -underBinder -merge -useContext +onlyGivenNames x2
  have h3 : Keeps a x2 := (send_keeps (by assumption))
  clear_value x2
  extract_lets -underBinder -merge -useContext +onlyGivenNames x4
  extract_lets -underBinder -merge -useContext +onlyGivenNames x5
  extract_lets -underBinder -merge -useContext +onlyGivenNames x6
  exact (Keeps.ite (by assumption) (Keeps.ite (debugRead_keeps (by assumption)) (Keeps.ite (debugStore_keeps (by assumption)) (by assumption))))

theorem controlCapture_keeps {a v0} (g0 : Keeps a v0) :
    Keeps a (Sys2Proof.Machine.controlCapture v0) := by
  unfold Sys2Proof.Machine.controlCapture
  extract_lets -underBinder -merge -useContext +onlyGivenNames x0
  split
  rename_i m1 m2 e3
  have h4 := KeepsSnd.of_eq e3 (by
    split
    · exact KeepsSnd.mk (by assumption)
    · exact (KeepsSnd.mk (freeWord_keeps (by assumption)))
    )
  exact send_keeps (by assumption)

theorem control_keeps {a v0 v1 v2 v3} (g2 : Keeps a v2) (g3 : ∀ {y0 y1}, Keeps a y1 → Keeps a (v3 y0 y1)) :
    Keeps a (Sys2Proof.Machine.control v0 v1 v2 v3) := by
  unfold Sys2Proof.Machine.control
  refine scan_keeps (by assumption) ?_
  intro y0 k1
  extract_lets -underBinder -merge -useContext +onlyGivenNames x2
  have h3 : Keeps a x2 := (controlCapture_keeps (by assumption))
  clear_value x2
  extract_lets -underBinder -merge -useContext +onlyGivenNames x4
  extract_lets -underBinder -merge -useContext +onlyGivenNames x5
  have h6 : Keeps a x5 := (Keeps.same (by assumption))
  clear_value x5
  refine Keeps.ite (by assumption) ?_
  refine forEach_keeps (P := Keeps a) ?_ (by assumption)
  intro y7 y8 k9
  exact g3 (by assumption)

theorem execDebugStatus_keeps {a v0 v1} (g1 : Keeps a v1) :
    KeepsOut a (Sys2Proof.Machine.execDebugStatus v0 v1) := by
  unfold Sys2Proof.Machine.execDebugStatus
  refine KeepsOut.next ?_
  refine control_keeps (by assumption) ?_
  intro y0 y1 k2
  assumption

theorem execDebugHalt_keeps {a v0 v1} (g1 : Keeps a v1) :
    KeepsOut a (Sys2Proof.Machine.execDebugHalt v0 v1) := by
  unfold Sys2Proof.Machine.execDebugHalt
  refine KeepsOut.next ?_
  refine control_keeps (by assumption) ?_
  intro y0 y1 k2
  exact haltPond_keeps (by assumption)

theorem execDebugResume_keeps {a v0 v1} (g1 : Keeps a v1) :
    KeepsOut a (Sys2Proof.Machine.execDebugResume v0 v1) := by
  unfold Sys2Proof.Machine.execDebugResume
  refine KeepsOut.next ?_
  refine control_keeps (by assumption) ?_
  intro y0 y1 k2
  exact unhalt_keeps (modPond_keeps (by assumption))

theorem execDebugStep_keeps {a v0 v1} (g1 : Keeps a v1) :
    KeepsOut a (Sys2Proof.Machine.execDebugStep v0 v1) := by
  unfold Sys2Proof.Machine.execDebugStep
  refine KeepsOut.next ?_
  refine control_keeps (by assumption) ?_
  intro y0 y1 k2
  exact modPond_keeps (by assumption)

theorem execDebugHaltGang_keeps {a v0 v1} (g1 : Keeps a v1) :
    KeepsOut a (Sys2Proof.Machine.execDebugHaltGang v0 v1) := by
  unfold Sys2Proof.Machine.execDebugHaltGang
  refine KeepsOut.next ?_
  refine control_keeps (by assumption) ?_
  intro y0 y1 k2
  exact haltGang_keeps (by assumption)

theorem execDebugRelock_keeps {a v0 v1} (g1 : Keeps a v1) :
    KeepsOut a (Sys2Proof.Machine.execDebugRelock v0 v1) := by
  unfold Sys2Proof.Machine.execDebugRelock
  refine KeepsOut.next ?_
  refine scan_keeps (by assumption) ?_
  intro y0 k1
  extract_lets -underBinder -merge -useContext +onlyGivenNames x2
  have h3 : Keeps a x2 := (controlCapture_keeps (by assumption))
  clear_value x2
  exact (lockDebug_keeps (Keeps.same (by assumption)))

theorem execPondHalted_keeps {a v0 v1} (g1 : Keeps a v1) :
    KeepsOut a (Sys2Proof.Machine.execPondHalted v0 v1) := by
  unfold Sys2Proof.Machine.execPondHalted
  refine onPond_keeps (by assumption) ?_
  intro y0
  extract_lets -underBinder -merge -useContext +onlyGivenNames x1
  exact (Keeps.ite (modPond_keeps (by assumption)) (by assumption))

theorem execBrkpt_keeps {a v0 v1} (g1 : Keeps a v1) :
    KeepsOut a (Sys2Proof.Machine.execBrkpt v0 v1) := by
  unfold Sys2Proof.Machine.execBrkpt
  refine KeepsOut.next ?_
  refine scan_keeps (by assumption) ?_
  intro y0 k1
  extract_lets -underBinder -merge -useContext +onlyGivenNames x2
  extract_lets -underBinder -merge -useContext +onlyGivenNames x3
  have h4 : Keeps a x3 := (send_keeps (by assumption))
  clear_value x3
  extract_lets -underBinder -merge -useContext +onlyGivenNames x5
  extract_lets -underBinder -merge -useContext +onlyGivenNames x6
  exact Keeps.same (by assumption)

theorem noteMem_keeps {a v0 v1 v2} (g2 : Keeps a v2) :
    Keeps a (Sys2Proof.Machine.noteMem v0 v1 v2) := by
  unfold Sys2Proof.Machine.noteMem
  exact Keeps.same (by assumption)

theorem noRead_keeps {a v0 v1} (g1 : Keeps a v1) :
    Keeps a (Sys2Proof.Machine.noRead v0 v1) := by
  unfold Sys2Proof.Machine.noRead
  split
  rename_i m0 m1 e2
  have h3 := KeepsSnd.of_eq e2 (freeWord_keeps (by assumption))
  exact noteMem_keeps (by assumption)

theorem readMem_keeps {a v0 v1} (g1 : Keeps a v1) :
    Keeps a (Sys2Proof.Machine.readMem v0 v1) := by
  unfold Sys2Proof.Machine.readMem
  exact (Keeps.ite (noRead_keeps (unmappedAccess_keeps (by assumption))) (Keeps.ite (Keeps.same (by assumption)) (Keeps.ite (noRead_keeps (by assumption)) (noteMem_keeps (countBytes_keeps (by assumption))))))

theorem settleMem_keeps {a v0} (g0 : Keeps a v0) :
    Keeps a (Sys2Proof.Machine.settleMem v0) := by
  unfold Sys2Proof.Machine.settleMem
  split
  · assumption
  · exact (readMem_keeps (Keeps.same (by assumption)))

theorem memScan_keeps {a v0 v1} (g0 : Keeps a v0) (g1 : ∀ {y0}, Keeps a y0 → Keeps a (v1 y0)) :
    Keeps a (Sys2Proof.Machine.memScan v0 v1) := by
  unfold Sys2Proof.Machine.memScan
  refine scan_keeps (by assumption) ?_
  intro y0 k1
  extract_lets -underBinder -merge -useContext +onlyGivenNames x2
  have h3 : Keeps a x2 := (settleMem_keeps (by assumption))
  clear_value x2
  extract_lets -underBinder -merge -useContext +onlyGivenNames x4
  have h5 : Keeps a x4 := (send_keeps (by assumption))
  clear_value x4
  exact (Keeps.ite (by assumption) (g1 (by assumption)))

theorem execDbgmemPoll_keeps {a v0} (g0 : Keeps a v0) :
    KeepsOut a (Sys2Proof.Machine.execDbgmemPoll v0) := by
  unfold Sys2Proof.Machine.execDbgmemPoll
  refine KeepsOut.next ?_
  refine memScan_keeps (by assumption) ?_
  intro y0 k1
  assumption

theorem execDbgmemRead_keeps {a v0 v1 v2 v3} (g3 : Keeps a v3) :
    KeepsOut a (Sys2Proof.Machine.execDbgmemRead v0 v1 v2 v3) := by
  unfold Sys2Proof.Machine.execDbgmemRead
  refine KeepsOut.next ?_
  refine memScan_keeps (by assumption) ?_
  intro y0 k1
  extract_lets -underBinder -merge -useContext +onlyGivenNames x2
  exact (Keeps.ite (readMem_keeps (by assumption)) (Keeps.ite (Keeps.ite (noteMem_keeps (by assumption)) (noRead_keeps (by assumption))) (by assumption)))

theorem execDbgmemWrite_keeps {a v0 v1 v2 v3 v4} (g4 : Keeps a v4) :
    KeepsOut a (Sys2Proof.Machine.execDbgmemWrite v0 v1 v2 v3 v4) := by
  unfold Sys2Proof.Machine.execDbgmemWrite
  refine KeepsOut.next ?_
  refine memScan_keeps (by assumption) ?_
  intro y0 k1
  extract_lets -underBinder -merge -useContext +onlyGivenNames x2
  extract_lets -underBinder -merge -useContext +onlyGivenNames x3
  refine Keeps.ite (Keeps.ite (by assumption) (noRead_keeps (by assumption))) ?_
  refine Keeps.ite (Keeps.ite (noRead_keeps (blockBankWrite_keeps (by assumption))) (by assumption)) ?_
  refine Keeps.ite (noRead_keeps (hostWrite_keeps (by assumption))) ?_
  extract_lets -underBinder -merge -useContext +onlyGivenNames x4
  exact (noRead_keeps (Keeps.ite (modPond_keeps (by assumption)) (by assumption)))

end Sys2Proof.Laws
end

