-- ==== Sys2Proof/Laws/KeepsPower.lean ====
section
/-! SUPPORT. What the operations of power states and SPDM keep. -/

set_option Elab.async false

namespace Sys2Proof.Laws

open Sys2Proof.Machine Sys2Proof.Safety

theorem retainPonds_keeps {a s} (h : Keeps a s) : Keeps a (retainPonds s) := by
  unfold retainPonds
  extract_lets -underBinder -merge -useContext +onlyGivenNames t
  have ht : Keeps a t := forEach_keeps (fun _ _ k => modPond_keeps k) h
  have hf : t.fresh = s.fresh := forEach_keeps (P := fun u : State => u.fresh = s.fresh) (fun _ _ k => k) rfl
  clear_value t
  exact fresh_keeps (by omega) ht

theorem latchDies_keeps {a v0} (g0 : Keeps a v0) :
    Keeps a (Sys2Proof.Machine.latchDies v0) := by
  unfold Sys2Proof.Machine.latchDies
  exact Keeps.same (by assumption)

theorem enterStandby_keeps {a s} (h : Keeps a s) : Keeps a (enterStandby s) := by
  unfold enterStandby
  extract_lets -underBinder -merge -useContext +onlyGivenNames t
  have ht : Keeps a t := forUpTo_keeps (fun _ _ k => setObj_keeps k) (dropLink_keeps (latchDies_keeps h))
  clear_value t
  exact (ht.tables (t := { t with ponds := [] }) fun c => { c with ponds := MapSorted.nil }).same

theorem enterState_keeps {a v0 v1} (g1 : Keeps a v1) :
    Keeps a (Sys2Proof.Machine.enterState v0 v1) := by
  unfold Sys2Proof.Machine.enterState
  split
  · exact (retainPonds_keeps (latchDies_keeps (by assumption)))
  · exact enterStandby_keeps (by assumption)
  · assumption

theorem heldRequest_keeps {a v0} (g0 : Keeps a v0) :
    Keeps a (Sys2Proof.Machine.heldRequest v0) := by
  unfold Sys2Proof.Machine.heldRequest
  split
  · exact actPower_keeps (by assumption)
  · assumption

theorem execPowerEntryDone_keeps {a v0} (g0 : Keeps a v0) :
    KeepsOut a (Sys2Proof.Machine.execPowerEntryDone v0) := by
  unfold Sys2Proof.Machine.execPowerEntryDone
  refine KeepsOut.next ?_
  refine Keeps.ite (by assumption) ?_
  extract_lets -underBinder -merge -useContext +onlyGivenNames x0
  extract_lets -underBinder -merge -useContext +onlyGivenNames x1
  have h2 : Keeps a x1 := (advanceWithin_keeps (by assumption))
  clear_value x1
  extract_lets -underBinder -merge -useContext +onlyGivenNames x3
  have h4 : Keeps a x3 := (enterState_keeps (by assumption))
  clear_value x3
  extract_lets -underBinder -merge -useContext +onlyGivenNames x5
  have h6 : Keeps a x5 := (addObj_keeps (setObj_keeps (setObj_keeps (by assumption))))
  clear_value x5
  extract_lets -underBinder -merge -useContext +onlyGivenNames x7
  extract_lets -underBinder -merge -useContext +onlyGivenNames x8
  have h9 : Keeps a x8 := (Keeps.same (by assumption))
  clear_value x8
  exact (Keeps.ite (beginExit_keeps (by assumption)) (heldRequest_keeps (by assumption)))

theorem standbyReset_keeps {a s} (h : Keeps a s) : Keeps a (standbyReset s) := by
  unfold standbyReset
  extract_lets -underBinder -merge -useContext +onlyGivenNames r bo t
  have hr : Keeps a r := resetChip_keeps h
  have hk : Keeps s r := resetChip_keeps (Keeps.refl s)
  have ht : Keeps a t := by
    refine h.trans ⟨hk.pending, hk.now, hk.fresh, hk.sent, hk.grade, hk.secure, fun c => ?_⟩
    have cr := hk.canonical c
    exact { cr with
      dict := foldl_sorted _ _ (fun _ _ k => mapInsert_sorted _ _ _ k) _ cr.dict
      copies := MapSorted.filter _ _ c.copies }
  clear_value t
  exact weirStart_keeps (addObj_keeps (setObj_keeps ht))

theorem leaveStandby_keeps {a v0} (g0 : Keeps a v0) :
    Keeps a (Sys2Proof.Machine.leaveStandby v0) := by
  unfold Sys2Proof.Machine.leaveStandby
  extract_lets -underBinder -merge -useContext +onlyGivenNames x0
  have h1 : Keeps a x0 := (standbyReset_keeps (by assumption))
  clear_value x0
  extract_lets -underBinder -merge -useContext +onlyGivenNames x2
  have h3 : Keeps a x2 := (followCause_keeps (followCause_keeps (by assumption)))
  clear_value x2
  exact (Keeps.ite (followCause_keeps (by assumption)) (openTicks_keeps (enterStage_keeps (mapPonds_keeps (openMemory_keeps (screenMembers_keeps (by assumption)))))))

theorem releasePads_keeps {a v0} (g0 : Keeps a v0) :
    Keeps a (Sys2Proof.Machine.releasePads v0) := by
  unfold Sys2Proof.Machine.releasePads
  extract_lets -underBinder -merge -useContext +onlyGivenNames x0
  extract_lets -underBinder -merge -useContext +onlyGivenNames x1
  have h2 : Keeps a x1 := (Keeps.same (by assumption))
  clear_value x1
  exact settleErrN_keeps (by assumption)

theorem restoreCredit_keeps {a v0} (g0 : Keeps a v0) :
    Keeps a (Sys2Proof.Machine.restoreCredit v0) := by
  unfold Sys2Proof.Machine.restoreCredit
  refine forEach_keeps (P := Keeps a) ?_ (Keeps.same (by assumption))
  intro y0 y1 k2
  exact grant_keeps (by assumption)

theorem execPowerExitDone_keeps {a v0} (g0 : Keeps a v0) :
    KeepsOut a (Sys2Proof.Machine.execPowerExitDone v0) := by
  unfold Sys2Proof.Machine.execPowerExitDone
  refine KeepsOut.next ?_
  refine Keeps.ite (by assumption) ?_
  extract_lets -underBinder -merge -useContext +onlyGivenNames x0
  extract_lets -underBinder -merge -useContext +onlyGivenNames x1
  have h2 : Keeps a x1 := (advanceWithin_keeps (by assumption))
  clear_value x1
  extract_lets -underBinder -merge -useContext +onlyGivenNames x3
  have h4 : Keeps a x3 := (Keeps.ite (leaveStandby_keeps (by assumption)) (Keeps.ite (powerPonds_keeps (by assumption)) (by assumption)))
  clear_value x3
  extract_lets -underBinder -merge -useContext +onlyGivenNames x5
  have h6 : Keeps a x5 := (setObj_keeps (setObj_keeps (by assumption)))
  clear_value x5
  extract_lets -underBinder -merge -useContext +onlyGivenNames x7
  have h8 : Keeps a x7 := by
    unfold x7
    split
    · exact setObj_keeps (by assumption)
    · assumption
  clear_value x7
  extract_lets -underBinder -merge -useContext +onlyGivenNames x9
  extract_lets -underBinder -merge -useContext +onlyGivenNames x10
  extract_lets -underBinder -merge -useContext +onlyGivenNames x11
  have h12 : Keeps a x11 := (Keeps.same (by assumption))
  clear_value x11
  extract_lets -underBinder -merge -useContext +onlyGivenNames x13
  have h14 : Keeps a x13 := (Keeps.ite (pumpMigrations_keeps (restoreCredit_keeps (by assumption))) (by assumption))
  clear_value x13
  extract_lets -underBinder -merge -useContext +onlyGivenNames x15
  have h16 : Keeps a x15 := (releasePads_keeps (by assumption))
  clear_value x15
  clear_value x9
  split
  · exact Keeps.same (by assumption)
  · exact heldRequest_keeps (by assumption)

theorem execWakeNAssert_keeps {a v0 v1} (g1 : Keeps a v1) :
    KeepsOut a (Sys2Proof.Machine.execWakeNAssert v0 v1) := by
  unfold Sys2Proof.Machine.execWakeNAssert
  refine KeepsOut.next ?_
  extract_lets -underBinder -merge -useContext +onlyGivenNames x0
  have h1 : Keeps a x0 := (advanceTo_keeps (by assumption))
  clear_value x0
  exact (Keeps.ite (by assumption) (wakeEvent_keeps (setObj_keeps (by assumption))))

theorem execWakeNRelease_keeps {a v0} (g0 : Keeps a v0) :
    KeepsOut a (Sys2Proof.Machine.execWakeNRelease v0) := by
  unfold Sys2Proof.Machine.execWakeNRelease
  exact (KeepsOut.next (setObj_keeps (by assumption)))

theorem execWakeNPulseFiltered_keeps {a v0} (g0 : Keeps a v0) :
    KeepsOut a (Sys2Proof.Machine.execWakeNPulseFiltered v0) := by
  unfold Sys2Proof.Machine.execWakeNPulseFiltered
  exact (KeepsOut.next (Keeps.ite (by assumption) (addObj_keeps (by assumption))))

theorem execWakeTimerExpiry_keeps {a v0} (g0 : Keeps a v0) :
    KeepsOut a (Sys2Proof.Machine.execWakeTimerExpiry v0) := by
  unfold Sys2Proof.Machine.execWakeTimerExpiry
  refine KeepsOut.next ?_
  split
  · assumption
  · extract_lets -underBinder -merge -useContext +onlyGivenNames x0
    exact (Keeps.ite (by assumption) (wakeEvent_keeps (advanceTo_keeps (by assumption))))

theorem execPondPowerUp_keeps {a v0} (g0 : Keeps a v0) :
    KeepsOut a (Sys2Proof.Machine.execPondPowerUp v0) := by
  unfold Sys2Proof.Machine.execPondPowerUp
  refine KeepsOut.next ?_
  extract_lets -underBinder -merge -useContext +onlyGivenNames x0
  refine Keeps.ite (by assumption) ?_
  extract_lets -underBinder -merge -useContext +onlyGivenNames x1
  have h2 : Keeps a x1 := (Keeps.ite (by assumption) (advanceTo_keeps (by assumption)))
  clear_value x1
  extract_lets -underBinder -merge -useContext +onlyGivenNames x3
  extract_lets -underBinder -merge -useContext +onlyGivenNames x4
  have h5 : Keeps a x4 := (Keeps.same (by assumption))
  clear_value x4
  refine forEach_keeps (P := Keeps a) ?_ (by assumption)
  intro y6 y7 k8
  exact modPond_keeps (by assumption)

theorem followAlert_keeps {a v0 v1 v2} (g2 : Keeps a v2) :
    Keeps a (Sys2Proof.Machine.followAlert v0 v1 v2) := by
  unfold Sys2Proof.Machine.followAlert
  refine Keeps.ite (by assumption) ?_
  extract_lets -underBinder -merge -useContext +onlyGivenNames x0
  extract_lets -underBinder -merge -useContext +onlyGivenNames x1
  have h2 : Keeps a x1 := (followCause_keeps (by assumption))
  clear_value x1
  exact (Keeps.ite (wakeEvent_keeps (by assumption)) (by assumption))

theorem execSupplyOutOfRange_keeps {a v0 v1} (g1 : Keeps a v1) :
    KeepsOut a (Sys2Proof.Machine.execSupplyOutOfRange v0 v1) := by
  unfold Sys2Proof.Machine.execSupplyOutOfRange
  exact (KeepsOut.next (followAlert_keeps (Keeps.same (by assumption))))

theorem stopForSupply_keeps {a v0} (g0 : Keeps a v0) :
    Keeps a (Sys2Proof.Machine.stopForSupply v0) := by
  unfold Sys2Proof.Machine.stopForSupply
  extract_lets -underBinder -merge -useContext +onlyGivenNames x0
  extract_lets -underBinder -merge -useContext +onlyGivenNames x1
  extract_lets -underBinder -merge -useContext +onlyGivenNames x2
  extract_lets -underBinder -merge -useContext +onlyGivenNames x3
  have h4 : Keeps a x3 := (resetChip_keeps (by assumption))
  clear_value x3
  extract_lets -underBinder -merge -useContext +onlyGivenNames x5
  have h6 : Keeps a x5 := (setObj_keeps (setObj_keeps (by assumption)))
  clear_value x5
  extract_lets -underBinder -merge -useContext +onlyGivenNames x7
  have h8 : Keeps a x7 := (addObj_keeps (setObj_keeps (by assumption)))
  clear_value x7
  exact (Keeps.ite (enterStage_keeps (setObj_keeps (startBoot_keeps (by assumption)))) (by assumption))

theorem execSupplyStop_keeps {a v0} (g0 : Keeps a v0) :
    KeepsOut a (Sys2Proof.Machine.execSupplyStop v0) := by
  unfold Sys2Proof.Machine.execSupplyStop
  refine KeepsOut.next ?_
  refine Keeps.ite (by assumption) ?_
  extract_lets -underBinder -merge -useContext +onlyGivenNames x0
  have h1 : Keeps a x0 := (stopForSupply_keeps (by assumption))
  clear_value x0
  exact Keeps.same (by assumption)

theorem execSupplyRecovered_keeps {a v0} (g0 : Keeps a v0) :
    KeepsOut a (Sys2Proof.Machine.execSupplyRecovered v0) := by
  unfold Sys2Proof.Machine.execSupplyRecovered
  exact (KeepsOut.next (followAlert_keeps (Keeps.same (by assumption))))

theorem execPowerStagesOff_keeps {a v0} (g0 : Keeps a v0) :
    KeepsOut a (Sys2Proof.Machine.execPowerStagesOff v0) := by
  unfold Sys2Proof.Machine.execPowerStagesOff
  refine KeepsOut.next ?_
  extract_lets -underBinder -merge -useContext +onlyGivenNames x0
  extract_lets -underBinder -merge -useContext +onlyGivenNames x1
  extract_lets -underBinder -merge -useContext +onlyGivenNames x2
  have h3 : Keeps a x2 := (Keeps.ite (by assumption) (Keeps.same (by assumption)))
  clear_value x2
  extract_lets -underBinder -merge -useContext +onlyGivenNames x4
  have h5 : Keeps a x4 := (stopForSupply_keeps (by assumption))
  clear_value x4
  exact Keeps.same (by assumption)

theorem execTemperatureHigh_keeps {a v0 v1} (g1 : Keeps a v1) :
    KeepsOut a (Sys2Proof.Machine.execTemperatureHigh v0 v1) := by
  unfold Sys2Proof.Machine.execTemperatureHigh
  exact (KeepsOut.next (Keeps.ite (followAlert_keeps (Keeps.same (by assumption))) (followAlert_keeps (followAlert_keeps (Keeps.same (by assumption))))))

theorem execTemperatureCritical_keeps {a v0} (g0 : Keeps a v0) :
    KeepsOut a (Sys2Proof.Machine.execTemperatureCritical v0) := by
  unfold Sys2Proof.Machine.execTemperatureCritical
  exact (KeepsOut.next (followAlert_keeps (followAlert_keeps (Keeps.same (by assumption)))))

theorem execCoolDownRelease_keeps {a v0} (g0 : Keeps a v0) :
    KeepsOut a (Sys2Proof.Machine.execCoolDownRelease v0) := by
  unfold Sys2Proof.Machine.execCoolDownRelease
  exact (KeepsOut.next (followAlert_keeps (Keeps.same (by assumption))))

theorem execPwrOkFall_keeps {a v0} (g0 : Keeps a v0) :
    KeepsOut a (Sys2Proof.Machine.execPwrOkFall v0) := by
  unfold Sys2Proof.Machine.execPwrOkFall
  exact (KeepsOut.next (chipReset_keeps (Keeps.same (by assumption))))

theorem execPerstNRelease_keeps {a v0} (g0 : Keeps a v0) :
    KeepsOut a (Sys2Proof.Machine.execPerstNRelease v0) := by
  unfold Sys2Proof.Machine.execPerstNRelease
  refine KeepsOut.next ?_
  refine Keeps.ite (by assumption) ?_
  extract_lets -underBinder -merge -useContext +onlyGivenNames x0
  extract_lets -underBinder -merge -useContext +onlyGivenNames x1
  have h2 : Keeps a x1 := (Keeps.same (by assumption))
  clear_value x1
  exact (Keeps.ite (setObj_keeps (by assumption)) (by assumption))

theorem powerUp_keeps {a s t} (h : Keeps a s) (ht : Keeps s t) : Keeps a { State.reset with
      pending := s.pending, now := t.now, fresh := t.fresh, nvm := s.nvm, map := s.map, mem := hostBytes s.mem,
      boot := { State.reset.boot with slots := s.boot.slots, active := s.boot.active, running := s.boot.active },
      secure := { State.reset.secure with disabled := s.secure.disabled, nonce := s.secure.nonce + 1,
                                          antiRollback := s.secure.antiRollback, revoked := s.secure.revoked },
      host := { State.reset.host with downSince := some t.now },
      power := { State.reset.power with poweredAt := t.now },
      sent := s.sent } := by
  refine h.trans ⟨rfl, ht.now, ht.fresh, List.suffix_refl _, rfl, ⟨id, fun _ _ => rfl, Nat.le_succ _, le_rfl⟩, fun c => ?_⟩
  exact { mem := filter_wf _ _ _ c.mem, dict := MapSorted.nil, inForce := MapSorted.nil, copies := MapSorted.nil,
          tree := MapSorted.nil, gangs := MapSorted.nil, steps := MapSorted.nil, ponds := MapSorted.nil,
          programs := MapSorted.nil, futures := MapSorted.nil, extents := MapSorted.nil, objects := MapSorted.nil }

theorem execPowerUp_keeps {a s} (h : Keeps a s) : KeepsOut a (execPowerUp s) := by
  unfold execPowerUp
  exact KeepsOut.next (powerUp_keeps h (advanceWithin_keeps (Keeps.refl s)))

theorem spdmAnswer_keeps {a v0 v1 v2} (g2 : Keeps a v2) :
    Keeps a (Sys2Proof.Machine.spdmAnswer v0 v1 v2) := by
  unfold Sys2Proof.Machine.spdmAnswer
  exact (Keeps.ite (send_keeps (addObj_keeps (by assumption))) (by assumption))

theorem spdmError_keeps {a v0 v1} (g1 : Keeps a v1) :
    Keeps a (Sys2Proof.Machine.spdmError v0 v1) := by
  unfold Sys2Proof.Machine.spdmError
  exact (Keeps.ite (send_keeps (addObj_keeps (addObj_keeps (by assumption)))) (by assumption))

theorem execGetVersion_keeps {a v0} (g0 : Keeps a v0) :
    KeepsOut a (Sys2Proof.Machine.execGetVersion v0) := by
  unfold Sys2Proof.Machine.execGetVersion
  exact (KeepsOut.next (spdmAnswer_keeps (by assumption)))

theorem execGetCapabilities_keeps {a v0} (g0 : Keeps a v0) :
    KeepsOut a (Sys2Proof.Machine.execGetCapabilities v0) := by
  unfold Sys2Proof.Machine.execGetCapabilities
  exact (KeepsOut.next (spdmAnswer_keeps (by assumption)))

theorem execNegotiateAlgorithms_keeps {a v0} (g0 : Keeps a v0) :
    KeepsOut a (Sys2Proof.Machine.execNegotiateAlgorithms v0) := by
  unfold Sys2Proof.Machine.execNegotiateAlgorithms
  exact (KeepsOut.next (spdmAnswer_keeps (by assumption)))

theorem execGetDigests_keeps {a v0} (g0 : Keeps a v0) :
    KeepsOut a (Sys2Proof.Machine.execGetDigests v0) := by
  unfold Sys2Proof.Machine.execGetDigests
  exact (KeepsOut.next (spdmAnswer_keeps (by assumption)))

theorem execGetCertificate_keeps {a v0 v1} (g1 : Keeps a v1) :
    KeepsOut a (Sys2Proof.Machine.execGetCertificate v0 v1) := by
  unfold Sys2Proof.Machine.execGetCertificate
  exact (KeepsOut.next (Keeps.ite (spdmAnswer_keeps (by assumption)) (spdmError_keeps (by assumption))))

theorem execChallenge_keeps {a v0 v1} (g1 : Keeps a v1) :
    KeepsOut a (Sys2Proof.Machine.execChallenge v0 v1) := by
  unfold Sys2Proof.Machine.execChallenge
  refine KeepsOut.next ?_
  refine Keeps.ite ?_ (spdmError_keeps (by assumption))
  extract_lets -underBinder -merge -useContext +onlyGivenNames x0
  have h1 : Keeps a x0 := (Keeps.freshUp (by assumption))
  clear_value x0
  exact spdmAnswer_keeps (by assumption)

theorem execGetMeasurements_keeps {a v0 v1} (g1 : Keeps a v1) :
    KeepsOut a (Sys2Proof.Machine.execGetMeasurements v0 v1) := by
  unfold Sys2Proof.Machine.execGetMeasurements
  exact (KeepsOut.next (Keeps.ite (spdmAnswer_keeps (by assumption)) (Keeps.ite (spdmAnswer_keeps (by assumption)) (Keeps.ite (spdmAnswer_keeps (by assumption)) (spdmError_keeps (by assumption))))))

theorem execSpdmUnsupportedRequest_keeps {a v0} (g0 : Keeps a v0) :
    KeepsOut a (Sys2Proof.Machine.execSpdmUnsupportedRequest v0) := by
  unfold Sys2Proof.Machine.execSpdmUnsupportedRequest
  exact (KeepsOut.next (spdmError_keeps (by assumption)))

end Sys2Proof.Laws
end

