-- ==== Sys2Proof/Laws/State.lean ====
section
/-! SUPPORT. One lemma per field per update of the state: what an update leaves alone. -/

set_option Elab.async false

namespace Sys2Proof.Machine

variable (s : State)

@[simp] theorem setObj_pending (k v : Nat) : (setObj s k v).pending = s.pending := rfl
@[simp] theorem setObj_now (k v : Nat) : (setObj s k v).now = s.now := rfl
@[simp] theorem setObj_fresh (k v : Nat) : (setObj s k v).fresh = s.fresh := rfl
@[simp] theorem setObj_nvm (k v : Nat) : (setObj s k v).nvm = s.nvm := rfl
@[simp] theorem setObj_inForce (k v : Nat) : (setObj s k v).inForce = s.inForce := rfl
@[simp] theorem setObj_captured (k v : Nat) : (setObj s k v).captured = s.captured := rfl
@[simp] theorem setObj_copies (k v : Nat) : (setObj s k v).copies = s.copies := rfl
@[simp] theorem setObj_mem (k v : Nat) : (setObj s k v).mem = s.mem := rfl
@[simp] theorem setObj_map (k v : Nat) : (setObj s k v).map = s.map := rfl
@[simp] theorem setObj_tree (k v : Nat) : (setObj s k v).tree = s.tree := rfl
@[simp] theorem setObj_tick (k v : Nat) : (setObj s k v).tick = s.tick := rfl
@[simp] theorem setObj_gangs (k v : Nat) : (setObj s k v).gangs = s.gangs := rfl
@[simp] theorem setObj_steps (k v : Nat) : (setObj s k v).steps = s.steps := rfl
@[simp] theorem setObj_ponds (k v : Nat) : (setObj s k v).ponds = s.ponds := rfl
@[simp] theorem setObj_programs (k v : Nat) : (setObj s k v).programs = s.programs := rfl
@[simp] theorem setObj_seq (k v : Nat) : (setObj s k v).seq = s.seq := rfl
@[simp] theorem setObj_tiers (k v : Nat) : (setObj s k v).tiers = s.tiers := rfl
@[simp] theorem setObj_intake (k v : Nat) : (setObj s k v).intake = s.intake := rfl
@[simp] theorem setObj_numerics (k v : Nat) : (setObj s k v).numerics = s.numerics := rfl
@[simp] theorem setObj_fabric (k v : Nat) : (setObj s k v).fabric = s.fabric := rfl
@[simp] theorem setObj_shares (k v : Nat) : (setObj s k v).shares = s.shares := rfl
@[simp] theorem setObj_requests (k v : Nat) : (setObj s k v).requests = s.requests := rfl
@[simp] theorem setObj_own (k v : Nat) : (setObj s k v).own = s.own := rfl
@[simp] theorem setObj_can (k v : Nat) : (setObj s k v).can = s.can := rfl
@[simp] theorem setObj_cells (k v : Nat) : (setObj s k v).cells = s.cells := rfl
@[simp] theorem setObj_weir (k v : Nat) : (setObj s k v).weir = s.weir := rfl
@[simp] theorem setObj_host (k v : Nat) : (setObj s k v).host = s.host := rfl
@[simp] theorem setObj_boot (k v : Nat) : (setObj s k v).boot = s.boot := rfl
@[simp] theorem setObj_secure (k v : Nat) : (setObj s k v).secure = s.secure := rfl
@[simp] theorem setObj_debugPort (k v : Nat) : (setObj s k v).debugPort = s.debugPort := rfl
@[simp] theorem setObj_power (k v : Nat) : (setObj s k v).power = s.power := rfl
@[simp] theorem setObj_pins (k v : Nat) : (setObj s k v).pins = s.pins := rfl
@[simp] theorem setObj_sent (k v : Nat) : (setObj s k v).sent = s.sent := rfl

@[simp] theorem addObj_pending (k n : Nat) : (addObj s k n).pending = s.pending := rfl
@[simp] theorem addObj_now (k n : Nat) : (addObj s k n).now = s.now := rfl
@[simp] theorem addObj_fresh (k n : Nat) : (addObj s k n).fresh = s.fresh := rfl
@[simp] theorem addObj_nvm (k n : Nat) : (addObj s k n).nvm = s.nvm := rfl
@[simp] theorem addObj_inForce (k n : Nat) : (addObj s k n).inForce = s.inForce := rfl
@[simp] theorem addObj_captured (k n : Nat) : (addObj s k n).captured = s.captured := rfl
@[simp] theorem addObj_copies (k n : Nat) : (addObj s k n).copies = s.copies := rfl
@[simp] theorem addObj_mem (k n : Nat) : (addObj s k n).mem = s.mem := rfl
@[simp] theorem addObj_map (k n : Nat) : (addObj s k n).map = s.map := rfl
@[simp] theorem addObj_tree (k n : Nat) : (addObj s k n).tree = s.tree := rfl
@[simp] theorem addObj_tick (k n : Nat) : (addObj s k n).tick = s.tick := rfl
@[simp] theorem addObj_gangs (k n : Nat) : (addObj s k n).gangs = s.gangs := rfl
@[simp] theorem addObj_steps (k n : Nat) : (addObj s k n).steps = s.steps := rfl
@[simp] theorem addObj_ponds (k n : Nat) : (addObj s k n).ponds = s.ponds := rfl
@[simp] theorem addObj_programs (k n : Nat) : (addObj s k n).programs = s.programs := rfl
@[simp] theorem addObj_seq (k n : Nat) : (addObj s k n).seq = s.seq := rfl
@[simp] theorem addObj_tiers (k n : Nat) : (addObj s k n).tiers = s.tiers := rfl
@[simp] theorem addObj_intake (k n : Nat) : (addObj s k n).intake = s.intake := rfl
@[simp] theorem addObj_numerics (k n : Nat) : (addObj s k n).numerics = s.numerics := rfl
@[simp] theorem addObj_fabric (k n : Nat) : (addObj s k n).fabric = s.fabric := rfl
@[simp] theorem addObj_shares (k n : Nat) : (addObj s k n).shares = s.shares := rfl
@[simp] theorem addObj_requests (k n : Nat) : (addObj s k n).requests = s.requests := rfl
@[simp] theorem addObj_own (k n : Nat) : (addObj s k n).own = s.own := rfl
@[simp] theorem addObj_can (k n : Nat) : (addObj s k n).can = s.can := rfl
@[simp] theorem addObj_cells (k n : Nat) : (addObj s k n).cells = s.cells := rfl
@[simp] theorem addObj_weir (k n : Nat) : (addObj s k n).weir = s.weir := rfl
@[simp] theorem addObj_host (k n : Nat) : (addObj s k n).host = s.host := rfl
@[simp] theorem addObj_boot (k n : Nat) : (addObj s k n).boot = s.boot := rfl
@[simp] theorem addObj_secure (k n : Nat) : (addObj s k n).secure = s.secure := rfl
@[simp] theorem addObj_debugPort (k n : Nat) : (addObj s k n).debugPort = s.debugPort := rfl
@[simp] theorem addObj_power (k n : Nat) : (addObj s k n).power = s.power := rfl
@[simp] theorem addObj_pins (k n : Nat) : (addObj s k n).pins = s.pins := rfl
@[simp] theorem addObj_sent (k n : Nat) : (addObj s k n).sent = s.sent := rfl

@[simp] theorem setPondState_pending (ph : Nat) (st : PondState) : (setPondState s ph st).pending = s.pending := rfl
@[simp] theorem setPondState_now (ph : Nat) (st : PondState) : (setPondState s ph st).now = s.now := rfl
@[simp] theorem setPondState_fresh (ph : Nat) (st : PondState) : (setPondState s ph st).fresh = s.fresh := rfl
@[simp] theorem setPondState_nvm (ph : Nat) (st : PondState) : (setPondState s ph st).nvm = s.nvm := rfl
@[simp] theorem setPondState_dict (ph : Nat) (st : PondState) : (setPondState s ph st).dict = s.dict := rfl
@[simp] theorem setPondState_inForce (ph : Nat) (st : PondState) : (setPondState s ph st).inForce = s.inForce := rfl
@[simp] theorem setPondState_captured (ph : Nat) (st : PondState) : (setPondState s ph st).captured = s.captured := rfl
@[simp] theorem setPondState_copies (ph : Nat) (st : PondState) : (setPondState s ph st).copies = s.copies := rfl
@[simp] theorem setPondState_mem (ph : Nat) (st : PondState) : (setPondState s ph st).mem = s.mem := rfl
@[simp] theorem setPondState_tree (ph : Nat) (st : PondState) : (setPondState s ph st).tree = s.tree := rfl
@[simp] theorem setPondState_tick (ph : Nat) (st : PondState) : (setPondState s ph st).tick = s.tick := rfl
@[simp] theorem setPondState_gangs (ph : Nat) (st : PondState) : (setPondState s ph st).gangs = s.gangs := rfl
@[simp] theorem setPondState_steps (ph : Nat) (st : PondState) : (setPondState s ph st).steps = s.steps := rfl
@[simp] theorem setPondState_ponds (ph : Nat) (st : PondState) : (setPondState s ph st).ponds = s.ponds := rfl
@[simp] theorem setPondState_programs (ph : Nat) (st : PondState) : (setPondState s ph st).programs = s.programs := rfl
@[simp] theorem setPondState_seq (ph : Nat) (st : PondState) : (setPondState s ph st).seq = s.seq := rfl
@[simp] theorem setPondState_tiers (ph : Nat) (st : PondState) : (setPondState s ph st).tiers = s.tiers := rfl
@[simp] theorem setPondState_intake (ph : Nat) (st : PondState) : (setPondState s ph st).intake = s.intake := rfl
@[simp] theorem setPondState_numerics (ph : Nat) (st : PondState) : (setPondState s ph st).numerics = s.numerics := rfl
@[simp] theorem setPondState_fabric (ph : Nat) (st : PondState) : (setPondState s ph st).fabric = s.fabric := rfl
@[simp] theorem setPondState_shares (ph : Nat) (st : PondState) : (setPondState s ph st).shares = s.shares := rfl
@[simp] theorem setPondState_requests (ph : Nat) (st : PondState) : (setPondState s ph st).requests = s.requests := rfl
@[simp] theorem setPondState_own (ph : Nat) (st : PondState) : (setPondState s ph st).own = s.own := rfl
@[simp] theorem setPondState_can (ph : Nat) (st : PondState) : (setPondState s ph st).can = s.can := rfl
@[simp] theorem setPondState_cells (ph : Nat) (st : PondState) : (setPondState s ph st).cells = s.cells := rfl
@[simp] theorem setPondState_weir (ph : Nat) (st : PondState) : (setPondState s ph st).weir = s.weir := rfl
@[simp] theorem setPondState_host (ph : Nat) (st : PondState) : (setPondState s ph st).host = s.host := rfl
@[simp] theorem setPondState_boot (ph : Nat) (st : PondState) : (setPondState s ph st).boot = s.boot := rfl
@[simp] theorem setPondState_secure (ph : Nat) (st : PondState) : (setPondState s ph st).secure = s.secure := rfl
@[simp] theorem setPondState_debugPort (ph : Nat) (st : PondState) : (setPondState s ph st).debugPort = s.debugPort := rfl
@[simp] theorem setPondState_power (ph : Nat) (st : PondState) : (setPondState s ph st).power = s.power := rfl
@[simp] theorem setPondState_pins (ph : Nat) (st : PondState) : (setPondState s ph st).pins = s.pins := rfl
@[simp] theorem setPondState_sent (ph : Nat) (st : PondState) : (setPondState s ph st).sent = s.sent := rfl

@[simp] theorem setPond_pending (ph : Nat) (pd : Pond) : (setPond s ph pd).pending = s.pending := rfl
@[simp] theorem setPond_now (ph : Nat) (pd : Pond) : (setPond s ph pd).now = s.now := rfl
@[simp] theorem setPond_fresh (ph : Nat) (pd : Pond) : (setPond s ph pd).fresh = s.fresh := rfl
@[simp] theorem setPond_nvm (ph : Nat) (pd : Pond) : (setPond s ph pd).nvm = s.nvm := rfl
@[simp] theorem setPond_dict (ph : Nat) (pd : Pond) : (setPond s ph pd).dict = s.dict := rfl
@[simp] theorem setPond_inForce (ph : Nat) (pd : Pond) : (setPond s ph pd).inForce = s.inForce := rfl
@[simp] theorem setPond_captured (ph : Nat) (pd : Pond) : (setPond s ph pd).captured = s.captured := rfl
@[simp] theorem setPond_copies (ph : Nat) (pd : Pond) : (setPond s ph pd).copies = s.copies := rfl
@[simp] theorem setPond_mem (ph : Nat) (pd : Pond) : (setPond s ph pd).mem = s.mem := rfl
@[simp] theorem setPond_map (ph : Nat) (pd : Pond) : (setPond s ph pd).map = s.map := rfl
@[simp] theorem setPond_tree (ph : Nat) (pd : Pond) : (setPond s ph pd).tree = s.tree := rfl
@[simp] theorem setPond_tick (ph : Nat) (pd : Pond) : (setPond s ph pd).tick = s.tick := rfl
@[simp] theorem setPond_gangs (ph : Nat) (pd : Pond) : (setPond s ph pd).gangs = s.gangs := rfl
@[simp] theorem setPond_steps (ph : Nat) (pd : Pond) : (setPond s ph pd).steps = s.steps := rfl
@[simp] theorem setPond_programs (ph : Nat) (pd : Pond) : (setPond s ph pd).programs = s.programs := rfl
@[simp] theorem setPond_seq (ph : Nat) (pd : Pond) : (setPond s ph pd).seq = s.seq := rfl
@[simp] theorem setPond_tiers (ph : Nat) (pd : Pond) : (setPond s ph pd).tiers = s.tiers := rfl
@[simp] theorem setPond_intake (ph : Nat) (pd : Pond) : (setPond s ph pd).intake = s.intake := rfl
@[simp] theorem setPond_numerics (ph : Nat) (pd : Pond) : (setPond s ph pd).numerics = s.numerics := rfl
@[simp] theorem setPond_fabric (ph : Nat) (pd : Pond) : (setPond s ph pd).fabric = s.fabric := rfl
@[simp] theorem setPond_shares (ph : Nat) (pd : Pond) : (setPond s ph pd).shares = s.shares := rfl
@[simp] theorem setPond_requests (ph : Nat) (pd : Pond) : (setPond s ph pd).requests = s.requests := rfl
@[simp] theorem setPond_own (ph : Nat) (pd : Pond) : (setPond s ph pd).own = s.own := rfl
@[simp] theorem setPond_can (ph : Nat) (pd : Pond) : (setPond s ph pd).can = s.can := rfl
@[simp] theorem setPond_cells (ph : Nat) (pd : Pond) : (setPond s ph pd).cells = s.cells := rfl
@[simp] theorem setPond_weir (ph : Nat) (pd : Pond) : (setPond s ph pd).weir = s.weir := rfl
@[simp] theorem setPond_host (ph : Nat) (pd : Pond) : (setPond s ph pd).host = s.host := rfl
@[simp] theorem setPond_boot (ph : Nat) (pd : Pond) : (setPond s ph pd).boot = s.boot := rfl
@[simp] theorem setPond_secure (ph : Nat) (pd : Pond) : (setPond s ph pd).secure = s.secure := rfl
@[simp] theorem setPond_debugPort (ph : Nat) (pd : Pond) : (setPond s ph pd).debugPort = s.debugPort := rfl
@[simp] theorem setPond_power (ph : Nat) (pd : Pond) : (setPond s ph pd).power = s.power := rfl
@[simp] theorem setPond_pins (ph : Nat) (pd : Pond) : (setPond s ph pd).pins = s.pins := rfl
@[simp] theorem setPond_sent (ph : Nat) (pd : Pond) : (setPond s ph pd).sent = s.sent := rfl

@[simp] theorem modPond_pending (ph : Nat) (f : Pond → Pond) : (modPond s ph f).pending = s.pending := rfl
@[simp] theorem modPond_now (ph : Nat) (f : Pond → Pond) : (modPond s ph f).now = s.now := rfl
@[simp] theorem modPond_fresh (ph : Nat) (f : Pond → Pond) : (modPond s ph f).fresh = s.fresh := rfl
@[simp] theorem modPond_nvm (ph : Nat) (f : Pond → Pond) : (modPond s ph f).nvm = s.nvm := rfl
@[simp] theorem modPond_dict (ph : Nat) (f : Pond → Pond) : (modPond s ph f).dict = s.dict := rfl
@[simp] theorem modPond_inForce (ph : Nat) (f : Pond → Pond) : (modPond s ph f).inForce = s.inForce := rfl
@[simp] theorem modPond_captured (ph : Nat) (f : Pond → Pond) : (modPond s ph f).captured = s.captured := rfl
@[simp] theorem modPond_copies (ph : Nat) (f : Pond → Pond) : (modPond s ph f).copies = s.copies := rfl
@[simp] theorem modPond_mem (ph : Nat) (f : Pond → Pond) : (modPond s ph f).mem = s.mem := rfl
@[simp] theorem modPond_map (ph : Nat) (f : Pond → Pond) : (modPond s ph f).map = s.map := rfl
@[simp] theorem modPond_tree (ph : Nat) (f : Pond → Pond) : (modPond s ph f).tree = s.tree := rfl
@[simp] theorem modPond_tick (ph : Nat) (f : Pond → Pond) : (modPond s ph f).tick = s.tick := rfl
@[simp] theorem modPond_gangs (ph : Nat) (f : Pond → Pond) : (modPond s ph f).gangs = s.gangs := rfl
@[simp] theorem modPond_steps (ph : Nat) (f : Pond → Pond) : (modPond s ph f).steps = s.steps := rfl
@[simp] theorem modPond_programs (ph : Nat) (f : Pond → Pond) : (modPond s ph f).programs = s.programs := rfl
@[simp] theorem modPond_seq (ph : Nat) (f : Pond → Pond) : (modPond s ph f).seq = s.seq := rfl
@[simp] theorem modPond_tiers (ph : Nat) (f : Pond → Pond) : (modPond s ph f).tiers = s.tiers := rfl
@[simp] theorem modPond_intake (ph : Nat) (f : Pond → Pond) : (modPond s ph f).intake = s.intake := rfl
@[simp] theorem modPond_numerics (ph : Nat) (f : Pond → Pond) : (modPond s ph f).numerics = s.numerics := rfl
@[simp] theorem modPond_fabric (ph : Nat) (f : Pond → Pond) : (modPond s ph f).fabric = s.fabric := rfl
@[simp] theorem modPond_shares (ph : Nat) (f : Pond → Pond) : (modPond s ph f).shares = s.shares := rfl
@[simp] theorem modPond_requests (ph : Nat) (f : Pond → Pond) : (modPond s ph f).requests = s.requests := rfl
@[simp] theorem modPond_own (ph : Nat) (f : Pond → Pond) : (modPond s ph f).own = s.own := rfl
@[simp] theorem modPond_can (ph : Nat) (f : Pond → Pond) : (modPond s ph f).can = s.can := rfl
@[simp] theorem modPond_cells (ph : Nat) (f : Pond → Pond) : (modPond s ph f).cells = s.cells := rfl
@[simp] theorem modPond_weir (ph : Nat) (f : Pond → Pond) : (modPond s ph f).weir = s.weir := rfl
@[simp] theorem modPond_host (ph : Nat) (f : Pond → Pond) : (modPond s ph f).host = s.host := rfl
@[simp] theorem modPond_boot (ph : Nat) (f : Pond → Pond) : (modPond s ph f).boot = s.boot := rfl
@[simp] theorem modPond_secure (ph : Nat) (f : Pond → Pond) : (modPond s ph f).secure = s.secure := rfl
@[simp] theorem modPond_debugPort (ph : Nat) (f : Pond → Pond) : (modPond s ph f).debugPort = s.debugPort := rfl
@[simp] theorem modPond_power (ph : Nat) (f : Pond → Pond) : (modPond s ph f).power = s.power := rfl
@[simp] theorem modPond_pins (ph : Nat) (f : Pond → Pond) : (modPond s ph f).pins = s.pins := rfl
@[simp] theorem modPond_sent (ph : Nat) (f : Pond → Pond) : (modPond s ph f).sent = s.sent := rfl

@[simp] theorem modCore_pending (ph : Nat) (f : Core → Core) : (modCore s ph f).pending = s.pending := rfl
@[simp] theorem modCore_now (ph : Nat) (f : Core → Core) : (modCore s ph f).now = s.now := rfl
@[simp] theorem modCore_fresh (ph : Nat) (f : Core → Core) : (modCore s ph f).fresh = s.fresh := rfl
@[simp] theorem modCore_nvm (ph : Nat) (f : Core → Core) : (modCore s ph f).nvm = s.nvm := rfl
@[simp] theorem modCore_dict (ph : Nat) (f : Core → Core) : (modCore s ph f).dict = s.dict := rfl
@[simp] theorem modCore_inForce (ph : Nat) (f : Core → Core) : (modCore s ph f).inForce = s.inForce := rfl
@[simp] theorem modCore_captured (ph : Nat) (f : Core → Core) : (modCore s ph f).captured = s.captured := rfl
@[simp] theorem modCore_copies (ph : Nat) (f : Core → Core) : (modCore s ph f).copies = s.copies := rfl
@[simp] theorem modCore_mem (ph : Nat) (f : Core → Core) : (modCore s ph f).mem = s.mem := rfl
@[simp] theorem modCore_map (ph : Nat) (f : Core → Core) : (modCore s ph f).map = s.map := rfl
@[simp] theorem modCore_tree (ph : Nat) (f : Core → Core) : (modCore s ph f).tree = s.tree := rfl
@[simp] theorem modCore_tick (ph : Nat) (f : Core → Core) : (modCore s ph f).tick = s.tick := rfl
@[simp] theorem modCore_gangs (ph : Nat) (f : Core → Core) : (modCore s ph f).gangs = s.gangs := rfl
@[simp] theorem modCore_steps (ph : Nat) (f : Core → Core) : (modCore s ph f).steps = s.steps := rfl
@[simp] theorem modCore_programs (ph : Nat) (f : Core → Core) : (modCore s ph f).programs = s.programs := rfl
@[simp] theorem modCore_seq (ph : Nat) (f : Core → Core) : (modCore s ph f).seq = s.seq := rfl
@[simp] theorem modCore_tiers (ph : Nat) (f : Core → Core) : (modCore s ph f).tiers = s.tiers := rfl
@[simp] theorem modCore_intake (ph : Nat) (f : Core → Core) : (modCore s ph f).intake = s.intake := rfl
@[simp] theorem modCore_numerics (ph : Nat) (f : Core → Core) : (modCore s ph f).numerics = s.numerics := rfl
@[simp] theorem modCore_fabric (ph : Nat) (f : Core → Core) : (modCore s ph f).fabric = s.fabric := rfl
@[simp] theorem modCore_shares (ph : Nat) (f : Core → Core) : (modCore s ph f).shares = s.shares := rfl
@[simp] theorem modCore_requests (ph : Nat) (f : Core → Core) : (modCore s ph f).requests = s.requests := rfl
@[simp] theorem modCore_own (ph : Nat) (f : Core → Core) : (modCore s ph f).own = s.own := rfl
@[simp] theorem modCore_can (ph : Nat) (f : Core → Core) : (modCore s ph f).can = s.can := rfl
@[simp] theorem modCore_cells (ph : Nat) (f : Core → Core) : (modCore s ph f).cells = s.cells := rfl
@[simp] theorem modCore_weir (ph : Nat) (f : Core → Core) : (modCore s ph f).weir = s.weir := rfl
@[simp] theorem modCore_host (ph : Nat) (f : Core → Core) : (modCore s ph f).host = s.host := rfl
@[simp] theorem modCore_boot (ph : Nat) (f : Core → Core) : (modCore s ph f).boot = s.boot := rfl
@[simp] theorem modCore_secure (ph : Nat) (f : Core → Core) : (modCore s ph f).secure = s.secure := rfl
@[simp] theorem modCore_debugPort (ph : Nat) (f : Core → Core) : (modCore s ph f).debugPort = s.debugPort := rfl
@[simp] theorem modCore_power (ph : Nat) (f : Core → Core) : (modCore s ph f).power = s.power := rfl
@[simp] theorem modCore_pins (ph : Nat) (f : Core → Core) : (modCore s ph f).pins = s.pins := rfl
@[simp] theorem modCore_sent (ph : Nat) (f : Core → Core) : (modCore s ph f).sent = s.sent := rfl

@[simp] theorem setDir_pending (n : Nat) (r : DirRecord) : (setDir s n r).pending = s.pending := rfl
@[simp] theorem setDir_now (n : Nat) (r : DirRecord) : (setDir s n r).now = s.now := rfl
@[simp] theorem setDir_fresh (n : Nat) (r : DirRecord) : (setDir s n r).fresh = s.fresh := rfl
@[simp] theorem setDir_nvm (n : Nat) (r : DirRecord) : (setDir s n r).nvm = s.nvm := rfl
@[simp] theorem setDir_dict (n : Nat) (r : DirRecord) : (setDir s n r).dict = s.dict := rfl
@[simp] theorem setDir_inForce (n : Nat) (r : DirRecord) : (setDir s n r).inForce = s.inForce := rfl
@[simp] theorem setDir_captured (n : Nat) (r : DirRecord) : (setDir s n r).captured = s.captured := rfl
@[simp] theorem setDir_copies (n : Nat) (r : DirRecord) : (setDir s n r).copies = s.copies := rfl
@[simp] theorem setDir_mem (n : Nat) (r : DirRecord) : (setDir s n r).mem = s.mem := rfl
@[simp] theorem setDir_map (n : Nat) (r : DirRecord) : (setDir s n r).map = s.map := rfl
@[simp] theorem setDir_tree (n : Nat) (r : DirRecord) : (setDir s n r).tree = s.tree := rfl
@[simp] theorem setDir_tick (n : Nat) (r : DirRecord) : (setDir s n r).tick = s.tick := rfl
@[simp] theorem setDir_gangs (n : Nat) (r : DirRecord) : (setDir s n r).gangs = s.gangs := rfl
@[simp] theorem setDir_steps (n : Nat) (r : DirRecord) : (setDir s n r).steps = s.steps := rfl
@[simp] theorem setDir_ponds (n : Nat) (r : DirRecord) : (setDir s n r).ponds = s.ponds := rfl
@[simp] theorem setDir_seq (n : Nat) (r : DirRecord) : (setDir s n r).seq = s.seq := rfl
@[simp] theorem setDir_tiers (n : Nat) (r : DirRecord) : (setDir s n r).tiers = s.tiers := rfl
@[simp] theorem setDir_intake (n : Nat) (r : DirRecord) : (setDir s n r).intake = s.intake := rfl
@[simp] theorem setDir_numerics (n : Nat) (r : DirRecord) : (setDir s n r).numerics = s.numerics := rfl
@[simp] theorem setDir_fabric (n : Nat) (r : DirRecord) : (setDir s n r).fabric = s.fabric := rfl
@[simp] theorem setDir_shares (n : Nat) (r : DirRecord) : (setDir s n r).shares = s.shares := rfl
@[simp] theorem setDir_requests (n : Nat) (r : DirRecord) : (setDir s n r).requests = s.requests := rfl
@[simp] theorem setDir_own (n : Nat) (r : DirRecord) : (setDir s n r).own = s.own := rfl
@[simp] theorem setDir_can (n : Nat) (r : DirRecord) : (setDir s n r).can = s.can := rfl
@[simp] theorem setDir_cells (n : Nat) (r : DirRecord) : (setDir s n r).cells = s.cells := rfl
@[simp] theorem setDir_weir (n : Nat) (r : DirRecord) : (setDir s n r).weir = s.weir := rfl
@[simp] theorem setDir_host (n : Nat) (r : DirRecord) : (setDir s n r).host = s.host := rfl
@[simp] theorem setDir_boot (n : Nat) (r : DirRecord) : (setDir s n r).boot = s.boot := rfl
@[simp] theorem setDir_secure (n : Nat) (r : DirRecord) : (setDir s n r).secure = s.secure := rfl
@[simp] theorem setDir_debugPort (n : Nat) (r : DirRecord) : (setDir s n r).debugPort = s.debugPort := rfl
@[simp] theorem setDir_power (n : Nat) (r : DirRecord) : (setDir s n r).power = s.power := rfl
@[simp] theorem setDir_pins (n : Nat) (r : DirRecord) : (setDir s n r).pins = s.pins := rfl
@[simp] theorem setDir_sent (n : Nat) (r : DirRecord) : (setDir s n r).sent = s.sent := rfl

@[simp] theorem setFuture_pending (f : Nat) (e : Future) : (setFuture s f e).pending = s.pending := rfl
@[simp] theorem setFuture_now (f : Nat) (e : Future) : (setFuture s f e).now = s.now := rfl
@[simp] theorem setFuture_fresh (f : Nat) (e : Future) : (setFuture s f e).fresh = s.fresh := rfl
@[simp] theorem setFuture_nvm (f : Nat) (e : Future) : (setFuture s f e).nvm = s.nvm := rfl
@[simp] theorem setFuture_dict (f : Nat) (e : Future) : (setFuture s f e).dict = s.dict := rfl
@[simp] theorem setFuture_inForce (f : Nat) (e : Future) : (setFuture s f e).inForce = s.inForce := rfl
@[simp] theorem setFuture_captured (f : Nat) (e : Future) : (setFuture s f e).captured = s.captured := rfl
@[simp] theorem setFuture_copies (f : Nat) (e : Future) : (setFuture s f e).copies = s.copies := rfl
@[simp] theorem setFuture_mem (f : Nat) (e : Future) : (setFuture s f e).mem = s.mem := rfl
@[simp] theorem setFuture_map (f : Nat) (e : Future) : (setFuture s f e).map = s.map := rfl
@[simp] theorem setFuture_tree (f : Nat) (e : Future) : (setFuture s f e).tree = s.tree := rfl
@[simp] theorem setFuture_tick (f : Nat) (e : Future) : (setFuture s f e).tick = s.tick := rfl
@[simp] theorem setFuture_gangs (f : Nat) (e : Future) : (setFuture s f e).gangs = s.gangs := rfl
@[simp] theorem setFuture_steps (f : Nat) (e : Future) : (setFuture s f e).steps = s.steps := rfl
@[simp] theorem setFuture_ponds (f : Nat) (e : Future) : (setFuture s f e).ponds = s.ponds := rfl
@[simp] theorem setFuture_programs (f : Nat) (e : Future) : (setFuture s f e).programs = s.programs := rfl
@[simp] theorem setFuture_tiers (f : Nat) (e : Future) : (setFuture s f e).tiers = s.tiers := rfl
@[simp] theorem setFuture_intake (f : Nat) (e : Future) : (setFuture s f e).intake = s.intake := rfl
@[simp] theorem setFuture_numerics (f : Nat) (e : Future) : (setFuture s f e).numerics = s.numerics := rfl
@[simp] theorem setFuture_fabric (f : Nat) (e : Future) : (setFuture s f e).fabric = s.fabric := rfl
@[simp] theorem setFuture_shares (f : Nat) (e : Future) : (setFuture s f e).shares = s.shares := rfl
@[simp] theorem setFuture_requests (f : Nat) (e : Future) : (setFuture s f e).requests = s.requests := rfl
@[simp] theorem setFuture_own (f : Nat) (e : Future) : (setFuture s f e).own = s.own := rfl
@[simp] theorem setFuture_can (f : Nat) (e : Future) : (setFuture s f e).can = s.can := rfl
@[simp] theorem setFuture_cells (f : Nat) (e : Future) : (setFuture s f e).cells = s.cells := rfl
@[simp] theorem setFuture_weir (f : Nat) (e : Future) : (setFuture s f e).weir = s.weir := rfl
@[simp] theorem setFuture_host (f : Nat) (e : Future) : (setFuture s f e).host = s.host := rfl
@[simp] theorem setFuture_boot (f : Nat) (e : Future) : (setFuture s f e).boot = s.boot := rfl
@[simp] theorem setFuture_secure (f : Nat) (e : Future) : (setFuture s f e).secure = s.secure := rfl
@[simp] theorem setFuture_debugPort (f : Nat) (e : Future) : (setFuture s f e).debugPort = s.debugPort := rfl
@[simp] theorem setFuture_power (f : Nat) (e : Future) : (setFuture s f e).power = s.power := rfl
@[simp] theorem setFuture_pins (f : Nat) (e : Future) : (setFuture s f e).pins = s.pins := rfl
@[simp] theorem setFuture_sent (f : Nat) (e : Future) : (setFuture s f e).sent = s.sent := rfl

@[simp] theorem setGang_pending (g : Nat) (v : Gang) : (setGang s g v).pending = s.pending := rfl
@[simp] theorem setGang_now (g : Nat) (v : Gang) : (setGang s g v).now = s.now := rfl
@[simp] theorem setGang_fresh (g : Nat) (v : Gang) : (setGang s g v).fresh = s.fresh := rfl
@[simp] theorem setGang_nvm (g : Nat) (v : Gang) : (setGang s g v).nvm = s.nvm := rfl
@[simp] theorem setGang_dict (g : Nat) (v : Gang) : (setGang s g v).dict = s.dict := rfl
@[simp] theorem setGang_inForce (g : Nat) (v : Gang) : (setGang s g v).inForce = s.inForce := rfl
@[simp] theorem setGang_captured (g : Nat) (v : Gang) : (setGang s g v).captured = s.captured := rfl
@[simp] theorem setGang_copies (g : Nat) (v : Gang) : (setGang s g v).copies = s.copies := rfl
@[simp] theorem setGang_mem (g : Nat) (v : Gang) : (setGang s g v).mem = s.mem := rfl
@[simp] theorem setGang_map (g : Nat) (v : Gang) : (setGang s g v).map = s.map := rfl
@[simp] theorem setGang_tree (g : Nat) (v : Gang) : (setGang s g v).tree = s.tree := rfl
@[simp] theorem setGang_tick (g : Nat) (v : Gang) : (setGang s g v).tick = s.tick := rfl
@[simp] theorem setGang_steps (g : Nat) (v : Gang) : (setGang s g v).steps = s.steps := rfl
@[simp] theorem setGang_ponds (g : Nat) (v : Gang) : (setGang s g v).ponds = s.ponds := rfl
@[simp] theorem setGang_programs (g : Nat) (v : Gang) : (setGang s g v).programs = s.programs := rfl
@[simp] theorem setGang_seq (g : Nat) (v : Gang) : (setGang s g v).seq = s.seq := rfl
@[simp] theorem setGang_tiers (g : Nat) (v : Gang) : (setGang s g v).tiers = s.tiers := rfl
@[simp] theorem setGang_intake (g : Nat) (v : Gang) : (setGang s g v).intake = s.intake := rfl
@[simp] theorem setGang_numerics (g : Nat) (v : Gang) : (setGang s g v).numerics = s.numerics := rfl
@[simp] theorem setGang_fabric (g : Nat) (v : Gang) : (setGang s g v).fabric = s.fabric := rfl
@[simp] theorem setGang_shares (g : Nat) (v : Gang) : (setGang s g v).shares = s.shares := rfl
@[simp] theorem setGang_requests (g : Nat) (v : Gang) : (setGang s g v).requests = s.requests := rfl
@[simp] theorem setGang_own (g : Nat) (v : Gang) : (setGang s g v).own = s.own := rfl
@[simp] theorem setGang_can (g : Nat) (v : Gang) : (setGang s g v).can = s.can := rfl
@[simp] theorem setGang_cells (g : Nat) (v : Gang) : (setGang s g v).cells = s.cells := rfl
@[simp] theorem setGang_weir (g : Nat) (v : Gang) : (setGang s g v).weir = s.weir := rfl
@[simp] theorem setGang_host (g : Nat) (v : Gang) : (setGang s g v).host = s.host := rfl
@[simp] theorem setGang_boot (g : Nat) (v : Gang) : (setGang s g v).boot = s.boot := rfl
@[simp] theorem setGang_secure (g : Nat) (v : Gang) : (setGang s g v).secure = s.secure := rfl
@[simp] theorem setGang_debugPort (g : Nat) (v : Gang) : (setGang s g v).debugPort = s.debugPort := rfl
@[simp] theorem setGang_power (g : Nat) (v : Gang) : (setGang s g v).power = s.power := rfl
@[simp] theorem setGang_pins (g : Nat) (v : Gang) : (setGang s g v).pins = s.pins := rfl
@[simp] theorem setGang_sent (g : Nat) (v : Gang) : (setGang s g v).sent = s.sent := rfl

@[simp] theorem setStep_pending (f : Nat) (r : StepRec) : (setStep s f r).pending = s.pending := rfl
@[simp] theorem setStep_now (f : Nat) (r : StepRec) : (setStep s f r).now = s.now := rfl
@[simp] theorem setStep_fresh (f : Nat) (r : StepRec) : (setStep s f r).fresh = s.fresh := rfl
@[simp] theorem setStep_nvm (f : Nat) (r : StepRec) : (setStep s f r).nvm = s.nvm := rfl
@[simp] theorem setStep_dict (f : Nat) (r : StepRec) : (setStep s f r).dict = s.dict := rfl
@[simp] theorem setStep_inForce (f : Nat) (r : StepRec) : (setStep s f r).inForce = s.inForce := rfl
@[simp] theorem setStep_captured (f : Nat) (r : StepRec) : (setStep s f r).captured = s.captured := rfl
@[simp] theorem setStep_copies (f : Nat) (r : StepRec) : (setStep s f r).copies = s.copies := rfl
@[simp] theorem setStep_mem (f : Nat) (r : StepRec) : (setStep s f r).mem = s.mem := rfl
@[simp] theorem setStep_map (f : Nat) (r : StepRec) : (setStep s f r).map = s.map := rfl
@[simp] theorem setStep_tree (f : Nat) (r : StepRec) : (setStep s f r).tree = s.tree := rfl
@[simp] theorem setStep_tick (f : Nat) (r : StepRec) : (setStep s f r).tick = s.tick := rfl
@[simp] theorem setStep_gangs (f : Nat) (r : StepRec) : (setStep s f r).gangs = s.gangs := rfl
@[simp] theorem setStep_ponds (f : Nat) (r : StepRec) : (setStep s f r).ponds = s.ponds := rfl
@[simp] theorem setStep_programs (f : Nat) (r : StepRec) : (setStep s f r).programs = s.programs := rfl
@[simp] theorem setStep_seq (f : Nat) (r : StepRec) : (setStep s f r).seq = s.seq := rfl
@[simp] theorem setStep_tiers (f : Nat) (r : StepRec) : (setStep s f r).tiers = s.tiers := rfl
@[simp] theorem setStep_intake (f : Nat) (r : StepRec) : (setStep s f r).intake = s.intake := rfl
@[simp] theorem setStep_numerics (f : Nat) (r : StepRec) : (setStep s f r).numerics = s.numerics := rfl
@[simp] theorem setStep_fabric (f : Nat) (r : StepRec) : (setStep s f r).fabric = s.fabric := rfl
@[simp] theorem setStep_shares (f : Nat) (r : StepRec) : (setStep s f r).shares = s.shares := rfl
@[simp] theorem setStep_requests (f : Nat) (r : StepRec) : (setStep s f r).requests = s.requests := rfl
@[simp] theorem setStep_own (f : Nat) (r : StepRec) : (setStep s f r).own = s.own := rfl
@[simp] theorem setStep_can (f : Nat) (r : StepRec) : (setStep s f r).can = s.can := rfl
@[simp] theorem setStep_cells (f : Nat) (r : StepRec) : (setStep s f r).cells = s.cells := rfl
@[simp] theorem setStep_weir (f : Nat) (r : StepRec) : (setStep s f r).weir = s.weir := rfl
@[simp] theorem setStep_host (f : Nat) (r : StepRec) : (setStep s f r).host = s.host := rfl
@[simp] theorem setStep_boot (f : Nat) (r : StepRec) : (setStep s f r).boot = s.boot := rfl
@[simp] theorem setStep_secure (f : Nat) (r : StepRec) : (setStep s f r).secure = s.secure := rfl
@[simp] theorem setStep_debugPort (f : Nat) (r : StepRec) : (setStep s f r).debugPort = s.debugPort := rfl
@[simp] theorem setStep_power (f : Nat) (r : StepRec) : (setStep s f r).power = s.power := rfl
@[simp] theorem setStep_pins (f : Nat) (r : StepRec) : (setStep s f r).pins = s.pins := rfl
@[simp] theorem setStep_sent (f : Nat) (r : StepRec) : (setStep s f r).sent = s.sent := rfl

@[simp] theorem send_pending (o : Output) : (send s o).pending = s.pending := rfl
@[simp] theorem send_now (o : Output) : (send s o).now = s.now := rfl
@[simp] theorem send_fresh (o : Output) : (send s o).fresh = s.fresh := rfl
@[simp] theorem send_nvm (o : Output) : (send s o).nvm = s.nvm := rfl
@[simp] theorem send_dict (o : Output) : (send s o).dict = s.dict := rfl
@[simp] theorem send_inForce (o : Output) : (send s o).inForce = s.inForce := rfl
@[simp] theorem send_captured (o : Output) : (send s o).captured = s.captured := rfl
@[simp] theorem send_copies (o : Output) : (send s o).copies = s.copies := rfl
@[simp] theorem send_mem (o : Output) : (send s o).mem = s.mem := rfl
@[simp] theorem send_map (o : Output) : (send s o).map = s.map := rfl
@[simp] theorem send_tree (o : Output) : (send s o).tree = s.tree := rfl
@[simp] theorem send_tick (o : Output) : (send s o).tick = s.tick := rfl
@[simp] theorem send_gangs (o : Output) : (send s o).gangs = s.gangs := rfl
@[simp] theorem send_steps (o : Output) : (send s o).steps = s.steps := rfl
@[simp] theorem send_ponds (o : Output) : (send s o).ponds = s.ponds := rfl
@[simp] theorem send_programs (o : Output) : (send s o).programs = s.programs := rfl
@[simp] theorem send_seq (o : Output) : (send s o).seq = s.seq := rfl
@[simp] theorem send_tiers (o : Output) : (send s o).tiers = s.tiers := rfl
@[simp] theorem send_intake (o : Output) : (send s o).intake = s.intake := rfl
@[simp] theorem send_numerics (o : Output) : (send s o).numerics = s.numerics := rfl
@[simp] theorem send_fabric (o : Output) : (send s o).fabric = s.fabric := rfl
@[simp] theorem send_shares (o : Output) : (send s o).shares = s.shares := rfl
@[simp] theorem send_requests (o : Output) : (send s o).requests = s.requests := rfl
@[simp] theorem send_own (o : Output) : (send s o).own = s.own := rfl
@[simp] theorem send_can (o : Output) : (send s o).can = s.can := rfl
@[simp] theorem send_cells (o : Output) : (send s o).cells = s.cells := rfl
@[simp] theorem send_weir (o : Output) : (send s o).weir = s.weir := rfl
@[simp] theorem send_host (o : Output) : (send s o).host = s.host := rfl
@[simp] theorem send_boot (o : Output) : (send s o).boot = s.boot := rfl
@[simp] theorem send_secure (o : Output) : (send s o).secure = s.secure := rfl
@[simp] theorem send_debugPort (o : Output) : (send s o).debugPort = s.debugPort := rfl
@[simp] theorem send_power (o : Output) : (send s o).power = s.power := rfl
@[simp] theorem send_pins (o : Output) : (send s o).pins = s.pins := rfl

@[simp] theorem advanceTo_pending (t : Nat) : (advanceTo s t).pending = s.pending := rfl
@[simp] theorem advanceTo_fresh (t : Nat) : (advanceTo s t).fresh = s.fresh := rfl
@[simp] theorem advanceTo_nvm (t : Nat) : (advanceTo s t).nvm = s.nvm := rfl
@[simp] theorem advanceTo_dict (t : Nat) : (advanceTo s t).dict = s.dict := rfl
@[simp] theorem advanceTo_inForce (t : Nat) : (advanceTo s t).inForce = s.inForce := rfl
@[simp] theorem advanceTo_captured (t : Nat) : (advanceTo s t).captured = s.captured := rfl
@[simp] theorem advanceTo_copies (t : Nat) : (advanceTo s t).copies = s.copies := rfl
@[simp] theorem advanceTo_mem (t : Nat) : (advanceTo s t).mem = s.mem := rfl
@[simp] theorem advanceTo_map (t : Nat) : (advanceTo s t).map = s.map := rfl
@[simp] theorem advanceTo_tree (t : Nat) : (advanceTo s t).tree = s.tree := rfl
@[simp] theorem advanceTo_tick (t : Nat) : (advanceTo s t).tick = s.tick := rfl
@[simp] theorem advanceTo_gangs (t : Nat) : (advanceTo s t).gangs = s.gangs := rfl
@[simp] theorem advanceTo_steps (t : Nat) : (advanceTo s t).steps = s.steps := rfl
@[simp] theorem advanceTo_ponds (t : Nat) : (advanceTo s t).ponds = s.ponds := rfl
@[simp] theorem advanceTo_programs (t : Nat) : (advanceTo s t).programs = s.programs := rfl
@[simp] theorem advanceTo_seq (t : Nat) : (advanceTo s t).seq = s.seq := rfl
@[simp] theorem advanceTo_tiers (t : Nat) : (advanceTo s t).tiers = s.tiers := rfl
@[simp] theorem advanceTo_intake (t : Nat) : (advanceTo s t).intake = s.intake := rfl
@[simp] theorem advanceTo_numerics (t : Nat) : (advanceTo s t).numerics = s.numerics := rfl
@[simp] theorem advanceTo_fabric (t : Nat) : (advanceTo s t).fabric = s.fabric := rfl
@[simp] theorem advanceTo_shares (t : Nat) : (advanceTo s t).shares = s.shares := rfl
@[simp] theorem advanceTo_requests (t : Nat) : (advanceTo s t).requests = s.requests := rfl
@[simp] theorem advanceTo_own (t : Nat) : (advanceTo s t).own = s.own := rfl
@[simp] theorem advanceTo_can (t : Nat) : (advanceTo s t).can = s.can := rfl
@[simp] theorem advanceTo_cells (t : Nat) : (advanceTo s t).cells = s.cells := rfl
@[simp] theorem advanceTo_weir (t : Nat) : (advanceTo s t).weir = s.weir := rfl
@[simp] theorem advanceTo_host (t : Nat) : (advanceTo s t).host = s.host := rfl
@[simp] theorem advanceTo_boot (t : Nat) : (advanceTo s t).boot = s.boot := rfl
@[simp] theorem advanceTo_secure (t : Nat) : (advanceTo s t).secure = s.secure := rfl
@[simp] theorem advanceTo_debugPort (t : Nat) : (advanceTo s t).debugPort = s.debugPort := rfl
@[simp] theorem advanceTo_power (t : Nat) : (advanceTo s t).power = s.power := rfl
@[simp] theorem advanceTo_pins (t : Nat) : (advanceTo s t).pins = s.pins := rfl
@[simp] theorem advanceTo_sent (t : Nat) : (advanceTo s t).sent = s.sent := rfl

@[simp] theorem setExtent_pending (e : Nat) (x : Extent) : (setExtent s e x).pending = s.pending := rfl
@[simp] theorem setExtent_now (e : Nat) (x : Extent) : (setExtent s e x).now = s.now := rfl
@[simp] theorem setExtent_fresh (e : Nat) (x : Extent) : (setExtent s e x).fresh = s.fresh := rfl
@[simp] theorem setExtent_nvm (e : Nat) (x : Extent) : (setExtent s e x).nvm = s.nvm := rfl
@[simp] theorem setExtent_dict (e : Nat) (x : Extent) : (setExtent s e x).dict = s.dict := rfl
@[simp] theorem setExtent_inForce (e : Nat) (x : Extent) : (setExtent s e x).inForce = s.inForce := rfl
@[simp] theorem setExtent_captured (e : Nat) (x : Extent) : (setExtent s e x).captured = s.captured := rfl
@[simp] theorem setExtent_copies (e : Nat) (x : Extent) : (setExtent s e x).copies = s.copies := rfl
@[simp] theorem setExtent_mem (e : Nat) (x : Extent) : (setExtent s e x).mem = s.mem := rfl
@[simp] theorem setExtent_map (e : Nat) (x : Extent) : (setExtent s e x).map = s.map := rfl
@[simp] theorem setExtent_tree (e : Nat) (x : Extent) : (setExtent s e x).tree = s.tree := rfl
@[simp] theorem setExtent_tick (e : Nat) (x : Extent) : (setExtent s e x).tick = s.tick := rfl
@[simp] theorem setExtent_gangs (e : Nat) (x : Extent) : (setExtent s e x).gangs = s.gangs := rfl
@[simp] theorem setExtent_steps (e : Nat) (x : Extent) : (setExtent s e x).steps = s.steps := rfl
@[simp] theorem setExtent_ponds (e : Nat) (x : Extent) : (setExtent s e x).ponds = s.ponds := rfl
@[simp] theorem setExtent_programs (e : Nat) (x : Extent) : (setExtent s e x).programs = s.programs := rfl
@[simp] theorem setExtent_seq (e : Nat) (x : Extent) : (setExtent s e x).seq = s.seq := rfl
@[simp] theorem setExtent_intake (e : Nat) (x : Extent) : (setExtent s e x).intake = s.intake := rfl
@[simp] theorem setExtent_numerics (e : Nat) (x : Extent) : (setExtent s e x).numerics = s.numerics := rfl
@[simp] theorem setExtent_fabric (e : Nat) (x : Extent) : (setExtent s e x).fabric = s.fabric := rfl
@[simp] theorem setExtent_shares (e : Nat) (x : Extent) : (setExtent s e x).shares = s.shares := rfl
@[simp] theorem setExtent_requests (e : Nat) (x : Extent) : (setExtent s e x).requests = s.requests := rfl
@[simp] theorem setExtent_own (e : Nat) (x : Extent) : (setExtent s e x).own = s.own := rfl
@[simp] theorem setExtent_can (e : Nat) (x : Extent) : (setExtent s e x).can = s.can := rfl
@[simp] theorem setExtent_cells (e : Nat) (x : Extent) : (setExtent s e x).cells = s.cells := rfl
@[simp] theorem setExtent_weir (e : Nat) (x : Extent) : (setExtent s e x).weir = s.weir := rfl
@[simp] theorem setExtent_host (e : Nat) (x : Extent) : (setExtent s e x).host = s.host := rfl
@[simp] theorem setExtent_boot (e : Nat) (x : Extent) : (setExtent s e x).boot = s.boot := rfl
@[simp] theorem setExtent_secure (e : Nat) (x : Extent) : (setExtent s e x).secure = s.secure := rfl
@[simp] theorem setExtent_debugPort (e : Nat) (x : Extent) : (setExtent s e x).debugPort = s.debugPort := rfl
@[simp] theorem setExtent_power (e : Nat) (x : Extent) : (setExtent s e x).power = s.power := rfl
@[simp] theorem setExtent_pins (e : Nat) (x : Extent) : (setExtent s e x).pins = s.pins := rfl
@[simp] theorem setExtent_sent (e : Nat) (x : Extent) : (setExtent s e x).sent = s.sent := rfl

@[simp] theorem setObject_pending (i : Nat) (o : Obj) : (setObject s i o).pending = s.pending := rfl
@[simp] theorem setObject_now (i : Nat) (o : Obj) : (setObject s i o).now = s.now := rfl
@[simp] theorem setObject_fresh (i : Nat) (o : Obj) : (setObject s i o).fresh = s.fresh := rfl
@[simp] theorem setObject_nvm (i : Nat) (o : Obj) : (setObject s i o).nvm = s.nvm := rfl
@[simp] theorem setObject_dict (i : Nat) (o : Obj) : (setObject s i o).dict = s.dict := rfl
@[simp] theorem setObject_inForce (i : Nat) (o : Obj) : (setObject s i o).inForce = s.inForce := rfl
@[simp] theorem setObject_captured (i : Nat) (o : Obj) : (setObject s i o).captured = s.captured := rfl
@[simp] theorem setObject_copies (i : Nat) (o : Obj) : (setObject s i o).copies = s.copies := rfl
@[simp] theorem setObject_mem (i : Nat) (o : Obj) : (setObject s i o).mem = s.mem := rfl
@[simp] theorem setObject_map (i : Nat) (o : Obj) : (setObject s i o).map = s.map := rfl
@[simp] theorem setObject_tree (i : Nat) (o : Obj) : (setObject s i o).tree = s.tree := rfl
@[simp] theorem setObject_tick (i : Nat) (o : Obj) : (setObject s i o).tick = s.tick := rfl
@[simp] theorem setObject_gangs (i : Nat) (o : Obj) : (setObject s i o).gangs = s.gangs := rfl
@[simp] theorem setObject_steps (i : Nat) (o : Obj) : (setObject s i o).steps = s.steps := rfl
@[simp] theorem setObject_ponds (i : Nat) (o : Obj) : (setObject s i o).ponds = s.ponds := rfl
@[simp] theorem setObject_programs (i : Nat) (o : Obj) : (setObject s i o).programs = s.programs := rfl
@[simp] theorem setObject_seq (i : Nat) (o : Obj) : (setObject s i o).seq = s.seq := rfl
@[simp] theorem setObject_intake (i : Nat) (o : Obj) : (setObject s i o).intake = s.intake := rfl
@[simp] theorem setObject_numerics (i : Nat) (o : Obj) : (setObject s i o).numerics = s.numerics := rfl
@[simp] theorem setObject_fabric (i : Nat) (o : Obj) : (setObject s i o).fabric = s.fabric := rfl
@[simp] theorem setObject_shares (i : Nat) (o : Obj) : (setObject s i o).shares = s.shares := rfl
@[simp] theorem setObject_requests (i : Nat) (o : Obj) : (setObject s i o).requests = s.requests := rfl
@[simp] theorem setObject_own (i : Nat) (o : Obj) : (setObject s i o).own = s.own := rfl
@[simp] theorem setObject_can (i : Nat) (o : Obj) : (setObject s i o).can = s.can := rfl
@[simp] theorem setObject_cells (i : Nat) (o : Obj) : (setObject s i o).cells = s.cells := rfl
@[simp] theorem setObject_weir (i : Nat) (o : Obj) : (setObject s i o).weir = s.weir := rfl
@[simp] theorem setObject_host (i : Nat) (o : Obj) : (setObject s i o).host = s.host := rfl
@[simp] theorem setObject_boot (i : Nat) (o : Obj) : (setObject s i o).boot = s.boot := rfl
@[simp] theorem setObject_secure (i : Nat) (o : Obj) : (setObject s i o).secure = s.secure := rfl
@[simp] theorem setObject_debugPort (i : Nat) (o : Obj) : (setObject s i o).debugPort = s.debugPort := rfl
@[simp] theorem setObject_power (i : Nat) (o : Obj) : (setObject s i o).power = s.power := rfl
@[simp] theorem setObject_pins (i : Nat) (o : Obj) : (setObject s i o).pins = s.pins := rfl
@[simp] theorem setObject_sent (i : Nat) (o : Obj) : (setObject s i o).sent = s.sent := rfl

@[simp] theorem markFrame_pending (t f : Nat) (u : Bool) : (markFrame s t f u).pending = s.pending := rfl
@[simp] theorem markFrame_now (t f : Nat) (u : Bool) : (markFrame s t f u).now = s.now := rfl
@[simp] theorem markFrame_fresh (t f : Nat) (u : Bool) : (markFrame s t f u).fresh = s.fresh := rfl
@[simp] theorem markFrame_nvm (t f : Nat) (u : Bool) : (markFrame s t f u).nvm = s.nvm := rfl
@[simp] theorem markFrame_dict (t f : Nat) (u : Bool) : (markFrame s t f u).dict = s.dict := rfl
@[simp] theorem markFrame_inForce (t f : Nat) (u : Bool) : (markFrame s t f u).inForce = s.inForce := rfl
@[simp] theorem markFrame_captured (t f : Nat) (u : Bool) : (markFrame s t f u).captured = s.captured := rfl
@[simp] theorem markFrame_copies (t f : Nat) (u : Bool) : (markFrame s t f u).copies = s.copies := rfl
@[simp] theorem markFrame_mem (t f : Nat) (u : Bool) : (markFrame s t f u).mem = s.mem := rfl
@[simp] theorem markFrame_map (t f : Nat) (u : Bool) : (markFrame s t f u).map = s.map := rfl
@[simp] theorem markFrame_tree (t f : Nat) (u : Bool) : (markFrame s t f u).tree = s.tree := rfl
@[simp] theorem markFrame_tick (t f : Nat) (u : Bool) : (markFrame s t f u).tick = s.tick := rfl
@[simp] theorem markFrame_gangs (t f : Nat) (u : Bool) : (markFrame s t f u).gangs = s.gangs := rfl
@[simp] theorem markFrame_steps (t f : Nat) (u : Bool) : (markFrame s t f u).steps = s.steps := rfl
@[simp] theorem markFrame_ponds (t f : Nat) (u : Bool) : (markFrame s t f u).ponds = s.ponds := rfl
@[simp] theorem markFrame_programs (t f : Nat) (u : Bool) : (markFrame s t f u).programs = s.programs := rfl
@[simp] theorem markFrame_seq (t f : Nat) (u : Bool) : (markFrame s t f u).seq = s.seq := rfl
@[simp] theorem markFrame_intake (t f : Nat) (u : Bool) : (markFrame s t f u).intake = s.intake := rfl
@[simp] theorem markFrame_numerics (t f : Nat) (u : Bool) : (markFrame s t f u).numerics = s.numerics := rfl
@[simp] theorem markFrame_fabric (t f : Nat) (u : Bool) : (markFrame s t f u).fabric = s.fabric := rfl
@[simp] theorem markFrame_shares (t f : Nat) (u : Bool) : (markFrame s t f u).shares = s.shares := rfl
@[simp] theorem markFrame_requests (t f : Nat) (u : Bool) : (markFrame s t f u).requests = s.requests := rfl
@[simp] theorem markFrame_own (t f : Nat) (u : Bool) : (markFrame s t f u).own = s.own := rfl
@[simp] theorem markFrame_can (t f : Nat) (u : Bool) : (markFrame s t f u).can = s.can := rfl
@[simp] theorem markFrame_cells (t f : Nat) (u : Bool) : (markFrame s t f u).cells = s.cells := rfl
@[simp] theorem markFrame_weir (t f : Nat) (u : Bool) : (markFrame s t f u).weir = s.weir := rfl
@[simp] theorem markFrame_host (t f : Nat) (u : Bool) : (markFrame s t f u).host = s.host := rfl
@[simp] theorem markFrame_boot (t f : Nat) (u : Bool) : (markFrame s t f u).boot = s.boot := rfl
@[simp] theorem markFrame_secure (t f : Nat) (u : Bool) : (markFrame s t f u).secure = s.secure := rfl
@[simp] theorem markFrame_debugPort (t f : Nat) (u : Bool) : (markFrame s t f u).debugPort = s.debugPort := rfl
@[simp] theorem markFrame_power (t f : Nat) (u : Bool) : (markFrame s t f u).power = s.power := rfl
@[simp] theorem markFrame_pins (t f : Nat) (u : Bool) : (markFrame s t f u).pins = s.pins := rfl
@[simp] theorem markFrame_sent (t f : Nat) (u : Bool) : (markFrame s t f u).sent = s.sent := rfl

@[simp] theorem setMember_pending (t i : Nat) (m : Member) : (setMember s t i m).pending = s.pending := rfl
@[simp] theorem setMember_now (t i : Nat) (m : Member) : (setMember s t i m).now = s.now := rfl
@[simp] theorem setMember_fresh (t i : Nat) (m : Member) : (setMember s t i m).fresh = s.fresh := rfl
@[simp] theorem setMember_nvm (t i : Nat) (m : Member) : (setMember s t i m).nvm = s.nvm := rfl
@[simp] theorem setMember_dict (t i : Nat) (m : Member) : (setMember s t i m).dict = s.dict := rfl
@[simp] theorem setMember_inForce (t i : Nat) (m : Member) : (setMember s t i m).inForce = s.inForce := rfl
@[simp] theorem setMember_captured (t i : Nat) (m : Member) : (setMember s t i m).captured = s.captured := rfl
@[simp] theorem setMember_copies (t i : Nat) (m : Member) : (setMember s t i m).copies = s.copies := rfl
@[simp] theorem setMember_mem (t i : Nat) (m : Member) : (setMember s t i m).mem = s.mem := rfl
@[simp] theorem setMember_map (t i : Nat) (m : Member) : (setMember s t i m).map = s.map := rfl
@[simp] theorem setMember_tree (t i : Nat) (m : Member) : (setMember s t i m).tree = s.tree := rfl
@[simp] theorem setMember_tick (t i : Nat) (m : Member) : (setMember s t i m).tick = s.tick := rfl
@[simp] theorem setMember_gangs (t i : Nat) (m : Member) : (setMember s t i m).gangs = s.gangs := rfl
@[simp] theorem setMember_steps (t i : Nat) (m : Member) : (setMember s t i m).steps = s.steps := rfl
@[simp] theorem setMember_ponds (t i : Nat) (m : Member) : (setMember s t i m).ponds = s.ponds := rfl
@[simp] theorem setMember_programs (t i : Nat) (m : Member) : (setMember s t i m).programs = s.programs := rfl
@[simp] theorem setMember_seq (t i : Nat) (m : Member) : (setMember s t i m).seq = s.seq := rfl
@[simp] theorem setMember_intake (t i : Nat) (m : Member) : (setMember s t i m).intake = s.intake := rfl
@[simp] theorem setMember_numerics (t i : Nat) (m : Member) : (setMember s t i m).numerics = s.numerics := rfl
@[simp] theorem setMember_fabric (t i : Nat) (m : Member) : (setMember s t i m).fabric = s.fabric := rfl
@[simp] theorem setMember_shares (t i : Nat) (m : Member) : (setMember s t i m).shares = s.shares := rfl
@[simp] theorem setMember_requests (t i : Nat) (m : Member) : (setMember s t i m).requests = s.requests := rfl
@[simp] theorem setMember_own (t i : Nat) (m : Member) : (setMember s t i m).own = s.own := rfl
@[simp] theorem setMember_can (t i : Nat) (m : Member) : (setMember s t i m).can = s.can := rfl
@[simp] theorem setMember_cells (t i : Nat) (m : Member) : (setMember s t i m).cells = s.cells := rfl
@[simp] theorem setMember_weir (t i : Nat) (m : Member) : (setMember s t i m).weir = s.weir := rfl
@[simp] theorem setMember_host (t i : Nat) (m : Member) : (setMember s t i m).host = s.host := rfl
@[simp] theorem setMember_boot (t i : Nat) (m : Member) : (setMember s t i m).boot = s.boot := rfl
@[simp] theorem setMember_secure (t i : Nat) (m : Member) : (setMember s t i m).secure = s.secure := rfl
@[simp] theorem setMember_debugPort (t i : Nat) (m : Member) : (setMember s t i m).debugPort = s.debugPort := rfl
@[simp] theorem setMember_power (t i : Nat) (m : Member) : (setMember s t i m).power = s.power := rfl
@[simp] theorem setMember_pins (t i : Nat) (m : Member) : (setMember s t i m).pins = s.pins := rfl
@[simp] theorem setMember_sent (t i : Nat) (m : Member) : (setMember s t i m).sent = s.sent := rfl

end Sys2Proof.Machine
end

