-- ==== Sys2Proof/Laws/Ops.lean ====
section
/-! SUPPORT. What is read after an update of the state: the value written, and the same value elsewhere; and the form of
the named operations. -/

set_option Elab.async false

namespace Sys2Proof.Machine

open Sys2Proof.Safety

section
variable (s : State)

/-! ## Reads of what an update does not touch -/

@[simp] theorem forceObj_setObj (k v : Nat) (j : Nat) : forceObj (setObj s k v) j = forceObj s j := rfl
@[simp] theorem pondOf_setObj (k v : Nat) (j : Nat) : pondOf (setObj s k v) j = pondOf s j := rfl
@[simp] theorem gangOf_setObj (k v : Nat) (j : Nat) : gangOf (setObj s k v) j = gangOf s j := rfl
@[simp] theorem futureOf_setObj (k v : Nat) (j : Nat) : futureOf (setObj s k v) j = futureOf s j := rfl
@[simp] theorem stepOf_setObj (k v : Nat) (j : Nat) : stepOf (setObj s k v) j = stepOf s j := rfl
@[simp] theorem dirOf_setObj (k v : Nat) (j : Nat) : dirOf (setObj s k v) j = dirOf s j := rfl
@[simp] theorem extentOf_setObj (k v : Nat) (j : Nat) : extentOf (setObj s k v) j = extentOf s j := rfl
@[simp] theorem physOf_setObj (k v : Nat) (j : Nat) : physOf (setObj s k v) j = physOf s j := rfl
@[simp] theorem logicalCount_setObj (k v : Nat) : logicalCount (setObj s k v) = logicalCount s := rfl

@[simp] theorem forceObj_addObj (k n : Nat) (j : Nat) : forceObj (addObj s k n) j = forceObj s j := rfl
@[simp] theorem pondOf_addObj (k n : Nat) (j : Nat) : pondOf (addObj s k n) j = pondOf s j := rfl
@[simp] theorem gangOf_addObj (k n : Nat) (j : Nat) : gangOf (addObj s k n) j = gangOf s j := rfl
@[simp] theorem futureOf_addObj (k n : Nat) (j : Nat) : futureOf (addObj s k n) j = futureOf s j := rfl
@[simp] theorem stepOf_addObj (k n : Nat) (j : Nat) : stepOf (addObj s k n) j = stepOf s j := rfl
@[simp] theorem dirOf_addObj (k n : Nat) (j : Nat) : dirOf (addObj s k n) j = dirOf s j := rfl
@[simp] theorem extentOf_addObj (k n : Nat) (j : Nat) : extentOf (addObj s k n) j = extentOf s j := rfl
@[simp] theorem physOf_addObj (k n : Nat) (j : Nat) : physOf (addObj s k n) j = physOf s j := rfl
@[simp] theorem logicalCount_addObj (k n : Nat) : logicalCount (addObj s k n) = logicalCount s := rfl

@[simp] theorem getObj_setPondState (ph : Nat) (st : PondState) (j : Nat) : getObj (setPondState s ph st) j = getObj s j := rfl
@[simp] theorem forceObj_setPondState (ph : Nat) (st : PondState) (j : Nat) : forceObj (setPondState s ph st) j = forceObj s j := rfl
@[simp] theorem pondOf_setPondState (ph : Nat) (st : PondState) (j : Nat) : pondOf (setPondState s ph st) j = pondOf s j := rfl
@[simp] theorem gangOf_setPondState (ph : Nat) (st : PondState) (j : Nat) : gangOf (setPondState s ph st) j = gangOf s j := rfl
@[simp] theorem futureOf_setPondState (ph : Nat) (st : PondState) (j : Nat) : futureOf (setPondState s ph st) j = futureOf s j := rfl
@[simp] theorem stepOf_setPondState (ph : Nat) (st : PondState) (j : Nat) : stepOf (setPondState s ph st) j = stepOf s j := rfl
@[simp] theorem dirOf_setPondState (ph : Nat) (st : PondState) (j : Nat) : dirOf (setPondState s ph st) j = dirOf s j := rfl
@[simp] theorem extentOf_setPondState (ph : Nat) (st : PondState) (j : Nat) : extentOf (setPondState s ph st) j = extentOf s j := rfl
@[simp] theorem logicalCount_setPondState (ph : Nat) (st : PondState) : logicalCount (setPondState s ph st) = logicalCount s := rfl
@[simp] theorem tickNumber_setPondState (ph : Nat) (st : PondState) : tickNumber (setPondState s ph st) = tickNumber s := rfl

@[simp] theorem getObj_setPond (ph : Nat) (pd : Pond) (j : Nat) : getObj (setPond s ph pd) j = getObj s j := rfl
@[simp] theorem forceObj_setPond (ph : Nat) (pd : Pond) (j : Nat) : forceObj (setPond s ph pd) j = forceObj s j := rfl
@[simp] theorem gangOf_setPond (ph : Nat) (pd : Pond) (j : Nat) : gangOf (setPond s ph pd) j = gangOf s j := rfl
@[simp] theorem futureOf_setPond (ph : Nat) (pd : Pond) (j : Nat) : futureOf (setPond s ph pd) j = futureOf s j := rfl
@[simp] theorem stepOf_setPond (ph : Nat) (pd : Pond) (j : Nat) : stepOf (setPond s ph pd) j = stepOf s j := rfl
@[simp] theorem dirOf_setPond (ph : Nat) (pd : Pond) (j : Nat) : dirOf (setPond s ph pd) j = dirOf s j := rfl
@[simp] theorem extentOf_setPond (ph : Nat) (pd : Pond) (j : Nat) : extentOf (setPond s ph pd) j = extentOf s j := rfl
@[simp] theorem physOf_setPond (ph : Nat) (pd : Pond) (j : Nat) : physOf (setPond s ph pd) j = physOf s j := rfl
@[simp] theorem logicalCount_setPond (ph : Nat) (pd : Pond) : logicalCount (setPond s ph pd) = logicalCount s := rfl
@[simp] theorem tickNumber_setPond (ph : Nat) (pd : Pond) : tickNumber (setPond s ph pd) = tickNumber s := rfl

@[simp] theorem getObj_modPond (ph : Nat) (f : Pond → Pond) (j : Nat) : getObj (modPond s ph f) j = getObj s j := rfl
@[simp] theorem forceObj_modPond (ph : Nat) (f : Pond → Pond) (j : Nat) : forceObj (modPond s ph f) j = forceObj s j := rfl
@[simp] theorem gangOf_modPond (ph : Nat) (f : Pond → Pond) (j : Nat) : gangOf (modPond s ph f) j = gangOf s j := rfl
@[simp] theorem futureOf_modPond (ph : Nat) (f : Pond → Pond) (j : Nat) : futureOf (modPond s ph f) j = futureOf s j := rfl
@[simp] theorem stepOf_modPond (ph : Nat) (f : Pond → Pond) (j : Nat) : stepOf (modPond s ph f) j = stepOf s j := rfl
@[simp] theorem dirOf_modPond (ph : Nat) (f : Pond → Pond) (j : Nat) : dirOf (modPond s ph f) j = dirOf s j := rfl
@[simp] theorem extentOf_modPond (ph : Nat) (f : Pond → Pond) (j : Nat) : extentOf (modPond s ph f) j = extentOf s j := rfl
@[simp] theorem physOf_modPond (ph : Nat) (f : Pond → Pond) (j : Nat) : physOf (modPond s ph f) j = physOf s j := rfl
@[simp] theorem logicalCount_modPond (ph : Nat) (f : Pond → Pond) : logicalCount (modPond s ph f) = logicalCount s := rfl
@[simp] theorem tickNumber_modPond (ph : Nat) (f : Pond → Pond) : tickNumber (modPond s ph f) = tickNumber s := rfl

@[simp] theorem getObj_modCore (ph : Nat) (f : Core → Core) (j : Nat) : getObj (modCore s ph f) j = getObj s j := rfl
@[simp] theorem forceObj_modCore (ph : Nat) (f : Core → Core) (j : Nat) : forceObj (modCore s ph f) j = forceObj s j := rfl
@[simp] theorem gangOf_modCore (ph : Nat) (f : Core → Core) (j : Nat) : gangOf (modCore s ph f) j = gangOf s j := rfl
@[simp] theorem futureOf_modCore (ph : Nat) (f : Core → Core) (j : Nat) : futureOf (modCore s ph f) j = futureOf s j := rfl
@[simp] theorem stepOf_modCore (ph : Nat) (f : Core → Core) (j : Nat) : stepOf (modCore s ph f) j = stepOf s j := rfl
@[simp] theorem dirOf_modCore (ph : Nat) (f : Core → Core) (j : Nat) : dirOf (modCore s ph f) j = dirOf s j := rfl
@[simp] theorem extentOf_modCore (ph : Nat) (f : Core → Core) (j : Nat) : extentOf (modCore s ph f) j = extentOf s j := rfl
@[simp] theorem physOf_modCore (ph : Nat) (f : Core → Core) (j : Nat) : physOf (modCore s ph f) j = physOf s j := rfl
@[simp] theorem logicalCount_modCore (ph : Nat) (f : Core → Core) : logicalCount (modCore s ph f) = logicalCount s := rfl
@[simp] theorem tickNumber_modCore (ph : Nat) (f : Core → Core) : tickNumber (modCore s ph f) = tickNumber s := rfl

@[simp] theorem getObj_setDir (n : Nat) (r : DirRecord) (j : Nat) : getObj (setDir s n r) j = getObj s j := rfl
@[simp] theorem forceObj_setDir (n : Nat) (r : DirRecord) (j : Nat) : forceObj (setDir s n r) j = forceObj s j := rfl
@[simp] theorem pondOf_setDir (n : Nat) (r : DirRecord) (j : Nat) : pondOf (setDir s n r) j = pondOf s j := rfl
@[simp] theorem gangOf_setDir (n : Nat) (r : DirRecord) (j : Nat) : gangOf (setDir s n r) j = gangOf s j := rfl
@[simp] theorem futureOf_setDir (n : Nat) (r : DirRecord) (j : Nat) : futureOf (setDir s n r) j = futureOf s j := rfl
@[simp] theorem stepOf_setDir (n : Nat) (r : DirRecord) (j : Nat) : stepOf (setDir s n r) j = stepOf s j := rfl
@[simp] theorem extentOf_setDir (n : Nat) (r : DirRecord) (j : Nat) : extentOf (setDir s n r) j = extentOf s j := rfl
@[simp] theorem physOf_setDir (n : Nat) (r : DirRecord) (j : Nat) : physOf (setDir s n r) j = physOf s j := rfl
@[simp] theorem logicalCount_setDir (n : Nat) (r : DirRecord) : logicalCount (setDir s n r) = logicalCount s := rfl
@[simp] theorem tickNumber_setDir (n : Nat) (r : DirRecord) : tickNumber (setDir s n r) = tickNumber s := rfl

@[simp] theorem getObj_setFuture (f : Nat) (e : Future) (j : Nat) : getObj (setFuture s f e) j = getObj s j := rfl
@[simp] theorem forceObj_setFuture (f : Nat) (e : Future) (j : Nat) : forceObj (setFuture s f e) j = forceObj s j := rfl
@[simp] theorem pondOf_setFuture (f : Nat) (e : Future) (j : Nat) : pondOf (setFuture s f e) j = pondOf s j := rfl
@[simp] theorem gangOf_setFuture (f : Nat) (e : Future) (j : Nat) : gangOf (setFuture s f e) j = gangOf s j := rfl
@[simp] theorem stepOf_setFuture (f : Nat) (e : Future) (j : Nat) : stepOf (setFuture s f e) j = stepOf s j := rfl
@[simp] theorem dirOf_setFuture (f : Nat) (e : Future) (j : Nat) : dirOf (setFuture s f e) j = dirOf s j := rfl
@[simp] theorem extentOf_setFuture (f : Nat) (e : Future) (j : Nat) : extentOf (setFuture s f e) j = extentOf s j := rfl
@[simp] theorem physOf_setFuture (f : Nat) (e : Future) (j : Nat) : physOf (setFuture s f e) j = physOf s j := rfl
@[simp] theorem logicalCount_setFuture (f : Nat) (e : Future) : logicalCount (setFuture s f e) = logicalCount s := rfl
@[simp] theorem tickNumber_setFuture (f : Nat) (e : Future) : tickNumber (setFuture s f e) = tickNumber s := rfl

@[simp] theorem getObj_setGang (g : Nat) (v : Gang) (j : Nat) : getObj (setGang s g v) j = getObj s j := rfl
@[simp] theorem forceObj_setGang (g : Nat) (v : Gang) (j : Nat) : forceObj (setGang s g v) j = forceObj s j := rfl
@[simp] theorem pondOf_setGang (g : Nat) (v : Gang) (j : Nat) : pondOf (setGang s g v) j = pondOf s j := rfl
@[simp] theorem futureOf_setGang (g : Nat) (v : Gang) (j : Nat) : futureOf (setGang s g v) j = futureOf s j := rfl
@[simp] theorem stepOf_setGang (g : Nat) (v : Gang) (j : Nat) : stepOf (setGang s g v) j = stepOf s j := rfl
@[simp] theorem dirOf_setGang (g : Nat) (v : Gang) (j : Nat) : dirOf (setGang s g v) j = dirOf s j := rfl
@[simp] theorem extentOf_setGang (g : Nat) (v : Gang) (j : Nat) : extentOf (setGang s g v) j = extentOf s j := rfl
@[simp] theorem physOf_setGang (g : Nat) (v : Gang) (j : Nat) : physOf (setGang s g v) j = physOf s j := rfl
@[simp] theorem logicalCount_setGang (g : Nat) (v : Gang) : logicalCount (setGang s g v) = logicalCount s := rfl
@[simp] theorem tickNumber_setGang (g : Nat) (v : Gang) : tickNumber (setGang s g v) = tickNumber s := rfl

@[simp] theorem getObj_setStep (f : Nat) (r : StepRec) (j : Nat) : getObj (setStep s f r) j = getObj s j := rfl
@[simp] theorem forceObj_setStep (f : Nat) (r : StepRec) (j : Nat) : forceObj (setStep s f r) j = forceObj s j := rfl
@[simp] theorem pondOf_setStep (f : Nat) (r : StepRec) (j : Nat) : pondOf (setStep s f r) j = pondOf s j := rfl
@[simp] theorem gangOf_setStep (f : Nat) (r : StepRec) (j : Nat) : gangOf (setStep s f r) j = gangOf s j := rfl
@[simp] theorem futureOf_setStep (f : Nat) (r : StepRec) (j : Nat) : futureOf (setStep s f r) j = futureOf s j := rfl
@[simp] theorem dirOf_setStep (f : Nat) (r : StepRec) (j : Nat) : dirOf (setStep s f r) j = dirOf s j := rfl
@[simp] theorem extentOf_setStep (f : Nat) (r : StepRec) (j : Nat) : extentOf (setStep s f r) j = extentOf s j := rfl
@[simp] theorem physOf_setStep (f : Nat) (r : StepRec) (j : Nat) : physOf (setStep s f r) j = physOf s j := rfl
@[simp] theorem logicalCount_setStep (f : Nat) (r : StepRec) : logicalCount (setStep s f r) = logicalCount s := rfl
@[simp] theorem tickNumber_setStep (f : Nat) (r : StepRec) : tickNumber (setStep s f r) = tickNumber s := rfl

@[simp] theorem getObj_send (o : Output) (j : Nat) : getObj (send s o) j = getObj s j := rfl
@[simp] theorem forceObj_send (o : Output) (j : Nat) : forceObj (send s o) j = forceObj s j := rfl
@[simp] theorem pondOf_send (o : Output) (j : Nat) : pondOf (send s o) j = pondOf s j := rfl
@[simp] theorem gangOf_send (o : Output) (j : Nat) : gangOf (send s o) j = gangOf s j := rfl
@[simp] theorem futureOf_send (o : Output) (j : Nat) : futureOf (send s o) j = futureOf s j := rfl
@[simp] theorem stepOf_send (o : Output) (j : Nat) : stepOf (send s o) j = stepOf s j := rfl
@[simp] theorem dirOf_send (o : Output) (j : Nat) : dirOf (send s o) j = dirOf s j := rfl
@[simp] theorem extentOf_send (o : Output) (j : Nat) : extentOf (send s o) j = extentOf s j := rfl
@[simp] theorem physOf_send (o : Output) (j : Nat) : physOf (send s o) j = physOf s j := rfl
@[simp] theorem logicalCount_send (o : Output) : logicalCount (send s o) = logicalCount s := rfl
@[simp] theorem tickNumber_send (o : Output) : tickNumber (send s o) = tickNumber s := rfl

@[simp] theorem getObj_advanceTo (t : Nat) (j : Nat) : getObj (advanceTo s t) j = getObj s j := rfl
@[simp] theorem forceObj_advanceTo (t : Nat) (j : Nat) : forceObj (advanceTo s t) j = forceObj s j := rfl
@[simp] theorem pondOf_advanceTo (t : Nat) (j : Nat) : pondOf (advanceTo s t) j = pondOf s j := rfl
@[simp] theorem gangOf_advanceTo (t : Nat) (j : Nat) : gangOf (advanceTo s t) j = gangOf s j := rfl
@[simp] theorem futureOf_advanceTo (t : Nat) (j : Nat) : futureOf (advanceTo s t) j = futureOf s j := rfl
@[simp] theorem stepOf_advanceTo (t : Nat) (j : Nat) : stepOf (advanceTo s t) j = stepOf s j := rfl
@[simp] theorem dirOf_advanceTo (t : Nat) (j : Nat) : dirOf (advanceTo s t) j = dirOf s j := rfl
@[simp] theorem extentOf_advanceTo (t : Nat) (j : Nat) : extentOf (advanceTo s t) j = extentOf s j := rfl
@[simp] theorem physOf_advanceTo (t : Nat) (j : Nat) : physOf (advanceTo s t) j = physOf s j := rfl
@[simp] theorem logicalCount_advanceTo (t : Nat) : logicalCount (advanceTo s t) = logicalCount s := rfl
@[simp] theorem tickNumber_advanceTo (t : Nat) : tickNumber (advanceTo s t) = tickNumber s := rfl

@[simp] theorem getObj_setExtent (e : Nat) (x : Extent) (j : Nat) : getObj (setExtent s e x) j = getObj s j := rfl
@[simp] theorem forceObj_setExtent (e : Nat) (x : Extent) (j : Nat) : forceObj (setExtent s e x) j = forceObj s j := rfl
@[simp] theorem pondOf_setExtent (e : Nat) (x : Extent) (j : Nat) : pondOf (setExtent s e x) j = pondOf s j := rfl
@[simp] theorem gangOf_setExtent (e : Nat) (x : Extent) (j : Nat) : gangOf (setExtent s e x) j = gangOf s j := rfl
@[simp] theorem futureOf_setExtent (e : Nat) (x : Extent) (j : Nat) : futureOf (setExtent s e x) j = futureOf s j := rfl
@[simp] theorem stepOf_setExtent (e : Nat) (x : Extent) (j : Nat) : stepOf (setExtent s e x) j = stepOf s j := rfl
@[simp] theorem dirOf_setExtent (e : Nat) (x : Extent) (j : Nat) : dirOf (setExtent s e x) j = dirOf s j := rfl
@[simp] theorem physOf_setExtent (e : Nat) (x : Extent) (j : Nat) : physOf (setExtent s e x) j = physOf s j := rfl
@[simp] theorem logicalCount_setExtent (e : Nat) (x : Extent) : logicalCount (setExtent s e x) = logicalCount s := rfl
@[simp] theorem tickNumber_setExtent (e : Nat) (x : Extent) : tickNumber (setExtent s e x) = tickNumber s := rfl

@[simp] theorem getObj_markFrame (t f : Nat) (u : Bool) (j : Nat) : getObj (markFrame s t f u) j = getObj s j := rfl
@[simp] theorem forceObj_markFrame (t f : Nat) (u : Bool) (j : Nat) : forceObj (markFrame s t f u) j = forceObj s j := rfl
@[simp] theorem pondOf_markFrame (t f : Nat) (u : Bool) (j : Nat) : pondOf (markFrame s t f u) j = pondOf s j := rfl
@[simp] theorem gangOf_markFrame (t f : Nat) (u : Bool) (j : Nat) : gangOf (markFrame s t f u) j = gangOf s j := rfl
@[simp] theorem futureOf_markFrame (t f : Nat) (u : Bool) (j : Nat) : futureOf (markFrame s t f u) j = futureOf s j := rfl
@[simp] theorem stepOf_markFrame (t f : Nat) (u : Bool) (j : Nat) : stepOf (markFrame s t f u) j = stepOf s j := rfl
@[simp] theorem dirOf_markFrame (t f : Nat) (u : Bool) (j : Nat) : dirOf (markFrame s t f u) j = dirOf s j := rfl
@[simp] theorem physOf_markFrame (t f : Nat) (u : Bool) (j : Nat) : physOf (markFrame s t f u) j = physOf s j := rfl
@[simp] theorem logicalCount_markFrame (t f : Nat) (u : Bool) : logicalCount (markFrame s t f u) = logicalCount s := rfl
@[simp] theorem tickNumber_markFrame (t f : Nat) (u : Bool) : tickNumber (markFrame s t f u) = tickNumber s := rfl

@[simp] theorem getObj_setMember (t i : Nat) (m : Member) (j : Nat) : getObj (setMember s t i m) j = getObj s j := rfl
@[simp] theorem forceObj_setMember (t i : Nat) (m : Member) (j : Nat) : forceObj (setMember s t i m) j = forceObj s j := rfl
@[simp] theorem pondOf_setMember (t i : Nat) (m : Member) (j : Nat) : pondOf (setMember s t i m) j = pondOf s j := rfl
@[simp] theorem gangOf_setMember (t i : Nat) (m : Member) (j : Nat) : gangOf (setMember s t i m) j = gangOf s j := rfl
@[simp] theorem futureOf_setMember (t i : Nat) (m : Member) (j : Nat) : futureOf (setMember s t i m) j = futureOf s j := rfl
@[simp] theorem stepOf_setMember (t i : Nat) (m : Member) (j : Nat) : stepOf (setMember s t i m) j = stepOf s j := rfl
@[simp] theorem dirOf_setMember (t i : Nat) (m : Member) (j : Nat) : dirOf (setMember s t i m) j = dirOf s j := rfl
@[simp] theorem physOf_setMember (t i : Nat) (m : Member) (j : Nat) : physOf (setMember s t i m) j = physOf s j := rfl
@[simp] theorem logicalCount_setMember (t i : Nat) (m : Member) : logicalCount (setMember s t i m) = logicalCount s := rfl
@[simp] theorem tickNumber_setMember (t i : Nat) (m : Member) : tickNumber (setMember s t i m) = tickNumber s := rfl

end

/-! ## Reads of what an update has written -/

section
variable {s : State}

/-- A read after a write gives the value written, in a table of rising keys. -/
theorem mapFind_put_same {α : Type} [DecidableEq α] (d : α) (m : NMap α) (k : Nat) (v : α) (h : MapSorted m) :
    mapFind d (mapPut d m k v) k = v := by
  unfold mapPut
  split
  · rename_i hv
    rw [mapFind_mapErase_same d m k h, hv]
  · exact mapFind_mapInsert_same d m k v

/-- A write leaves every other key alone, in a table of rising keys. -/
theorem mapFind_put_other {α : Type} [DecidableEq α] (d d' : α) (m : NMap α) (k j : Nat) (v : α) (h : MapSorted m)
    (hj : j ≠ k) : mapFind d (mapPut d' m k v) j = mapFind d m j := by
  unfold mapPut
  split
  · exact mapFind_mapErase_other d m k j h hj
  · exact mapFind_mapInsert_other d m k j v hj

theorem getObj_setObj_same (h : MapSorted s.dict) (k v : Nat) : getObj (setObj s k v) k = v :=
  mapFind_put_same _ _ _ _ h

theorem getObj_setObj_other (h : MapSorted s.dict) (k v : Nat) {j : Nat} (hj : j ≠ k) :
    getObj (setObj s k v) j = getObj s j := mapFind_put_other _ _ _ _ _ _ h hj

theorem getObj_addObj_same (h : MapSorted s.dict) (k n : Nat) : getObj (addObj s k n) k = getObj s k + n :=
  getObj_setObj_same h _ _

theorem getObj_addObj_other (h : MapSorted s.dict) (k n : Nat) {j : Nat} (hj : j ≠ k) :
    getObj (addObj s k n) j = getObj s j := getObj_setObj_other h _ _ hj

theorem setObj_dict_sorted (h : MapSorted s.dict) (k v : Nat) : MapSorted (setObj s k v).dict :=
  mapPut_sorted _ _ _ _ h

theorem addObj_dict_sorted (h : MapSorted s.dict) (k n : Nat) : MapSorted (addObj s k n).dict :=
  mapPut_sorted _ _ _ _ h

theorem pondOf_setPond_same (h : MapSorted s.ponds) (ph : Nat) (pd : Pond) : pondOf (setPond s ph pd) ph = pd :=
  mapFind_put_same _ _ _ _ h

theorem pondOf_setPond_other (h : MapSorted s.ponds) (ph : Nat) (pd : Pond) {j : Nat} (hj : j ≠ ph) :
    pondOf (setPond s ph pd) j = pondOf s j := mapFind_put_other _ _ _ _ _ _ h hj

theorem pondOf_modPond_same (h : MapSorted s.ponds) (ph : Nat) (f : Pond → Pond) :
    pondOf (modPond s ph f) ph = f (pondOf s ph) := pondOf_setPond_same h _ _

theorem pondOf_modPond_other (h : MapSorted s.ponds) (ph : Nat) (f : Pond → Pond) {j : Nat} (hj : j ≠ ph) :
    pondOf (modPond s ph f) j = pondOf s j := pondOf_setPond_other h _ _ hj

theorem modPond_ponds_sorted (h : MapSorted s.ponds) (ph : Nat) (f : Pond → Pond) : MapSorted (modPond s ph f).ponds :=
  mapPut_sorted _ _ _ _ h

theorem futureOf_setFuture_same (h : MapSorted s.seq.futures) (f : Nat) (e : Future) :
    futureOf (setFuture s f e) f = e := mapFind_put_same _ _ _ _ h

theorem gangOf_setGang_same (h : MapSorted s.gangs) (g : Nat) (v : Gang) : gangOf (setGang s g v) g = v :=
  mapFind_put_same _ _ _ _ h

theorem extentOf_setExtent_same (h : MapSorted s.tiers.extents) (e : Nat) (x : Extent) :
    extentOf (setExtent s e x) e = x := mapFind_put_same _ _ _ _ h

/-- The parameter register written reads the value; P0 reads 0 (06 Table CMD-1). -/
theorem getParam_setParam_same (c : Core) (h : MapSorted c.params) (i : Nat) (v : W64) :
    getParam (setParam c i v) i = if i = 0 then 0 else v := by
  unfold getParam setParam
  split
  · rfl
  · exact mapFind_put_same _ _ _ _ h

end

/-! ## The guards and the frame of every row -/

section
variable {s : State} {p : Nat} {f : Nat → State}

theorem onPond_mapped (hp : p < logicalCount s) (hx : physOf s p ≠ 0xFF) : onPond p s f = .next (f (physOf s p)) := by
  simp [onPond, hp, hx]

theorem onPond_absent (hp : p < logicalCount s) (hx : physOf s p = 0xFF) : onPond p s f = .next s := by
  simp [onPond, hp, hx]

theorem onPond_outside (hp : ¬ p < logicalCount s) : onPond p s f = .fault .noSuchUnit := by
  simp [onPond, hp]

end

end Sys2Proof.Machine
end

