-- ==== Sys2Proof/WellFormed.lean ====
section
/-! DEFINITION. Which commands a sender may form: every operand within the range of what it names (ponds and gangs
01 R10, brooks 12, ports 14 R380, futures 07 R191, objects 14 R373, and the widths of the values carried). -/

namespace Sys2Proof

/-- Every operand of a command lies in the range of the units or fields that it names. -/
def wellFormed (i : Instr) : Bool :=
  match i with
  | .internalGeneratorEdge => true
  | .tickInEdge _ _ => true
  | .tickSourceTakeover => true
  | .readoptFallback => true
  | .inputLatch => true
  | .arrayStartStaggerRelease p => decide (p < 128)
  | .servingDispatchStart g => decide (g < 128)
  | .groupFetch g _ => decide (g < 128)
  | .servingEnd => true
  | .rowRepair => true
  | .costExceeded g => decide (g < 128)
  | .registerWrite m index sub len v => decide ((0x101 ≤ m ∧ m ≤ 0x17F) ∨ (0x201 ≤ m ∧ m ≤ 0x27F) ∨ m = 0x300 ∨ m = 0x400) && decide (index < 65536) && decide (sub < 256) && decide (len % 16 ≤ 8 ∧ len / 16 < (if m = 0x300 then 8 else 1)) && decide (v < 256 ^ (len % 16))
  | .sourceSelectWrite m v => decide ((0x101 ≤ m ∧ m ≤ 0x17F) ∨ (0x201 ≤ m ∧ m ≤ 0x27F) ∨ m = 0x300 ∨ m = 0x400) && decide (v < 256)
  | .readoptRequest m => decide ((0x101 ≤ m ∧ m ≤ 0x17F) ∨ (0x201 ≤ m ∧ m ≤ 0x27F) ∨ m = 0x300 ∨ m = 0x400)
  | .readoptWithdraw m => decide ((0x101 ≤ m ∧ m ≤ 0x17F) ∨ (0x201 ≤ m ∧ m ≤ 0x27F) ∨ m = 0x300 ∨ m = 0x400)
  | .stagedBasinWrite m index sub v => decide ((0x101 ≤ m ∧ m ≤ 0x17F) ∨ (0x201 ≤ m ∧ m ≤ 0x27F) ∨ m = 0x300 ∨ m = 0x400) && decide (index < 65536) && decide (sub < 256) && decide (v < 2 ^ 16)
  | .basinCommitRequest m => decide ((0x101 ≤ m ∧ m ≤ 0x17F) ∨ (0x201 ≤ m ∧ m ≤ 0x27F) ∨ m = 0x300 ∨ m = 0x400)
  | .testSpareRequest m v => decide ((0x101 ≤ m ∧ m ≤ 0x17F) ∨ (0x201 ≤ m ∧ m ≤ 0x27F) ∨ m = 0x300 ∨ m = 0x400) && decide (v < 256)
  | .loadRequest m => decide ((0x101 ≤ m ∧ m ≤ 0x17F) ∨ (0x201 ≤ m ∧ m ≤ 0x27F) ∨ m = 0x300 ∨ m = 0x400)
  | .programLoadDone => true
  | .bankSwitchRequest m => decide ((0x101 ≤ m ∧ m ≤ 0x17F) ∨ (0x201 ≤ m ∧ m ≤ 0x27F) ∨ m = 0x300 ∨ m = 0x400)
  | .clearBankRequest m => decide ((0x101 ≤ m ∧ m ≤ 0x17F) ∨ (0x201 ≤ m ∧ m ≤ 0x27F) ∨ m = 0x300 ∨ m = 0x400)
  | .stateStrideWrite m v => decide ((0x101 ≤ m ∧ m ≤ 0x17F) ∨ (0x201 ≤ m ∧ m ≤ 0x27F) ∨ m = 0x300 ∨ m = 0x400) && decide (v < 2 ^ 32)
  | .poolConfigWrite m q sub v => decide ((0x101 ≤ m ∧ m ≤ 0x17F) ∨ (0x201 ≤ m ∧ m ≤ 0x27F) ∨ m = 0x300 ∨ m = 0x400) && decide (q < 4) && decide (sub < 256) && decide (v < 2 ^ 32)
  | .adoptRequest m => decide ((0x101 ≤ m ∧ m ≤ 0x17F) ∨ (0x201 ≤ m ∧ m ≤ 0x27F) ∨ m = 0x300 ∨ m = 0x400)
  | .fabricCommitRequest m => decide ((0x101 ≤ m ∧ m ≤ 0x17F) ∨ (0x201 ≤ m ∧ m ≤ 0x27F) ∨ m = 0x300 ∨ m = 0x400)
  | .taskStart m _ => decide ((0x101 ≤ m ∧ m ≤ 0x17F) ∨ (0x201 ≤ m ∧ m ≤ 0x27F) ∨ m = 0x300 ∨ m = 0x400)
  | .taskEnd m _ => decide ((0x101 ≤ m ∧ m ≤ 0x17F) ∨ (0x201 ≤ m ∧ m ≤ 0x27F) ∨ m = 0x300 ∨ m = 0x400)
  | .acknowledgeSources m _ _ => decide ((0x101 ≤ m ∧ m ≤ 0x17F) ∨ (0x201 ≤ m ∧ m ≤ 0x27F) ∨ m = 0x300 ∨ m = 0x400)
  | .clearSources m _ _ => decide ((0x101 ≤ m ∧ m ≤ 0x17F) ∨ (0x201 ≤ m ∧ m ≤ 0x27F) ∨ m = 0x300 ∨ m = 0x400)
  | .regimeRequest m v => decide ((0x101 ≤ m ∧ m ≤ 0x17F) ∨ (0x201 ≤ m ∧ m ≤ 0x27F) ∨ m = 0x300 ∨ m = 0x400) && decide (v < 256)
  | .retireRequest m => decide ((0x101 ≤ m ∧ m ≤ 0x17F) ∨ (0x201 ≤ m ∧ m ≤ 0x27F) ∨ m = 0x300 ∨ m = 0x400)
  | .activationRequest m => decide ((0x101 ≤ m ∧ m ≤ 0x17F) ∨ (0x201 ≤ m ∧ m ≤ 0x27F) ∨ m = 0x300 ∨ m = 0x400)
  | .verifyRequest m => decide ((0x101 ≤ m ∧ m ≤ 0x17F) ∨ (0x201 ≤ m ∧ m ≤ 0x27F) ∨ m = 0x300 ∨ m = 0x400)
  | .burnRequest m => decide ((0x101 ≤ m ∧ m ≤ 0x17F) ∨ (0x201 ≤ m ∧ m ≤ 0x27F) ∨ m = 0x300 ∨ m = 0x400)
  | .relock m => decide ((0x101 ≤ m ∧ m ≤ 0x17F) ∨ (0x201 ≤ m ∧ m ≤ 0x27F) ∨ m = 0x300 ∨ m = 0x400)
  | .permanentDebugDisable m => decide ((0x101 ≤ m ∧ m ≤ 0x17F) ∨ (0x201 ≤ m ∧ m ≤ 0x27F) ∨ m = 0x300 ∨ m = 0x400)
  | .marginRequest m => decide ((0x101 ≤ m ∧ m ≤ 0x17F) ∨ (0x201 ≤ m ∧ m ≤ 0x27F) ∨ m = 0x300 ∨ m = 0x400)
  | .marginDone => true
  | .powerStateRequest m v => decide ((0x101 ≤ m ∧ m ≤ 0x17F) ∨ (0x201 ≤ m ∧ m ≤ 0x27F) ∨ m = 0x300 ∨ m = 0x400) && decide (v < 256)
  | .claim m _ => decide ((0x101 ≤ m ∧ m ≤ 0x17F) ∨ (0x201 ≤ m ∧ m ≤ 0x27F) ∨ m = 0x300 ∨ m = 0x400)
  | .leaseHeartbeat m => decide ((0x101 ≤ m ∧ m ≤ 0x17F) ∨ (0x201 ≤ m ∧ m ≤ 0x27F) ∨ m = 0x300 ∨ m = 0x400)
  | .release m => decide ((0x101 ≤ m ∧ m ≤ 0x17F) ∨ (0x201 ≤ m ∧ m ≤ 0x27F) ∨ m = 0x300 ∨ m = 0x400)
  | .successor m _ => decide ((0x101 ≤ m ∧ m ≤ 0x17F) ∨ (0x201 ≤ m ∧ m ≤ 0x27F) ∨ m = 0x300 ∨ m = 0x400)
  | .accept m => decide ((0x101 ≤ m ∧ m ≤ 0x17F) ∨ (0x201 ≤ m ∧ m ≤ 0x27F) ∨ m = 0x300 ∨ m = 0x400)
  | .seize m => decide ((0x101 ≤ m ∧ m ≤ 0x17F) ∨ (0x201 ≤ m ∧ m ≤ 0x27F) ∨ m = 0x300 ∨ m = 0x400)
  | .resetCommunication m => decide ((0x101 ≤ m ∧ m ≤ 0x17F) ∨ (0x201 ≤ m ∧ m ≤ 0x27F) ∨ m = 0x300 ∨ m = 0x400)
  | .electionClose => true
  | .leaseExpiry => true
  | .handoverTimeout => true
  | .masterTableTimeout _ => true
  | .commandPush p _ _ => decide (p < 128)
  | .queueSlotFreed p _ => decide (p < 128)
  | .commandComplete p _ _ => decide (p < 128)
  | .errorHandlerEntry p => decide (p < 128)
  | .gangErrorNotify p => decide (p < 128)
  | .set p => decide (p < 128)
  | .alu p => decide (p < 128)
  | .load p => decide (p < 128)
  | .store p => decide (p < 128)
  | .loop p => decide (p < 128)
  | .endloop p => decide (p < 128)
  | .cmp p => decide (p < 128)
  | .br p => decide (p < 128)
  | .sigpeer p => decide (p < 128)
  | .peerSignalArrival p => decide (p < 128)
  | .fence p => decide (p < 128)
  | .ret p => decide (p < 128)
  | .err p => decide (p < 128)
  | .nop p => decide (p < 128)
  | .resume p => decide (p < 128)
  | .sconf p => decide (p < 128)
  | .ssend p => decide (p < 128)
  | .sfree p => decide (p < 128)
  | .creditReturn p st => decide (p < 128) && decide (st < 32)
  | .mma p => decide (p < 128)
  | .watchSampleDone p => decide (p < 128)
  | .wload p => decide (p < 128)
  | .expanderGrant p => decide (p < 128)
  | .add p => decide (p < 128)
  | .sub p => decide (p < 128)
  | .mul p => decide (p < 128)
  | .fma p => decide (p < 128)
  | .min p => decide (p < 128)
  | .max p => decide (p < 128)
  | .abs p => decide (p < 128)
  | .neg p => decide (p < 128)
  | .sel p => decide (p < 128)
  | .vectorCmp p => decide (p < 128)
  | .cvt p => decide (p < 128)
  | .div p => decide (p < 128)
  | .rcp p => decide (p < 128)
  | .sqrt p => decide (p < 128)
  | .rsqrt p => decide (p < 128)
  | .exp2 p => decide (p < 128)
  | .log2 p => decide (p < 128)
  | .exp p => decide (p < 128)
  | .log p => decide (p < 128)
  | .tanh p => decide (p < 128)
  | .sigmoid p => decide (p < 128)
  | .silu p => decide (p < 128)
  | .gelu p => decide (p < 128)
  | .softplus p => decide (p < 128)
  | .rrow p => decide (p < 128)
  | .rcol p => decide (p < 128)
  | .gate p => decide (p < 128)
  | .pool p => decide (p < 128)
  | .sstep p => decide (p < 128)
  | .scan p => decide (p < 128)
  | .sfix p => decide (p < 128)
  | .tload p => decide (p < 128)
  | .create f _ _ => decide (f < 32768)
  | .fork f _ _ _ => decide (f < 32768)
  | .park f _ _ => decide (f < 32768)
  | .unpark f _ _ => decide (f < 32768)
  | .retire f _ _ => decide (f < 32768)
  | .setFuture f _ _ => decide (f < 32768)
  | .truncate f _ _ => decide (f < 32768)
  | .shift f _ _ => decide (f < 32768)
  | .setuser f _ _ => decide (f < 32768)
  | .pwalk p => decide (p < 128)
  | .pappend p => decide (p < 128)
  | .attf p => decide (p < 128)
  | .attb p => decide (p < 128)
  | .ictx p => decide (p < 128)
  | .decode p => decide (p < 128)
  | .flush p => decide (p < 128)
  | .boxsel p => decide (p < 128)
  | .chipUnitDispatch cls => decide (cls < 16)
  | .directiveRingRead => true
  | .define _ => true
  | .place _ => true
  | .free _ => true
  | .setbackup _ => true
  | .clean _ => true
  | .setmask _ => true
  | .directiveComplete _ => true
  | .frameRelease tier _ => decide (tier < 2)
  | .migrationDone _ => true
  | .copy p => decide (p < 128)
  | .fp32Add p => decide (p < 128)
  | .zeroFill p => decide (p < 128)
  | .pfmark p => decide (p < 128)
  | .uncorrectableMemoryError _ => true
  | .refetchDone _ => true
  | .correctedError _ => true
  | .hbmRecentre c => decide (c < 512)
  | .shoreWckCheck c _ => decide (c < 64)
  | .shoreRetrainDone c => decide (c < 64)
  | .flitReceive k _ _ _ => decide (k < 18)
  | .brookRetrainDone k _ => decide (k < 18)
  | .laneErrorWindow k lane _ => decide (k < 18) && decide (lane < 64)
  | .ack k _ => decide (k < 18)
  | .creditGrant k _ _ => decide (k < 18)
  | .spareRequest k lane => decide (k < 18) && decide (lane < 64)
  | .spareConfirm k lane => decide (k < 18) && decide (lane < 64)
  | .widthChange k _ => decide (k < 18)
  | .endToEndAck k _ _ => decide (k < 18)
  | .identity k _ => decide (k < 18)
  | .write _ _ _ _ => true
  | .writeLastSignal _ _ _ _ _ => true
  | .readRequest _ _ _ len _ => decide (0 < len)
  | .readResponse _ _ _ _ _ => true
  | .collectivePart _ _ _ _ _ _ _ => true
  | .endToEndTimeout _ _ => true
  | .put p => decide (p < 128)
  | .get p => decide (p < 128)
  | .allreduce p => decide (p < 128)
  | .reducescatter p => decide (p < 128)
  | .allgather p => decide (p < 128)
  | .broadcast p => decide (p < 128)
  | .alltoall p => decide (p < 128)
  | .stampchk p => decide (p < 128)
  | .waitf p => decide (p < 128)
  | .waitfTimeout p => decide (p < 128)
  | .collectiveTimeout p => decide (p < 128)
  | .permute p => decide (p < 128)
  | .permuteRoundEnd p => decide (p < 128)
  | .sliceExpiry g => decide (g < 128)
  | .schedulerDecision g => decide (g < 128)
  | .restoreDone g => decide (g < 128)
  | .forcedStop p => decide (p < 128)
  | .switchOutSave g => decide (g < 128)
  | .switchOutDone g => decide (g < 128)
  | .mailboxGo index sub _ data => decide (index < 65536) && decide (sub < 256) && decide (data.length ≤ 256)
  | .usdoRequest port _ _ => decide (port < 2)
  | .usdoSessionTimeout port _ => decide (port < 2)
  | .nmtStart port => decide (port < 2)
  | .nmtStop port => decide (port < 2)
  | .nmtEnterPreoperational port => decide (port < 2)
  | .nmtResetNode port => decide (port < 2)
  | .nmtResetCommunication port => decide (port < 2)
  | .heartbeat => true
  | .emcyInhibitExpiry port => decide (port < 2)
  | .tpdoInhibitExpiry n => decide (n < 4)
  | .tpdoEventTimer n => decide (n < 4)
  | .busOff port => decide (port < 2)
  | .busOffRecovery port => decide (port < 2)
  | .escalationExpiry n => decide (n < 128)
  | .pondWatchdogTimeout p => decide (p < 128)
  | .spareCopyDone _ => true
  | .memberEvacuationDone tier _ => decide (tier < 2)
  | .powerPhaseFailure => true
  | .serviceCoreWatchdog => true
  | .activationTimeout => true
  | .perstNAssert => true
  | .hotReset => true
  | .linkTrained _ _ => true
  | .cxlLinkDown => true
  | .linkRetrainTimer => true
  | .linkLossTimeout => true
  | .hostMemRead _ len hold => decide (0 < len) && decide (hold < 3)
  | .hostMemWrite _ _ => true
  | .snoopResponse _ _ => true
  | .modrstNRelease straps => decide (straps < 128)
  | .bootStageEnd _ => true
  | .verifyDone => true
  | .getVersion => true
  | .getCapabilities => true
  | .negotiateAlgorithms => true
  | .getDigests => true
  | .getCertificate slot => decide (slot < 8)
  | .challenge slot => decide (slot < 8)
  | .getMeasurements index => decide (index < 256)
  | .tapReset => true
  | .extest _ => true
  | .samplePreload _ => true
  | .idcode => true
  | .lockstat => true
  | .nonce => true
  | .unlock _ => true
  | .unlockVerifyDone => true
  | .dict dr => decide (dr < 2 ^ 128)
  | .debugStatus p => decide (p < 256)
  | .debugHalt p => decide (p < 256)
  | .debugResume p => decide (p < 256)
  | .debugStep p => decide (p < 256)
  | .debugHaltGang p => decide (p < 256)
  | .debugRelock p => decide (p < 256)
  | .pondHalted p => decide (p < 128)
  | .brkpt _ => true
  | .dbgmemPoll => true
  | .dbgmemRead space p addr => decide (space < 4) && decide (p < 256) && decide (addr < 2 ^ 48)
  | .dbgmemWrite space p addr _ => decide (space < 4) && decide (p < 256) && decide (addr < 2 ^ 48)
  | .bypass => true
  | .powerEntryDone => true
  | .powerExitDone => true
  | .wakeNAssert _ => true
  | .wakeNRelease => true
  | .wakeTimerExpiry => true
  | .pondPowerUp => true
  | .supplyOutOfRange _ => true
  | .supplyStop => true
  | .supplyRecovered => true
  | .temperatureHigh _ => true
  | .temperatureCritical => true
  | .coolDownRelease => true
  | .pwrOkFall => true
  | .modrstNAssert => true
  | .perstNRelease => true
  | .powerUp => true
  | .powerStagesOff => true
  | .wakeNPulseFiltered => true
  | .msixUnmask v => decide (v < 8)
  | .spdmUnsupportedRequest => true
  | .chipEngineUnitFailed cls _ => decide (cls < 16)

end Sys2Proof
end

