-- ==== Sys2Proof/Tests/Slice0.lean ====
section
/-! SUPPORT. The model's own tests: ill-formed commands are refused, no word spells a command,
each statement's premises are met by some state, and a few commands give the results that the spec states. -/

set_option Elab.async false

namespace Sys2Proof.Tests

open Sys2Proof Sys2Proof.Machine Sys2Proof.Safety

/-! ## Machines for the tests -/

/-- Two ponds in service, and memory, tables and futures empty. -/
def twoPonds : State :=
  { State.reset with
    map := { State.reset.map with toPhys := [(0, 0), (1, 1)] },
    ponds := [(0, { Pond.reset with powered := true }), (1, { Pond.reset with powered := true })] }

/-- The two ponds with object values, each an index, a sub-index and a value. -/
def withObjs (os : List (Nat × Nat × Nat)) (s : State) : State :=
  os.foldl (fun s o => setObj s (key o.1 o.2.1) o.2.2) s

/-- A device whose service core serves a host that owns it: the boot has passed B3 and the link is up. -/
def served : State := withObjs [(0x3010, 1, 9), (0x3000, 1, 2), (0x3101, 7, 0x300), (0x3101, 9, 2)] twoPonds

/-- The same device in the setup regime with the debug port open for writes and an image staged. -/
def setupServed : State :=
  { withObjs [(0x2E00, 1, 1)] served with
    secure := { served.secure with level := 2 }, boot := { served.boot with staged := true } }

/-- A write of an object in its own width passes every check, in the state itself. -/
def accepts (s : State) (m index sub v : Nat) : Bool :=
  isMaster m && reaches s m true && decide (checkedIn m s = some s) &&
    match lookup s index sub with
    | .error _ => false
    | .ok r => !longType r && decide (r.access ≠ .const ∧ r.access ≠ .ro) &&
        mayWrite s m (key index sub) r.access &&
        decide (m = hostMaster → storeByte m (naturalWidth m index sub) = 0 ∧
          cellAligned 0 (storeWidth m (naturalWidth m index sub)) = true ∧
          cellShape r (storeWidth m (naturalWidth m index sub)) v = 0) &&
        decide (m ≠ hostMaster → m ≠ debugMaster → naturalWidth m index sub = typeSize r.type) &&
        decide (isCanMaster m = true → sessionFree s (m / 256 - 1) (m % 128) = true) &&
        decide (rangeCode s (key index sub) v r = 0) && decide (stateCode s (key index sub) v r = 0)

/-- What `accepts` computes is the premise of the statements about writes. -/
theorem accepted_of_accepts {s : State} {m index sub v : Nat} (h : accepts s m index sub v = true) :
    ∃ r, AcceptedAs s m index sub v r s := by
  unfold accepts at h
  split at h
  · simp at h
  · next r hr =>
    simp only [Bool.and_eq_true, decide_eq_true_eq, Bool.not_eq_true'] at h
    obtain ⟨⟨⟨h1, h2⟩, h3⟩, ⟨⟨⟨⟨⟨⟨h4, h5⟩, h6⟩, h7⟩, h8⟩, h9⟩, h10⟩, h11⟩ := h
    exact ⟨r, h1, h2, h3, hr, h4, h5, h6, h7, h8, h9, h10, h11⟩

/-! ## The block as a machine -/

/-- A queue with one command in front. -/
theorem witness_StepRunsFrontCommand :
    ({ State.reset with pending := [.tapReset, .idcode] } : State).pending = .tapReset :: [.idcode] := rfl

/-- A command whose pond exists, and one whose pond does not. -/
theorem witness_CommandsComplete : UnitsExist (.set 127) twoPonds ∧ ¬ UnitsExist (.set 128) twoPonds := by
  unfold UnitsExist
  decide

/-- A step that answers a next state, and an empty queue. -/
theorem witness_StepTakesOneCommand :
    (∃ t, step { State.reset with pending := [.tapReset] } = .next t) ∧ State.reset.pending = [] :=
  ⟨⟨_, rfl⟩, rfl⟩

/-- The keys of a table rise strictly. -/
def keysRise {α : Type} : NMap α → Bool
  | [] => true
  | e :: m => m.all (fun x => decide (e.1 < x.1)) && keysRise m

theorem sorted_of_keysRise {α : Type} : ∀ {m : NMap α}, keysRise m = true → MapSorted m
  | [], _ => List.Pairwise.nil
  | e :: m, h => by
    simp only [keysRise, Bool.and_eq_true, List.all_eq_true, decide_eq_true_eq] at h
    exact List.Pairwise.cons h.1 (sorted_of_keysRise h.2)

/-- Every table of a state is in canonical form. -/
def isCanonical (s : State) : Bool :=
  memWf s.mem && keysRise s.dict && keysRise s.inForce && keysRise s.copies && keysRise s.tree && keysRise s.gangs &&
    keysRise s.steps && keysRise s.ponds && keysRise s.programs && keysRise s.seq.futures &&
    keysRise s.tiers.extents && keysRise s.tiers.objects

/-- What `isCanonical` computes is the premise of the statements. -/
theorem canonical_of_isCanonical {s : State} (h : isCanonical s = true) : Canonical s := by
  simp only [isCanonical, Bool.and_eq_true] at h
  obtain ⟨⟨⟨⟨⟨⟨⟨⟨⟨⟨⟨h1, h2⟩, h3⟩, h4⟩, h5⟩, h6⟩, h7⟩, h8⟩, h9⟩, h10⟩, h11⟩, h12⟩ := h
  exact ⟨h1, sorted_of_keysRise h2, sorted_of_keysRise h3, sorted_of_keysRise h4, sorted_of_keysRise h5,
    sorted_of_keysRise h6, sorted_of_keysRise h7, sorted_of_keysRise h8, sorted_of_keysRise h9,
    sorted_of_keysRise h10, sorted_of_keysRise h11, sorted_of_keysRise h12⟩

/-- The tables of the state after power-up are in canonical form. -/
theorem canonical_reset : Canonical State.reset := canonical_of_isCanonical (by decide)

/-- A canonical state steps to a next one. -/
theorem witness_StepKeepsCanonical :
    Canonical { State.reset with pending := [.tapReset] } ∧
      ∃ t, step { State.reset with pending := [.tapReset] } = .next t :=
  ⟨canonical_of_isCanonical (by decide), _, rfl⟩

/-- A device with the fuse burned steps to a next state. -/
theorem witness_StepKeepsDebugFuse :
    let s := { State.reset with pending := [.tapReset], secure := { State.reset.secure with disabled := true } }
    DebugFuse s ∧ s.secure.disabled = true ∧ ∃ t, step s = .next t :=
  ⟨fun _ => rfl, rfl, _, rfl⟩

theorem witness_StepOnlyGoesOn : ∃ t, step { State.reset with pending := [.tapReset] } = .next t := ⟨_, rfl⟩

/-- Registers, objects and bytes of frames that can be written. -/
theorem witness_StateReadsBack :
    MapSorted Core.reset.params ∧ Canonical State.reset ∧ deviceByte State.reset 0x1000 = none ∧
      deviceByte State.reset 0x1001 = none :=
  ⟨List.Pairwise.nil, canonical_reset, by decide, by decide⟩

/-! ## Writes of objects -/

/-- The host writes its owner's object, and the write takes effect without an abort. -/
theorem witness_AcceptedWriteTakesEffect :
    accepts served 0x300 0x2610 1 3 = true ∧ (applyWrite 0x300 (key 0x2610 1) 3 .rwo served).1 = 0 := by decide

/-- A private object is written by one master: no request, and neither another master's copy nor another object. -/
theorem witness_PrivateCopies :
    accepts served 0x300 0x2A30 2 7 = true ∧ (lookup served 0x2A30 2).toOption.map (·.access) = some .rw ∧
      oneShot (key 0x2A30 2) = false ∧ resultRequest (key 0x2A30 2) 7 served = none ∧ 0x300 < 2 ^ 24 ∧
      key 0x2A30 2 < 2 ^ 24 ∧ isCanonical served = true := by decide +kernel

/-- A CAN client that is in the master table, beside the owner. -/
def withClient : State :=
  { withObjs [(0x3110, 7, 5), (0x3111, 1, 1), (0x3110, 1, 9)] served with own := { served.own with masters := [(0x105, 0)] } }

theorem witness_StrangerIsRefused :
    isCanMaster 0x105 = true ∧ reaches withClient 0x105 true = true ∧
      (checkedIn 0x105 withClient).any (fun t => sessionFree t (0x105 / 256 - 1) (0x105 % 128) && decide (0x105 ≠ ownerOf t)) = true ∧
      (lookup withClient 0x2610 1).toOption.map (·.access) = some .rwo ∧ 0x105 ≠ ownerOf withClient := by decide +kernel

/-- Every request of the device is accepted in some state. -/
theorem witness_DeviceRequestsComplete :
    accepts setupServed 0x300 0x2200 1 1 = true ∧ accepts setupServed 0x300 0x2200 4 1 = true ∧
    accepts setupServed 0x300 0x2200 4 0 = true ∧
    isTreeKey (key 0x5003 1) = true ∧ accepts setupServed 0x300 0x5003 1 1 = true ∧
    isTreeKey (key 0x2102 0x80) = true ∧ accepts setupServed 0x300 0x2102 0x80 255 = true ∧
    accepts setupServed 0x300 0x2110 1 1 = true ∧ accepts setupServed 0x300 0x2120 1 1 = true ∧
    accepts setupServed 0x300 0x2610 3 1 = true ∧ getObj setupServed (key 0x2610 3) ≠ 1 ∧
    accepts setupServed 0x300 0x2611 2 1 = true ∧ accepts setupServed 0x300 0x2611 3 1 = true ∧
    accepts setupServed 0x300 0x2702 2 4096 = true ∧
    accepts setupServed 0x300 0x2710 1 4096 = true ∧ accepts setupServed 0x300 0x2713 3 1 = true ∧
    accepts setupServed 0x300 0x2A20 4 1 = true ∧ inSetup setupServed = true ∧
    setupServed.requests.margin = none ∧
    ¬ (getObj setupServed (key 0x2A20 1) = 1 ∧ 63 < getObj setupServed (key 0x2A20 2)) ∧
    memberWorks (memberOf setupServed (getObj setupServed (key 0x2A20 1)) (getObj setupServed (key 0x2A20 2))) = true := by
  decide +kernel

theorem witness_ServiceRequestsComplete :
    accepts setupServed 0x300 0x2B01 5 1 = true ∧ accepts setupServed 0x300 0x2C01 2 1 = true ∧
    (let a := answered 0x300 0x2D02 1 (setObj setupServed (key 0x2D02 1) 3)
     let b := answered 0x300 0x2D02 2 (setObj a (key 0x2D02 2) 1)
     let c := answered 0x300 0x2D02 2 (setObj a (key 0x2D02 2) 2)
     accepts setupServed 0x300 0x2D02 1 3 = true ∧ accepts a 0x300 0x2D02 2 1 = true ∧
       accepts b 0x300 0x2D02 3 1 = true ∧ accepts a 0x300 0x2D02 2 2 = true ∧ accepts c 0x300 0x2D02 3 1 = true) ∧
    accepts setupServed 0x300 0x2E01 5 1 = true ∧ accepts setupServed 0x300 0x2E01 6 1 = true ∧
    accepts setupServed 0x300 0x2E01 7 1 = true ∧ accepts setupServed 0x300 0x2E01 8 1 = true ∧
    accepts setupServed 0x300 0x2E00 2 0 = true ∧ accepts setupServed 0x300 0x2E10 0xB 1 = true ∧
    (requestRetire setupServed).1 = 0 ∧
    accepts setupServed 0x300 0x2E30 1 1 = true ∧ setupServed.boot.activating = none ∧ setupServed.boot.staged = true ∧
    accepts setupServed 0x300 0x3020 3 1 = true ∧ (requestVerify setupServed).1 = 0 ∧
    accepts setupServed 0x300 0x3030 3 1 = true ∧ accepts setupServed 0x300 0x3040 4 1 = true ∧
    accepts setupServed 0x300 0x3040 5 1 = true ∧ accepts setupServed 0x300 0x2F00 1 2 = true ∧
    accepts setupServed 0x300 0x3110 5 1 = true := by decide +kernel

/-! ## Ownership -/

/-- A handover to the debug port is pending. -/
def handingOver : State := withObjs [(0x3101, 3, 0x400), (0x3101, 9, 3)] setupServed

theorem witness_OwnershipCommandsComplete :
    accepts (withObjs [(0x3101, 7, 0), (0x3101, 9, 0)] served) 0x300 0x3101 1 9 = true ∧
    ownState (withObjs [(0x3101, 7, 0), (0x3101, 9, 0)] served) ≤ 1 ∧
    accepts served 0x300 0x3101 2 1 = true ∧ accepts served 0x300 0x3101 3 0x400 = true ∧
    accepts served 0x300 0x3101 3 0 = true ∧ accepts handingOver 0x400 0x3101 4 1 = true ∧
    accepts served 0x300 0x3101 5 1 = true ∧ accepts setupServed 0x400 0x3101 6 1 = true ∧
    isCanonical served = true ∧ key 0x2610 1 ∉ [key 0x3101 3, key 0x3101 7, key 0x3101 9] := by decide +kernel

/-- A lease, a handover, and an election with two claims of one priority. -/
def clocks : Ownership :=
  { claims := [(0x300, 3), (0x105, 3)], lease := some 5, election := some 7, handover := some 6, frozen := none,
    masters := [(0x105, 0)] }

theorem witness_OwnershipTimers :
    (let s := { withClient with own := clocks }
     s.own.lease = some 5 ∧ s.own.frozen = none ∧ ownerOf s ≠ 0 ∧ s.own.handover = some 6 ∧
     s.own.masters.find? (fun e => decide (e.1 = 0x105)) = some (0x105, 0) ∧ isMaster 0x105 = true ∧
     0x105 ≠ ownerOf s ∧ 0x105 ≠ successorOf s ∧ isMaster 0x300 = true ∧ 0x300 = ownerOf s ∧
     s.own.election = some 7 ∧ (0x105, 3) ∈ s.own.claims ∧
     ∀ x ∈ s.own.claims, x ≠ (0x105, 3) → x.2 < 3 ∨ (x.2 = 3 ∧ 0x105 < x.1)) ∧
    (pauseService served).own.frozen ≠ none ∧
    ({ served with own := { served.own with election := some 7 } } : State).own.claims = [] := by decide +kernel


/-! ## The tick and serving -/

/-- Ticks run, on the internal generator, after an edge at 1000. -/
def ticking : State := { served with tick := { served.tick with running := true, anyEdge := true, lastEdge := 1000 } }

theorem witness_TickEdges :
    (ticking.tick.running = true ∧ tickInUsed ticking = false ∧ readoptPending ticking = false) ∧
    (let s := withObjs [(0x2200, 2, 1)] ticking
     tickInUsed s = true ∧ (forceObj s (key 0x2200 3) = 0 ↔ true = true) ∧
       max s.now 2000 < s.tick.lastEdge + forceObj s (key 0x2201 2) * 1250 ∧
       s.tick.lastEdge + forceObj s (key 0x2201 2) * 1250 ≤ max s.now 20000000) ∧
    (let s := withObjs [(0x2200, 4, 1)] ticking
     tickInUsed s = false ∧ readoptPending s = true) ∧
    served.tick.running = false ∧ isCanonical ticking = true := by decide +kernel

theorem witness_TickPhases : isCanonical ticking = true := by decide +kernel

/-- An image of a program that serves. -/
def image : Image :=
  { number := 1, pondCount := 1, batch := 2, flags := 1, nCmd := 1, regLow := 0, regHigh := 0, cFix := 0, cStep := 0,
    aBg := 0, engines := 0, prologue := 0xFFFF, step := 0, errorExit := 0xFFFF, background := 0xFFFF, tableMask := 0,
    crc := 0, regs := [], checkpoints := [], reloads := [] }

/-- A work-list entry of program 1. -/
def entry : WorkEntry :=
  { future := 3, program := 1, fallback := false, first := true, position := 0, planned := 0, charge := 10,
    switched := false, dropped := false }

/-- The latch has passed, and gang 0 has the entries given, the first of which is next. -/
def dispatching (es : List WorkEntry) : State :=
  { ticking with tick := { ticking.tick with latched := true },
                 gangs := [(0, { Gang.empty with dispatched := true, entries := es })] }

/-- Pond 0 of a state passed through `f`. -/
def atPond0 (f : Pond → Pond) (s : State) : State := modPond s 0 f

/-- Background task 1 is switched out of gang 0, which serves; the latch has passed, and dispatch has waited or not. -/
def switchingOut (waited : Nat) : State :=
  let r : TaskRun := { task := 1, since := 0, entered := 0, stopAt := some 5, saving := true, restoring := false, kind := 0,
                       live := 0, ending := false }
  let s := atPond0 (fun pd => { pd with banks := [(0, [{ image := image, code := [], damaged := [] }])] }) ticking
  { s with tick := { s.tick with latched := true }, gangs := [(0, { Gang.empty with dispatchAt := waited })],
           shares := { s.shares with runs := [(0, some r)] } }

theorem witness_ServingEvents :
    (ticking.tick.anyEdge = true ∧ ticking.tick.latched = false) ∧
    (let s := { ticking with tick := { ticking.tick with latched := true } }
     s.tick.latched = true ∧ (gangOf s 0).dispatched = false ∧ s.tick.committed = false ∧
       servingGang (advanceTo s (s.tick.lastEdge + 17500 + (gangOf s 0).aSw)) 0 = false) ∧
    ([0, 9].all fun n =>
      let s := switchingOut n
      let u := advanceTo s (s.tick.lastEdge + 17500 + (gangOf s 0).aSw)
      s.tick.latched && !(gangOf s 0).dispatched && !s.tick.committed && servingGang u 0 && decide (runOf u 0 ≠ none) &&
        decide ((gangOf s 0).dispatchAt = n)) = true ∧
    (mayFetchGroup (dispatching []) 0 = true ∧ groupAt (skipDropped 0 (advanceTo (dispatching []) 2000))
      (gangOf (skipDropped 0 (advanceTo (dispatching []) 2000)) 0) = []) ∧
    (let s := { dispatching [] with gangs := [(0, { Gang.empty with group := [entry] })] }
     (gangOf s 0).group ≠ [] ∧ (gangOf s 0).costFlagged = false) ∧
    (let s := { setupServed with tiers := { setupServed.tiers with repairs := [5] } }
     s.tiers.repairs = 5 :: [] ∧ inSetup s = true) ∧
    (let s := setPhases 12500000 50 { withObjs [(0x2E00, 1, 2)] ticking with
        tick := { ticking.tick with committed := true }, tiers := { ticking.tiers with repairs := [5] } }
     s.tiers.repairs = 5 :: [] ∧ inSetup s = false ∧ s.tick.committed = true ∧ s.tick.repaired = false ∧
       162500 ≤ guardBand s) ∧
    (let s := { ticking with tick := { ticking.tick with latched := true } }
     s.tick.latched = true ∧ s.tick.committed = false) := by decide +kernel

/-- A lost entry, and then a group of two of program 1, whose batch width is 2, before an entry of program 2. -/
def mixed : List WorkEntry := [{ entry with dropped := true }, entry, { entry with switched := true }, { entry with program := 2 }]

/-- The gang with these entries, and program 1 in its bank, with a prologue or without one. -/
def grouped (prologue : Nat) : State :=
  let s := dispatching mixed
  let i : Image := { image with prologue := prologue }
  atPond0 (fun pd => { pd with banks := [(0, [{ image := i, code := [], damaged := [] }])] })
    { s with programs := [(1, { DirRecord.empty with batch := 2 })] }

theorem witness_GroupFetched :
    ([0, 0xFFFF].all fun n =>
      let s := grouped n
      let u := skipDropped 0 (advanceTo s 2000)
      isCanonical s && mayFetchGroup s 0 &&
        decide (groupAt u (gangOf u 0) = [entry, { entry with switched := true }]) &&
        decide (1 ∉ (pondOf u (physOf u 0)).core.ran) && decide ((imageOn u (physOf u 0) 1).map (·.prologue) = some n)) = true := by
  decide +kernel

/-- A command word 0: opcode, class, and the low 52 bits. -/
def word0 (op cls low : Nat) : W64 := BitVec.ofNat 64 (op * 2 ^ 56 + cls * 2 ^ 52 + low)

/-- A command of opcode, class and words 1 to 3. -/
def command (op cls : Nat) (w1 w2 w3 : Nat) : Cmd :=
  { w0 := word0 op cls 0, w1 := BitVec.ofNat 64 w1, w2 := BitVec.ofNat 64 w2, w3 := BitVec.ofNat 64 w3 }

/-- A command of program 1 in a queue. -/
def queued (c : Cmd) : Queued := { cmd := c, program := 1, pushed := 0 }

/-- A running command. -/
def running (c : Cmd) : Running :=
  { id := 0, cmd := c, program := 1, started := 0, arrival := none, epochReads := none, waits := 0 }

/-- A section of program 1 at its first command. -/
def section1 (kind : SectionKind) : Section :=
  { kind := kind, program := 1, pc := 0, group := [3], epoch := 0, carried := false, task := false, resume := 0,
    started := 0, progress := 0 }

/-- The control core of pond 0 stands at a command of program 1. -/
def atCommand (kind : SectionKind) (c : Cmd) (s : State) : State :=
  atPond0 (fun pd => { pd with core := { pd.core with sect := some (section1 kind) },
                               banks := [(0, [{ image := image, code := [c], damaged := [] }])] }) s

/-- Logical pond 0 stands on physical pond 0. -/
theorem onPond0 (s : State) (h : (decide (0 < logicalCount s) && decide (physOf s 0 = 0)) = true) : OnPond s 0 0 := by
  simp only [Bool.and_eq_true, decide_eq_true_eq] at h
  exact ⟨h.1, h.2, by decide⟩

theorem witness_PondEvents :
    OnPond ticking 0 0 ∧ ticking.tick.anyEdge = true ∧
    (let c := command 1 1 0 0 0
     let s := atPond0 (fun pd => { pd with core := { pd.core with stalled := some (queued c, 7) } }) ticking
     OnPond s 0 0 ∧ (pondOf s 0).core.stalled = some (queued c, 7) ∧ (queueOf (pondOf s 0) (classOf c)).length < 64) ∧
    (let s := atPond0 (fun pd => setStream { pd with core := { pd.core with creditsDue := [(2, 90)] } } 2
       { StreamEnd.closed with opened := true }) ticking
     OnPond s 0 0 ∧ (pondOf s 0).core.creditsDue.find? (fun e => decide (e.1 = 2)) = some (2, 90) ∧
       (streamOf (pondOf s 0) 2).opened = true ∧ (streamOf (pondOf s 0) 2).consumer = false) ∧
    (let sig : PeerSignal := { counter := 4, count := 1, visible := 50, sender := 1, after := 1, tag := 0 }
     let s := atPond0 (fun pd => { pd with core := { pd.core with signals := [sig] } }) ticking
     OnPond s 0 0 ∧ nextSignal s 0 = some sig) ∧
    (let s := atPond0 (fun pd => { pd with halt := some 1 }) ticking
     OnPond s 0 0 ∧ (pondOf s 0).halt = some 1 ∧ (pondOf s 0).running = [] ∧ (pondOf s 0).queues = []) := by
  refine ⟨onPond0 _ (by decide +kernel), by decide +kernel, ?_, ?_, ?_, ?_⟩
  · exact ⟨onPond0 _ (by decide +kernel), by decide +kernel, by decide +kernel⟩
  · exact ⟨onPond0 _ (by decide +kernel), by decide +kernel, by decide +kernel, by decide +kernel⟩
  · exact ⟨onPond0 _ (by decide +kernel), by decide +kernel⟩
  · exact ⟨onPond0 _ (by decide +kernel), by decide +kernel, by decide +kernel, by decide +kernel⟩

/-! ## The control core -/

/-- The state after the fetch of the command at which pond 0 stands. -/
def fetched (kind : SectionKind) (c : Cmd) (s : State) : State :=
  (fetchControl 0 0 0 (section1 kind) c (atCommand kind c s)).1

/-- The state in which that command executes. -/
def executing (kind : SectionKind) (c : Cmd) (s : State) : State := begun 0 (section1 kind) c (fetched kind c s)

/-- The command `c` of opcode `op` stands at the fetch point of pond 0, goes on and may start. -/
def fetches (kind : SectionKind) (op : Nat) (c : Cmd) (s : State) : Bool :=
  let t := atCommand kind c s
  decide (0 < logicalCount t) && decide (physOf t 0 = 0) && canFetch (pondOf t 0) &&
    decide (fetchPoint (pondOf t 0) = some (section1 kind, { image := image, code := [c], damaged := [] }, c)) &&
    decide (classOf c = 0) && decide (opcodeOf c = op) && (fetchControl 0 0 0 (section1 kind) c t).2 &&
    waitMet (pondOf (fetched kind c s) 0) c && isCanonical (fetched kind c s)

/-- What `fetches` computes is the premise of the statements about control commands. -/
theorem atFetch_of_fetches {kind : SectionKind} {op : Nat} {c : Cmd} {s : State} (h : fetches kind op c s = true) :
    AtFetch (atCommand kind c s) 0 0 op (section1 kind) c (fetched kind c s) ∧ Canonical (fetched kind c s) := by
  simp only [fetches, Bool.and_eq_true, decide_eq_true_eq] at h
  obtain ⟨⟨⟨⟨⟨⟨⟨⟨h1, h2⟩, h3⟩, h4⟩, h5⟩, h6⟩, h7⟩, h8⟩, h9⟩ := h
  exact ⟨⟨⟨h1, h2, by decide⟩, .inl h3, ⟨_, h4⟩, h5, h6, Prod.ext rfl h7, .inr h8⟩, canonical_of_isCanonical h9⟩

/-- A device with extent 0 mapped to a frame of tier 0. -/
def mapped : State :=
  { served with tiers := { served.tiers with
      extents := [(0, { Extent.unmapped with tier := 0, pinned := true }),
                  (1, { Extent.unmapped with tier := 0, readOnly := true, frame := 1 }),
                  (2, { Extent.unmapped with tier := 0, frame := 2 })] } }

/-- A control command with register fields and a word 2. -/
def ctl (op w1 w2 : Nat) : Cmd := command op 0 w1 w2 0

/-- SET, ALU, LOOP, ENDLOOP, CMP, BR, NOP and RESUME at a fetch point. -/
theorem witness_RegisterCommands :
    [0x01, 0x02, 0x05, 0x06, 0x07, 0x08, 0x0D, 0x0E].all
      (fun op => fetches .step op (ctl op (3 * 2 ^ 56) 5) served) = true := by decide +kernel

theorem witness_LoadAndStore :
    (fetches .step 0x03 (ctl 0x03 (3 * 2 ^ 56) 8) mapped = true ∧
      (let u := executing .step (ctl 0x03 (3 * 2 ^ 56) 8) mapped
       (getParam (pondOf u 0).core 0 + 8#64).toNat = 8 ∧ unitMapped u [(8, 8)] = true ∧
         unservable u [(8, 8)] = false ∧ waitsRefetch u [(8, 8)] = false)) ∧
    (fetches .step 0x04 (ctl 0x04 0 8) mapped = true ∧
      (let u := executing .step (ctl 0x04 0 8) mapped
       unitMapped u [(8, 8)] = true ∧ unitReadOnly u [(8, 8)] = false ∧
         unitMapped u [(0x200008, 8)] = true ∧ unitReadOnly u [(0x200008, 8)] = true)) ∧
    ([false, true].all fun again =>
      let s := setExtent mapped 0 { Extent.unmapped with tier := 0, pinned := true, poisoned := true }
      let s := if again then { s with tiers := { s.tiers with refetches := [{ extent := 0, toFrame := 6, backup := 2 }] } } else s
      let u := executing .step (ctl 0x03 (3 * 2 ^ 56) 8) s
      fetches .step 0x03 (ctl 0x03 (3 * 2 ^ 56) 8) s && unitMapped u [(8, 8)] && (unservable u [(8, 8)] == !again) &&
        (waitsRefetch u [(8, 8)] == again)) = true := by decide +kernel

/-- A store to an odd address, to an address above the range, and to an unmapped one. -/
theorem witness_MisalignedAccess :
    fetches .step 0x04 (ctl 0x04 0 4) mapped = true ∧ (4#64).toNat % 8 ≠ 0 ∧
    fetches .step 0x03 (ctl 0x03 0 (2 ^ 48)) mapped = true ∧ 2 ^ 48 ≤ (BitVec.ofNat 64 (2 ^ 48)).toNat ∧
    fetches .step 0x03 (ctl 0x03 0 (2 ^ 40)) mapped = true ∧
    unitMapped (executing .step (ctl 0x03 0 (2 ^ 40)) mapped) [(2 ^ 40, 8)] = false ∧
    (pondOf (executing .step (ctl 0x04 0 4) mapped) 0).core.sect.map (·.kind) = some .step ∧
    (pondOf (executing .step (ctl 0x04 0 4) mapped) 0).core.exiting = none ∧
    (pondOf (executing .step (ctl 0x04 0 4) mapped) 0).core.exited = false := by decide +kernel

/-- A command of program 1 waits in a queue of pond 0. -/
def withPushed (s : State) : State := atPond0 (fun pd => setQueue pd 1 [queued (command 1 1 0 0 0)]) s

theorem witness_SignalCommands :
    (fetches .step 0x0A (ctl 0x0A 0 0) served = true ∧
      fenced (pondOf (executing .step (ctl 0x0A 0 0) served) 0) 1 = true) ∧
    (fetches .step 0x0A (ctl 0x0A 0 0) (withPushed served) = true ∧
      fenced (pondOf (executing .step (ctl 0x0A 0 0) (withPushed served)) 0) 1 = false) ∧
    (fetches .step 0x09 (ctl 0x09 0 0) served = true ∧
      (gangMembers (executing .step (ctl 0x09 0 0) served) 0)[0]? = some 0 ∧
      physOf (executing .step (ctl 0x09 0 0) served) 0 ≠ 0xFF) ∧
    (fetches .step 0x09 (ctl 0x09 (2 ^ 39) 1) served = true ∧
      (gangMembers (executing .step (ctl 0x09 (2 ^ 39) 1) served) 0)[1]? = none) ∧
    fetches .step 0x0C (ctl 0x0C 0 0) served = true ∧
    ([SectionKind.step, .prologue, .error, .background].all fun kind =>
      let c := ctl 0x0B 0 0
      let u := executing kind c served
      let v := signalDone 0 c (traceInfo 0 0x0002 0 (tagOf c) 0 (kindCode kind) (some 1) u)
      fetches kind 0x0B c served && fenced (pondOf u 0) 1 && decide ((pondOf v 0).core.sect ≠ none) &&
        decide ((pondOf v 0).core.exiting = none)) = true ∧ (section1 .error).task = false ∧
    (let c := { ctl 0x0B 0 0 with w0 := word0 0x0B 0 (2 ^ 48 + 2 * 2 ^ 35 + 2 ^ 16) }
     let s := modCore served 0 fun k => { k with sync := [(2, 65535)] }
     let u := executing .step c s
     let v := signalDone 0 c (traceInfo 0 0x0002 0 (tagOf c) 0 (kindCode .step) (some 1) u)
     fetches .step 0x0B c s = true ∧ fenced (pondOf u 0) 1 = true ∧ (pondOf v 0).core.exiting ≠ none) := by decide +kernel

/-- A command that waits for 3 on counter 2. -/
def waiter : Cmd := { ctl 0x0D 0 0 with w0 := word0 0x0D 0 (2 ^ 49 + 2 * 2 ^ 43 + 2 * 2 ^ 40) }

theorem witness_WaitsAndSignals :
    let pd : Pond := { Pond.reset with core := { Core.reset with sync := [(2, 7)] } }
    MapSorted pd.core.sync ∧ waits waiter = true ∧ waitMet pd waiter = true ∧ waits (ctl 0x0D 0 0) = false ∧
      waitCounter waiter = 2 ∧ waitCount waiter = 3 :=
  ⟨sorted_of_keysRise (by decide), by decide, by decide, by decide, by decide, by decide⟩

/-- The counter 2 of pond 0 at its limit, and a section of program 1. -/
def brimful : State :=
  atPond0 (fun pd => { pd with core := { pd.core with sync := [(2, 65535)], sect := some (section1 .step) } }) served

theorem witness_SignalOverflow :
    Canonical brimful ∧ MapSorted (pondOf brimful 0).core.sync ∧ 65535 < getSync (pondOf brimful 0).core 2 + 1 ∧
      (pondOf brimful 0).core.sect = some (section1 .step) ∧ (section1 .step).program = tagProgram (2 ^ 16) ∧
      (pondOf brimful 0).core.exiting = none ∧ (pondOf brimful 0).core.exited = false ∧
      getSync (pondOf brimful 0).core 3 + 8 ≤ 65535 :=
  ⟨canonical_of_isCanonical (by decide +kernel), sorted_of_keysRise (by decide +kernel), by decide +kernel,
    by decide +kernel, by decide +kernel, by decide +kernel, by decide +kernel, by decide +kernel⟩

/-- A present engine's command, and a command of an engine that the smaller grade does not have. -/
theorem witness_CommandPush :
    OnPond (atCommand .step (command 1 1 0 0 0) served) 0 0 ∧
    ([0, 64].all fun n =>
     let c := command 1 1 0 0 0
     let s := atPond0 (fun pd => setQueue pd 1 (List.replicate n (queued c))) (atCommand .step c served)
     let u := fetchMarks 0 0 0 (section1 .step) c (advanceTo s 50)
     decide (physOf s 0 = 0) && canFetch (pondOf s 0) && decide (classOf c ≠ 0) &&
       decide (fetchPoint (pondOf s 0) = some (section1 .step, { image := image, code := [c], damaged := [] }, c)) &&
       decide (fetchEnds 0 0 0 (section1 .step) c (advanceTo s 50) = none) && !engineAbsent u (classOf c) &&
       decide ((queueOf (pondOf u 0) (classOf c)).length = n)) = true ∧
    (let s := atPond0 (fun pd => { pd with core := { pd.core with sect := some { section1 .step with pc := 1 } } })
       (atCommand .step (command 1 1 0 0 0) served)
     canFetch (pondOf s 0) = true ∧ (residentOf (pondOf s 0) 1).isSome = true ∧ fetchPoint (pondOf s 0) = none) ∧
    (let c := command 1 9 0 0 0
     let s := { atCommand .step c served with nvm := { Nvm.shipped with grade := .b96 } }
     OnPond s 0 0 ∧ canFetch (pondOf s 0) = true ∧ classOf c ≠ 0 ∧
       fetchPoint (pondOf s 0) = some (section1 .step, { image := image, code := [c], damaged := [] }, c) ∧
       fetchEnds 0 0 0 (section1 .step) c (advanceTo s 50) = none ∧
       engineAbsent (fetchMarks 0 0 0 (section1 .step) c (advanceTo s 50)) (classOf c) = true) :=
  ⟨onPond0 _ (by decide +kernel), by decide +kernel, by decide +kernel,
    onPond0 _ (by decide +kernel), by decide +kernel, by decide +kernel, by decide +kernel, by decide +kernel,
      by decide +kernel⟩

/-- A program in a step section, and one in its error-exit section. -/
theorem witness_ErrorExit :
    ([(SectionKind.step, false), (.error, true)].all fun e =>
      let s := modCore (atCommand e.1 (ctl 1 0 0) served) 0 fun k => { k with exited := e.2 }
      isCanonical s && decide ((pondOf s 0).core.sect = some (section1 e.1)) && decide ((pondOf s 0).core.exiting = none) &&
        (decide ((pondOf s 0).core.exited = false) || decide ((section1 e.1).kind = .error))) = true := by decide +kernel

/-- Pond 0 is in an error exit, of a program with or without an error-exit section. -/
def exitingWith (entryPoint : Nat) : State :=
  atPond0 (fun pd =>
    { pd with core := { pd.core with sect := some (section1 .step), exiting := some { cause := 1, tag := 0 } },
              banks := [(0, [{ image := { image with errorExit := entryPoint }, code := [], damaged := [] }])] }) served

/-- Ponds 0 and 1 are a gang of basin 1, and each has a section in progress. -/
def pair : State :=
  { served with
    tree := [(key 0x2102 1, 1), (key 0x2102 2, 1), (key 0x5001 1, 1), (key 0x5001 3, 0), (key 0x5001 4, 2)],
    ponds := [(0, { Pond.reset with core := { Core.reset with sect := some (section1 .step) }, powered := true }),
              (1, { Pond.reset with core := { Core.reset with sect := some (section1 .step) }, powered := true })] }

/-- The pair, with pond 0 in an error exit. -/
def pairExiting : State := modCore pair 0 fun k => { k with exiting := some { cause := 1, tag := 0 } }

theorem witness_ErrorHandlerEntered :
    ([0, 0xFFFF].all fun n =>
      let s := exitingWith n
      decide (physOf s 0 = 0) && decide ((pondOf s 0).tap = none) && decide (0 < logicalCount s) &&
      decide ((pondOf s 0).core.exiting = some { cause := 1, tag := 0 }) &&
      decide ((pondOf s 0).core.sect = some (section1 .step)) && decide ((pondOf s 0).running = []) &&
      decide ((imageOn s 0 1).map (·.errorExit) = some n)) = true ∧
    ([false, true].all fun task =>
      let sec := { section1 .error with task := task }
      let s := modCore (exitingWith 0) 0 fun k => { k with sect := some sec, exited := true }
      decide ((pondOf s 0).tap = none) && decide ((pondOf s 0).core.exiting = some { cause := 1, tag := 0 }) &&
      decide ((pondOf s 0).core.sect = some sec) && decide (sec.kind = .error) && decide ((pondOf s 0).running = [])) = true ∧
    ((pondOf pairExiting 0).core.exiting ≠ none ∧ (pondOf pairExiting 0).core.exited = false ∧
      gangMembers pairExiting (rank0Of pairExiting 0) = [0, 1] ∧ physOf pairExiting 1 = 1 ∧
      (pondOf pairExiting 1).core.sect ≠ none ∧ (pondOf pairExiting 1).core.exited = false) ∧
    ((pondOf pair 0).core.exiting = none ∧ (pondOf pair 0).core.exited = false) := by decide +kernel

/-! ## Streams -/

/-- Stream 0 of pond 0 leads to stream 0 of pond 1, or comes from it. -/
def linked (consumer : Bool) : State :=
  let near : StreamEnd := { StreamEnd.closed with opened := true, consumer := consumer, peerRank := 1, slotSize := 1, slotCount := 2, credits := 2, filled := 1 }
  let far : StreamEnd := { near with consumer := !consumer, peerRank := 0 }
  modPond (modPond pair 0 fun pd => setStream pd 0 near) 1 fun pd => setStream pd 0 far

/-- The command `c` of opcode `op` is the oldest stream command of pond 0 that may start. -/
def streams (op : Nat) (c : Cmd) (s : State) : Bool :=
  let t := atPond0 (fun pd => setQueue pd 0xB [queued c]) s
  decide (0 < logicalCount t) && decide (physOf t 0 = 0) &&
    decide (pickStream t 0 [] [] (queueOf (pondOf t 0) 0xB) = some (queued c, [])) && decide (opcodeOf c = op) &&
    streamValid (gangMembers t 0).length c && !streamFaults t 0 c && granted t 0 0xB c

/-- What `streams` computes is the premise of the statements about stream commands. -/
theorem atStream_of_streams {op : Nat} {c : Cmd} {s : State} (h : streams op c s = true) :
    AtStream (atPond0 (fun pd => setQueue pd 0xB [queued c]) s) 0 0 op (queued c) [] := by
  simp only [streams, Bool.and_eq_true, decide_eq_true_eq, Bool.not_eq_true'] at h
  obtain ⟨⟨⟨⟨⟨⟨h1, h2⟩, h3⟩, h4⟩, h5⟩, h6⟩, h7⟩ := h
  exact ⟨⟨h1, h2, by decide⟩, h3, h4, h5, h6, h7⟩

/-- A producer and a consumer end opened; a slot sent, and a slot freed, on ends that name each other. -/
theorem witness_StreamCommands :
    streams 0x01 (command 0x01 0xB 0 (2 ^ 22) 0) pair = true ∧
    streams 0x01 (command 0x01 0xB (2 ^ 46) 0 0) pair = true ∧
    streams 0x02 (command 0x02 0xB (2 ^ 23) 0 0) (linked false) = true ∧
    streams 0x03 (command 0x03 0xB 0 0 0) (linked true) = true ∧
    (peerEnd (dequeued 0 (queued (command 0x02 0xB (2 ^ 23) 0 0)) [] (linked false)) 0 0).isSome = true ∧
    (peerEnd (dequeued 0 (queued (command 0x03 0xB 0 0 0)) [] (linked true)) 0 0).isSome = true := by decide +kernel

/-! ## Engines -/

/-- The state with a command at the head of its queue of pond 0. -/
def headOf (c : Cmd) (s : State) : State := atPond0 (fun pd => setQueue pd (classOf c) [queued c]) s

/-- The command `c` at the head of its queue of pond 0 may start. -/
def heads (c : Cmd) (s : State) : Bool :=
  let t := headOf c s
  decide (0 < logicalCount t) && decide (physOf t 0 = 0) &&
    decide (queueOf (pondOf t 0) (classOf c) = [queued c]) && waitMet (pondOf t 0) c &&
    mayStart (pondOf t 0) (queued c) (classOf c) && granted t 0 (classOf c) c

/-- What `heads` computes is the premise of the statements about engine commands. -/
theorem atHead_of_heads {c : Cmd} {s : State} (h : heads c s = true) :
    AtHead (headOf c s) 0 0 (classOf c) (queued c) [] := by
  simp only [heads, Bool.and_eq_true, decide_eq_true_eq] at h
  obtain ⟨⟨⟨⟨⟨h1, h2⟩, h3⟩, h4⟩, h5⟩, h6⟩ := h
  exact ⟨⟨h1, h2, by decide⟩, h3, h4, h5, h6⟩

/-- The state in which the command of `headOf` takes effect. -/
def started (c : Cmd) (s : State) : State := dequeued 0 (queued c) [] (headOf c s)

theorem witness_MatrixCommands :
    (let c := command 1 1 0 (2 ^ 29 + 2 ^ 19 + 2 ^ 10) 0
     heads c served = true ∧ classOf c = 1 ∧ opcodeOf c = 1 ∧ mmaReady (headOf c served) 0 (queued c) = true ∧
       mmaLegal (pondOf (headOf c served) 0) c = true) ∧
    (let c := command 2 1 0 (2 ^ 19 + 2 ^ 10) 0
     heads c served = true ∧ classOf c = 1 ∧ opcodeOf c = 2 ∧ wloadLegal (pondOf (headOf c served) 0) c = true) ∧
    (let c := command 0x20 2 (5 * 2 ^ 61) (4 * 2 ^ 61 + 2 ^ 15) 0
     heads c served = true ∧ classOf c = 2 ∧ opcodeOf c = 0x20 ∧ vecLegal c = true) ∧
    (let c := command 0x21 2 (4 * 2 ^ 61) (4 * 2 ^ 61 + 2 ^ 15) 0
     heads c served = true ∧ classOf c = 2 ∧ opcodeOf c = 0x21 ∧ vecLegal c = true) ∧
    (let c := command 0x01 7 (2 * 2 ^ 61 + 2 ^ 12 + 1) (2 * 2 ^ 61 + 2 ^ 12 + 1) (2 ^ 35)
     heads c served = true ∧ classOf c = 7 ∧ opcodeOf c = 1 ∧ poolLegal c = true) := by decide +kernel

/-- A legal command of every element-wise opcode and of every function. -/
theorem witness_VectorCommands :
    ((vectorRows.map (·.2.1) ++ functionRows.map (·.2.1)).all fun op =>
      let c := command op 2 (4 * 2 ^ 61) (4 * 2 ^ 61 + 2 ^ 15) 0
      heads c served && decide (classOf c = 2) && decide (opcodeOf c = op) && vecLegal c) = true ∧
    isNan (flOf32 0x7F800001) = true ∧ isNan (flOf32 one32) = false := by decide +kernel

theorem witness_GateCommands :
    (pondOf (headOf (command 1 3 0 (4 * 2 ^ 61) 0) served) 0).tap = none ∧
    ([(command 1 3 0 (4 * 2 ^ 61) 0, 1), (command 1 3 (2 ^ 4) (2 ^ 61 + 1) 0, 1)].all fun e =>
      heads e.1 served && decide (opcodeOf e.1 = e.2) && gateLegal e.1) = true ∧
    ([(command 0x10 3 0 (2 ^ 61 + 2 ^ 39) 0, 0x10, false), (command 0x10 3 0 (2 ^ 61 + 2 ^ 39 + 2 ^ 10 + 1) 0, 0x10, true),
      (command 0x11 3 0 (2 ^ 61 + 2 ^ 39) 0, 0x11, false),
      (command 0x11 3 3 (2 ^ 61 + 2 ^ 39 + 2 ^ 10 + 1) 0, 0x11, true)].all fun e =>
      heads e.1 served && decide (opcodeOf e.1 = e.2.1) && scanLegal e.1 && (scanTap e.1 == e.2.2)) = true ∧
    (let c := command 0x12 3 (2 * 2 ^ 61) 0 0
     heads c served = true ∧ opcodeOf c = 0x12 ∧ sfixLegal c = true) := by decide +kernel

/-- The image slot of table 0 of pond 0 is mapped, and holds an image with one entry, or none. -/
def tabled (b : Byte) : State :=
  writeByte (setExtent served ((extentIndex (tableSlot 0 0)).getD 0) { Extent.unmapped with tier := 0 })
    (tableSlot 0 0 + 15) b

theorem witness_TableLoads :
    (let c := command 1 5 0 0 0
     heads c served = true ∧ classOf c = 5 ∧ opcodeOf c = 1 ∧ classIdle (pondOf (headOf c served) 0) 5 = true ∧
       tloadLegal c = true ∧ waitsRefetch (headOf c served) [(tableSlot 0 (tloadFirst c), 1024 * tloadCount c)] = false) ∧
    (isCanonical (tabled 8) = true ∧ unitMapped (tabled 8) [(tableSlot 0 0, 1024)] = true ∧
      unservable (tabled 8) [(tableSlot 0 0, 1024)] = false ∧
      imageInvalid (readBytes (tabled 8) (tableSlot 0 0) 1024) = false) ∧
    (isCanonical (tabled 0) = true ∧ unitMapped (tabled 0) [(tableSlot 0 0, 1024)] = true ∧
      imageInvalid (readBytes (tabled 0) (tableSlot 0 0) 1024) = true) := by decide +kernel

theorem witness_CommandCompletes :
    (let s := atPond0 (fun pd => { pd with running := [running (command 1 2 0 0 0)] }) served
     physOf s 0 = 0 ∧ (pondOf s 0).running.find? (fun x => decide (x.id = 0)) = some (running (command 1 2 0 0 0)) ∧
       mayComplete s 0 (running (command 1 2 0 0 0)) = true) ∧
    (let w : WatchSample := { tag := 0, row := 0, cols := [{ col := 0, narrow := 0, wide := 0, d := 0, good := true }] }
     let s := atPond0 (fun pd => { pd with watch := some w }) served
     (pondOf s 0).watch = some w ∧ ∀ c ∈ w.cols, c.good = true) ∧
    (let s := atPond0 (fun pd => { pd with running := [running (command 1 2 0 0 0)], expanders := [(0, [0])] }) served
     mapFind [] (pondOf s 0).expanders 0 = 0 :: [] ∧
       (pondOf s 0).running.find? (fun x => decide (x.id = 0)) = some (running (command 1 2 0 0 0)) ∧
       classOf (running (command 1 2 0 0 0)).cmd ≠ 1) := by decide +kernel

/-! ## Futures and pages -/

/-- Pool 0 has four pages of 256 KiB from UDA 0, in mapped extents; future 3 is active with 64 tokens and one pending
token on two pages, and future 4 is parked. -/
def paged : State :=
  { withObjs [(0x2710, 2, 64), (0x2710, 3, 4)] served with
    tiers := { served.tiers with extents := (List.range 8).map fun i => (i, { Extent.unmapped with tier := 0, frame := i }) },
    seq := { Seq.cold with configured := [(0, 4)], futures := [(3, { Future.free with state := 1, length := 64, pending := 1, pages := [0, 1] }),
                                       (4, { Future.free with state := 2 })] } }

/-- Operation `op` is accepted where its entry stands in the ring. -/
def opAccepted (op f c : Nat) (a b : W64) : Bool :=
  decide (opResult (ringed { opOf op f a b with c := c } paged) { opOf op f a b with c := c } = 0)

theorem witness_FutureOperations :
    (opAccepted 1 5 0 0 0 && opAccepted 2 3 5 0 0 && opAccepted 3 3 0 0 0 && opAccepted 4 4 0 0 0 &&
      opAccepted 5 3 0 0 0 && opAccepted 6 3 0 0 0 && opAccepted 7 3 0 64 0 && opAccepted 8 3 0 1 0 &&
      opAccepted 9 3 0 7 0) = true ∧
    isCanonical paged = true ∧ opResult paged (opOf 3 9 0 0) ≠ 0 ∧ (opOf 3 3 0 0).op ∈ [1, 3, 6, 7, 8, 9] ∧
    4 ≠ (opOf 3 3 0 0).f := by decide +kernel

/-- The descriptor registers of an attention command on future 3: one head, 64 columns, one valid row. -/
def attending3 : State :=
  modCore paged 0 fun k => { k with params :=
    [(24, BitVec.ofNat 64 (3 * 2 ^ 49 + 2 ^ 32 + 2 ^ 24 + 2 ^ 9)), (29, BitVec.ofNat 64 (2 * 2 ^ 61)),
     (32, BitVec.ofNat 64 (2 * 2 ^ 61)), (33, BitVec.ofNat 64 (2 * 2 ^ 61))] }

theorem witness_PageCommands :
    (let c := command 1 6 (3 * 2 ^ 49) 0 0
     let u := started c paged
     heads c paged = true ∧ classOf c = 6 ∧ classIdle (pondOf (headOf c paged) 0) 6 = true ∧ opcodeOf c = 1 ∧
       pwalkLegal c = true ∧ mayName u 0 (pageFuture (pondOf u 0) c) = true ∧
       ((List.range (walkCount c)).map (walkFirst c + ·)).all (entryValid u (pageFuture (pondOf u 0) c)) = true) ∧
    (let c := command 2 6 (3 * 2 ^ 49) 0 0
     let s := headOf c paged
     let u := started c paged
     let n := appendTokens c
     let f := pageFuture (pondOf u 0) c
     let e := futureOf u f
     let xs := touchedEntries e n
     heads c paged = true ∧ opcodeOf c = 2 ∧ pappendLegal s c = true ∧ mayName u 0 f = true ∧
       waitsRefetch s (appendReads s (pageFuture (pondOf s 0) c) n) = false ∧
       (xs.filter (· < e.pages.length)).all (entryValid u f) = true ∧ e.length + e.pending + n ≤ getObj u (key 0x2700 8) ∧
       (xs.map (· + 1)).foldl max 0 ≤ 4096 ∧ (neededEntries u f n).length ≤ poolFree u e.pool ∧
       unitMapped u (appendReads u f n ++ appendWrites u f n) = true ∧ unitReadOnly u (appendWrites u f n) = false ∧
       unservable u (appendReads u f n) = false) ∧
    (let c := command 3 6 (24 * 2 ^ 56) 0 0
     let s := headOf c attending3
     let u := started c attending3
     let a := attOf (pondOf u 0) c
     heads c attending3 = true ∧ opcodeOf c = 3 ∧ attReady s 0 (queued c) = true ∧
       waitsRefetch s (attRuns s (attOf (pondOf s 0) c)) = false ∧ attfLegal s 0 c = true ∧ mayName u 0 a.future = true ∧
       mayName u 0 (pageFuture (pondOf u 0) c) = true ∧
       (attEntries u a).all (entryValid u a.future) = true ∧ unitMapped u (attRuns u a) = true ∧
       unservable u (attRuns u a) = false) ∧
    (let c := command 4 6 (24 * 2 ^ 56) 0 0
     let s := headOf c attending3
     let u := started c attending3
     let a := attOf (pondOf u 0) c
     heads c attending3 = true ∧ opcodeOf c = 4 ∧ attbLegal s 0 c = true ∧ attReady s 0 (queued c) = true ∧
       mayName u 0 (pageFuture (pondOf u 0) c) = true ∧ (attEntries u a).all (entryValid u a.future) = true ∧
       waitsRefetch s (backReads s (attOf (pondOf s 0) c)) = false ∧
       unitMapped u (backReads u a ++ gradRuns u a) = true ∧ unitReadOnly u (gradRuns u a) = false ∧
       unservable u (backReads u a) = false) ∧
    isCanonical paged = true ∧ 4 ≠ pageFuture (pondOf paged 0) (command 2 6 (3 * 2 ^ 49) 0 0) := by decide +kernel

/-! ## Frames -/

/-- Pond 0 holds a unit of class 0xA with context 0, which is open, and a unit of class 0x9; its registers hold the
descriptors of a picture and of one anchor. -/
def withUnits : State :=
  let s := modCore paged 0 fun k => { k with params :=
    [(24, BitVec.ofNat 64 (2 ^ 16 + 1)), (25, BitVec.ofNat 64 (2 ^ 52 + 2 ^ 40 + 2 ^ 27)), (101, BitVec.ofNat 64 (0x3F800000 * 2 ^ 32)),
     (102, BitVec.ofNat 64 (2 ^ 16 + 1))] }
  let ctx : IntakeCtx := { IntakeCtx.closed with opened := true, wMax := 16, hMax := 16, size := 1 }
  let use : ChipUse := { cls := 0xA, unit := 0, pond := 0, run := none, report := 0, bound := 0, context := some 0 }
  { s with intake := { Intake.start with contexts := [(0, ctx)], uses := [use, { use with cls := 0x9, context := none }] } }

theorem witness_UnitCommands :
    ([0, 2052].all fun n =>
      let c := command 1 0xA (16 * 2 ^ 42 + 16 * 2 ^ 28) 0 (n * 2 ^ 32)
      heads c withUnits && decide (classOf c = 0xA) && hasUnit 0xA (headOf c withUnits) 0 (queued c) &&
        decide (opcodeOf c = 1) && ictxLegal c && decide (ictxSize c = n)) = true ∧
    ([2, 3].all fun op =>
      let c := command op 0xA (24 * 2 ^ 50) 0 0
      let s := headOf c withUnits
      let u := started c withUnits
      heads c withUnits && hasUnit 0xA s 0 (queued c) && decide (opcodeOf c = op) && decodeLegal s 0 c &&
        !waitsRefetch s (decodeReads s c) && (ctxOf u (ictxContext c)).opened && decide ((ctxOf u (ictxContext c)).owner = 0) &&
        unitMapped u (decodeReads u c) && !unservable u (decodeReads u c)) = true ∧
    (let c := command 1 9 (100 * 2 ^ 56) 0 0
     let s := headOf c withUnits
     let u := started c withUnits
     heads c withUnits = true ∧ classOf c = 9 ∧ hasUnit 9 s 0 (queued c) = true ∧ opcodeOf c = 1 ∧
       boxLegal s 0 c = true ∧ waitsRefetch s (boxReads (boxOf (pondOf s 0) c)) = false ∧
       unservable u (boxReads (boxOf (pondOf u 0) c)) = false) ∧
    ([false, true].all fun busy =>
      let c := command 1 0xA 0 0 0
      let s := headOf c served
      let s := if busy then { s with weir := { s.weir with units := (List.range 64).map fun i => (0xA, i) } } else s
      decide (freeUnit s 0xA = if busy then none else some 0) &&
        decide (minBy (fun e => e.2.pushed) ((List.range (logicalCount s)).filterMap fun l =>
          (dispatchable s 0xA l).map fun q => (l, q)) = some (0, queued c))) = true := by decide +kernel

/-! ## Memory tiers -/

/-- A directive of opcode `op` on object 5 waits for its effect; the ring and the publish word are mapped. -/
def directing (op state : Nat) : State :=
  let s := setExtent mapped ((extentIndex directiveRing).getD 0) { Extent.unmapped with tier := 0, frame := 9 }
  let s := writeBytes s (directiveSlot 0 + 8) (leBytes 0x600000 8 ++ leBytes 1 8)
  { s with tiers := { s.tiers with
      objects := [(5, { Obj.free with state := state, readOnly := true })],
      directives := [{ index := 0, op := op, obj := 5, result := 0xFE, performed := false, complete := false }] } }

/-- The entry of that directive. -/
def entryOf (op state : Nat) : DirectiveEntry := { directiveAt (directing op state) 0 with op := op, obj := 5 }

theorem witness_DirectivesPerformed :
    ([(1, 0), (2, 1), (3, 1), (4, 1), (5, 1), (6, 1)].all fun e =>
      ((directing e.1 e.2).tiers.directives.find?
        (fun d => decide (d.index = 0) && decide (d.op = e.1) && !d.performed)).isSome &&
      decide (directiveResult (directing e.1 e.2) (entryOf e.1 e.2) = 0) &&
      decide (directiveResult (directing e.1 (1 - e.2)) (entryOf e.1 (1 - e.2)) ≠ 0)) = true := by decide +kernel

/-- A directive that has been performed, a frame on its way to be free, a move of extent 0 whose copy runs, and a member
group without frames that is being evacuated. -/
def moving : State :=
  { mapped with tiers := { mapped.tiers with
      directives := [{ index := 0, op := 3, obj := 5, result := 0, performed := true, complete := false }],
      releasing := [(0, 77)],
      migrations := [{ extent := 0, toTier := 1, toFrame := some 4, directive := none, schedule := none, evacuate := false }],
      evacuating := [(1, 3)] } }

theorem witness_TierEvents :
    (mappedAt (directing 2 1) directivePublish = true ∧ tiersAsleep (directing 2 1) = false) ∧
    ((moving.tiers.directives.find? fun d => decide (d.index = 0) && d.performed && !d.complete).isSome = true ∧
      (∀ m ∈ moving.tiers.migrations, m.directive ≠ some 0)) ∧
    (let d : Directive := { index := 0, op := 2, obj := 5, result := 0, performed := true, complete := false }
     ({ moving with tiers := { moving.tiers with directives := [d] } } : State).tiers.directives.find?
       (fun d => decide (d.index = 0) && d.performed && !d.complete) = some d) ∧
    (0, 77) ∈ moving.tiers.releasing ∧
    ((moving.tiers.migrations.find? fun m => decide (m.extent = 0) && m.toFrame.isSome).map (·.toFrame) = some (some 4) ∧
      linkUp moving = true) ∧
    (1 < 2 ∧ 3 < memberGroups 1 ∧ (1, 3) ∈ moving.tiers.evacuating ∧ framesLeft moving 1 3 = 0 ∧
      ([none, some (1, 3)].all fun x =>
        let s := { moving with requests := { moving.requests with retire := x } }
        let u := forEach (groupMembers 1 3) (fun i v => setMember v 1 i { memberOf v 1 i with state := 2 }) s
        decide ((followDegraded (addObj u (key 0x2E10 7) 1)).requests.retire = x))) := by decide +kernel

theorem witness_MemberEvents :
    (extentIndex 64 = some 0 ∧ (extentOf mapped 0).tier < 3) ∧
    (let s := setExtent mapped 0 { Extent.unmapped with tier := 1 }
     (extentAt s 64).tier = 1 ∧ [s.now].length < getObj (addObj s (key 0x2A04 2) 1) (key 0x2E10 1)) ∧
    memberWorks (memberOf mapped 0 511) = true ∧ memberWorks (memberOf mapped 1 63) = true ∧
    (let s := setMember mapped 1 63 { Member.fresh with retraining := true }
     (memberOf s 1 63).retraining = true) ∧
    (let r : Refetch := { extent := 2, toFrame := 6, backup := 0 }
     let s := { mapped with tiers := { mapped.tiers with refetches := [r] } }
     s.tiers.refetches.find? (fun r => decide (r.extent = 2)) = some r ∧ linkUp s = true ∧
       (extentOf s r.backup).tier < 3 ∧ (extentOf s r.backup).poisoned = false ∧ objectOfExtent s 2 = none) ∧
    (let r : Refetch := { extent := 2, toFrame := 6, backup := 77 }
     let s := { mapped with tiers := { mapped.tiers with refetches := [r] } }
     s.tiers.refetches.find? (fun r => decide (r.extent = 2)) = some r ∧ linkUp s = true ∧ 3 ≤ (extentOf s r.backup).tier) := by
  decide +kernel

/-- Schedule 0 is valid. -/
def scheduled : State :=
  writeByte (setExtent mapped ((extentIndex (scheduleBase 0)).getD 0) { Extent.unmapped with tier := 0, frame := 9 })
    (scheduleBase 0 + 3) 1

theorem witness_DmaCommands :
    ([(0, 0), (1, 2 ^ 62), (2, 0)].all fun e =>
      let c := command 1 4 (e.2 + e.1 * 2 ^ 51 + 2 ^ 22) 0 (64 * 2 ^ 22)
      let s := headOf c mapped
      let u := started c mapped
      heads c mapped && decide (classOf c = 4) && decide (opcodeOf c = 1) && decide (copyOp c = e.1) &&
        dmaFree (pondOf s 0) && copyLegal (gangMembers s 0).length c && !waitsRefetch s (copyReads c) &&
        unitMapped u (copyReads c ++ copyWrites c) && !unitReadOnly u (copyWrites c) && !unservable u (copyReads c)) = true ∧
    (let c := command 2 4 (2 ^ 48) 0 0
     heads c scheduled = true ∧ classOf c = 4 ∧ opcodeOf c = 2 ∧ pfmarkLegal (headOf c scheduled) c = true) := by
  decide +kernel

/-! ## The fabric -/

/-- The fabric is enabled; the module is 0 and the only member of group 0; module 7 may send; brook 3 is up with module 7
behind it; registers 24 to 28 hold the descriptor given. -/
def fabricked (d : List (Nat × Nat)) : State :=
  let s := modCore (withObjs [(0x2C00, 2, 1), (0x5303, 1, 2), (0x5303, 3, 7)] paged) 0 fun k =>
    { k with params := d.map fun e => (e.1, BitVec.ofNat 64 e.2) }
  { s with fabric := { Fabric.start with
      routes := [(7, 2 ^ 31 + 2 ^ 30 + 2 ^ 3)], groups := [(0, some { own := 0, members := [0], worst := 0 })] } }

/-- The command `c` of class 0x8 may start on a fabric of its own module, with the descriptor `d`. -/
def fabHeads (c : Cmd) (d : List (Nat × Nat)) : Bool :=
  heads c (fabricked d) && decide (classOf c = 8) && fabRoom (headOf c (fabricked d)) 0

/-- A PUT of 64 bytes to a module passes its checks, reaches it, and reads servable bytes. -/
def puts (peer : Nat) : Bool :=
  let c := command 1 8 (peer * 2 ^ 52 + 2 ^ 16) 0 0
  let s := headOf c (fabricked [])
  let u := started c (fabricked [])
  fabHeads c [] && decide (opcodeOf c = 1) && putLegal s 0 (queued c) && !waitsRefetch s (putReads c) &&
    reachable u (fabPeer c) && !unservable u (putReads c) && decide (fabLength c ≤ 65536) && decide (fabPeer c = peer)

theorem witness_FabricCommands :
    (puts 7 && puts 0) = true ∧
    (let c := command 1 8 (2 ^ 16) 0 0
     let u := started c (fabricked [])
     let v := countBytes false (putReads c) { u with fabric := { u.fabric with nextTransfer := (u.fabric.nextTransfer + 1) % 2 ^ 32 } }
     let m := putMessage u 0 c true (0, fabLength c)
     ownId v = 0 ∧ (fabricWrite v m.uda m.data).2 = true) ∧
    ([0, 7].all fun peer =>
      let c := command 2 8 (peer * 2 ^ 52 + 2 ^ 16) 0 0
      let s := headOf c (fabricked [])
      let u := started c (fabricked [])
      fabHeads c [] && decide (opcodeOf c = 2) && getLegal s 0 (queued c) && reachable u (fabPeer c) &&
        !waitsRefetch s (if fabPeer c = ownId s then [(fabSource c, fabLength c)] else []) &&
        (decide (fabPeer c ≠ ownId u) || !unservable u [(fabSource c, fabLength c)])) = true ∧
    (let c := command 5 8 0 0 0
     fabHeads c [] = true ∧ opcodeOf c = 5 ∧ bits c.w1.toNat 55 0 = 0 ∧ bits c.w3.toNat 63 32 = 0) ∧
    (let c := command 4 8 0 0 0
     let u := started c (fabricked [])
     fabHeads c [] = true ∧ opcodeOf c = 4 ∧ stampLegal (headOf c (fabricked [])) 0 (queued c) = true ∧
       groupReachable u (stampGroup c) = true ∧ stampsMatch u (stampKeep c) [ownStamp u (stampSlot c)] = true) ∧
    ([0, 1, 2, 3, 4].all fun op =>
      let c := command 3 8 (24 * 2 ^ 56) 0 0
      let d := [(24, op * 2 ^ 61), (27, 256)]
      let s := headOf c (fabricked d)
      let u := started c (fabricked d)
      fabHeads c d && decide (opcodeOf c = 3) && decide (collOp (fabFields (pondOf s 0) c) = op) &&
        collLegal 0 s 0 (queued c) && !waitsRefetch s (collReads (collOf s 0 0 c)) &&
        groupReachable u (collGroup (collOf u 0 0 c).fields) && !unservable u (collReads (collOf u 0 0 c))) = true ∧
    (let c := command 6 8 (24 * 2 ^ 56) 0 0
     let d := [(24, 2 ^ 30 + 2 ^ 10), (27, 2 ^ 48)]
     let s := headOf c (fabricked d)
     let u := started c (fabricked d)
     let f := permOf s 0 0 c
     let g := permOf u 0 0 c
     fabHeads c d = true ∧ opcodeOf c = 6 ∧ permLegal 0 s 0 (queued c) = true ∧
       waitsRefetch s [(permBuffer f.fields, permK f.fields * permBlock f.fields)] = false ∧
       groupReachable u (permGroup g.fields) = true ∧
       unservable u [(permBuffer g.fields, permK g.fields * permBlock g.fields),
         (permPlan g.fields, g.members.length * permK g.fields * 8)] = false ∧ permChecks u g = true) := by decide +kernel

/-- A fabric command of opcode `op` is in progress on pond 0 and waits for piece 5. -/
def inProgressOn (op : Nat) (pieces : List Nat) (rounds : Nat := 1) : State :=
  let c := command op 8 0 0 0
  let s := atPond0 (fun pd => { pd with running := [running c], nextId := 1 }) (fabricked [])
  setFabCmds s [{ newFab (fabricked []) 0 0 c with fields := [2 ^ 30 + rounds * 2 ^ 10], members := [0], pieces := pieces }]

theorem witness_MessagesTakeEffectOnce :
    (let s := fabricked []
     fabricOn s = true ∧ routeAccepts s 7 = true ∧ 7 < 4096 ∧ 5 % 2 ^ 32 ∉ mapFind [] s.fabric.acked 7 ∧
       unitMapped (addObj s (key 0x2C05 2) 1) [(2 ^ 40, 8)] = false ∧
       waitsRefetch (addObj s (key 0x2C05 2) 1) [(0, 8)] = false) ∧
    (let s := setExtent (fabricked []) 0 { Extent.unmapped with tier := 0, poisoned := true }
     let s := { s with tiers := { s.tiers with refetches := [{ extent := 0, toFrame := 6, backup := 2 }] } }
     let u := addObj s (key 0x2C05 2) 1
     fabricOn s = true ∧ routeAccepts s 7 = true ∧ unitMapped u [(0, 8)] = true ∧ waitsRefetch u [(0, 8)] = true) ∧
    (let u := addObj (fabricked []) (key 0x2C05 2) 1
     (fabCmds u).find? (fun f => decide (f.group = 0 ∧ f.seq % 2 ^ 32 = 0 % 2 ^ 32) && !f.done &&
       decide (opcodeOf f.cmd = 0x03 ∨ opcodeOf f.cmd = 0x06)) = none ∧ mapFind 0 u.fabric.seqs 0 % 2 ^ 32 ≤ 0 % 2 ^ 32) ∧
    routeAccepts (fabricked []) 8 = false ∧
    ((fabCmds (addObj (inProgressOn 2 [5]) (key 0x2C05 2) 1)).find?
      (fun f => decide (5 ∈ f.pieces) && decide (opcodeOf f.cmd = 0x02 ∨ opcodeOf f.cmd = 0x04))).isSome = true ∧
    ((fabCmds (addObj (inProgressOn 3 [5]) (key 0x2C05 2) 1)).find?
      (fun f => decide (f.group = 0 ∧ f.seq % 2 ^ 32 = 0 % 2 ^ 32) && !f.done &&
        decide (opcodeOf f.cmd = 0x03 ∨ opcodeOf f.cmd = 0x06))).isSome = true ∧
    (let s := { fabricked [] with fabric := { (fabricked []).fabric with acked := [(7, [5])] } }
     fabricOn s = true ∧ routeAccepts s 7 = true ∧ 5 % 2 ^ 32 ∈ mapFind [] s.fabric.acked 7) := by decide +kernel

/-- A data flit of 240 bytes of zeros with sequence number 0 of kind `kind` to the module. -/
def flitHead (kind : Nat) : W64 := BitVec.ofNat 64 (kind * 2 ^ 62)

theorem crc64Shift_lt : ∀ (k c : Nat), c < 2 ^ 64 → crc64Shift k c < 2 ^ 64
  | 0, _, h => h
  | k + 1, c, _ => by
    unfold crc64Shift
    apply crc64Shift_lt
    split
    · exact Nat.xor_lt_two_pow (Nat.mod_lt _ (by decide)) (by decide)
    · exact Nat.mod_lt _ (by decide)

theorem crc64_fold_lt : ∀ (bs : List Byte) (c : Nat), c < 2 ^ 64 →
    bs.foldl (fun c b => crc64Shift 8 (c ^^^ (b.toNat * 2 ^ 56))) c < 2 ^ 64
  | [], _, h => h
  | b :: bs, c, h => by
    refine crc64_fold_lt bs _ (crc64Shift_lt 8 _ (Nat.xor_lt_two_pow h ?_))
    have := b.isLt
    omega

/-- A flit's check word is the check word of its bytes for one word, and not for another. -/
theorem crc_choices (bs : List Byte) : (∃ crc : W64, crc64 bs = crc.toNat) ∧ ∃ crc : W64, crc64 bs ≠ crc.toNat := by
  have h : crc64 bs < 2 ^ 64 := crc64_fold_lt bs 0 (by decide)
  refine ⟨⟨BitVec.ofNat 64 (crc64 bs), by rw [BitVec.toNat_ofNat, Nat.mod_eq_of_lt h]⟩, ?_⟩
  by_cases h0 : crc64 bs = 0
  · exact ⟨1, by rw [h0]; decide⟩
  · exact ⟨0, h0⟩

/-- A brook's count of corrected symbols leaves every other object. -/
theorem window_keeps {s : State} (h : MapSorted s.dict) (n : Nat) {j : Nat} (hj : j ≠ brookKey 3 0xB) :
    getObj (addObj { s with fresh := s.fresh + 1 } (brookKey 3 0xB) n) j = getObj s j :=
  getObj_addObj_other (s := { s with fresh := s.fresh + 1 }) h _ n hj

/-- The fabric with brook 3 as given. -/
def brooked (b : Brook) : State := { fabricked [] with fabric := { (fabricked []).fabric with brooks := [(3, b)] } }

theorem dict_brooked (b : Brook) : MapSorted (brooked b).dict := (sorted_of_keysRise (by decide +kernel) : MapSorted (fabricked []).dict)

/-- A window of a lane in use above the threshold, on a brook with and without its spare in use. -/
theorem window_brooked (b : Brook) :
    let s := brooked b
    let v := addObj { s with fresh := s.fresh + 1 } (brookKey 3 0xB) (Config.correctedSymbols s.fresh)
    brookUp v 3 = true ∧ brookOf v 3 = b ∧
      flCompare (flOf32 0x7F000000) (flOf32 (BitVec.ofNat 32 (getObj v (key 0x2C03 5)))) = 1 := by
  refine ⟨?_, rfl, ?_⟩
  · unfold brookUp brookState
    rw [window_keeps (dict_brooked b) _ (by decide +kernel)]
    exact (by decide +kernel : decide (2 ≤ getObj (fabricked []) (brookKey 3 1)) = true)
  · rw [window_keeps (dict_brooked b) _ (by decide +kernel)]
    exact (by decide +kernel : flCompare (flOf32 0x7F000000) (flOf32 (BitVec.ofNat 32 (getObj (fabricked []) (key 0x2C03 5)))) = 1)

theorem witness_BrookEvents :
    (let s := fabricked []
     let b := brookOf (addObj s (brookKey 3 5) 1) 3
     let u := sendControl 3 (bits (flitHead 1).toNat 49 38) 1 []
       (setBrook (addObj s (brookKey 3 5) 1) 3 { b with rxNext := (b.rxNext + 1) % 4096, nakCount := 0 })
     brookUp s 3 = true ∧ fabricOn s = true ∧ bitAt (flitHead 1).toNat 13 = false ∧
       bits (flitHead 1).toNat 63 62 ∈ [1, 2] ∧ bits (flitHead 1).toNat 37 26 = (brookOf s 3).rxNext ∧
       bits (flitHead 1).toNat 61 50 = ownId u ∧ (brookOf s 3).spared = none) ∧
    (let w : W64 := BitVec.ofNat 64 (2 ^ 13 + 2 ^ 12)
     bitAt w.toNat 13 = true ∧ bitAt w.toNat 12 = true ∧ bits w.toNat 63 62 = 0) ∧
    (2 ∉ Brook.down.failed ∧ Brook.down.spared = none ∧ Brook.down.asked = none ∧ Brook.down.half = none) ∧
    (let b := { Brook.down with spared := some 5 }
     2 ∉ b.failed ∧ b.spared ≠ some 2 ∧ b.spared ≠ none) ∧
    (brookOf (setBrook (fabricked []) 3 { Brook.down with asked := some 2 }) 3).asked = some 2 ∧
    ([0, 2].all fun n =>
      let s := setBrook (withObjs [(0x5303, 1, 1)] (fabricked [])) 3 { Brook.down with retrains := n }
      decide (brookState s 3 = 1) && decide ((brookOf s 3).retrains = n)) = true := by decide +kernel

theorem witness_FabricTimeouts :
    (let s := { fabricked [] with fabric := { (fabricked []).fabric with out := [{ blankMsg 7 0 with id := 5 }] } }
     (s.fabric.out.find? fun m => decide (m.dst = 7 ∧ m.id = 5)).isSome = true) ∧
    (let s := inProgressOn 5 []
     let fs := (fabCmds s).filter fun f => decide (f.pond = 0) && decide (opcodeOf f.cmd = 0x05) && !f.done
     (fs.find? fun f => fs.all fun g => decide (waitfEnd s f ≤ waitfEnd s g)).isSome = true) ∧
    ((fabCmds (inProgressOn 3 [5])).find? (fun f => decide (f.pond = 0) &&
      decide (opcodeOf f.cmd = 0x03 ∨ opcodeOf f.cmd = 0x06) && !f.done)).isSome = true ∧
    ([1, 2].all fun n =>
      ((fabCmds (inProgressOn 6 [] n)).find? (fun f => decide (f.pond = 0) && decide (opcodeOf f.cmd = 0x06) && !f.done)).any
        fun f => decide (f.acks = []) && decide (f.pieces = []) &&
          (findFab (settleRound f (inProgressOn 6 [] n)) 0 f.run).any fun g =>
            decide (permK g.fields = n) && decide (g.round = 0)) = true := by
  decide +kernel

/-- The header of an image of program 1 before its CRC: one pond, background only, one register and one command. -/
def imageHead : List Byte :=
  leBytes 0x49505744 4 ++ leBytes 1 2 ++ [1, 1, 1, 2] ++ leBytes 1 2 ++ [24, 24] ++ leBytes 0 2 ++
    List.replicate 16 0 ++ leBytes 0xFFFF 2 ++ leBytes 0xFFFF 2 ++ leBytes 0xFFFF 2 ++ leBytes 0 2 ++
    leBytes 256 4 ++ leBytes 256 4 ++ leBytes 256 4 ++ leBytes 264 4 ++ leBytes 296 4

/-- Sixteen of the zero bytes between the header's fields and its CRC. -/
def zeros16 : List Byte := List.replicate 16 0

/-- The register and the command, a NOP with the tag of its slot. -/
def imageTail : List Byte := leBytes 0 8 ++ leBytes (0x0D * 2 ^ 56 + 2 ^ 16) 8 ++ List.replicate 24 0

/-- The image, with the CRC that the check asks for. -/
def imageBytes : List Byte := imageHead ++ List.replicate 192 0 ++ leBytes 0x12878F98 4 ++ imageTail

/-- The CRC register after a run of bytes, from a value of it. -/
def crcFrom (c : Nat) (bs : List Byte) : Nat := bs.foldl (fun c b => crc32cShift 8 (c ^^^ b.toNat)) c

theorem crcFrom_append (c : Nat) (a b : List Byte) : crcFrom c (a ++ b) = crcFrom (crcFrom c a) b :=
  List.foldl_append

/-- The CRC of the image, run by run. -/
theorem crc_image : crc32c (imageBytes.take 252 ++ (imageBytes.take (fieldAt imageBytes 56 4)).drop 256) = 0x12878F98 := by
  have h0 : crcFrom 0xFFFFFFFF (imageHead.take 20) = 0x4497FF4A := by decide +kernel
  have h1 : crcFrom 0x4497FF4A ((imageHead.drop 20).take 20) = 0x282923F9 := by decide +kernel
  have h2 : crcFrom 0x282923F9 (imageHead.drop 40) = 0xC98D664D := by decide +kernel
  have h3 : crcFrom 0xC98D664D (zeros16) = 0x788572E3 := by decide +kernel
  have h4 : crcFrom 0x788572E3 (zeros16) = 0x320D5E0D := by decide +kernel
  have h5 : crcFrom 0x320D5E0D (zeros16) = 0xE69CEBB3 := by decide +kernel
  have h6 : crcFrom 0xE69CEBB3 (zeros16) = 0xF0082EDC := by decide +kernel
  have h7 : crcFrom 0xF0082EDC (zeros16) = 0xA5D574F4 := by decide +kernel
  have h8 : crcFrom 0xA5D574F4 (zeros16) = 0xDD6E46D2 := by decide +kernel
  have h9 : crcFrom 0xDD6E46D2 (zeros16) = 0x55175AF := by decide +kernel
  have h10 : crcFrom 0x55175AF (zeros16) = 0xBFBBAA79 := by decide +kernel
  have h11 : crcFrom 0xBFBBAA79 (zeros16) = 0x308453A0 := by decide +kernel
  have h12 : crcFrom 0x308453A0 (zeros16) = 0xCC838FC := by decide +kernel
  have h13 : crcFrom 0xCC838FC (zeros16) = 0x3FEDE338 := by decide +kernel
  have h14 : crcFrom 0x3FEDE338 (zeros16) = 0xA20A951C := by decide +kernel
  have h15 : crcFrom 0xA20A951C (imageTail.take 20) = 0xD1A4922D := by decide +kernel
  have h16 : crcFrom 0xD1A4922D (imageTail.drop 20) = 0xED787067 := by decide +kernel
  have e : imageBytes.take 252 ++ (imageBytes.take (fieldAt imageBytes 56 4)).drop 256 =
      (imageHead.take 20) ++
        ((imageHead.drop 20).take 20) ++
        (imageHead.drop 40) ++
        zeros16 ++
        zeros16 ++
        zeros16 ++
        zeros16 ++
        zeros16 ++
        zeros16 ++
        zeros16 ++
        zeros16 ++
        zeros16 ++
        zeros16 ++
        zeros16 ++
        zeros16 ++
        (imageTail.take 20) ++
        (imageTail.drop 20) := by
    decide +kernel
  have hc : ∀ bs, crc32c bs = crcFrom 0xFFFFFFFF bs ^^^ 0xFFFFFFFF := fun _ => rfl
  rw [e, hc]
  simp only [crcFrom_append, h0, h1, h2, h3, h4, h5, h6, h7, h8, h9, h10, h11, h12, h13, h14, h15, h16]
  decide +kernel

/-! ## Shares -/

/-- Basin 1 has the gang of pond 0. -/
def loneGang : NMap Nat := [(key 0x2102 1, 1), (key 0x5001 1, 1), (key 0x5001 3, 0), (key 0x5001 4, 1)]

/-- The share area lies in a mapped and pinned extent; tasks 1 and 2 of program 1 are bound to gang 0, the one ready and the
other switched out. -/
def tasked : State :=
  let s := withObjs [(0x2D01, 1, 0x600000)] mapped
  let s := setExtent s 3 { Extent.unmapped with tier := 0, pinned := true, frame := 3 }
  let s := { s with programs := [(1, { DirRecord.empty with pondCount := 1 })], tree := loneGang }
  let s := atPond0 (fun pd => { pd with banks := [(0, [{ image := { image with flags := 2 }, code := [], damaged := [] }])] }) s
  writeBytes (writeBytes s (taskAt s 1) [1, 1]) (taskAt s 2) [3, 1]

/-- The run of task 1. -/
def run1 : TaskRun :=
  { task := 1, since := 0, entered := 0, stopAt := none, saving := false, restoring := false, kind := 0, live := 0,
    ending := false }

/-- Task 1 runs on gang 0. -/
def withRun (r : TaskRun) : State := { tasked with shares := { Shares.start with runs := [(0, some r)] } }

/-- Pond 0 runs the background section of task 1, or has stopped in it. -/
def atBackground (stopped : Option Nat) (s : State) : State :=
  modCore s 0 fun k => { k with sect := some { section1 .background with task := true }, stopped := stopped }

theorem witness_TaskScheduling :
    (runOf (withRun run1) 0 = some run1 ∧ run1.stopAt = none ∧ run1.saving = false ∧ run1.restoring = false ∧
      (tasksOf (withRun run1) 0).filter (fun t => eligible (withRun run1) t && decide (t ≠ run1.task)) ≠ []) ∧
    (let r := { run1 with stopAt := some 5 }
     let s := atBackground none (withRun r)
     runOf s (rank0Of s 0) = some r ∧ (pondOf s 0).core.sect = some { section1 .background with task := true } ∧
       r.stopAt = some 5 ∧ (pondOf s 0).core.stopped = none ∧ (pondOf s 0).core.exiting = none ∧ r.restoring = false ∧
       (pondOf s 0).halt = none) ∧
    (runOf served 0 = none ∧ gangQuiet served 0 = true ∧ backgroundTime served 0 = true ∧ chooseTask served 0 = none) ∧
    (runOf tasked 0 = none ∧ gangQuiet tasked 0 = true ∧ backgroundTime tasked 0 = true ∧ chooseTask tasked 0 = some 1 ∧
      bitAt (taskField tasked 1 6 1) 0 = false) ∧
    (let s := writeByte tasked (taskAt tasked 1 + 6) 1
     runOf s 0 = none ∧ gangQuiet s 0 = true ∧ backgroundTime s 0 = true ∧ chooseTask s 0 = some 1 ∧
       bitAt (taskField s 1 6 1) 0 = true) ∧
    ([(0, 1), (9, 2)].all fun e =>
      let s := modCore (withRun run1) 0 fun k => { k with stopped := some 0 }
      let s := writeByte s (taskAt s 1 + 56) e.1
      let u := chargeTask 0 false s
      decide (runOf s 0 = some run1) && gangQuiet s 0 && allStopped s 0 && backgroundTime s 0 &&
        decide ((runOf u 0).map (·.task) = some 1) && decide (chooseTask u 0 = some e.2)) = true ∧
    (let r := { run1 with stopAt := some 5 }
     let s := atBackground (some 0) (withRun r)
     runOf s 0 = some r ∧ r.stopAt ≠ none ∧ r.saving = false ∧ r.restoring = false ∧
       (gangMembers s 0).all (fun l => readyToSave (pondOf s (physOf s l)) (taskField s r.task 1 1)) = true) ∧
    (let r := { run1 with saving := true }
     runOf (withRun r) 0 = some r ∧ r.saving = true) ∧
    (let r := { run1 with restoring := true }
     runOf (withRun r) 0 = some r ∧ r.restoring = true) := by decide +kernel

/-! ## Faults, loads and spares -/

theorem witness_FaultEvents :
    (let s := { withObjs [(0x521E, 1, 1)] served with weir := { Weir.start with timers := [(30, 100)] } }
     30 < 128 ∧ mapFind 0 s.weir.timers 30 = 99 + 1 ∧ sourceSet s 30 = true ∧ getObj s (srcKey 30 3) ≠ 1 ∧
       30 ∉ s.weir.escalated ∧ s.own.frozen = none) ∧
    ([0, 1, 2, 3].all fun target =>
      let s := { withObjs [(0x5243, 1, 1), (0x5243, 7, target)] served with weir := { Weir.start with timers := [(67, 100)] } }
      let u := stopTimer 67 (advanceTo s 99)
      let v := addObj (addObj { u with weir := { u.weir with escalated := 67 :: u.weir.escalated } } (srcKey 67 0xC) 1) (key 0x2E01 0xA) 1
      sourceSet s 67 && decide (getObj v (srcKey 67 7) = target)) = true ∧
    (let s := atPond0 (fun pd => { pd with running := [running (command 1 1 0 0 0)] }) served
     minBy watchStart ((pondOf s 0).running.filter fun r => watched r && !heldByLink s 0 r) = some (running (command 1 1 0 0 0)) ∧
       ∀ l ∈ gangMembers s 0, (pondOf s (physOf s l)).halt = none) ∧
    getObj (withObjs [(0x2E20, 3, 24)] served) (key 0x2E20 3) = 23 + 1 ∧
    ([0, 2].all fun n =>
      let s := { served with weir := { served.weir with restarts := List.replicate n 0 } }
      decide ((s.now :: s.weir.restarts.filter (fun t => decide (s.now < t + 60000 * msClk))).length = n + 1)) = true ∧
    ([none, some 3].all fun f =>
      let s := { served with boot := { served.boot with activating := some 9 }, own := { served.own with frozen := f } }
      decide (s.boot.activating = some 9) && decide ((advanceTo s (9 + 200 * msClk)).own.frozen = f)) = true ∧
    (8 ≤ 9 ∧ 9 ≤ 0xA ∧ 1 < unitsOf served 9 ∧ (9, 1) ∉ served.weir.units ∧
      (raiseCause 69 (.unit 9 1) { served with weir := { served.weir with units := served.weir.units ++ [(9, 1)] } }).weir.units
        ≠ []) := by decide +kernel

/-- A load of program 1 into basin 1, the gang of pond 0, is requested; the slot holds the bytes given. -/
def loading (bs : List Byte) : State :=
  let s := withObjs [(0x2610, 3, 1)] { served with
    tree := loneGang }
  let s := setExtent s ((extentIndex (slotAt 1)).getD 0) { Extent.unmapped with tier := 0, frame := 9 }
  { s with requests := { s.requests with loadProgram := 1, loadBasin := 1 },
           mem := bs.zipIdx.filterMap fun e => if e.1 = 0 then none else some (9 * extentSize + e.2, e.1) }

theorem witness_LoadsAndSpares :
    ([imageBytes, []].all fun bs =>
      let s := loading bs
      decide (getObj s (key 0x2610 3) ≠ 0) && unitMapped s [(slotAt 1, 256)] && !waitsRefetch s [(slotAt 1, 256)] &&
        !waitsRefetch s [(slotAt 1, imageLength s 1)] && unitMapped s [(slotAt 1, imageLength s 1)] &&
        !unitPoisoned s [(slotAt 1, imageLength s 1)]) = true ∧
    (loadCode (loading []) 1 1 (readBytes (loading []) (slotAt 1) 256)).1 ≠ 0 ∧
    imageLength (loading imageBytes) 1 = 296 ∧ isCanonical (loading imageBytes) = true ∧
    (({ served with requests := { served.requests with margin := some (0, 5, 2) } } : State).requests.margin = some (0, 5, 2)) ∧
    (let r : Replacement := { failed := 0, logical := 0, spare := some 64, started := 0, copied := false, reload := false }
     let s := { served with map := { served.map with replacements := [r] } }
     s.map.replacements.find? (fun r => !r.copied) = some r ∧ r.spare = some 64 ∧ r.reload = false) := by decide +kernel

/-- The bytes in the slot are those of the image. -/
theorem image_in_slot : readBytes (loading imageBytes) (slotAt 1) 296 = imageBytes := by decide +kernel

theorem header_valid (bs : List Byte) (e : bs = imageBytes)
    (h : crc32c (bs.take 252 ++ (bs.take (fieldAt bs 56 4)).drop 256) = 0x12878F98) : headerOk 1 bs = true := by
  unfold headerOk
  simp only [h]
  subst e
  decide +kernel

theorem load_valid (bs : List Byte) (e : bs = imageBytes) (h : headerOk 1 bs = true) :
    (loadCode (loading bs) 1 1 bs).1 = 0 := by
  unfold loadCode
  simp only [h]
  subst e
  decide +kernel

/-- The image passes every check of a load. -/
theorem witness_LoadsAndSpares_valid : (loadCode (loading imageBytes) 1 1 imageBytes).1 = 0 :=
  load_valid _ rfl (header_valid _ rfl crc_image)

/-! ## CAN and the mailbox -/

/-- A session of a client on port 0. -/
def session (client : Nat) (writing : Bool) : Session :=
  { port := 0, client := client, index := 0x2610, sub := 1, writing := writing, len := 4, data := [], last := 0 }

/-- The client's port with the sessions given. -/
def inSession (xs : List Session) : State := { withClient with can := { withClient.can with sessions := xs } }

theorem witness_ClientRequests :
    (reaches served hostMaster true = true ∧ reaches served hostMaster false = true ∧ served.cells.busyUntil ≤ served.now) ∧
    (let s := { served with cells := { served.cells with busyUntil := 9 } }
     reaches s hostMaster true = true ∧ s.now < s.cells.busyUntil) ∧
    reaches withClient ((0 + 1) * 256 + 5) true = true ∧
    ([[], [session 5 false], [session 5 true]].all fun xs =>
      match enterMaster ((0 + 1) * 256 + 5) (countReceived 0 (resumeService (inSession xs))) with
      | none => false
      | some u => sessionFree u 0 5 && decide (sessionOf u 0 5 = xs.head?)) = true ∧
    ((enterMaster ((0 + 1) * 256 + 5) (countReceived 0 (resumeService
      (inSession ((List.range 4).map fun i => session (i + 10) true))))).map fun u => sessionFree u 0 5) = some false ∧
    (dictFetch true 0x105 0x2610 1 withClient).1 = 0 ∧
    ([(5, true), (4, false)].all fun e =>
      let s := setObj (inSession [session 5 true]) (key 0x3110 7) e.1
      decide (sessionOf s 0 5 = some (session 5 true)) &&
        (usdoOpen (countAccess 0x05040000 (advanceTo s (0 + 1000 * msClk + 1))) 0 == e.2)) = true := by decide +kernel

/-- An EMCY message. -/
def message : Emcy := { source := none, code := 0, register := 0, tick := 0, pond := 0xFF }

theorem witness_CanNetwork :
    (portListens withClient 0 = true ∧ dictServed withClient = true ∧ withClient.boot.stopped = false ∧
      getObj withClient (key 0x1017 0) ≠ 0) ∧
    ([0, 2000].all fun n =>
      let s := { withObjs [(0x1800, 1, 0x180), (0x1800, 3, n), (0x1800, 5, 100)] withClient with
        can := { withClient.can with tpdoLast := [(0, 1)] } }
      let u := advanceTo s (mapFind 0 s.can.tpdoLast 0 - 1 + getObj s (key 0x1800 5) * msClk)
      tpdoOn u 0 && (decide (u.now < inhibitEnd u 0) == decide (n ≠ 0))) = true ∧
    (let s := { withClient with can := { withClient.can with emcy := [(0, [message])] } }
     mapFind [] s.can.emcy 0 = message :: [] ∧ portOpen s 0 = true ∧ getObj s (key 0x3110 7) ∈ [0x7F, 5]) ∧
    (let s := { withObjs [(0x1800, 1, 0x180), (0x1800, 5, 100)] withClient with
        can := { withClient.can with tpdoHeld := [(0, true)] } }
     tpdoOn s 0 = true ∧ mapFind false s.can.tpdoHeld 0 = true ∧ tpdoOn (advanceTo s (inhibitEnd s 0)) 0 = true ∧
       getObj s (key 0x1800 5) ≠ 0) ∧
    getObj withClient (key (0x3111 + 0) 2) ≠ 2 ∧
    getObj (withObjs [(0x3111, 2, 2)] withClient) (key (0x3111 + 0) 2) = 2 := by decide +kernel

/-! ## The host link -/

/-- Both resets are released, and the link is up. -/
def released : State :=
  { served with pins := { served.pins with modrst := true, perst := true }, host := { served.host with downSince := none } }

/-- The link has been down since the instant 7. -/
def linkLost : State :=
  { withObjs [(0x3000, 1, 0)] released with host := { served.host with downSince := some 7 } }

theorem witness_LinkEvents :
    (released.pins.perst = true ∧ powerState released ≠ 3 ∧ released.host.downSince = none ∧ linkUp released = true ∧
      released.pins.pwrOk = true) ∧
    (linkLost.host.downSince = some 7 ∧ linkLost.pins.perst = true ∧ powerState linkLost ≠ 3) ∧
    (let s := { served with pins := { served.pins with perst := false } }
     s.pins.perst = false ∧ s.pins.pwrOk = true) := by decide +kernel

/-- The host may reach memory; extent 3 lies in tier 2. -/
def hosted : State :=
  setExtent { mapped with host := { mapped.host with memoryActive := true } } 3 { Extent.unmapped with tier := 2, frame := 3 }

theorem witness_HostAccesses :
    (let s := withObjs [(0x2F00, 2, 2)] served
     hostReaches s 0 64 = true ∧ asleep (useDecoder 0 s) = true) ∧
    (let a := 3 * extentSize
     hostReaches hosted a 64 = true ∧ asleep (useDecoder a hosted) = false ∧ hostTier2 (useDecoder a hosted) a 64 = true) ∧
    (let u := useDecoder 0 hosted
     hostReaches hosted 0 64 = true ∧ asleep u = false ∧ hostTier2 u 0 64 = false ∧ unitMapped u [(0, 64)] = true ∧
       waitsRefetch u [(0, 64)] = false ∧ unservable u [(0, 64)] = false) ∧
    ([false, true].all fun again =>
      let s := setExtent hosted 0 { Extent.unmapped with tier := 0, poisoned := true }
      let s := if again then { s with tiers := { s.tiers with refetches := [{ extent := 0, toFrame := 6, backup := 2 }] } } else s
      let u := useDecoder 0 s
      hostReaches s 0 64 && !asleep u && !hostTier2 u 0 64 && unitMapped u [(0, 64)] && (waitsRefetch u [(0, 64)] == again) &&
        (unservable u [(0, 64)] == !again)) = true ∧
    (let a := 5 * extentSize
     hostReaches hosted a 64 = true ∧ asleep (useDecoder a hosted) = false ∧
       unitMapped (useDecoder a hosted) [(a, 64)] = false) := by decide +kernel

/-! ## Boot, images and SPDM -/

/-- Boot is in progress at the stage given. -/
def bootingAt (stage : Nat) : State :=
  { withObjs [(0x3010, 1, stage)] twoPonds with
    boot := { twoPonds.boot with begun := some 0 }, tick := { twoPonds.tick with running := false } }

theorem witness_BootStages :
    ([1, 3, 5].all fun n => booting (bootingAt n) && isCanonical (bootingAt n) && decide (bootStage (bootingAt n) = n)) = true ∧
    (let s := { bootingAt 3 with pins := { State.reset.pins with coolHold := true } }
     booting s = true ∧ bootStage s = 3 ∧ diesHeld s = true) ∧
    (let s := { twoPonds with pins := { twoPonds.pins with modrst := false } }
     s.pins.modrst = false ∧ s.pins.pwrOk = true) ∧
    (let s := { served with host := { served.host with memoryActive := true } }
     isCanonical s = true ∧ contentsKept s = true) := by decide +kernel

/-- A check in progress, of no bytes or of bytes that are no image; and a device that answers SPDM. Both outcomes of the
statement on checks are cases of its conclusion: which one holds may rest on the free validity of signatures. -/
theorem witness_ImagesAndSpdm :
    ([[], [0]].all fun bs =>
      let s := { served with boot := { served.boot with verifying := some bs } }
      decide (s.boot.verifying = some bs)) = true ∧ imageCode served [0] = 1 ∧ doeServed served = true := by decide +kernel

/-! ## The debug port -/

/-- The debug level and the token words shifted so far. -/
def atLevel (level words failures : Nat) : State :=
  { mapped with secure :=
      { mapped.secure with level := level, words := List.replicate words 0, failures := failures } }

theorem witness_TapScans :
    ({ served with pins := { served.pins with modrst := false } } : State).pins.modrst = false ∧
    released.pins.modrst = true ∧ 3 ≤ (atLevel 0 0 3).secure.failures ∧
    ([481, 482].all fun n =>
      let s := atLevel 0 n 2
      decide (s.secure.failures < 3) && decide (s.secure.checking = none) && decide (s.secure.words.length = n)) = true ∧
    (let s := { served with secure := { served.secure with checking := some [] } }
     s.secure.checking = some [] ∧ tokenValid s [] = false) := by decide +kernel

/-- Pond 0 has stopped at a command boundary. -/
def halted (level : Nat) : State := atPond0 (fun pd => { pd with halt := some 2 }) (atLevel level 0 0)

/-- Which case of the statement a space above 1 falls into rests on a free value: one of the two always does. -/
theorem witness_DebugAccesses :
    ([1, 2].all fun n =>
      let s := halted n
      let m := send (selectTap 0x13 s) (.tdo (memCapture (selectTap 0x13 s)))
      decide (s.secure.level = n) && dictServed s && decide (s.debugPort.memWait = none) &&
        unitMapped m [(8 - 8 % 8, 8)] && !waitsRefetch m [(8 - 8 % 8, 8)] && !unitPoisoned m [(8 - 8 % 8, 8)] &&
        decide (bufferStatus m 0 (8 - 8 % 8) = 0) && decide (debugState m 1 ≠ 2) && decide (physOf m 0 ≠ 0xFF)) = true ∧
    bits (2 ^ 102) 103 102 = 1 ∧ bits (2 ^ 103) 103 102 = 2 ∧
    (let s := setExtent (halted 1) 0 { Extent.unmapped with tier := 0, poisoned := true }
     let s := { s with tiers := { s.tiers with refetches := [{ extent := 0, toFrame := 6, backup := 2 }] } }
     let m := send (selectTap 0x13 s) (.tdo (memCapture (selectTap 0x13 s)))
     s.debugPort.memWait = none ∧ unitMapped m [(8 - 8 % 8, 8)] = true ∧ waitsRefetch m [(8 - 8 % 8, 8)] = true) ∧
    (∀ space, 1 < space → Config.bankSpace space = false ∨ Config.bankSpace space = true) ∧
    (atLevel 0 0 0).secure.level = 0 ∧
    (let s := halted 2
     let c := controlCapture (selectTap 0x11 s)
     let u := { c with debugPort := { c.debugPort with pollPond := 0 } }
     s.secure.level = 2 ∧ debugState u 0 ≠ 3 ∧ (pondOf u (physOf u 0)).halt = some 2) :=
  ⟨by decide +kernel, by decide, by decide, by decide +kernel, fun _ _ => Bool.eq_false_or_eq_true _ |>.symm, by decide,
    by decide +kernel⟩

/-! ## Power and pins -/

/-- The device with a power state, a transition and every wake enabled. -/
def powerAt (state trans : Nat) : State := withObjs [(0x2F00, 2, state), (0x2F00, 3, trans), (0x2F01, 1, 31)] served

theorem witness_PowerStates :
    (let s := { powerAt 0 1 with power := { served.power with target := 2 } }
     transition s = 1 ∧ entryReady s = true ∧ s.power.target ≤ 3) ∧
    ([1, 2, 3].all fun n => [none, some 2].all fun next =>
      let s := { powerAt n 2 with power := { served.power with thenState := next } }
      let u := advanceWithin (s.power.wakeStart + exitBound (powerState s)) s
      let v := if powerState s = 3 then leaveStandby u else if powerState s = 2 then powerPonds u else u
      decide (transition s = 2) && decide (powerState s = n) && decide (v.power.wake = none) &&
        decide (v.power.thenState = next) && decide (v.power.request = none)) = true ∧
    (getObj served (key 0x2F00 6) = 0 ∧ getObj served (key 0x2F00 6) ≠ 1) ∧
    (let s := { withObjs [(0x2F01, 2, 10)] (powerAt 2 0) with power := { served.power with entered := some 7 } }
     s.power.entered = some 7 ∧ getObj s (key 0x2F01 2) ≠ 0 ∧ transition s = 0) ∧
    (let s := { served with power := { served.power with interval := 7 + 1 }, boot := { served.boot with begun := some 0 },
                            ponds := [(0, Pond.reset), (1, Pond.reset)] }
     powerAllowed s = true ∧ s.power.interval = 7 + 1 ∧
       ((powerOrder s).filter fun ph => !(pondOf s ph).powered).take 16 ≠ []) ∧
    (bitAt (getObj (withObjs [(0x2F01, 1, 0)] served) (key 0x2F01 1)) (1 - 1) = false ∧
      isCanonical (withObjs [(0x2F01, 1, 0)] served) = true) ∧
    ([(0, 0), (2, 0), (0, 1)].all fun e =>
      let s := powerAt e.1 e.2
      isCanonical s && bitAt (getObj s (key 0x2F01 1)) (1 - 1) && decide (powerState s = e.1) &&
        decide (transition s = e.2)) = true ∧
    (powerAt 0 1).power.wake = none ∧
    ({ powerAt 0 1 with power := { served.power with wake := some (2, 0, 5) } } : State).power.wake ≠ none := by
  decide +kernel

theorem witness_SupplyAndTemperature :
    served.pins.supplyStopped = false ∧ inSelfRefresh served = false ∧ inSelfRefresh (powerAt 2 0) = true := by
  decide +kernel

/-! ## Ill-formed commands -/

/-- Commands with one operand just outside its range. -/
def illFormedA : List Instr :=
   [.arrayStartStaggerRelease 128, .servingDispatchStart 128, .groupFetch 128 1, .costExceeded 128,
    .registerWrite 0x100 1 1 1 1, .registerWrite 0x300 65536 1 1 1, .registerWrite 0x300 1 256 1 1,
    .registerWrite 0x300 1 1 9 1, .registerWrite 0x300 1 1 (4 + 16 * 8) 1, .registerWrite 0x101 1 1 (1 + 16) 1,
    .registerWrite 0x300 1 1 1 256, .sourceSelectWrite 0x100 1,
    .sourceSelectWrite 0x300 256, .readoptRequest 0x100, .readoptWithdraw 0x100, .stagedBasinWrite 0x100 1 1 1,
    .stagedBasinWrite 0x300 65536 1 1, .stagedBasinWrite 0x300 1 256 1, .stagedBasinWrite 0x300 1 1 (2 ^ 16),
    .basinCommitRequest 0x100, .testSpareRequest 0x100 1, .testSpareRequest 0x300 256, .loadRequest 0x100,
    .bankSwitchRequest 0x100, .clearBankRequest 0x100, .stateStrideWrite 0x100 1, .stateStrideWrite 0x300 (2 ^ 32),
    .poolConfigWrite 0x100 1 1 1, .poolConfigWrite 0x300 4 1 1, .poolConfigWrite 0x300 1 256 1,
    .poolConfigWrite 0x300 1 1 (2 ^ 32), .adoptRequest 0x100, .fabricCommitRequest 0x100, .taskStart 0x100 1,
    .taskEnd 0x100 1, .acknowledgeSources 0x100 false 1, .clearSources 0x100 false 1, .regimeRequest 0x100 1,
    .regimeRequest 0x300 256, .retireRequest 0x100, .activationRequest 0x100, .verifyRequest 0x100,
    .burnRequest 0x100, .relock 0x100, .permanentDebugDisable 0x100, .marginRequest 0x100, .powerStateRequest 0x100 1,
    .powerStateRequest 0x300 256, .claim 0x100 1, .leaseHeartbeat 0x100, .release 0x100, .successor 0x100 1,
    .accept 0x100, .seize 0x100, .resetCommunication 0x100, .commandPush 128 1 1, .queueSlotFreed 128 1,
    .commandComplete 128 1 1, .errorHandlerEntry 128, .gangErrorNotify 128, .set 128, .alu 128]

/-- Commands with one operand just outside its range (continued). -/
def illFormedB : List Instr :=
   [.load 128, .store 128, .loop 128, .endloop 128, .cmp 128, .br 128, .sigpeer 128, .peerSignalArrival 128,
    .fence 128, .ret 128, .err 128, .nop 128, .resume 128, .sconf 128, .ssend 128, .sfree 128, .creditReturn 128 1,
    .creditReturn 1 32, .mma 128, .watchSampleDone 128, .wload 128, .expanderGrant 128, .add 128, .sub 128, .mul 128,
    .fma 128, .min 128, .max 128, .abs 128, .neg 128, .sel 128, .vectorCmp 128, .cvt 128, .div 128, .rcp 128,
    .sqrt 128, .rsqrt 128, .exp2 128, .log2 128, .exp 128, .log 128, .tanh 128, .sigmoid 128, .silu 128, .gelu 128,
    .softplus 128, .rrow 128, .rcol 128, .gate 128, .pool 128, .sstep 128, .scan 128, .sfix 128, .tload 128,
    .create 32768 0 0, .fork 32768 1 0 0, .park 32768 0 0, .unpark 32768 0 0, .retire 32768 0 0, .setFuture 32768 0 0]

/-- Commands with one operand just outside its range (continued). -/
def illFormedC : List Instr :=
   [.truncate 32768 0 0, .shift 32768 0 0, .setuser 32768 0 0, .pwalk 128, .pappend 128, .attf 128, .attb 128,
    .ictx 128, .decode 128, .flush 128, .boxsel 128, .chipUnitDispatch 16, .frameRelease 2 1, .copy 128, .fp32Add 128,
    .zeroFill 128, .pfmark 128, .hbmRecentre 512, .shoreWckCheck 64 false, .shoreRetrainDone 64,
    .flitReceive 18 0 [] 0, .brookRetrainDone 18 false, .laneErrorWindow 18 1 0, .laneErrorWindow 1 64 0, .ack 18 1,
    .creditGrant 18 1 1, .spareRequest 18 1, .spareRequest 1 64, .spareConfirm 18 1, .spareConfirm 1 64,
    .widthChange 18 1, .endToEndAck 18 1 1, .identity 18 1, .readRequest 1 1 1 0 1, .put 128, .get 128,
    .allreduce 128, .reducescatter 128, .allgather 128, .broadcast 128, .alltoall 128, .stampchk 128, .waitf 128,
    .waitfTimeout 128, .collectiveTimeout 128, .permute 128, .permuteRoundEnd 128, .sliceExpiry 128,
    .schedulerDecision 128, .restoreDone 128, .forcedStop 128, .switchOutSave 128, .switchOutDone 128,
    .mailboxGo 65536 1 false [], .mailboxGo 1 256 false [], .mailboxGo 1 1 false (List.replicate 257 0),
    .usdoRequest 2 1 .abort, .usdoSessionTimeout 2 1, .nmtStart 2, .nmtStop 2]

/-- Commands with one operand just outside its range (continued). -/
def illFormedD : List Instr :=
   [.nmtEnterPreoperational 2, .nmtResetNode 2, .nmtResetCommunication 2, .emcyInhibitExpiry 2, .tpdoInhibitExpiry 4,
    .tpdoEventTimer 4, .busOff 2, .busOffRecovery 2, .escalationExpiry 128, .pondWatchdogTimeout 128,
    .memberEvacuationDone 2 1, .hostMemRead 1 0 1, .hostMemRead 1 1 3, .modrstNRelease 128, .getCertificate 8,
    .challenge 8, .getMeasurements 256, .dict (2 ^ 128), .debugStatus 256, .debugHalt 256, .debugResume 256,
    .debugStep 256, .debugHaltGang 256, .debugRelock 256, .pondHalted 128, .dbgmemRead 4 1 1, .dbgmemRead 1 256 1,
    .dbgmemRead 1 1 (2 ^ 48), .dbgmemWrite 4 1 1 0, .dbgmemWrite 1 256 1 0, .dbgmemWrite 1 1 (2 ^ 48) 0,
    .msixUnmask 8, .chipEngineUnitFailed 16 1]

/-- Every check of well-formedness refuses a command that breaks it alone. -/
theorem test_ill_formed_refused :
    (illFormedA ++ illFormedB ++ illFormedC ++ illFormedD).all (fun i => !wellFormed i) = true := by decide +kernel

/-- Commands at the edges of their ranges are well formed. -/
theorem test_edges_well_formed :
    [Instr.set 127, .registerWrite 0x300 1 1 (1 + 16 * 7) 1, .registerWrite 0x17F 65535 255 8 (2 ^ 64 - 1), .creditReturn 127 31, .create 32767 0 0,
      .laneErrorWindow 17 63 0, .readRequest 0 0 0 1 0, .tpdoEventTimer 3, .dict (2 ^ 128 - 1),
      .debugHalt 255].all wellFormed = true := by decide +kernel

/-- The table gives no row any bits, so no word spells a command. -/
theorem test_no_word_spells_a_command : decodeTableWord 64 0 = none ∧ decodeTableWord 0 0 = none := ⟨rfl, rfl⟩


/-! ## Results that the spec or a standard states -/

/-- The check values of CRC-32C and CRC-64/ECMA-182 over the nine digits "123456789", as their catalogues give them
(06 Table CMD-8, 12 R335). -/
theorem test_crc_check_values :
    (let digits : List Byte := [0x31, 0x32, 0x33, 0x34, 0x35, 0x36, 0x37, 0x38, 0x39]
     crc32c digits = 0xE3069283 ∧ crc64 digits = 0x6C40DF5F0B497347) := by decide +kernel

/-- The state of 02 Table TCK-1 at 43 ms: the internal generator's edge at 40 ms was the last one, and the owner has
written the re-adopt request. -/
def readopting : State :=
  { withObjs [(0x2200, 4, 1)] ticking with
      now := 43 * msClk, tick := { ticking.tick with lastEdge := 40 * msClk, latched := true } }

/-- What a step leaves. -/
def after (o : Out) : State :=
  match o with
  | .next t => t
  | _ => State.reset

/-- 02 Table TCK-1: the edge of TICK_IN at 45 ms is counted and not used. -/
theorem test_edge_at_45_ms_ignored :
    (let t := after (exec (.tickInEdge (45 * msClk) true) readopting)
     getObj t (key 0x2200 8) = 1 ∧ t.tick.lastEdge = 40 * msClk ∧ getObj t (key 0x2200 4) = 1) := by decide +kernel

/-- 02 Table TCK-1: the edge at 55 ms passes every check of an adoption, and adopting it makes TICK_IN the source. The
instant of the used edge rests on a free delay. -/
theorem test_edge_at_55_ms_adopted :
    (readopting.tick.lastEdge + forceObj readopting (key 0x2201 2) * 1250 ≤ max readopting.now (55 * msClk)) ∧
    (let t := adoptTickIn readopting
     getObj t (key 0x2200 5) = 0 ∧ getObj t (key 0x2200 4) = 0 ∧ getObj t (key 0x2200 2) = 1) := by decide +kernel

/-- A vacant device with CAN node 9 on port 1 in the master table, at 12 ms. -/
def vacant : State :=
  { withObjs [(0x3101, 7, 0), (0x3101, 9, 0), (0x3110, 7, 5), (0x3112, 1, 1), (0x3110, 1, 9)] served with
      now := 12 * msClk, own := { served.own with masters := [(0x209, 0)] } }

/-- 14 Table DIC-12: the host claims with priority 100 and the election opens; node 9 claims with 200 at 30 ms; it wins. -/
theorem test_election :
    (let a := after (exec (.claim 0x300 100) vacant)
     let b := after (exec (.claim 0x209 200) { a with now := 30 * msClk })
     let c := after (exec .electionClose b)
     ownState a = 1 ∧ ownerOf c = 0x209 ∧ c.now = 62 * msClk) := by decide +kernel

/-- 14 Table DIC-12: the lease runs out at 1,812 ms, and the device is vacant. -/
theorem test_lease_runs_out :
    (let s := { withObjs [(0x3101, 7, 0x209), (0x3101, 9, 2)] vacant with
        own := { vacant.own with lease := some (1812 * msClk) } }
     let t := after (exec .leaseExpiry s)
     ownerOf t = 0 ∧ t.now = 1812 * msClk ∧ sourceSet t 57 = true) := by decide +kernel

/-- A store of four bytes at byte 4 of the cell of 0x2610.01 is refused, and the result cell names the object; one at byte 0
is taken (14 R389, Table DIC-9). -/
theorem test_misaligned_store :
    (let a := after (exec (.registerWrite 0x300 0x2610 1 (4 + 16 * 4) 3) served)
     let b := after (exec (.registerWrite 0x300 0x2610 1 4 3) served)
     getObj a (key 0x2610 1) = getObj served (key 0x2610 1) ∧ a.cells.cellIndex = 0x2610 ∧ a.cells.cellSub = 1 ∧
       getObj b (key 0x2610 1) = 3) := by decide +kernel

/-- SET loads word 2 into its register, and the core goes on at the next command (06 Table CMD-5). -/
theorem test_set :
    (let t := after (exec (.set 0) (atCommand .step (ctl 0x01 (3 * 2 ^ 56) 5) served))
     getParam (pondOf t 0).core 3 = 5#64 ∧ ((pondOf t 0).core.sect.map (·.pc)) = some 1) := by decide +kernel

/-- STORE writes eight bytes, the lowest first (06 R160, 00 R4). -/
theorem test_store_bytes :
    (let s := modCore (atCommand .step (ctl 0x04 (3 * 2 ^ 40) 8) mapped) 0 fun k =>
        { k with params := [(3, 0x0102030405060708#64)] }
     let t := after (exec (.store 0) s)
     (List.range 8).map (fun i => (readByte t (8 + i)).toNat) = [8, 7, 6, 5, 4, 3, 2, 1]) := by decide +kernel

/-- A step of the block takes the first command and leaves the second. -/
theorem test_step_order :
    (after (step { State.reset with pending := [.tapReset, .idcode] })).pending = [.idcode] := by decide +kernel

end Sys2Proof.Tests
end

section
/-! Writes of objects that masters make: the rule of an accepted write, and what the settings and requests of the tick,
the basins, the programs and the memory do (14 R376 to R379). -/

namespace Sys2Proof

open Machine Safety

/-! ## Rows of the dictionary -/

/-- Only objects of index 0x2A30 hold a copy for each master (14 R377). -/
theorem rowsOf_rw {index : Nat} : ∀ r ∈ rowsOf index, r.access = .rw → r.ilo = 0x2A30 ∧ r.ihi = 0x2A30 := by
  unfold rowsOf
  split <;> decide

theorem rowOf_access_ne_rw {index sub : Nat} {r : ObjRow} (h : rowOf index sub = some r) (hi : index ≠ 0x2A30) :
    r.access ≠ .rw := by
  intro ha
  have hin := List.find?_some h
  obtain ⟨hlo, hhi⟩ := rowsOf_rw r (List.mem_of_find?_eq_some h) ha
  simp only [Bool.and_eq_true, decide_eq_true_eq] at hin
  omega

theorem objRow_access_ne_rw {index sub : Nat} {r : ObjRow} (h : objRow index sub = some r) (hi : index ≠ 0x2A30) :
    r.access ≠ .rw := by
  unfold objRow at h
  split at h
  · cases h
  split at h
  · cases h
  split at h
  · cases h
    exact rowOf_access_ne_rw ‹_› hi
  · split at h
    · cases h
      exact Access.noConfusion
    · cases h

theorem objRow_of_lookup {s : State} {index sub : Nat} {r : ObjRow} (h : lookup s index sub = .ok r) :
    objRow index sub = some r := by
  unfold lookup at h
  split at h
  · cases h
  split at h
  · cases h
  · cases h
    assumption

theorem typeSize_le (t : ObjType) : typeSize t ≤ 8 := by cases t <;> decide

theorem naturalWidth_of_objRow {m index sub : Nat} {r : ObjRow} (h : objRow index sub = some r) :
    naturalWidth m index sub = if m = hostMaster ∧ typeSize r.type < 4 then 4 else typeSize r.type := by
  simp [naturalWidth, h]

theorem naturalWidth_lt {m index sub : Nat} {r : ObjRow} (h : objRow index sub = some r) :
    naturalWidth m index sub < 16 := by
  have := typeSize_le r.type
  rw [naturalWidth_of_objRow h]
  split <;> omega

/-! ## An accepted write -/

section
variable {s s1 s2 : State} {m index sub len v : Nat} {r : ObjRow}

/-- A write that passes the checks of 14 Table DIC-4, in the length of its type, is applied. -/
theorem dictWrite_of_accepted (h : Accepted s m index sub len v r s1) (wide : Bool) :
    dictWrite wide m index sub (typeSize r.type) v s1 = applyWrite m (key index sub) v r.access s1 := by
  obtain ⟨hconst, hro⟩ := h.writable
  simp [dictWrite, h.row, h.short, hconst, hro, h.owner, h.range, h.state]

/-- The host's store passes the checks of its cell too (14 R389). -/
theorem windowWrite_of_accepted (h : Accepted s hostMaster index sub len v r s1)
    (e : applyWrite hostMaster (key index sub) v r.access s1 = (0, s2)) :
    windowWrite index sub (storeByte hostMaster len) (storeWidth hostMaster len) v s1 = (0, s2) := by
  obtain ⟨hbyte, haligned, hshape⟩ := h.shape rfl
  simp [windowWrite, hbyte, haligned, h.row, h.short, hshape, dictWrite_of_accepted h, e, cellDone]

theorem debugWrite_of_accepted (h : Accepted s debugMaster index sub len v r s1) :
    debugWrite index sub v s1 = applyWrite debugMaster (key index sub) v r.access s1 := by
  simp [debugWrite, h.row, h.short, dictWrite_of_accepted h]

/-- An accepted write that takes effect leaves the effect and the answer (14 R376, R383, R389, R391). -/
theorem masterWrite_of_accepted (h : Accepted s m index sub len v r s1)
    (e : applyWrite m (key index sub) v r.access s1 = (0, s2)) :
    masterWrite m index sub (storeByte m len) (storeWidth m len) v s = answered m index sub s2 := by
  have hserved := h.served
  have harrives := h.arrives
  unfold checkedIn at hserved
  by_cases hhost : m = hostMaster
  · subst hhost
    have hs : resumeService s = s1 := by simpa using hserved
    simp [masterWrite, harrives, hs, windowWrite_of_accepted h e, answered]
  by_cases hdebug : m = debugMaster
  · subst hdebug
    have hs : resumeService s = s1 := by simpa using hserved
    simp [masterWrite, harrives, hs, debugWrite_of_accepted h, e, answered, hhost]
  · have hcan : isCanMaster m = true := by simpa [isMaster, hhost, hdebug] using h.master
    have hs : enterMaster m (resumeService s) = some s1 := by simpa [hhost, hdebug] using hserved
    have hwrite : dictWrite true m index sub len v s1 = (0, s2) := by
      rw [h.length hhost hdebug, dictWrite_of_accepted h, e]
    simp [masterWrite, harrives, hs, h.session hcan, storeWidth, hwrite, answered, hhost, hdebug]

/-- A command that writes one object in the width of its type. -/
theorem writeObject_of_accepted (h : AcceptedAs s m index sub v r s1)
    (e : applyWrite m (key index sub) v r.access s1 = (0, s2)) :
    writeObject m index sub v s = .next (answered m index sub s2) := by
  have hlt := naturalWidth_lt (m := m) (objRow_of_lookup h.row)
  have hbyte : storeByte m (naturalWidth m index sub) = 0 := by
    unfold storeByte
    split <;> omega
  have hwidth : storeWidth m (naturalWidth m index sub) = naturalWidth m index sub := by
    unfold storeWidth
    split <;> omega
  have hwrite := masterWrite_of_accepted h e
  rw [hbyte, hwidth] at hwrite
  simp [writeObject, h.master, hwrite]

theorem Safety.Accepted.access_ne_rw (h : Accepted s m index sub len v r s1) (hi : index ≠ 0x2A30) :
    r.access ≠ .rw :=
  objRow_access_ne_rw (objRow_of_lookup h.row) hi

end

/-! ## What a write does, by the kind of its object -/

section
variable {s : State} {m k v : Nat} {a : Access}

/-- A request with a result object of its own. -/
theorem applyWrite_of_resultRequest {p : Nat × State} (h : resultRequest k v s = some p) :
    applyWrite m k v a s = p := by
  simp [applyWrite, h]

/-- A one-shot object without a result object acts on a 1. -/
theorem applyWrite_one (ho : oneShot k = true) (hr : resultRequest k 1 s = none) :
    applyWrite m k 1 a s = (0, actOne m k s) := by
  simp [applyWrite, ho, hr]

/-- Only one-shot objects make requests with a result object. -/
theorem resultRequest_eq_none (ho : oneShot k = false) : resultRequest k v s = none := by
  have hne : ∀ j, oneShot j = true → k ≠ j := by
    rintro j hj rfl
    simp [ho] at hj
  simp [resultRequest, hne (key 0x2610 3) (by decide), hne (key 0x2A20 4) (by decide), hne (key 0x2E10 0xB) (by decide),
    hne (key 0x2E30 1) (by decide), hne (key 0x3020 3) (by decide)]

/-- The objects beside those of `oneShot` whose write does more, or other, than hold the value. -/
def effectKeys : List Nat :=
  [key 0x2120 1, key 0x2200 1, key 0x2200 4, key 0x2B01 1, key 0x2C00 2, key 0x2D01 1, key 0x2620 4, key 0x2E01 5,
    key 0x2E01 6, key 0x2E01 7, key 0x2E01 8, key 0x2F00 1, key 0x3101 1, key 0x3101 2, key 0x3101 3]

/-- Any other object that masters share holds the value written. -/
theorem applyWrite_setting (ho : oneShot k = false) (he : k ∉ effectKeys) (ha : a ≠ .rw) :
    applyWrite m k v a s = (0, setObj s k v) := by
  simp only [effectKeys, List.mem_cons, List.not_mem_nil, or_false, not_or] at he
  simp [applyWrite, resultRequest_eq_none ho, ho, ha, he]

theorem applyWrite_selectSource (ha : a ≠ .rw) : applyWrite m (key 0x2200 1) v a s = (0, selectSource v s) := by
  have ho : oneShot (key 0x2200 1) = false := by decide
  have hspare : key 0x2200 1 ≠ key 0x2120 1 := by decide
  simp [applyWrite, resultRequest_eq_none ho, ho, ha, hspare]

theorem applyWrite_readopt (ha : a ≠ .rw) : applyWrite m (key 0x2200 4) v a s = (0, readopt v s) := by
  have ho : oneShot (key 0x2200 4) = false := by decide
  have hspare : key 0x2200 4 ≠ key 0x2120 1 := by decide
  have hsource : key 0x2200 4 ≠ key 0x2200 1 := by decide
  simp [applyWrite, resultRequest_eq_none ho, ho, ha, hspare, hsource]

theorem applyWrite_testSpare (ha : a ≠ .rw) :
    applyWrite m (key 0x2120 1) v a s = (0, failPond raise (physOf s v) (setObj s (key 0x2120 1) v)) := by
  have ho : oneShot (key 0x2120 1) = false := by decide
  simp [applyWrite, resultRequest_eq_none ho, ho, ha]

theorem applyWrite_load (h : getObj s (key 0x2610 3) ≠ 1) :
    applyWrite m (key 0x2610 3) 1 a s = (0, setObj { s with requests := { s.requests with
      loadProgram := getObj s (key 0x2610 1), loadBasin := getObj s (key 0x2610 2) } } (key 0x2610 3) 1) := by
  have hr : resultRequest (key 0x2610 3) 1 s = some (requestLoad s) := by simp [resultRequest]
  rw [applyWrite_of_resultRequest hr, requestLoad, if_neg h]

theorem applyWrite_margin (hsetup : inSetup s = true) (hfree : s.requests.margin = none)
    (hmember : ¬ (getObj s (key 0x2A20 1) = 1 ∧ 63 < getObj s (key 0x2A20 2)))
    (hworks : memberWorks (memberOf s (getObj s (key 0x2A20 1)) (getObj s (key 0x2A20 2))) = true) :
    applyWrite m (key 0x2A20 4) 1 a s = (0, setObj { s with requests := { s.requests with
      margin := some (getObj s (key 0x2A20 1), getObj s (key 0x2A20 2), getObj s (key 0x2A20 3)) } }
      (key 0x2A20 4) 1) := by
  have hr : resultRequest (key 0x2A20 4) 1 s = some (requestMargin s) := by simp [resultRequest, key]
  rw [applyWrite_of_resultRequest hr]
  simp [requestMargin, hsetup, hfree, hmember, hworks]

end

/-! ## Settings of the basins and the futures -/

theorem isTreeKey_iff {k : Nat} : isTreeKey k = true ↔ (k / 256 = 0x2102 ∧ 1 ≤ k % 256 ∧ k % 256 ≤ 0x80) ∨
    (0x5000 ≤ k / 256 ∧ k / 256 ≤ 0x50FF ∧ k % 256 ∈ [1, 3, 4, 5, 6]) := by
  simp [isTreeKey, and_assoc]

/-- The objects of the staged basin table and of the pools are plain settings (01 R28, 07 R205). -/
theorem setting_of_index {k : Nat} (h : k / 256 = 0x2102 ∨ (0x2710 ≤ k / 256 ∧ k / 256 ≤ 0x2713) ∨
    (0x5000 ≤ k / 256 ∧ k / 256 ≤ 0x50FF)) : oneShot k = false ∧ k ∉ effectKeys := by
  simp only [oneShot, effectKeys, key, List.mem_cons, List.not_mem_nil, or_false, Bool.or_eq_false_iff,
    Bool.and_eq_false_iff, decide_eq_false_iff_not]
  omega

theorem setting_of_isTreeKey {k : Nat} (h : isTreeKey k = true) : oneShot k = false ∧ k ∉ effectKeys := by
  rw [isTreeKey_iff] at h
  exact setting_of_index (by omega)

theorem setting_of_pool {q sub : Nat} (hq : q < 4) (hsub : sub < 256) :
    oneShot (key (0x2710 + q) sub) = false ∧ key (0x2710 + q) sub ∉ effectKeys := by
  refine setting_of_index (.inr (.inl ?_))
  unfold key
  omega

theorem treeKey_index_ne {index sub : Nat} (h : isTreeKey (key index sub) = true) (hsub : sub < 256) :
    index ≠ 0x2A30 := by
  rw [isTreeKey_iff, key] at h
  omega

section
variable {s s1 : State} {m index sub v : Nat} {r : ObjRow}

/-- An accepted write of a plain setting holds the value and is answered. -/
theorem writeObject_setting (h : AcceptedAs s m index sub v r s1) (hi : index ≠ 0x2A30)
    (hk : oneShot (key index sub) = false ∧ key index sub ∉ effectKeys) :
    writeObject m index sub v s = .next (answered m index sub (setObj s1 (key index sub) v)) :=
  writeObject_of_accepted h (applyWrite_setting hk.1 hk.2 (h.access_ne_rw hi))

/-- An accepted 1 at a one-shot object without a result object acts and is answered. -/
theorem writeObject_one (h : AcceptedAs s m index sub 1 r s1) (ho : oneShot (key index sub) = true)
    (hr : resultRequest (key index sub) 1 s1 = none) :
    writeObject m index sub 1 s = .next (answered m index sub (actOne m (key index sub) s1)) :=
  writeObject_of_accepted h (applyWrite_one ho hr)

theorem execStagedBasinWrite_accepted (hk : isTreeKey (key index sub) = true) (hsub : sub < 256)
    (h : AcceptedAs s m index sub v r s1) :
    execStagedBasinWrite m index sub v s = .next (answered m index sub (setObj s1 (key index sub) v)) := by
  rw [execStagedBasinWrite, if_pos hk]
  exact writeObject_setting h (treeKey_index_ne hk hsub) (setting_of_isTreeKey hk)

theorem execPoolConfigWrite_accepted {q : Nat} (hq : q < 4) (hsub : sub < 256)
    (h : AcceptedAs s m (0x2710 + q) sub v r s1) :
    execPoolConfigWrite m q sub v s =
      .next (answered m (0x2710 + q) sub (setObj s1 (key (0x2710 + q) sub) v)) := by
  rw [execPoolConfigWrite, if_pos hq]
  exact writeObject_setting h (by omega) (setting_of_pool hq hsub)

end

/-- Settles O12: each command is an accepted write of one object (`writeObject_of_accepted`), and its effect is the rule of
the object's kind: a plain setting, a one-shot request, or an object with an effect of its own. -/
theorem deviceRequestsComplete : Obligations.DeviceRequestsComplete := by
  unfold Obligations.DeviceRequestsComplete
  intro s s1 m v r
  refine ⟨?source, ?readopt, ?withdraw, ?staged, ?commit, ?spare, ?load, ?switch, ?clear, ?stride, ?pool, ?margin⟩
  case source => exact fun h => writeObject_of_accepted h (applyWrite_selectSource (h.access_ne_rw (by decide)))
  case readopt => exact fun h => writeObject_of_accepted h (applyWrite_readopt (h.access_ne_rw (by decide)))
  case withdraw => exact fun h => writeObject_of_accepted h (applyWrite_readopt (h.access_ne_rw (by decide)))
  case staged => exact fun index sub hk _ hsub h => execStagedBasinWrite_accepted hk hsub h
  case commit => exact fun h => writeObject_one h (by decide) (by simp [resultRequest, key])
  case spare => exact fun h => writeObject_of_accepted h (applyWrite_testSpare (h.access_ne_rw (by decide)))
  case load => exact fun h hidle => writeObject_of_accepted h (applyWrite_load hidle)
  case switch => exact fun h => writeObject_one h (by decide) (by simp [resultRequest, key])
  case clear => exact fun h => writeObject_one h (by decide) (by simp [resultRequest, key])
  case stride => exact fun h => writeObject_setting h (by decide) (by decide)
  case pool => exact fun q sub hq _ hsub h => execPoolConfigWrite_accepted hq (by omega) h
  case margin =>
    exact fun h hsetup hfree hmember hworks =>
      writeObject_of_accepted h (applyWrite_margin hsetup hfree hmember hworks)

end Sys2Proof
end

section
/-! The tick: where used edges come from, what a switch of the tick source leaves, and the phases of a tick (02 R32 to
R37). -/

namespace Sys2Proof

open Machine Safety

/-! ## Used edges (02 R32 to R35) -/

section
variable {s : State} {t : Nat} {rising : Bool}

theorem exec_internalGeneratorEdge (hrun : s.tick.running = true) (hused : tickInUsed s = false)
    (hreq : readoptPending s = false) :
    exec .internalGeneratorEdge s = .next (usedEdge (s.tick.lastEdge + nominalClk s) id s) := by
  change execInternalGeneratorEdge s = _
  simp [execInternalGeneratorEdge, hrun, hused, hreq]

theorem exec_tickSourceTakeover (hrun : s.tick.running = true) (hused : tickInUsed s = true) :
    exec .tickSourceTakeover s = .next (usedEdge (s.tick.lastEdge + 2 * nominalClk s) takeOver s) := by
  change execTickSourceTakeover s = _
  simp [execTickSourceTakeover, hrun, hused]

theorem exec_readoptFallback (hrun : s.tick.running = true) (hused : tickInUsed s = false)
    (hreq : readoptPending s = true) :
    exec .readoptFallback s = .next (usedEdge (s.tick.lastEdge + 2 * nominalClk s)
      (fun u => setObj (setObj u (key 0x2200 4) 0) (key 0x2200 5) 1) s) := by
  change execReadoptFallback s = _
  simp [execReadoptFallback, hrun, hused, hreq]

/-- The edge is of the polarity in force. -/
theorem polarity_mine {p : Nat} (h : p = 0 ↔ rising = true) : (if p = 0 then rising else !rising) = true := by
  split <;> simp_all

/-- An edge that TICK_IN is listened to for is judged against P_min (02 R33). -/
theorem execTickInEdge_listened (hrun : s.tick.running = true) (hused : tickInUsed s = true ∨ readoptPending s = true)
    (hpol : forceObj s (key 0x2200 3) = 0 ↔ rising = true) :
    execTickInEdge t rising s = .next (
      if max s.now t < s.tick.lastEdge + forceObj s (key 0x2201 2) * 1250 then
        addObj (advanceTo s t) (key 0x2200 8) 1
      else
        usedEdge (max s.now t + 23 + (Config.freeWord s.fresh).toNat % 3)
          (if readoptPending s then adoptTickIn else id) { advanceTo s t with fresh := s.fresh + 1 }) := by
  have hlisten : (tickInUsed s || readoptPending s) = true := by simpa using hused
  simp only [execTickInEdge, hrun, polarity_mine hpol, hlisten]
  rfl

theorem exec_tickInEdge_early (hrun : s.tick.running = true) (hused : tickInUsed s = true ∨ readoptPending s = true)
    (hpol : forceObj s (key 0x2200 3) = 0 ↔ rising = true)
    (hearly : max s.now t < s.tick.lastEdge + forceObj s (key 0x2201 2) * 1250) :
    exec (.tickInEdge t rising) s = .next (addObj (advanceTo s t) (key 0x2200 8) 1) := by
  change execTickInEdge t rising s = _
  rw [execTickInEdge_listened hrun hused hpol, if_pos hearly]

theorem exec_tickInEdge_accepted (hrun : s.tick.running = true)
    (hused : tickInUsed s = true ∨ readoptPending s = true) (hpol : forceObj s (key 0x2200 3) = 0 ↔ rising = true)
    (hdue : s.tick.lastEdge + forceObj s (key 0x2201 2) * 1250 ≤ max s.now t) :
    ∃ d, 23 ≤ d ∧ d ≤ 25 ∧ exec (.tickInEdge t rising) s = .next (usedEdge (max s.now t + d)
      (if readoptPending s then adoptTickIn else id) { advanceTo s t with fresh := s.fresh + 1 }) := by
  refine ⟨23 + (Config.freeWord s.fresh).toNat % 3, by omega, by omega, ?_⟩
  change execTickInEdge t rising s = _
  rw [execTickInEdge_listened hrun hused hpol, if_neg (by omega), Nat.add_assoc]

/-- While no ticks run, no source makes an edge (16 R442). -/
theorem exec_edge_of_not_running (h : s.tick.running = false) :
    exec .internalGeneratorEdge s = .next s ∧ exec (.tickInEdge t rising) s = .next s ∧
      exec .tickSourceTakeover s = .next s ∧ exec .readoptFallback s = .next s := by
  change execInternalGeneratorEdge s = _ ∧ execTickInEdge t rising s = _ ∧ execTickSourceTakeover s = _ ∧
    execReadoptFallback s = _
  simp [execInternalGeneratorEdge, execTickInEdge, execTickSourceTakeover, execReadoptFallback, h]

end

/-! ## A switch of the tick source (02 R34, R35) -/

section
variable {s : State}

theorem noteSwitch_switches (h : MapSorted s.dict) :
    getObj (noteSwitch s) (key 0x2200 6) = getObj s (key 0x2200 6) + 1 := by
  rw [noteSwitch, getObj_setObj_other (addObj_dict_sorted h _ _) _ _ (by decide), getObj_addObj_same h]

theorem noteSwitch_switchTick (h : MapSorted s.dict) : getObj (noteSwitch s) (key 0x2200 7) = tickNumber s :=
  getObj_setObj_same (addObj_dict_sorted h _ _) _ _

theorem getObj_noteSwitch_other (h : MapSorted s.dict) {k : Nat} (h6 : k ≠ key 0x2200 6) (h7 : k ≠ key 0x2200 7) :
    getObj (noteSwitch s) k = getObj s k := by
  rw [noteSwitch, getObj_setObj_other (addObj_dict_sorted h _ _) _ _ h7, getObj_addObj_other h _ _ h6]

theorem takeOver_switches (h : MapSorted s.dict) :
    ∃ u, takeOver s = raiseCause 40 .chip u ∧ u.tick.lostSource = true ∧ getObj u (key 0x2200 2) = 0 ∧
      getObj u (key 0x2200 6) = getObj s (key 0x2200 6) + 1 ∧ u.mem = s.mem ∧ u.ponds = s.ponds := by
  let lost : State := { s with tick := { s.tick with lostSource := true } }
  have hlost : MapSorted lost.dict := h
  have hset := setObj_dict_sorted hlost (key 0x2200 2) 0
  refine ⟨_, rfl, rfl, ?_, ?_, rfl, rfl⟩
  · rw [getObj_noteSwitch_other hset (by decide) (by decide), getObj_setObj_same hlost]
  · rw [noteSwitch_switches hset, getObj_setObj_other hlost _ _ (by decide)]
    rfl

end

/-- Settles O16, source by source. -/
theorem tickEdges : Obligations.TickEdges := by
  unfold Obligations.TickEdges
  refine ⟨fun s t rising => ⟨?generator, ?tickIn, ?takeover, ?fallback, ?stopped⟩, fun s hs => ?switch⟩
  case generator => exact exec_internalGeneratorEdge
  case tickIn =>
    exact fun hrun hused hpol => ⟨exec_tickInEdge_early hrun hused hpol, exec_tickInEdge_accepted hrun hused hpol⟩
  case takeover => exact exec_tickSourceTakeover
  case fallback => exact exec_readoptFallback
  case stopped => exact exec_edge_of_not_running
  case switch =>
    exact ⟨rfl, noteSwitch_switches hs.dict, noteSwitch_switchTick hs.dict, takeOver_switches hs.dict⟩

/-! ## The phases of a tick (02 R37) -/

section
variable {s : State} {t g : Nat}

theorem setPhases_length (h : MapSorted s.dict) : getObj (setPhases t g s) (key 0x2201 4) = t := by
  have h4 := setObj_dict_sorted h (key 0x2201 4) t
  rw [setPhases, getObj_setObj_other (setObj_dict_sorted h4 _ _) _ _ (by decide),
    getObj_setObj_other h4 _ _ (by decide), getObj_setObj_same h]

theorem setPhases_window (h : MapSorted s.dict) :
    getObj (setPhases t g s) (key 0x2201 5) = t - guardOf t g - serveStart := by
  have h4 := setObj_dict_sorted h (key 0x2201 4) t
  rw [setPhases, getObj_setObj_other (setObj_dict_sorted h4 _ _) _ _ (by decide), getObj_setObj_same h4]

theorem setPhases_servingEnd (h : MapSorted s.dict) :
    getObj (setPhases t g s) (key 0x2201 6) = t - guardOf t g := by
  have h4 := setObj_dict_sorted h (key 0x2201 4) t
  rw [setPhases, getObj_setObj_same (setObj_dict_sorted h4 _ _)]

/-- A used edge applies the guard band that stands in the dictionary (02 R36). -/
theorem applyParameters_eq_setPhases (h : MapSorted s.dict) :
    ∃ t u, applyParameters s = setPhases t (getObj s (key 0x2201 3)) u := by
  have hdrop : getObj (setObj s (key 0x2200 2) 0) (key 0x2201 3) = getObj s (key 0x2201 3) :=
    getObj_setObj_other h _ _ (by decide)
  unfold applyParameters
  split
  · rw [← hdrop]
    exact ⟨_, _, rfl⟩
  · exact ⟨_, _, rfl⟩

end

/-- Settles O17. -/
theorem tickPhases : Obligations.TickPhases := by
  unfold Obligations.TickPhases
  have hguard : guardOf 12500000 50 = 625000 := by decide
  refine ⟨fun s t g hs => ⟨le_max_right _ _, rfl, rfl, setPhases_length hs.dict, setPhases_servingEnd hs.dict,
    setPhases_window hs.dict⟩, fun s hs => ⟨applyParameters_eq_setPhases hs.dict, ?_, hguard, ?_⟩⟩
  · rw [setPhases_servingEnd hs.dict, hguard]
  · rw [setPhases_window hs.dict, hguard, serveStart]

end Sys2Proof
end

section
/-! The events of a tick on a gang and the device (02 R38 to R57, 06 R174 to R176). -/

namespace Sys2Proof

open Machine Safety

/-! ## The events of a tick (02 R38, R45, R57; 13 R368; 15 R421) -/

section
variable {s : State} {g : Nat}

theorem exec_inputLatch (hedge : s.tick.anyEdge = true) (hopen : s.tick.latched = false) :
    exec .inputLatch s = .next (noteBuild (writeWorkList (admitAll (applyAllStaged (applyOperations (numericsLatch
      { advanceTo s (s.tick.lastEdge + 64) with
        tick := { s.tick with latched := true }, steps := keptSteps s.steps })))))) := by
  change execInputLatch s = _
  rw [execInputLatch, if_neg (by simp [hedge, hopen])]
  rfl

/-- Dispatch that is due depends only on whether a serving gang still switches a task out (13 R368). -/
theorem exec_servingDispatchStart_due (hg : g < logicalCount s) (hlatched : s.tick.latched = true)
    (hwaits : (gangOf s g).dispatched = false) (hcommit : s.tick.committed = false) :
    exec (.servingDispatchStart g) s = .next (
      let due := s.tick.lastEdge + 17500 + (gangOf s g).aSw
      let u := advanceTo s due
      if servingGang u g && (runOf u g).isSome then
        if (gangOf s g).dispatchAt = 0 then
          raise 17 (.pond (physOf u g))
            (addObj (setGang u g { gangOf s g with dispatchAt := due + 1 }) (key 0x2D03 5) 1)
        else u
      else
        let v := countDispatchWait g false u
        runCarried g (modCore (setGang v g { gangOf v g with dispatched := true }) (physOf v g) fun k =>
          { k with ran := carriedProgram (gangOf s g) })) := by
  change execServingDispatchStart g s = _
  rw [execServingDispatchStart, if_pos hg]
  simp only [hlatched, hwaits, hcommit]
  rfl

/-- A gang that serves with a task still on it is switching that task out (13 R368). -/
theorem switchingOut_of_run {u : State} (hserves : servingGang u g = true) (hrun : runOf u g ≠ none) :
    (servingGang u g && (runOf u g).isSome) = true := by
  rw [hserves, Option.isSome_iff_ne_none.mpr hrun]
  rfl

/-- The entries lost in front are given their status even when no group follows them (06 R176). -/
theorem exec_groupFetch_none {t : Nat} (hg : g < logicalCount s) (hmay : mayFetchGroup s g = true)
    (hnone : groupAt (skipDropped g (advanceTo s t)) (gangOf (skipDropped g (advanceTo s t)) g) = []) :
    exec (.groupFetch g t) s = .next (skipDropped g (advanceTo s t)) := by
  change execGroupFetch g t s = _
  simp [execGroupFetch, hg, hmay, hnone]

theorem exec_servingEnd (hlatched : s.tick.latched = true) (hcommit : s.tick.committed = false) :
    exec .servingEnd s = .next (
      let u := forEach (mapKeys s.gangs) endServing (advanceTo s (s.tick.lastEdge + servingEndAt s))
      let sts := (allocatedFutures u).map fun f => commitStatus u (stepOf u f)
      let v := commitAll { u with tick := { u.tick with committed := true } }
      triggerTpdo 0 (writeRecord sts (deferRepairs (advanceTo v (v.tick.lastEdge + servingEndAt v + 12500))))) := by
  change execServingEnd s = _
  rw [execServingEnd, if_neg (by simp [hlatched, hcommit])]
  rfl

theorem exec_costExceeded (hg : g < logicalCount s) (hgroup : (gangOf s g).group ≠ [])
    (hflag : (gangOf s g).costFlagged = false) :
    exec (.costExceeded g) s = .next (raise 13 (.pond (physOf s g))
      (addObj (setGang (advanceTo s ((gangOf s g).sectionStart +
        ((gangOf s g).group.map (·.charge)).foldl (· + ·) 0 + 1)) g { gangOf s g with costFlagged := true })
        (key 0x2204 5) (gangOf s g).group.length)) := by
  change execCostExceeded g s = _
  rw [execCostExceeded, if_pos hg]
  simp only [hgroup, hflag]
  rfl

theorem exec_rowRepair_inSetup {row : Nat} {rows : List Nat} (hrow : s.tiers.repairs = row :: rows)
    (hsetup : inSetup s = true) : exec .rowRepair s = .next (repairRow row s) := by
  change execRowRepair s = _
  simp [execRowRepair, hrow, hsetup]

theorem exec_rowRepair_inGuardBand {row : Nat} {rows : List Nat} (hrow : s.tiers.repairs = row :: rows)
    (hservice : inSetup s = false) (hcommit : s.tick.committed = true) (hfirst : s.tick.repaired = false)
    (hguard : 162500 ≤ guardBand s) :
    exec .rowRepair s = .next (repairRow row { s with tick := { s.tick with repaired := true } }) := by
  change execRowRepair s = _
  simp [execRowRepair, hrow, hservice, hcommit, hfirst, hguard]

end

/-- Settles O18, event by event; what dispatch does is decided by the switch-out that it may find in progress. -/
theorem servingEvents : Obligations.ServingEvents := by
  unfold Obligations.ServingEvents
  intro s g t row rows hg
  refine ⟨exec_inputLatch, fun hlatched hwaits hcommit => ?dispatch, exec_groupFetch_none hg, exec_servingEnd,
    exec_costExceeded hg, exec_rowRepair_inSetup, exec_rowRepair_inGuardBand⟩
  case dispatch =>
    rw [exec_servingDispatchStart_due hg hlatched hwaits hcommit]
    refine ⟨fun hfree => ?begins, fun hserves hrun hnew => ?counted, fun hserves hrun hold => ?waits⟩
    case begins =>
      refine congrArg _ (if_neg ?_)
      rcases hfree with hidle | hnorun
      · simp [hidle]
      · simp [hnorun]
    case counted => exact congrArg _ ((if_pos (switchingOut_of_run hserves hrun)).trans (if_pos hnew))
    case waits => exact congrArg _ ((if_pos (switchingOut_of_run hserves hrun)).trans (if_neg hold))

end Sys2Proof
end

section
/-! The group that a gang fetches: what it is, the marks it leaves, and the section that its members start (02 R55, R57; 06
R174, R175). -/

namespace Sys2Proof

open Machine Safety Laws

/-! ## The group that comes next -/

section
variable {s : State} {gg : Gang} {e : WorkEntry} {es : List WorkEntry}

/-- The group is its first entry with the entries behind it that go with it, up to the batch width (06 R174). -/
theorem groupAt_eq_cons (h : groupAt s gg = e :: es) :
    ∃ rest, toFetch gg = e :: rest ∧ es = (rest.takeWhile fun x =>
      decide (x.program = e.program) && (x.fallback == e.fallback) && !x.dropped).take
        (max (dirOf s e.program).batch 1 - 1) := by
  unfold groupAt at h
  split at h
  · cases h
  · injection h with hhead htail
    subst hhead
    exact ⟨_, ‹_›, htail.symm⟩

theorem groupAt_same (h : groupAt s gg = e :: es) :
    ∀ x ∈ es, x.program = e.program ∧ x.fallback = e.fallback ∧ x.dropped = false := by
  obtain ⟨rest, -, rfl⟩ := groupAt_eq_cons h
  intro x hx
  simpa [and_assoc] using List.mem_takeWhile_imp (List.mem_of_mem_take hx)

theorem groupAt_length (h : groupAt s gg = e :: es) : es.length + 1 ≤ max (dirOf s e.program).batch 1 := by
  obtain ⟨rest, -, rfl⟩ := groupAt_eq_cons h
  rw [List.length_take]
  omega

theorem groupAt_prefix (h : groupAt s gg = e :: es) : e :: es <+: toFetch gg := by
  obtain ⟨rest, hrest, rfl⟩ := groupAt_eq_cons h
  rw [hrest, List.cons_prefix_cons]
  exact ⟨rfl, (List.take_prefix _ _).trans (List.takeWhile_prefix _)⟩

end

/-! ## The marks of a fetched group -/

theorem fetched_group (gg : Gang) (group : List WorkEntry) (now : Nat) : (fetched gg group now).group = group := by
  unfold fetched
  dsimp only
  split <;> rfl

/-- What fetching leaves in the step of an entry (02 R55). -/
def markEntry (e : WorkEntry) (s : State) : State :=
  setStep s e.future
    { stepOf s e.future with status := if e.switched then 3 else (stepOf s e.future).status, selector := e.program }

theorem markFetched_eq (g : Nat) (group : List WorkEntry) (s : State) :
    markFetched g group s = forEach group markEntry (setGang s g (fetched (gangOf s g) group s.now)) := rfl

section
variable {s : State} {p : Nat} {l : List WorkEntry}

theorem markEntry_steps_sorted (h : MapSorted s.steps) (e : WorkEntry) : MapSorted (markEntry e s).steps :=
  mapPut_sorted _ _ _ _ h

theorem stepOf_markEntry_same (h : MapSorted s.steps) (e : WorkEntry) :
    stepOf (markEntry e s) e.future =
      { stepOf s e.future with status := if e.switched then 3 else (stepOf s e.future).status, selector := e.program } :=
  mapFind_put_same _ _ _ _ h

theorem stepOf_markEntry_other (h : MapSorted s.steps) (e : WorkEntry) {f : Nat} (hf : f ≠ e.future) :
    stepOf (markEntry e s) f = stepOf s f :=
  mapFind_put_other _ _ _ _ _ _ h hf

/-- Marks that entries of one program leave stay when further entries of it are marked. -/
theorem stepOf_markEntry_keeps (h : MapSorted s.steps) {e : WorkEntry} (f : Nat) :
    ((stepOf s f).selector = e.program → (stepOf (markEntry e s) f).selector = e.program) ∧
      ((stepOf s f).status = 3 → (stepOf (markEntry e s) f).status = 3) := by
  by_cases hf : f = e.future
  · subst hf
    simp +contextual [stepOf_markEntry_same h]
  · simp [stepOf_markEntry_other h e hf]

theorem forEach_markEntry_keeps (h : MapSorted s.steps) (hp : ∀ x ∈ l, x.program = p) (f : Nat) :
    ((stepOf s f).selector = p → (stepOf (forEach l markEntry s) f).selector = p) ∧
      ((stepOf s f).status = 3 → (stepOf (forEach l markEntry s) f).status = 3) := by
  induction l generalizing s with
  | nil => exact ⟨id, id⟩
  | cons e l ih =>
    obtain ⟨rfl, hl⟩ := List.forall_mem_cons.mp hp
    obtain ⟨hsel, hst⟩ := stepOf_markEntry_keeps h (e := e) f
    obtain ⟨hsels, hsts⟩ := ih (markEntry_steps_sorted h e) hl
    exact ⟨hsels ∘ hsel, hsts ∘ hst⟩

/-- The step of every entry of a group of one program has that program, and status 0x03 where the monitor had switched
the entry (02 R54, R55). -/
theorem stepOf_forEach_markEntry (h : MapSorted s.steps) (hp : ∀ x ∈ l, x.program = p) :
    ∀ x ∈ l, (stepOf (forEach l markEntry s) x.future).selector = p ∧
      (x.switched = true → (stepOf (forEach l markEntry s) x.future).status = 3) := by
  induction l generalizing s with
  | nil => simp
  | cons e l ih =>
    obtain ⟨rfl, hl⟩ := List.forall_mem_cons.mp hp
    have hmarked := markEntry_steps_sorted h e
    obtain ⟨hsel, hst⟩ := forEach_markEntry_keeps hmarked hl e.future
    rw [stepOf_markEntry_same h] at hsel hst
    refine List.forall_mem_cons.mpr ⟨⟨hsel rfl, fun hx => hst ?_⟩, ih hmarked hl⟩
    simp [hx]

theorem forEach_markEntry_gangs : (forEach l markEntry s).gangs = s.gangs :=
  forEach_keeps (P := fun t : State => t.gangs = s.gangs) (fun _ _ h => h) rfl

theorem forEach_markEntry_ponds : (forEach l markEntry s).ponds = s.ponds :=
  forEach_keeps (P := fun t : State => t.ponds = s.ponds) (fun _ _ h => h) rfl

end

/-! ## What a fetch leaves as it is -/

/-- The gangs, the steps and the programs that the ponds hold are the same. -/
structure ServesAlike (s t : State) : Prop where
  gangs : t.gangs = s.gangs
  steps : t.steps = s.steps
  sorted : MapSorted s.ponds → MapSorted t.ponds
  image : MapSorted s.ponds → ∀ ph n, imageOn t ph n = imageOn s ph n

namespace ServesAlike
variable {a s t : State}

theorem refl (s : State) : ServesAlike s s := ⟨rfl, rfl, id, fun _ _ _ => rfl⟩

theorem trans (h : ServesAlike a s) (k : ServesAlike s t) : ServesAlike a t :=
  ⟨k.gangs.trans h.gangs, k.steps.trans h.steps, k.sorted ∘ h.sorted,
    fun hs ph n => (k.image (h.sorted hs) ph n).trans (h.image hs ph n)⟩

theorem of_eq (h : ServesAlike a s) (hg : t.gangs = s.gangs) (hs : t.steps = s.steps) (hp : t.ponds = s.ponds) :
    ServesAlike a t :=
  h.trans ⟨hg, hs, fun k => hp ▸ k, fun _ ph n => by rw [imageOn, imageOn, pondOf, pondOf, hp]⟩

theorem ite {c : Prop} [Decidable c] (h : ServesAlike a s) (k : ServesAlike a t) :
    ServesAlike a (if c then s else t) := by
  split <;> assumption

theorem gangOf (h : ServesAlike s t) (g : Nat) : gangOf t g = Machine.gangOf s g := by
  rw [Machine.gangOf, Machine.gangOf, h.gangs]

theorem stepOf (h : ServesAlike s t) (f : Nat) : stepOf t f = Machine.stepOf s f := by
  rw [Machine.stepOf, Machine.stepOf, h.steps]

/-- A change of a pond that leaves its programs. -/
theorem modPond (h : ServesAlike a s) (ph : Nat) {f : Pond → Pond}
    (hf : ∀ pd, activePrograms (f pd) = activePrograms pd) :
    ServesAlike a (modPond s ph f) := by
  refine h.trans ⟨rfl, rfl, fun hs => modPond_ponds_sorted hs ph f, fun hs j n => ?_⟩
  by_cases hj : j = ph
  · subst hj
    simp [imageOn, residentOf, pondOf_modPond_same hs, hf]
  · simp [imageOn, pondOf_modPond_other hs ph f hj]

theorem setDir (h : ServesAlike a s) (n : Nat) (r : DirRecord) : ServesAlike a (setDir s n r) :=
  h.of_eq rfl rfl rfl

theorem writeByte (h : ServesAlike a s) (uda : Nat) (b : Byte) : ServesAlike a (writeByte s uda b) := by
  unfold Machine.writeByte
  exact ite (h.setDir _ _) (h.of_eq rfl rfl rfl)

theorem writeBytes (h : ServesAlike a s) (uda : Nat) (bs : List Byte) : ServesAlike a (writeBytes s uda bs) := by
  induction bs generalizing s uda with
  | nil => exact h
  | cons b bs ih => exact ih (h.writeByte uda b) (uda + 1)

theorem mirrorWrite (h : ServesAlike a s) (uda n : Nat) : ServesAlike a (mirrorWrite uda n s) :=
  forEach_keeps (P := ServesAlike a) (fun _ _ k => k.of_eq rfl rfl rfl) h

theorem deviceWrite (h : ServesAlike a s) (uda : Nat) (bs : List Byte) : ServesAlike a (deviceWrite s uda bs) :=
  ite h (ite ((h.mirrorWrite uda bs.length).writeBytes uda bs) h)

theorem trace (h : ServesAlike a s) (ph code tag cls data : Nat) (fault : Bool) :
    ServesAlike a (trace ph code tag cls data fault s) := by
  unfold Machine.trace
  split
  · exact h
  · refine ite (h.of_eq rfl rfl rfl) (ite (h.of_eq rfl rfl rfl) (modPond ?_ ph fun _ => rfl))
    exact (h.deviceWrite _ _).of_eq rfl rfl rfl

theorem traceInfo (h : ServesAlike a s) (ph code enable tag cls data : Nat) (program : Option Nat) :
    ServesAlike a (traceInfo ph code enable tag cls data program s) :=
  ite h (ite h (h.trace ph code tag cls data false))

end ServesAlike

/-! ## The section that the members start -/

/-- A fetched group is marked and traced, and its program has run on the gang in the tick (06 R174). -/
def noteFetch (g : Nat) (e : WorkEntry) (es : List WorkEntry) (u : State) : State :=
  let ph := physOf u g
  let s := markFetched g (e :: es) u
  modCore (traceInfo ph 0x0001 0 0 0
    (groupIndex (gangOf s g) e % 2 ^ 16 + (es.length + 1) * 2 ^ 16 + e.future * 2 ^ 32) none s) ph
    fun k => { k with ran := if e.program ∉ (pondOf u ph).core.ran then e.program :: k.ran else k.ran }

/-- The members of a gang are made ready for a program, which a member may lack (03 Table MTX-9). -/
def readyMembers (g program : Nat) (s : State) : State :=
  let s := if (gangMembers s g).any fun l => (residentOf (pondOf s (physOf s l)) program).isNone then
    addObj s (key 0x2601 0xA) 1 else s
  forEach (gangMembers s g) (fun l s => modPond s (physOf s l) forgetWeights) s

/-- The section that a fetched group starts: `image` is the program's, `fresh` that it has not run on the gang in the tick
(06 R174). -/
def fetchKind (fresh : Prop) [Decidable fresh] (carried : Bool) (image : Option Image) : SectionKind :=
  if (match image with
    | some i => decide fresh && !carried && decide (i.prologue ≠ 0xFFFF)
    | none => false) then .prologue else .step

theorem noteFetch_servesAlike (g : Nat) (e : WorkEntry) (es : List WorkEntry) (u : State) :
    ServesAlike (markFetched g (e :: es) u) (noteFetch g e es u) := by
  unfold noteFetch modCore
  exact ((ServesAlike.refl _).traceInfo _ _ _ _ _ _ _).modPond _ fun _ => rfl

theorem readyMembers_servesAlike (g program : Nat) (s : State) : ServesAlike s (readyMembers g program s) :=
  forEach_keeps (P := ServesAlike s) (fun _ _ k => k.modPond _ fun _ => rfl)
    (.ite ((ServesAlike.refl s).of_eq rfl rfl rfl) (.refl s))

theorem fetchKind_eq_prologue_iff {fresh : Prop} [Decidable fresh] {carried : Bool} {image : Option Image} :
    fetchKind fresh carried image = .prologue ↔
      fresh ∧ carried = false ∧ ∃ i, image = some i ∧ i.prologue ≠ 0xFFFF := by
  cases image <;> simp [fetchKind, and_assoc]

theorem fetchKind_cases (fresh : Prop) [Decidable fresh] (carried : Bool) (image : Option Image) :
    fetchKind fresh carried image = .prologue ∨ fetchKind fresh carried image = .step :=
  ite_eq_or_eq _ _ _

/-- A fetch that finds a group notes it and starts one section on every member of the gang. -/
theorem exec_groupFetch_some {s u : State} {g t : Nat} {e : WorkEntry} {es : List WorkEntry} (hg : g < logicalCount s)
    (hmay : mayFetchGroup s g = true) (hu : skipDropped g (advanceTo s t) = u)
    (hgroup : groupAt u (gangOf u g) = e :: es) :
    exec (.groupFetch g t) s = .next (
      let w := noteFetch g e es u
      let v := readyMembers g e.program w
      let kind := fetchKind (e.program ∉ (pondOf u (physOf u g)).core.ran) (gangOf w g).carryRunning
        (imageOn w (physOf u g) e.program)
      forEach (gangMembers v g) (fun l x => startMember g l kind x) v) := by
  change execGroupFetch g t s = _
  simp only [execGroupFetch, hg, hmay, hu, hgroup]
  rfl

/-- The gang and the ponds' programs as a fetched group leaves them. -/
theorem markFetched_frame {u : State} (h : MapSorted u.gangs) (g : Nat) (group : List WorkEntry) :
    (gangOf (markFetched g group u) g).group = group ∧ (markFetched g group u).ponds = u.ponds := by
  rw [markFetched_eq]
  refine ⟨?_, forEach_markEntry_ponds⟩
  rw [gangOf, forEach_markEntry_gangs, ← gangOf, gangOf_setGang_same h, fetched_group]

/-- Settles O19: the group is the run that `groupAt` gives, and from its marks on nothing but the sections that start touches
the gang, the steps or the ponds' programs (`ServesAlike`). -/
theorem groupFetched : Obligations.GroupFetched := by
  unfold Obligations.GroupFetched
  intro s u g t e es hg hs hmay hu hgroup
  have hcanon : Canonical u := by
    rw [← hu]
    exact (skipDropped_keeps (advanceTo_keeps (Keeps.refl s))).canonical hs
  obtain ⟨hmarked, hponds⟩ := markFetched_frame hcanon.gangs g (e :: es)
  have hsteps := stepOf_forEach_markEntry (l := e :: es) (p := e.program)
    (s := setGang u g (fetched (gangOf u g) (e :: es) u.now)) hcanon.steps
    (List.forall_mem_cons.mpr ⟨rfl, fun x hx => (groupAt_same hgroup x hx).1⟩)
  have hw := noteFetch_servesAlike g e es u
  have hv := readyMembers_servesAlike g e.program (noteFetch g e es u)
  have himage : imageOn (noteFetch g e es u) (physOf u g) e.program = imageOn u (physOf u g) e.program := by
    rw [hw.image (by rw [hponds]; exact hcanon.ponds), imageOn, pondOf, hponds]
    rfl
  refine ⟨groupAt_same hgroup, groupAt_length hgroup, groupAt_prefix hgroup, _, _,
    exec_groupFetch_some hg hmay hu hgroup, ?group, ?steps, ?kind, fetchKind_cases _ _ _⟩
  case group => rw [(hw.trans hv).gangOf, hmarked]
  case steps =>
    intro x hx
    rw [(hw.trans hv).stepOf, markFetched_eq]
    obtain ⟨hsel, hst⟩ := hsteps x hx
    refine ⟨hsel.trans ?_, hst⟩
    rcases List.mem_cons.mp hx with rfl | hx
    · rfl
    · exact (groupAt_same hgroup x hx).1.symm
  case kind => rw [fetchKind_eq_prologue_iff, hv.gangOf, himage]

end Sys2Proof
end

section
/-! A command at the head of its queue starts, and the starts of the matrix array, the reductions and the window reducer
(03 R61, R80; 04 R96, R99, R109, R113; 06 R152, R153). -/

namespace Sys2Proof

open Machine Safety

/-! ## The start of a command at the head of its queue (06 R152, R153) -/

/-- The pond asks for the expander for the command that it starts, if the command needs it (04 R96). -/
def askExpander (q : Queued) (r : Started) (pd : Pond) : Pond :=
  if r.expander then requestExpander pd.nextId (classOf q.cmd) pd else pd

/-- The pond with the records of a command that starts: who asks for the expander, which engines are active, and the
running commands (06 R152, 04 R96, R120). -/
def recordStart (now : Nat) (q : Queued) (r : Started) (pd : Pond) : Pond :=
  let pd := markBusy now (classOf q.cmd) pd.nextId (askExpander q r pd)
  { pd with
    nextId := pd.nextId + 1,
    running := pd.running ++
      [{ id := pd.nextId, cmd := q.cmd, program := q.program, started := now, arrival := r.arrival,
         epochReads := r.epochReads, waits := r.waits, number := q.number }] }

/-- Only the activity of engines is noted (04 R120). -/
theorem markBusy_eq (now cls id : Nat) (pd : Pond) : ∃ b, markBusy now cls id pd = { pd with busySince := b } := by
  unfold markBusy
  dsimp only
  split <;> exact ⟨_, rfl⟩

/-- Only who holds the expander and who waits for it changes, and that only for a command that needs it. -/
theorem askExpander_eq (q : Queued) (r : Started) (pd : Pond) :
    ∃ x, askExpander q r pd = { pd with expanders := x } ∧ (r.expander = false → x = pd.expanders) := by
  unfold askExpander requestExpander
  split
  case isTrue h => split <;> exact ⟨_, rfl, fun hr => by simp [h] at hr⟩
  case isFalse => exact ⟨_, rfl, fun _ => rfl⟩

theorem pondOf_ownWrites (ph id n : Nat) (s : State) (i : Nat) : pondOf (ownWrites ph id n s) i = pondOf s i := by
  unfold ownWrites
  split <;> rfl

theorem takesOp_of_opcode {op : Nat} {c : Cmd} (h : opcodeOf c = op) : takesOp op c = true := by
  simp [takesOp, h]

theorem waitsRefetch_nil (s : State) : waitsRefetch s [] = false := by
  simp [waitsRefetch, unitPoisoned, tier2Waits, channelWait, unitExtents]

section
variable {s u : State} {p ph cls op own : Nat} {q : Queued} {rest : List Queued} {r : Started}
  {ready valid : State → Nat → Queued → Bool} {effect : Nat → Queued → State → Started}
  {reads : State → Nat → Queued → List Run}

/-- An effect with the records of its command is a start. -/
theorem starts_recordStart (u : State) (ph : Nat) (q : Queued) (r : Started) :
    Starts u (modPond (ownWrites ph (pondOf r.state ph).nextId u.host.waiting.length r.state) ph
      (recordStart u.now q r)) ph q r := by
  obtain ⟨x, hask, hkeep⟩ := askExpander_eq q r (pondOf r.state ph)
  obtain ⟨b, hbusy⟩ := markBusy_eq u.now (classOf q.cmd) (pondOf r.state ph).nextId
    { pondOf r.state ph with expanders := x }
  refine ⟨recordStart u.now q r (pondOf r.state ph), ?_, ?_⟩
  · rw [modPond, pondOf_ownWrites]
  · simp only [recordStart, hask, hbusy]
    exact ⟨trivial, hkeep, trivial, trivial⟩

/-- A start whose effect takes no error exit is that effect with the records of its command. -/
theorem startQueued_starts (hu : dequeued ph q rest s = u) (hr : effect ph q u = r) (hcause : r.cause = none) :
    Starts u (startQueued ph q rest effect (countWait q.waiting s)) ph q r := by
  have hrun : startQueued ph q rest effect (countWait q.waiting s) =
      modPond (ownWrites ph (pondOf r.state ph).nextId u.host.waiting.length r.state) ph (recordStart u.now q r) := by
    subst hr hu
    simp only [dequeued] at hcause
    simp only [startQueued, hcause]
    rfl
  rw [hrun]
  exact starts_recordStart u ph q r

/-- The head of a queue starts once its engine is ready, its reads wait for nothing and it is legal. -/
theorem onHead_starts (h : AtHead s p ph cls q rest) (hop : opcodeOf q.cmd = op) (hready : ready s ph q = true)
    (hlegal : op ∈ legalOpcodes cls) (hvalid : valid s ph q = true)
    (hr : effect ph q (dequeued ph q rest s) = r) (hcause : r.cause = none)
    (hreads : waitsRefetch s (reads s ph q) = false) :
    ∃ t, onHead p cls op own s ready valid effect reads = .next t ∧ Starts (dequeued ph q rest s) t ph q r := by
  obtain ⟨⟨hp, hph, hpresent⟩, hqueue, hwait, hfree, hgrant⟩ := h
  subst hph
  refine ⟨_, ?_, startQueued_starts rfl hr hcause⟩
  rw [onHead, onHeadIf, onPond_mapped hp hpresent]
  simp [hqueue, takesOp_of_opcode hop, hwait, hfree, hready, hreads, hop, hlegal, hvalid, hgrant]

end

/-! ## MMA and WLOAD (03 R61, R80; 04 R109) -/

section
variable {s : State} {p ph : Nat} {q : Queued} {rest : List Queued}

/-- An MMA that no tap holds has no hold to note. -/
theorem noteHold_of_ready (hqueue : queueOf (pondOf s ph) 0x1 = q :: rest) (hready : mmaReady s ph q = true) :
    noteHold ph s = s := by
  simp [noteHold, hqueue, hready]

theorem exec_mma_starts (h : AtHead s p ph 0x1 q rest) (hop : opcodeOf q.cmd = 1) (hready : mmaReady s ph q = true)
    (hvalid : mmaLegal (pondOf s ph) q.cmd = true) :
    ∃ t, exec (.mma p) s = .next t ∧ Starts (dequeued ph q rest s) t ph q
      { ran (runMma p ph q (countHold ph (dequeued ph q rest s))) with expander := true } := by
  change ∃ t, execMma p s = .next t ∧ _
  rw [execMma, h.mapped, noteHold_of_ready h.queue hready]
  exact onHead_starts h hop hready (by decide) hvalid rfl rfl (waitsRefetch_nil s)

theorem exec_wload_starts (h : AtHead s p ph 0x1 q rest) (hop : opcodeOf q.cmd = 2)
    (hvalid : wloadLegal (pondOf s ph) q.cmd = true) :
    ∃ t, exec (.wload p) s = .next t ∧
      Starts (dequeued ph q rest s) t ph q (ran (bringWeights ph q false (dequeued ph q rest s))) := by
  change ∃ t, execWload p s = .next t ∧ _
  exact onHead_starts h hop rfl (by decide) hvalid rfl rfl (waitsRefetch_nil s)

end

/-! ## Reductions and the window reducer (04 R99, R113) -/

section
variable {s : State} {p ph : Nat} {q : Queued} {rest : List Queued}

theorem exec_rrow_starts (h : AtHead s p ph 0x2 q rest) (hop : opcodeOf q.cmd = 0x20)
    (hvalid : vecLegal q.cmd = true) :
    ∃ t, exec (.rrow p) s = .next t ∧ Starts (dequeued ph q rest s) t ph q
      (vecStart q.cmd (forUpTo (vecRows q.cmd) (rrowRow p ph q.cmd) (dequeued ph q rest s))) := by
  change ∃ t, execRrow p s = .next t ∧ _
  exact onHead_starts h hop rfl (by decide) hvalid rfl rfl (waitsRefetch_nil s)

theorem exec_pool_starts (h : AtHead s p ph 0x7 q rest) (hop : opcodeOf q.cmd = 0x01)
    (hvalid : poolLegal q.cmd = true) :
    ∃ t, exec (.pool p) s = .next t ∧ Starts (dequeued ph q rest s) t ph q
      { ran (forUpTo (poolHo q.cmd * poolWo q.cmd) (poolPosition ph q.cmd)
          (addObj (dequeued ph q rest s) (key 0x2403 1) 1)) with
        expander := decide ((poolSrc q.cmd).sel = 3) } := by
  change ∃ t, execPool p s = .next t ∧ _
  exact onHead_starts h hop rfl (by decide) hvalid rfl rfl (waitsRefetch_nil s)

end

/-- A sweep that reduces its rows and collects their decoded blocks does the two apart. -/
theorem foldl_rcolStep (r : Rounding) (func : Nat) (row : Nat → List F32 × Option Decoded) (js : List Nat)
    (start : Option (List F32)) (ds : List Decoded) :
    js.foldl (fun (a : Option (List F32) × List Decoded) j =>
        (some (rcolStep r func j a.1 (row j).1), a.2 ++ (row j).2.toList)) (start, ds) =
      (js.foldl (fun a j => some (rcolStep r func j a (row j).1)) start, ds ++ js.flatMap fun j => (row j).2.toList) := by
  induction js generalizing start ds with
  | nil => simp
  | cons j js ih => simp [ih]

/-- Settles O31: every command is a head that starts (`onHead_starts`); RCOL's sweep is taken apart into its sums and its
decoded blocks. -/
theorem matrixCommands : Obligations.MatrixCommands := by
  unfold Obligations.MatrixCommands
  refine ⟨fun s p ph q rest h => ⟨exec_mma_starts h, exec_wload_starts h⟩,
    fun s p ph cls q rest h => ⟨?rrow, ?rcol, ?pool⟩⟩
  case rrow =>
    rintro rfl
    exact exec_rrow_starts h
  case rcol =>
    rintro rfl hop hvalid
    change ∃ t, execRcol p s = .next t ∧ _
    refine onHead_starts h hop rfl (by decide) hvalid ?_ rfl (waitsRefetch_nil s)
    dsimp only
    rw [foldl_rcolStep, List.nil_append]
  case pool =>
    rintro rfl
    exact exec_pool_starts h

end Sys2Proof
end

section
/-! The element-wise vector commands and functions, and the commands of the gate pipeline, start with their effect; one
lane of a row, the limits of a function, and one lane of a state update (04 R91, R97, R98, R105, R107, R108; 08 R233, R238,
R241, R243, R244). -/

namespace Sys2Proof

open Machine Safety

/-- A row that is given lane by lane has these lanes. -/
theorem getD_map_range {α : Type} (f : Nat → α) {n i : Nat} (hi : i < n) (d : α) :
    ((List.range n).map f).getD i d = f i := by
  simp [hi]

/-! ## Element-wise commands and functions (04 R97, Table VEC-4) -/

section
variable {s : State} {p ph : Nat} {q : Queued} {rest : List Queued}

theorem vectorOp_starts {op : Nat} (h : AtHead s p ph 0x2 q rest) (hvalid : vecLegal q.cmd = true)
    (hlegal : op ∈ legalOpcodes 0x2) (hop : opcodeOf q.cmd = op) (f : Nat → F32 → F32 → F32 → F32) :
    ∃ t, vectorOp p op f s = .next t ∧ Starts (dequeued ph q rest s) t ph q
      (vecStart q.cmd (forUpTo (vecRows q.cmd) (vecRow p ph q.cmd (f (vecFunc q.cmd))) (dequeued ph q rest s))) :=
  onHead_starts h hop rfl hlegal hvalid rfl rfl (waitsRefetch_nil s)

end

theorem exec_vectorRows : ∀ row ∈ vectorRows, ∀ p s, exec (row.1 p) s = vectorOp p row.2.1 row.2.2 s := by
  intro row hrow p s
  fin_cases hrow <;> rfl

theorem exec_functionRows : ∀ row ∈ functionRows, ∀ p s,
    exec (row.1 p) s = vectorOp p row.2.1 (fun _ a _ _ => vecFn row.2.1 row.2.2 a) s := by
  intro row hrow p s
  fin_cases hrow <;> rfl

theorem vectorRows_legal : ∀ row ∈ vectorRows, row.2.1 ∈ legalOpcodes 0x2 := by decide

theorem functionRows_legal : ∀ row ∈ functionRows, row.2.1 ∈ legalOpcodes 0x2 := by decide

/-! ## NaNs and limits (04 R98) -/

theorem isNan_iff (x : Fl) : isNan x = true ↔ x = .nan := by
  cases x <;> simp [isNan]

theorem isZero_iff (x : Fl) : isZero x = true ↔ ∃ n e, x = .num n 0 e := by
  cases x <;> simp [isZero]

theorem canon32_of_isNan {x : F32} (h : isNan (flOf32 x) = true) : canon32 x = 0x7FC00000 := if_pos h

theorem canon32_of_not_isNan {x : F32} (h : isNan (flOf32 x) = false) : canon32 x = x := by
  simp [canon32, h]

theorem flOf32_posInf32 : flOf32 posInf32 = .inf false := by decide

theorem flOf32_negInf32 : flOf32 negInf32 = .inf true := by decide

section
variable {inside : F32 → F32} {e : FnEdges} {a : F32}

theorem edgeFn_nan (h : isNan (flOf32 a) = true) : edgeFn inside e a = 0x7FC00000 := by
  rw [edgeFn, (isNan_iff _).mp h]

theorem edgeFn_inf {neg : Bool} (h : flOf32 a = .inf neg) :
    edgeFn inside e a = if neg then e.atNegInf else e.atPosInf := by
  rw [edgeFn, h]

theorem edgeFn_zero {w : F32} (h : isZero (flOf32 a) = true) (hw : e.atZero a = some w) : edgeFn inside e a = w := by
  obtain ⟨n, x, hx⟩ := (isZero_iff _).mp h
  simp [edgeFn, hx, hw]

/-- A negative argument of a function that is not defined there gives NaN. -/
theorem edgeFn_negative {m : Nat} {x : Int} (hdom : e.negative = true) (h : flOf32 a = .num true m x) (hm : m ≠ 0) :
    edgeFn inside e a = 0x7FC00000 := by
  simp [edgeFn, h, hm, hdom]

end

/-- Settles O32: every command is a `vectorOp`, which starts as the head of its queue; the limits are the cases of
`edgeFn`, whatever the function. -/
theorem vectorCommands : Obligations.VectorCommands := by
  unfold Obligations.VectorCommands
  refine ⟨fun s p ph q rest h hvalid => ⟨?commands, ?functions⟩, ?lanes,
    fun x => ⟨canon32_of_isNan, canon32_of_not_isNan, fun row _ => ⟨edgeFn_nan, edgeFn_inf flOf32_posInf32,
      edgeFn_inf flOf32_negInf32, fun _ => edgeFn_zero, fun _ _ => edgeFn_negative⟩⟩⟩
  case commands =>
    intro row hrow hop
    rw [exec_vectorRows row hrow]
    exact vectorOp_starts h hvalid (vectorRows_legal row hrow) hop row.2.2
  case functions =>
    intro row hrow hop
    rw [exec_functionRows row hrow]
    exact vectorOp_starts h hvalid (functionRows_legal row hrow) hop _
  case lanes =>
    intro l ph j c f s
    exact ⟨_, rfl, (List.length_map _).trans List.length_range, fun i hi => getD_map_range _ hi 0⟩

/-! ## The commands of the gate pipeline (04 R105, R108; 08 R237 to R244) -/

section
variable {s : State} {p ph : Nat} {q : Queued} {rest : List Queued}

theorem gateReady_of_no_tap (htap : (pondOf s ph).tap = none) : gateReady s ph q = true := by
  simp [gateReady, htap]

/-- A legal command of the gate queue starts while no tap is armed. -/
theorem onHead_gate_starts {op own : Nat} {valid : Cmd → Bool} {effect : Nat → Queued → State → Started} {v : State}
    (h : AtHead s p ph 0x3 q rest) (htap : (pondOf s ph).tap = none) (hop : opcodeOf q.cmd = op)
    (hlegal : op ∈ legalOpcodes 0x3) (hvalid : valid q.cmd = true)
    (heffect : effect ph q (dequeued ph q rest s) = ran v) :
    ∃ t, onHead p 0x3 op own s gateReady (fun _ _ q => valid q.cmd) effect = .next t ∧
      Starts (dequeued ph q rest s) t ph q (ran v) :=
  onHead_starts h hop (gateReady_of_no_tap htap) hlegal hvalid heffect rfl (waitsRefetch_nil s)

end

/-! ## One lane of a state update (04 R107, 08 R233) -/

section
variable (comp : Bool) (form : Nat) (as vs hs cs : List F32) {i : Nat}

/-- A marked row takes its new value exactly, with a compensation of +0. -/
theorem updateRow_marked (hi : i < 256) :
    (updateRow comp form true as vs hs cs).1.getD i 0 = canon32 (vs.getD i 0) ∧
      (updateRow comp form true as vs hs cs).2.getD i 0 = 0 := by
  simp only [updateRow, List.map_map]
  exact ⟨getD_map_range _ hi 0, getD_map_range _ hi 0⟩

/-- An unmarked plain row is one fused multiply-add. -/
theorem updateRow_plain (hi : i < 256) :
    (updateRow false form false as vs hs cs).1.getD i 0 =
      fma32 (as.getD i 0) (hs.getD i 0) (formTerm form (as.getD i 0) (vs.getD i 0)) := by
  simp only [updateRow, List.map_map]
  exact getD_map_range _ hi 0

end

/-- Settles O33: every command is a head of the gate queue that starts (`onHead_gate_starts`); a tap or a sweep is chosen
before the start or in its effect alike. -/
theorem gateCommands : Obligations.GateCommands := by
  unfold Obligations.GateCommands
  refine ⟨fun s p ph q rest h htap => ⟨?gate, ?sstep, ?scan, ?sfix⟩,
    fun comp form i as vs hs cs hi => ⟨updateRow_marked comp form as vs hs cs hi, updateRow_plain form as vs hs cs hi⟩⟩
  case gate =>
    intro hop hvalid
    change ∃ t, execGate p s = .next t ∧ _
    exact onHead_gate_starts h htap hop (by decide) hvalid (apply_ite ran _ _ _).symm
  case sstep =>
    intro hop hvalid
    change ∃ t, execSstep p s = .next t ∧ _
    exact onHead_gate_starts h htap hop (by decide) hvalid (apply_ite ran _ _ _).symm
  case scan =>
    intro hop hvalid
    change ∃ t, execScan p s = .next t ∧ _
    exact onHead_gate_starts h htap hop (by decide) hvalid (apply_ite ran _ _ _).symm
  case sfix =>
    intro hop hvalid
    change ∃ t, execSfix p s = .next t ∧ _
    exact onHead_gate_starts h htap hop (by decide) hvalid rfl

end Sys2Proof
end

section
/-! What power-up leaves: every table is empty, so every unit reads as its reset value (06 Table CMD-1, 05 R130,
07 R207, 10 R285, 14 R393). -/

namespace Sys2Proof

open Machine Safety

/-- After power-up no table lists an entry. -/
theorem reset_canonical : Canonical State.reset where
  mem := rfl
  dict := .nil
  inForce := .nil
  copies := .nil
  tree := .nil
  gangs := .nil
  steps := .nil
  ponds := .nil
  programs := .nil
  futures := .nil
  extents := .nil
  objects := .nil

theorem pondOf_reset (i : Nat) : pondOf State.reset i = Pond.reset := rfl

theorem futureOf_reset (i : Nat) : futureOf State.reset i = Future.free := rfl

theorem extentOf_reset (i : Nat) : extentOf State.reset i = Extent.unmapped := rfl

/-- An object that was never written reads its default (14 R374). -/
theorem getObj_reset (k : Nat) : getObj State.reset k = objDefault k := rfl

/-- The device has no owner (14 R393). -/
theorem ownerOf_reset : ownerOf State.reset = 0 := by
  rw [ownerOf, getObj_reset]
  decide

/-- The debug port starts at level 0, with the fuse whole (16 R452). -/
theorem debugFuse_reset : DebugFuse State.reset := fun _ => rfl

/-- Settles O7: the tables are empty, so a pond, a future or an extent reads as its reset value. -/
theorem resetState : Obligations.ResetState := by
  unfold Obligations.ResetState
  refine ⟨reset_canonical, debugFuse_reset, rfl, rfl, ownerOf_reset, rfl, fun i => ?_⟩
  rw [pondOf_reset, futureOf_reset, extentOf_reset]
  exact ⟨rfl, rfl, rfl, rfl, rfl, rfl⟩

end Sys2Proof
end

section
/-! TLOAD starts with its effect, and what the load of one table leaves (05 R130, R131, R146). -/

namespace Sys2Proof

open Machine Safety

/-! ## TLOAD (05 R146) -/

/-- A legal TLOAD starts while its class is idle and no slot that it reads is under re-fetch. -/
theorem exec_tload_starts {s : State} {p ph : Nat} {q : Queued} {rest : List Queued} (h : AtHead s p ph 0x5 q rest)
    (hop : opcodeOf q.cmd = 0x01) (hidle : classIdle (pondOf s ph) 0x5 = true) (hvalid : tloadLegal q.cmd = true)
    (hreads : waitsRefetch s [(tableSlot p (tloadFirst q.cmd), 1024 * tloadCount q.cmd)] = false) :
    ∃ t, exec (.tload p) s = .next t ∧ Starts (dequeued ph q rest s) t ph q
      (ran (loadTables p ph ((List.range (tloadCount q.cmd)).map (tloadFirst q.cmd + ·)) (dequeued ph q rest s))) := by
  change ∃ t, execTload p s = .next t ∧ _
  exact onHead_starts h hop hidle (by decide) hvalid rfl rfl hreads

/-! ## One table number (05 R130, R131) -/

section
variable (l ph n : Nat) (tb : Table) (s : State)

/-- The pond with the value `tb` at table number `n`. -/
def withTable (pd : Pond) : Pond := { pd with tables := mapPut Table.invalid pd.tables n tb }

/-- Table number `n` of a pond takes the value `tb`, and the chip's record of its valid tables follows. -/
def putTable : State := noteTable l n tb.valid (modPond s ph (withTable n tb))

@[simp] theorem pondOf_putTable (i : Nat) :
    pondOf (putTable l ph n tb s) i = pondOf (modPond s ph (withTable n tb)) i := rfl

@[simp] theorem putTable_mem : (putTable l ph n tb s).mem = s.mem := rfl

@[simp] theorem getObj_putTable (k : Nat) : getObj (putTable l ph n tb s) k = getObj s k := rfl

variable {s}

theorem pondOf_putTable_same (h : MapSorted s.ponds) :
    pondOf (putTable l ph n tb s) ph = withTable n tb (pondOf s ph) := by
  rw [pondOf_putTable, pondOf_modPond_same h]

theorem pondOf_putTable_other (h : MapSorted s.ponds) {i : Nat} (hi : i ≠ ph) :
    pondOf (putTable l ph n tb s) i = pondOf s i := by
  rw [pondOf_putTable, pondOf_modPond_other h ph _ hi]

end

/-! ## The load of one table (05 R130) -/

section
variable {s : State} {l ph n : Nat}

/-- The slot of a table holds an image that a load takes over. -/
def SlotLoads (s : State) (l n : Nat) : Prop :=
  unitMapped s [(tableSlot l n, 1024)] = true ∧ unservable s [(tableSlot l n, 1024)] = false ∧
    imageInvalid (readBytes s (tableSlot l n) 1024) = false

/-- The state in which a load has been counted, and an access to an unmapped slot too (10 R280). -/
def countLoad (l n : Nat) (s : State) : State :=
  if unitMapped s [(tableSlot l n, 1024)] then addObj s (key 0x2501 0xA) 1
  else unmappedAccess (addObj s (key 0x2501 0xA) 1)

@[simp] theorem unitMapped_addObj (k m : Nat) (runs : List Run) :
    unitMapped (addObj s k m) runs = unitMapped s runs := rfl

@[simp] theorem unservable_addObj (k m : Nat) (runs : List Run) :
    unservable (addObj s k m) runs = unservable s runs := rfl

/-- The test that a load makes once it is counted. -/
theorem slotFails_iff : (!unitMapped (addObj s (key 0x2501 0xA) 1) [(tableSlot l n, 1024)] ||
      unservable (addObj s (key 0x2501 0xA) 1) [(tableSlot l n, 1024)] ||
      imageInvalid (readBytes s (tableSlot l n) 1024)) = true ↔ ¬ SlotLoads s l n := by
  rw [SlotLoads, unitMapped_addObj, unservable_addObj]
  simp only [Bool.or_eq_true, Bool.not_eq_true', not_and_or, Bool.not_eq_true, Bool.not_eq_false, or_assoc]

theorem loadTable_of_loads (h : SlotLoads s l n) :
    loadTable l ph n s =
      putTable l ph n { valid := true, bytes := readBytes s (tableSlot l n) 1024 } (addObj s (key 0x2501 0xA) 1) :=
  if_neg fun hfails => slotFails_iff.mp hfails h

theorem loadTable_of_fails (h : ¬ SlotLoads s l n) :
    loadTable l ph n s =
      raise 6 (.pond ph) (addObj (putTable l ph n Table.invalid (countLoad l n s)) (key 0x2501 0xB) 1) :=
  if_pos (slotFails_iff.mpr h)

theorem countLoad_ponds : (countLoad l n s).ponds = s.ponds := by
  unfold countLoad
  split <;> rfl

theorem pondOf_countLoad (i : Nat) : pondOf (countLoad l n s) i = pondOf s i := by
  rw [pondOf, countLoad_ponds, pondOf]

theorem countLoad_dict_sorted (h : MapSorted s.dict) : MapSorted (countLoad l n s).dict := by
  unfold countLoad
  split
  · exact addObj_dict_sorted h _ _
  · exact addObj_dict_sorted (addObj_dict_sorted h _ _) _ _

/-- The count of loads rises by 1. -/
theorem countLoad_loads (h : MapSorted s.dict) :
    getObj (countLoad l n s) (key 0x2501 0xA) = getObj s (key 0x2501 0xA) + 1 := by
  unfold countLoad
  split
  · exact getObj_addObj_same h _ _
  · rw [unmappedAccess, getObj_addObj_other (addObj_dict_sorted h _ _) _ _ (by decide), getObj_addObj_same h]

/-- The count of failed loads is not touched. -/
theorem countLoad_failures (h : MapSorted s.dict) :
    getObj (countLoad l n s) (key 0x2501 0xB) = getObj s (key 0x2501 0xB) := by
  unfold countLoad
  split
  · exact getObj_addObj_other h _ _ (by decide)
  · rw [unmappedAccess, getObj_addObj_other (addObj_dict_sorted h _ _) _ _ (by decide),
      getObj_addObj_other h _ _ (by decide)]

end

/-- Settles O34: TLOAD is a head that starts (`exec_tload_starts`); a load counts and then puts the image, or no table,
at its number (`loadTable_of_loads`, `loadTable_of_fails`). That the tables are replaced when the command starts is the
model's choice (log 16); what 0x2501.0A and 0x2501.0B count is deduced (log 44). -/
theorem tableLoads : Obligations.TableLoads := by
  unfold Obligations.TableLoads
  refine ⟨fun s p ph q rest => exec_tload_starts, fun s l ph n hs => ⟨fun hgood => ?loads, fun hbad => ?fails⟩⟩
  case loads =>
    have hponds : MapSorted (addObj s (key 0x2501 0xA) 1).ponds := hs.ponds
    rw [loadTable_of_loads hgood]
    refine ⟨?_, ?_, putTable_mem l ph n _ _, fun i hi => ?_⟩
    · rw [pondOf_putTable_same l ph n _ hponds, pondOf_addObj, withTable]
    · rw [getObj_putTable, getObj_addObj_same hs.dict]
    · rw [pondOf_putTable_other l ph n _ hponds hi, pondOf_addObj]
  case fails =>
    have hponds : MapSorted (countLoad l n s).ponds := by rw [countLoad_ponds]; exact hs.ponds
    have hdict : MapSorted (putTable l ph n Table.invalid (countLoad l n s)).dict := countLoad_dict_sorted hs.dict
    refine ⟨_, loadTable_of_fails hbad, ?_, ?_, ?_⟩
    · rw [pondOf_addObj, pondOf_putTable_same l ph n _ hponds, pondOf_countLoad, withTable]
    · rw [getObj_addObj_other hdict _ _ (by decide), getObj_putTable, countLoad_loads hs.dict]
    · rw [getObj_addObj_same hdict, getObj_putTable, countLoad_failures hs.dict]

end Sys2Proof
end

section
/-! What the clocks, the trace records, the waits and the error exit of one pond leave alone: the other ponds, the
registers and the section of its program, and every byte of memory but those of its own trace ring (06 R154, R179, R188,
R189). -/

namespace Sys2Proof

open Machine Safety Laws

/-- The object on which the cells of tier 2 rest: the base of the host's window (10 Table MEM-1). -/
def windowKey : Nat := key 0x2A00 9

/-! ## Clocks (06 R152, R185; 09 R260; 10 R301) -/

/-- Nothing differs but objects at which clocks of ponds are counted. -/
structure Clocked (a s : State) : Prop where
  rest : s = { a with dict := s.dict }
  sorted : MapSorted a.dict → MapSorted s.dict
  window : MapSorted a.dict → getObj s windowKey = getObj a windowKey

namespace Clocked
variable {a s t : State}

theorem refl (s : State) : Clocked s s := ⟨rfl, id, fun _ => rfl⟩

theorem ite {c : Prop} [Decidable c] (h : Clocked a s) (k : Clocked a t) : Clocked a (if c then s else t) := by
  split <;> assumption

theorem ponds (h : Clocked a s) : s.ponds = a.ponds := by rw [h.rest]

theorem mem (h : Clocked a s) : s.mem = a.mem := by rw [h.rest]

theorem pondOf (h : Clocked a s) (i : Nat) : pondOf s i = Machine.pondOf a i := by
  rw [Machine.pondOf, h.ponds, Machine.pondOf]

theorem addObj (h : Clocked a s) {k : Nat} (n : Nat) (hk : k ≠ windowKey) : Clocked a (addObj s k n) where
  rest := by rw [h.rest]; rfl
  sorted ha := addObj_dict_sorted (h.sorted ha) _ _
  window ha := (getObj_addObj_other (h.sorted ha) _ _ hk.symm).trans (h.window ha)

theorem countWait (h : Clocked a s) (w : Option (Nat × Nat)) : Clocked a (countWait w s) := by
  unfold Machine.countWait
  split
  case h_2 => exact h
  case h_1 since n =>
    have htier (hn : n < 3) : key (0x2A10 + n) 2 ≠ windowKey := by
      unfold key windowKey key
      omega
    have hchannel : key (0x2A15 - n) 4 ≠ windowKey := by
      unfold key windowKey key
      omega
    have hstream (l st : Nat) : streamStatKey 0 l st ≠ windowKey := by
      unfold streamStatKey key windowKey key
      omega
    split
    case isTrue hn => exact h.addObj _ (htier hn)
    refine ite (h.addObj _ (by decide)) (ite (h.addObj _ hchannel) (ite (h.addObj _ (by decide))
      (ite (h.addObj _ (by decide)) ((h.addObj _ (by decide)).addObj _ (hstream _ _)))))

theorem countStalled (h : Clocked a s) (i : Nat) : Clocked a (countStalled i s) := by
  unfold Machine.countStalled
  split
  · exact h.addObj _ (by decide)
  · exact h

theorem countStall (h : Clocked a s) (i l st waited : Nat) : Clocked a (countStall l i st waited s) := by
  have hpond : key (0x4000 + i) 6 ≠ windowKey := by
    unfold key windowKey key
    omega
  have hstream : streamStatKey 0 l st ≠ windowKey := by
    unfold streamStatKey key windowKey key
    omega
  exact ite h ((h.addObj _ hpond).addObj _ hstream)

theorem countStalls (h : Clocked a s) (i : Nat) : Clocked a (countStalls i s) := by
  unfold Machine.countStalls
  split
  · exact h
  · exact forEach_keeps (P := Clocked a) (fun e _ k => k.countStall i _ e.1 e.2.waitSince) h

theorem busyCounter_ne {i k c : Nat} (h : busyCounter i k = some c) : c ≠ windowKey := by
  unfold busyCounter at h
  split at h
  · cases h
    decide
  split at h
  · cases h
    decide
  split at h
  · cases h
    unfold key windowKey key
    omega
  · cases h

theorem countBusyClk (h : Clocked a s) (i : Nat) : Clocked a (countBusyClk i s) := by
  refine forEach_keeps (P := Clocked a) (fun e t k => ?_) h
  split
  case h_1 c hc => exact ite k (k.addObj _ (busyCounter_ne hc))
  case h_2 => exact k

theorem countWaits (h : Clocked a s) (i : Nat) : Clocked a (countWaits i s) :=
  forEach_keeps (P := Clocked a) (fun q _ k => k.countWait q.waiting) (h.countWait _)

end Clocked

/-! ## The frame of what befalls one pond -/

/-- The logical number that a physical pond has, if any, is a byte (0x2101): its trace index is then an object of its own. -/
def Numbered (s : State) (ph : Nat) : Prop := ∀ l, logicalOf s ph = some l → l < 256

/-- On the way from `a` to `s` nothing has befallen another pond, the pond map, the extent map, or a byte of memory outside
the trace ring of pond `ph`. -/
structure FrameKept (ph : Nat) (a s : State) : Prop where
  canonical : Canonical s
  map : s.map = a.map
  extents : s.tiers.extents = a.tiers.extents
  window : Numbered a ph → getObj s windowKey = getObj a windowKey
  mem : Numbered a ph → MemoryKept a s ph
  ponds : ∀ i, i ≠ ph → pondOf s i = pondOf a i

namespace FrameKept
variable {ph : Nat} {a s t : State}

theorem refl (h : Canonical s) : FrameKept ph s s :=
  ⟨h, rfl, rfl, fun _ => rfl, fun _ _ _ => rfl, fun _ _ => rfl⟩

theorem logicalOf (h : FrameKept ph a s) (i : Nat) : logicalOf s i = Machine.logicalOf a i := by
  rw [Machine.logicalOf, Machine.logicalOf, h.map]

theorem numbered (h : FrameKept ph a s) (k : Numbered a ph) : Numbered s ph := fun l hl =>
  k l ((h.logicalOf ph).symm.trans hl)

/-- A byte lies in the same cell as before. -/
theorem cellOf (h : FrameKept ph a s) (k : Numbered a ph) (uda : Nat) : cellOf s uda = Machine.cellOf a uda := by
  have hwindow : getObj s (key 0x2A00 9) = getObj a (key 0x2A00 9) := h.window k
  have hextent : extentAt s uda = extentAt a uda := by
    unfold extentAt extentOf
    rw [h.extents]
  unfold Machine.cellOf physKey
  rw [hextent, hwindow]

theorem traceCell_iff (h : FrameKept ph a s) (k : Numbered a ph) (n : Nat) : TraceCell s ph n ↔ TraceCell a ph n := by
  simp only [TraceCell, h.logicalOf, h.cellOf k]

theorem trans (h : FrameKept ph a s) (k : FrameKept ph s t) : FrameKept ph a t where
  canonical := k.canonical
  map := k.map.trans h.map
  extents := k.extents.trans h.extents
  window hn := (k.window (h.numbered hn)).trans (h.window hn)
  mem hn n hcell :=
    (k.mem (h.numbered hn) n (fun hs => hcell ((h.traceCell_iff hn n).mp hs))).trans (h.mem hn n hcell)
  ponds i hi := (k.ponds i hi).trans (h.ponds i hi)

theorem ite {c : Prop} [Decidable c] (h : FrameKept ph a s) (k : FrameKept ph a t) :
    FrameKept ph a (if c then s else t) := by
  split <;> assumption

theorem setDir (h : FrameKept ph a s) (n : Nat) (r : DirRecord) : FrameKept ph a (setDir s n r) :=
  { h with canonical := (setDir_keeps (.refl s)).canonical h.canonical }

/-- A change of an object, which is not the window's base. -/
theorem setObj (h : FrameKept ph a s) {k : Nat} (v : Nat) (hk : Numbered a ph → k ≠ windowKey) :
    FrameKept ph a (setObj s k v) :=
  { h with
    canonical := (setObj_keeps (.refl s)).canonical h.canonical
    window := fun hn => (getObj_setObj_other h.canonical.dict k v (hk hn).symm).trans (h.window hn) }

theorem addObj (h : FrameKept ph a s) {k : Nat} (n : Nat) (hk : k ≠ windowKey) : FrameKept ph a (addObj s k n) :=
  h.setObj _ fun _ => hk

theorem clocked (h : FrameKept ph a s) (k : Clocked s t) : FrameKept ph a t := by
  have hsorted := k.sorted h.canonical.dict
  have hwindow := k.window h.canonical.dict
  rw [k.rest] at hwindow ⊢
  exact { h with
    canonical := { h.canonical with dict := hsorted }
    window := fun hn => hwindow.trans (h.window hn) }

theorem modPond (h : FrameKept ph a s) (f : Pond → Pond) : FrameKept ph a (modPond s ph f) :=
  { h with
    canonical := (modPond_keeps (.refl s)).canonical h.canonical
    ponds := fun i hi => (pondOf_modPond_other h.canonical.ponds ph f hi).trans (h.ponds i hi) }

theorem mirrorWrite (h : FrameKept ph a s) (uda n : Nat) : FrameKept ph a (mirrorWrite uda n s) := by
  refine forEach_keeps (P := FrameKept ph a) (fun m t k => ?_) h
  refine addObj (s := { t with fresh := _, tiers := _ }) ?_ _ (by decide)
  exact { k with canonical := ((fresh_keeps (Nat.le_succ _) (.refl t)).same).canonical k.canonical }

/-- A byte of the trace ring is written. -/
theorem writeByte (h : FrameKept ph a s) {uda : Nat} (hcell : TraceCell a ph (Machine.cellOf a uda)) (b : Byte) :
    FrameKept ph a (writeByte s uda b) := by
  unfold Machine.writeByte
  refine ite (h.setDir _ _) { h with canonical := ?_, mem := fun hn n hout => ?_ }
  · exact { h.canonical with mem := mapPut_wf _ _ _ _ h.canonical.mem }
  · have hne : n ≠ Machine.cellOf s uda := by
      rw [h.cellOf hn]
      rintro rfl
      exact hout hcell
    exact (mapFind_mapPut_other _ _ _ _ _ h.canonical.mem hne).trans (h.mem hn n hout)

theorem writeBytes {l : Nat} (hl : Machine.logicalOf a ph = some l) (bs : List Byte) {o : Nat}
    (ho : o + bs.length ≤ 131072) (h : FrameKept ph a s) : FrameKept ph a (writeBytes s (traceBase l + o) bs) := by
  induction bs generalizing s o with
  | nil => exact h
  | cons b bs ih =>
    rw [List.length_cons] at ho
    have hcell : TraceCell a ph (Machine.cellOf a (traceBase l + o)) := ⟨l, o, hl, by omega, rfl⟩
    exact ih (o := o + 1) (by omega) (h.writeByte hcell b)

theorem deviceWrite {l : Nat} (hl : Machine.logicalOf a ph = some l) (bs : List Byte) {o : Nat}
    (ho : o + bs.length ≤ 131072) (h : FrameKept ph a s) : FrameKept ph a (deviceWrite s (traceBase l + o) bs) := by
  unfold Machine.deviceWrite
  split
  · exact h
  split
  · exact writeBytes hl bs ho (h.mirrorWrite _ _)
  · exact h

end FrameKept

theorem leBytes_length (v n : Nat) : (leBytes v n).length = n := by
  induction n generalizing v with
  | zero => rfl
  | succ n ih => simp [leBytes, ih]

theorem traceBytes_length (s : State) (ph l code tag cls data : Nat) :
    (traceBytes s ph l code tag cls data).length = 32 := by
  simp [traceBytes, leBytes_length]

/-! ## What stays on the pond itself -/

/-- What identifies a section, its waits and its progress apart. -/
def sectionMark (x : Section) : SectionKind × Nat × Nat := (x.kind, x.program, x.pc)

/-- The registers of a core, and its section at its index, are the same. -/
structure RegsAlike (k k' : Core) : Prop where
  params : k'.params = k.params
  loops : k'.loops = k.loops
  comps : k'.comps = k.comps
  sect : k'.sect.map sectionMark = k.sect.map sectionMark

/-- The counters of the core are the same too, and whether its program has taken an exit (06 R180). -/
structure CoreAlike (k k' : Core) : Prop extends RegsAlike k k' where
  sync : k'.sync = k.sync
  exited : k'.exited = k.exited

theorem RegsAlike.trans {k l m : Core} (h : RegsAlike k l) (j : RegsAlike l m) : RegsAlike k m :=
  ⟨j.params.trans h.params, j.loops.trans h.loops, j.comps.trans h.comps, j.sect.trans h.sect⟩

theorem CoreAlike.refl (k : Core) : CoreAlike k k := ⟨⟨rfl, rfl, rfl, rfl⟩, rfl, rfl⟩

theorem CoreAlike.trans {k l m : Core} (h : CoreAlike k l) (j : CoreAlike l m) : CoreAlike k m :=
  ⟨h.toRegsAlike.trans j.toRegsAlike, j.sync.trans h.sync, j.exited.trans h.exited⟩

theorem RegsAlike.sect_eq {k k' : Core} (h : RegsAlike k k') {x : Section} (hx : k'.sect = some x) :
    ∃ y, k.sect = some y ∧ y.kind = x.kind ∧ y.program = x.program ∧ y.pc = x.pc := by
  have hmark := h.sect
  rw [hx] at hmark
  obtain ⟨y, hy, hxy⟩ := Option.map_eq_some_iff.mp hmark.symm
  simp only [sectionMark, Prod.mk.injEq] at hxy
  exact ⟨y, hy, hxy⟩

/-- Clocks, trace records, waits and exits of pond `ph` lead from `a` to `s`. -/
structure Aside (ph : Nat) (a s : State) : Prop extends FrameKept ph a s where
  core : CoreAlike (pondOf a ph).core (pondOf s ph).core

namespace Aside
variable {ph : Nat} {a s t : State}

theorem refl (h : Canonical s) : Aside ph s s := ⟨.refl h, .refl _⟩

theorem trans (h : Aside ph a s) (k : Aside ph s t) : Aside ph a t :=
  ⟨h.toFrameKept.trans k.toFrameKept, h.core.trans k.core⟩

theorem ite {c : Prop} [Decidable c] (h : Aside ph a s) (k : Aside ph a t) : Aside ph a (if c then s else t) := by
  split <;> assumption

theorem addObj (h : Aside ph a s) {k : Nat} (n : Nat) (hk : k ≠ windowKey) : Aside ph a (addObj s k n) :=
  ⟨h.toFrameKept.addObj n hk, h.core⟩

theorem clocked (h : Aside ph a s) (k : Clocked s t) : Aside ph a t := by
  refine ⟨h.toFrameKept.clocked k, ?_⟩
  rw [k.pondOf]
  exact h.core

theorem modPond (h : Aside ph a s) {f : Pond → Pond} (hf : CoreAlike (pondOf s ph).core (f (pondOf s ph)).core) :
    Aside ph a (modPond s ph f) := by
  refine ⟨h.toFrameKept.modPond f, ?_⟩
  rw [pondOf_modPond_same h.canonical.ponds]
  exact h.core.trans hf

/-! ## Trace records (06 R188, R189) -/

end Aside

theorem writeByte_ponds (s : State) (uda : Nat) (b : Byte) : (writeByte s uda b).ponds = s.ponds :=
  (apply_ite State.ponds _ _ _).trans (ite_self _)

theorem writeBytes_ponds (s : State) (uda : Nat) (bs : List Byte) : (writeBytes s uda bs).ponds = s.ponds := by
  induction bs generalizing s uda with
  | nil => rfl
  | cons b bs ih =>
    rw [writeBytes, ih, writeByte_ponds]

theorem mirrorInto_ponds (uda n : Nat) (m : Migration) (s : State) : (mirrorInto uda n m s).ponds = s.ponds := by
  unfold mirrorInto
  rw [addObj_ponds]

theorem mirrorWrite_ponds (uda n : Nat) (s : State) : (mirrorWrite uda n s).ponds = s.ponds :=
  forEach_keeps (P := fun t : State => t.ponds = s.ponds) (fun m t h => (mirrorInto_ponds uda n m t).trans h) rfl

@[simp] theorem deviceWrite_ponds (s : State) (uda : Nat) (bs : List Byte) :
    (deviceWrite s uda bs).ponds = s.ponds := by
  unfold deviceWrite
  split
  · rfl
  split
  · rw [writeBytes_ponds, mirrorWrite_ponds]
  · rfl

theorem pondOf_deviceWrite (s : State) (uda : Nat) (bs : List Byte) (i : Nat) :
    pondOf (deviceWrite s uda bs) i = pondOf s i := by
  rw [pondOf, deviceWrite_ponds, pondOf]

namespace Aside
variable {ph : Nat} {a s t : State}

theorem trace (h : Aside ph a s) (code tag cls data : Nat) (fault : Bool) :
    Aside ph a (trace ph code tag cls data fault s) := by
  unfold Machine.trace
  split
  · exact h
  case h_2 l hl =>
    have hring : Machine.logicalOf a ph = some l := (h.logicalOf ph).symm.trans hl
    refine ite (h.addObj _ (by decide)) (ite (h.addObj _ (by decide)) (modPond ?_ (.refl _)))
    refine ⟨((h.toFrameKept.deviceWrite hring _ ?_).setObj _ fun hn => ?_), ?_⟩
    · rw [traceBytes_length]
      omega
    · have := hn l hring
      unfold key windowKey key
      omega
    · rw [pondOf_setObj, pondOf_deviceWrite]
      exact h.core

theorem traceFault (h : Aside ph a s) (code tag cls data : Nat) : Aside ph a (traceFault ph code tag cls data s) :=
  h.trace code tag cls data true

theorem traceInfo (h : Aside ph a s) (code enable tag cls data : Nat) (program : Option Nat) :
    Aside ph a (traceInfo ph code enable tag cls data program s) :=
  ite h (ite h (h.trace code tag cls data false))

/-- Restarted clocks are those of waits. -/
theorem restartClocks_core (now : Nat) (pd : Pond) : CoreAlike pd.core (restartClocks now pd).core := by
  refine ⟨⟨rfl, rfl, rfl, ?_⟩, rfl, rfl⟩
  cases h : pd.core.sect <;> simp [restartClocks, h, sectionMark]

theorem settlePond (h : Aside ph a s) : Aside ph a (settlePond ph s) :=
  (h.clocked (((((Clocked.refl s).countStalled ph).countStalls ph).countBusyClk ph).countWaits ph)).modPond
    (restartClocks_core _ _)

end Aside

/-! ## Error exits (06 R179, R181) -/

/-- The section `sec` of a core takes an error exit when one begins: it has taken none, or handles one (06 R179, R181). -/
structure MayExit (k : Core) (sec : Section) : Prop where
  sect : k.sect = some sec
  exiting : k.exiting = none
  first : k.exited = false ∨ sec.kind = .error

/-- What an exit of section `sec` with a cause counts and traces: the commands that it discards, and itself inside an
error-exit section (06 R179 step 2, R181). -/
def noteDiscards (ph cause : Nat) (sec : Section) (s : State) : State :=
  let cs := unstartedCmds (pondOf s ph) sec.program
  let s := traceDiscards ph cause cs (addObj (settlePond ph s) (key 0x2601 7) cs.length)
  if sec.kind = .error then addObj s (key 0x2601 6) 1 else s

/-- The pond without the unstarted commands of a program that takes its exit (06 R179 steps 1 and 2). -/
def exitPond (cause tag program : Nat) (pd : Pond) : Pond :=
  let pd := dropProgram pd program
  { pd with core := { pd.core with stalled := none, exiting := some { cause := cause, tag := tag } } }

section
variable {ph cause tag : Nat} {s : State} {sec : Section}

theorem startExit_of_mayExit (h : MayExit (pondOf s ph).core sec) :
    startExit ph cause tag s = modPond (noteDiscards ph cause sec s) ph (exitPond cause tag sec.program) := by
  have hopen : ((pondOf s ph).core.exiting.isSome || ((pondOf s ph).core.exited && decide (sec.kind ≠ .error))) =
      false := by
    rcases h.first with he | he <;> simp [h.exiting, he]
  simp only [startExit, h.sect, hopen]
  rfl

theorem startExit_of_not (h : ∀ sec, ¬ MayExit (pondOf s ph).core sec) : startExit ph cause tag s = s := by
  unfold startExit
  split
  · rfl
  case h_2 sec hsect =>
    refine if_pos ?_
    by_contra hopen
    simp only [Bool.or_eq_true, Bool.and_eq_true, decide_eq_true_eq, not_or, not_and, not_not,
      Option.not_isSome_iff_eq_none] at hopen
    refine h sec ⟨hsect, hopen.1, ?_⟩
    cases he : (pondOf s ph).core.exited
    · exact .inl rfl
    · exact .inr (hopen.2 he)

theorem noteDiscards_aside (h : Canonical s) : Aside ph s (noteDiscards ph cause sec s) := by
  have hcount := (Aside.refl (ph := ph) h).settlePond.addObj (unstartedCmds (pondOf s ph) sec.program).length
    (show key 0x2601 7 ≠ windowKey by decide)
  have htraced := forEach_keeps (P := Aside ph s) (l := unstartedCmds (pondOf s ph) sec.program)
    (fun c _ k => k.traceFault 0x0010 (tagOf c) (classOf c) cause) hcount
  exact .ite (htraced.addObj _ (by decide)) htraced

theorem startExit_aside (h : Canonical s) (ph cause tag : Nat) : Aside ph s (startExit ph cause tag s) := by
  by_cases hexit : ∃ sec, MayExit (pondOf s ph).core sec
  · obtain ⟨sec, hsec⟩ := hexit
    rw [startExit_of_mayExit hsec]
    exact (noteDiscards_aside h).modPond ⟨⟨rfl, rfl, rfl, rfl⟩, rfl, rfl⟩
  · rw [startExit_of_not (not_exists.mp hexit)]
    exact .refl h

/-- The cause and the tag of an exit are held (06 R179). -/
theorem exiting_startExit (h : Canonical s) (k : MayExit (pondOf s ph).core sec) :
    (pondOf (startExit ph cause tag s) ph).core.exiting = some { cause := cause, tag := tag } := by
  rw [startExit_of_mayExit k, pondOf_modPond_same (noteDiscards_aside h).canonical.ponds]
  rfl

end

end Sys2Proof
end

section
/-! Waits take from their counter, signals add to theirs; what a signal does beside, and when the signalling program takes
its error exit (06 R153, R154). -/

namespace Sys2Proof

open Machine Safety Laws

/-! ## Waits and counters (06 R153, R154) -/

section
variable {pd : Pond} {k : Core} {c : Cmd} {n m i : Nat}

theorem getSync_setSync_same (h : MapSorted k.sync) (v : Nat) : getSync (setSync k i v) i = v :=
  mapFind_put_same _ _ _ _ h

theorem getSync_setSync_other (h : MapSorted k.sync) (v : Nat) {j : Nat} (hj : j ≠ i) :
    getSync (setSync k i v) j = getSync k j :=
  mapFind_put_other _ _ _ _ _ _ h hj

theorem takeWait_of_waits (h : waits c = true) : takeWait pd c =
    { pd with core := setSync pd.core (waitCounter c) (getSync pd.core (waitCounter c) - waitCount c) } :=
  if_pos h

theorem takeWait_of_not_waits (h : waits c = false) : takeWait pd c = pd := by
  simp [takeWait, h]

theorem waitCount_le_of_waitMet (hwaits : waits c = true) (hmet : waitMet pd c = true) :
    waitCount c ≤ getSync pd.core (waitCounter c) := by
  simpa [waitMet, hwaits] using hmet

/-- A signal adds its count, up to 65,535 (06 R154). -/
theorem signalCounter_fst : (signalCounter k n m).1 = setSync k n (min (getSync k n + m) 65535) := by
  unfold signalCounter
  dsimp only
  split
  case isTrue h => rw [min_eq_right h.le]
  case isFalse h => rw [min_eq_left (not_lt.mp h)]

theorem signalCounter_snd : (signalCounter k n m).2 = decide (65535 < getSync k n + m) := by
  unfold signalCounter
  dsimp only
  split
  case isTrue h => simp [h]
  case isFalse h => simp [h]

end

/-- Settles O25: a wait that is met is no more than its counter, so the difference adds up; a signal is
`signalCounter_fst`. -/
theorem waitsAndSignals : Obligations.WaitsAndSignals := by
  unfold Obligations.WaitsAndSignals
  intro pd k c n m i hpd hk
  refine ⟨fun hwaits hmet => ?_, takeWait_of_not_waits, ?_, ?_, fun hi => ?_⟩
  · have hle := waitCount_le_of_waitMet hwaits hmet
    rw [takeWait_of_waits hwaits]
    refine ⟨?_, getSync_setSync_other hpd _⟩
    rw [getSync_setSync_same hpd]
    exact Nat.sub_add_cancel hle
  · rw [signalCounter_fst, getSync_setSync_same hk]
  · rw [signalCounter_snd, decide_eq_true_iff]
  · rw [signalCounter_fst, getSync_setSync_other hk _ hi]

/-! ## What a signal does to its pond (06 R154; 09 R260) -/

/-- The pond after the waits on arrival counters that a signal satisfied: those of queued commands, and, when `own` is set,
that of the control command (09 R260). -/
def wokenPond (own : Bool) (pd : Pond) : Pond :=
  { pd with
    queues := mapAll [] (freeHeads pd) pd.queues
    core := if own then { pd.core with sect := pd.core.sect.map fun x => { x with waiting := none } } else pd.core }

/-- Waits that a signal has not satisfied go on; those that it has are counted and end. -/
theorem endMetWaits_cases (ph : Nat) (s : State) :
    endMetWaits ph s = s ∨ ∃ own u, endMetWaits ph s = modPond u ph (wokenPond own) ∧ Clocked s u := by
  unfold endMetWaits
  extract_lets pd met own
  have hcounted := forEach_keeps (P := Clocked s) (l := met) (fun q _ k => k.countWait q.waiting) (Clocked.refl s)
  by_cases hnone : met = [] ∧ !own
  · exact .inl (if_pos hnone)
  · exact .inr ⟨own, _, if_neg hnone, .ite (hcounted.countWait _) hcounted⟩

theorem wokenPond_core (own : Bool) (pd : Pond) : CoreAlike pd.core (wokenPond own pd).core := by
  cases own
  · exact .refl _
  · refine ⟨⟨rfl, rfl, rfl, ?_⟩, rfl, rfl⟩
    exact Option.map_map _ _ _

theorem wokenPond_exiting (own : Bool) (pd : Pond) : (wokenPond own pd).core.exiting = pd.core.exiting := by
  cases own <;> rfl

section
variable {ph c n sender mark : Nat} {s : State}

theorem endMetWaits_aside (h : Canonical s) : Aside ph s (endMetWaits ph s) := by
  obtain heq | ⟨own, u, heq, hu⟩ := endMetWaits_cases ph s
  · rw [heq]
    exact .refl h
  · rw [heq]
    exact ((Aside.refl h).clocked hu).modPond (wokenPond_core own _)

theorem endMetWaits_mem : (endMetWaits ph s).mem = s.mem := by
  obtain heq | ⟨own, u, heq, hu⟩ := endMetWaits_cases ph s
  · rw [heq]
  · rw [heq, modPond_mem, hu.mem]

/-- Waits that end take no exit. -/
theorem exiting_endMetWaits (h : Canonical s) (i : Nat) :
    (pondOf (endMetWaits ph s) i).core.exiting = (pondOf s i).core.exiting := by
  obtain heq | ⟨own, u, heq, hu⟩ := endMetWaits_cases ph s
  · rw [heq]
  · have hponds : MapSorted u.ponds := hu.ponds ▸ h.ponds
    rw [heq]
    by_cases hi : i = ph
    · rw [hi, pondOf_modPond_same hponds, wokenPond_exiting, hu.pondOf]
    · rw [pondOf_modPond_other hponds ph _ hi, hu.pondOf]

/-- A pond whose counter `c` a signal of `n` has raised (06 R154). -/
def signalled (ph c n : Nat) (s : State) : State :=
  modPond s ph fun pd => { pd with core := (signalCounter (pondOf s ph).core c n).1 }

theorem signalPond_of_fits (h : getSync (pondOf s ph).core c + n ≤ 65535) :
    signalPond ph c n sender mark s = endMetWaits ph (signalled ph c n s) := by
  have hbig : (signalCounter (pondOf s ph).core c n).2 = false := by
    rw [signalCounter_snd]
    simpa using h
  simp only [signalPond, hbig]
  rfl

/-- An overflow is counted, and takes out the signalling program if it still runs (06 R154). -/
theorem signalPond_of_overflow (h : 65535 < getSync (pondOf s ph).core c + n) :
    signalPond ph c n sender mark s =
      (let u := addObj (endMetWaits ph (signalled ph c n s)) (key 0x2601 9) 1
       if runsProgram u sender mark then startExit sender 0x03 mark u else u) := by
  have hbig : (signalCounter (pondOf s ph).core c n).2 = true := by
    rw [signalCounter_snd]
    simpa using h
  simp only [signalPond, hbig]
  rfl

theorem signalled_canonical (h : Canonical s) : Canonical (signalled ph c n s) :=
  (modPond_keeps (.refl s)).canonical h

theorem core_signalled (h : Canonical s) : (pondOf (signalled ph c n s) ph).core =
    setSync (pondOf s ph).core c (min (getSync (pondOf s ph).core c + n) 65535) := by
  rw [signalled, pondOf_modPond_same h.ponds, signalCounter_fst]

/-- A signal changes no core but for its counters. -/
theorem core_signalled_rest (h : Canonical s) (i : Nat) :
    ∃ counters, (pondOf (signalled ph c n s) i).core = { (pondOf s i).core with sync := counters } := by
  by_cases hi : i = ph
  · rw [hi, core_signalled h]
    exact ⟨_, rfl⟩
  · rw [signalled, pondOf_modPond_other h.ponds ph _ hi]
    exact ⟨_, rfl⟩

/-- What a signal does beside, waits and the exit of its own pond's program, keeps the registers (06 R154). -/
theorem signalPond_own (h : Canonical s) : FrameKept ph s (signalPond ph c n ph mark s) ∧
    RegsAlike (pondOf s ph).core (pondOf (signalPond ph c n ph mark s) ph).core := by
  have hraised : RegsAlike (pondOf s ph).core (pondOf (signalled ph c n s) ph).core := by
    obtain ⟨counters, hcore⟩ := core_signalled_rest (ph := ph) (c := c) (n := n) h ph
    rw [hcore]
    exact ⟨rfl, rfl, rfl, rfl⟩
  have haside : Aside ph (signalled ph c n s) (signalPond ph c n ph mark s) := by
    have hwoken := endMetWaits_aside (ph := ph) (signalled_canonical (ph := ph) (c := c) (n := n) h)
    by_cases hfits : getSync (pondOf s ph).core c + n ≤ 65535
    · rw [signalPond_of_fits hfits]
      exact hwoken
    · have hcounted := hwoken.addObj 1 (show key 0x2601 9 ≠ windowKey by decide)
      rw [signalPond_of_overflow (not_le.mp hfits)]
      exact .ite (hcounted.trans (startExit_aside hcounted.canonical ph _ _)) hcounted
  exact ⟨((FrameKept.refl h).modPond _).trans haside.toFrameKept, hraised.trans haside.core.toRegsAlike⟩

end

/-! ## The exit of the signalling program (06 R154) -/

/-- No core differs but for its section's waits and what its program's exit changes. -/
theorem Aside.coreAt {ph : Nat} {a s : State} (h : Aside ph a s) (i : Nat) :
    CoreAlike (pondOf a i).core (pondOf s i).core := by
  by_cases hi : i = ph
  · rw [hi]
    exact h.core
  · rw [h.ponds i hi]
    exact .refl _

section
variable {ph n m sender mark : Nat} {s : State} {sec : Section}

/-- The state in which a signal that overflows has been counted. -/
def overflowed (ph n m : Nat) (s : State) : State :=
  addObj (endMetWaits ph (signalled ph n m s)) (key 0x2601 9) 1

theorem overflowed_aside (h : Canonical s) : Aside ph (signalled ph n m s) (overflowed ph n m s) :=
  (endMetWaits_aside (signalled_canonical h)).addObj _ (by decide)

theorem exiting_signalled (h : Canonical s) (i : Nat) :
    (pondOf (signalled ph n m s) i).core.exiting = (pondOf s i).core.exiting := by
  obtain ⟨counters, hcore⟩ := core_signalled_rest (ph := ph) (c := n) (n := m) h i
  rw [hcore]

theorem exiting_woken (h : Canonical s) (i : Nat) :
    (pondOf (endMetWaits ph (signalled ph n m s)) i).core.exiting = (pondOf s i).core.exiting := by
  rw [exiting_endMetWaits (signalled_canonical h), exiting_signalled h]

theorem getSync_signalled (h : Canonical s) (hsync : MapSorted (pondOf s ph).core.sync) :
    getSync (pondOf (signalled ph n m s) ph).core n = min (getSync (pondOf s ph).core n + m) 65535 := by
  rw [core_signalled h, getSync_setSync_same hsync]

theorem CoreAlike.getSync {k k' : Core} (h : CoreAlike k k') (i : Nat) : getSync k' i = Machine.getSync k i := by
  rw [Machine.getSync, h.sync, Machine.getSync]

/-- A program that may take an exit still may once the overflow has been counted. -/
theorem mayExit_overflowed (h : Canonical s) (hmay : MayExit (pondOf s sender).core sec) :
    ∃ x, x.program = sec.program ∧ MayExit (pondOf (overflowed ph n m s) sender).core x := by
  obtain ⟨counters, hcore⟩ := core_signalled_rest (ph := ph) (c := n) (n := m) h sender
  have halike := (overflowed_aside (ph := ph) (n := n) (m := m) h).coreAt sender
  have hsect : (pondOf (signalled ph n m s) sender).core.sect = some sec := by rw [hcore]; exact hmay.sect
  have hexited : (pondOf (signalled ph n m s) sender).core.exited = (pondOf s sender).core.exited := by rw [hcore]
  have hmark := halike.sect
  rw [hsect, Option.map_some] at hmark
  obtain ⟨x, hx, hsame⟩ := Option.map_eq_some_iff.mp hmark
  simp only [sectionMark, Prod.mk.injEq] at hsame
  obtain ⟨hkind, hprogram, -⟩ := hsame
  refine ⟨x, hprogram, hx, (exiting_woken h sender).trans hmay.exiting, ?_⟩
  rw [halike.exited, hexited, hkind]
  exact hmay.first

end

/-- Settles O26: what follows the raised counter touches no counter (`CoreAlike`), and the only exit is that of the signalling
program (`signalPond_of_overflow`). -/
theorem signalOverflow : Obligations.SignalOverflow := by
  unfold Obligations.SignalOverflow
  intro s ph n m sender mark sec hs hsync
  refine ⟨fun hbig => ?overflow, fun hfits => ?fits⟩
  case overflow =>
    have hu := overflowed_aside (ph := ph) (n := n) (m := m) hs
    have ht : Aside sender (overflowed ph n m s) (signalPond ph n m sender mark s) := by
      rw [signalPond_of_overflow hbig]
      exact .ite (startExit_aside hu.canonical _ _ _) (.refl hu.canonical)
    refine ⟨?counter, fun hsect hprogram hnone hfirst => ?exits, fun i hi => ?others⟩
    case counter =>
      rw [(ht.coreAt ph).getSync, hu.core.getSync, getSync_signalled hs hsync, min_eq_right hbig.le]
    case exits =>
      obtain ⟨x, hx, hmay⟩ := mayExit_overflowed (ph := ph) (n := n) (m := m) hs ⟨hsect, hnone, hfirst⟩
      have hruns : runsProgram (overflowed ph n m s) sender mark = true := by
        simp [runsProgram, hmay.sect, hx, hprogram]
      rw [signalPond_of_overflow hbig]
      exact (congrArg (fun t => (pondOf t sender).core.exiting) (if_pos hruns)).trans
        (exiting_startExit hu.canonical hmay)
    case others =>
      rw [ht.ponds i hi]
      exact exiting_woken hs i
  case fits =>
    rw [signalPond_of_fits hfits]
    refine ⟨?_, exiting_woken hs, endMetWaits_mem⟩
    rw [(endMetWaits_aside (signalled_canonical hs)).core.getSync, getSync_signalled hs hsync, min_eq_left hfits]

end Sys2Proof
end

section
/-! The control commands: what the fetch leaves of the pond map, how a command at the fetch point executes, and what its
completion leaves (06 R153, R156, R160 to R162, R174, R181, R189). -/

namespace Sys2Proof

open Machine Safety Laws

/-! ## The fetch keeps the pond map -/

theorem writeBytes_map (s : State) (uda : Nat) (bs : List Byte) : (writeBytes s uda bs).map = s.map := by
  induction bs generalizing s uda with
  | nil => rfl
  | cons b bs ih =>
    rw [writeBytes, ih]
    exact (apply_ite State.map _ _ _).trans (ite_self _)

theorem mirrorWrite_map (uda n : Nat) (s : State) : (mirrorWrite uda n s).map = s.map := by
  refine forEach_keeps (P := fun t : State => t.map = s.map) (fun m t h => ?_) rfl
  rw [mirrorInto, addObj_map]
  exact h

/-- No logical number has moved. -/
def MapKept (a s : State) : Prop := s.map = a.map

namespace MapKept
variable {a s t : State}

theorem ite {c : Prop} [Decidable c] (h : MapKept a s) (k : MapKept a t) : MapKept a (if c then s else t) := by
  split <;> assumption

theorem deviceWrite (h : MapKept a s) (uda : Nat) (bs : List Byte) : MapKept a (deviceWrite s uda bs) :=
  ite h (ite (((writeBytes_map _ _ _).trans (mirrorWrite_map _ _ _)).trans h) h)

theorem trace (h : MapKept a s) (ph code tag cls data : Nat) (fault : Bool) :
    MapKept a (trace ph code tag cls data fault s) := by
  unfold Machine.trace
  split
  · exact h
  · exact ite h (ite h (h.deviceWrite _ _))

theorem traceInfo (h : MapKept a s) (ph code enable tag cls data : Nat) (program : Option Nat) :
    MapKept a (traceInfo ph code enable tag cls data program s) :=
  ite h (ite h (h.trace ph code tag cls data false))

theorem countSwitches (h : MapKept a s) (fs : List Nat) : MapKept a (countSwitches fs s) :=
  forEach_keeps (P := MapKept a) (fun _ _ k => forEach_keeps (P := MapKept a) (fun _ _ j => j) k) h

theorem writeEntries (h : MapKept a s) (g : Nat) {gg : Gang} : MapKept a (writeEntries g (setGang s g gg)) :=
  deviceWrite (s := setGang s g gg) h _ _

/-- A checkpoint judges and switches entries of the work list (02 R53, R54). -/
theorem checkpointAt (h : MapKept a s) (g ph idx : Nat) (cmd : Cmd) : MapKept a (checkpointAt g ph idx cmd s) := by
  unfold Machine.checkpointAt
  extract_lets gg pd
  split
  · exact h
  refine ite h ?_
  split
  · exact h
  split
  · exact h
  extract_lets +onlyGivenNames fixed ranked marked
  have hmarked : MapKept a marked := h
  clear_value marked
  refine ite hmarked ?_
  extract_lets planned now finish late counted latest traced
  have hcounted : MapKept a counted := hmarked
  have hlatest : MapKept a latest := ite hcounted hcounted
  have htraced : MapKept a traced := hlatest.traceInfo _ _ _ _ _ _ _
  clear_value traced
  refine ite htraced ?_
  split
  extract_lets +onlyGivenNames start written
  have hwritten : MapKept a written := writeEntries htraced g
  clear_value written
  exact ite (hwritten.countSwitches _) (hwritten.countSwitches _)

theorem fetchMarks (h : MapKept a s) (p ph ecc : Nat) (sec : Section) (c : Cmd) :
    MapKept a (fetchMarks p ph ecc sec c s) := by
  unfold Machine.fetchMarks
  extract_lets +onlyGivenNames corrected judged
  have hcorrected : MapKept a corrected := ite (trace (s := addObj s _ _) h _ _ _ _ _ _) h
  clear_value corrected
  exact ite (hcorrected.checkpointAt _ _ _ _) hcorrected

end MapKept

theorem fetchControl_map {s s1 : State} {p ph ecc : Nat} {sec : Section} {c : Cmd}
    (h : fetchControl p ph ecc sec c s = (s1, true)) : s1.map = s.map := by
  unfold fetchControl at h
  split at h
  · cases h
    rfl
  split at h
  · cases h
  · cases h
    exact MapKept.fetchMarks rfl _ _ _ _ _

theorem begun_map (ph : Nat) (sec : Section) (c : Cmd) (s : State) : (begun ph sec c s).map = s.map := by
  have hclock := (Clocked.refl s).countWait (sectionWait s ph)
  have hcounted : (countWait (sectionWait s ph) s).map = s.map := by rw [hclock.rest]
  exact MapKept.ite rfl (MapKept.traceInfo (s := addObj (setProgress ph 2 (modPond _ ph _)) _ _) hcounted _ _ _ _ _ _ _)

/-! ## A pond that a logical number names (01 R10) -/

/-- The first entry of a pond in the map is not above a number that the map gives it. -/
theorem find_le_of_mapFind {m : NMap Nat} {l ph : Nat} (hne : ph ≠ 0xFF) (h : mapFind 0xFF m l = ph) :
    ∃ e, m.find? (fun e => decide (e.2 = ph)) = some e ∧ e.1 ≤ l := by
  induction m with
  | nil => exact absurd h.symm hne
  | cons a rest ih =>
    obtain ⟨k, v⟩ := a
    by_cases hv : v = ph
    · refine ⟨(k, v), by simp [hv], ?_⟩
      by_contra hlt
      have hkl : l < k := not_le.mp hlt
      rw [mapFind, if_neg hkl.ne, if_pos hkl] at h
      exact hne h.symm
    · rw [List.find?_cons_of_neg (by simpa using hv)]
      refine ih ?_
      by_cases hkl : l = k
      · rw [mapFind, if_pos hkl] at h
        exact absurd h hv
      · by_cases hlt : l < k
        · rw [mapFind, if_neg hkl, if_pos hlt] at h
          exact absurd h.symm hne
        · rwa [mapFind, if_neg hkl, if_neg hlt] at h

/-- A pond on which a logical number stands has a number that is a byte. -/
theorem numbered_of_onPond {s u : State} {p ph : Nat} (h : OnPond s p ph) (hu : u.map = s.map) : Numbered u ph := by
  intro l hl
  obtain ⟨e, hfind, hle⟩ := find_le_of_mapFind h.present h.mapped
  rw [logicalOf, hu, hfind, Option.map_some, Option.some.injEq] at hl
  have hcount : logicalCount s ≤ 128 := by
    unfold logicalCount
    split <;> decide
  have := h.inGrade
  omega

/-! ## The execution of a control command (06 R153, R160) -/

section
variable {s s1 : State} {p ph op : Nat} {sec : Section} {c : Cmd} {v : State}

/-- The command that stands at the fetch point executes in the state in which it has begun. -/
theorem controlAt_of_atFetch (h : AtFetch s p ph op sec c s1) (f : Nat → Section → Cmd → State → State) :
    controlAt p op s f = .next (f ph sec c (begun ph sec c s1)) := by
  obtain ⟨⟨hp, hph, hpresent⟩, hfetch, ⟨r, hpoint⟩, hcontrol, hopcode, hgoes, hwait⟩ := h
  subst hph
  have hmay : (canFetch (pondOf s (physOf s p)) || endsStarted (pondOf s (physOf s p))) = true := by
    simpa using hfetch
  rw [Machine.controlAt, onPond_mapped hp hpresent]
  simp only [hmay, hpoint, hcontrol, hopcode, hgoes, begun]
  by_cases hstarted : 2 ≤ sec.progress
  · simp [hstarted]
  · simp [hstarted, hwait.resolve_left hstarted]

theorem onControl_ends {f : Nat → Section → Cmd → State → State × Bool} (h : AtFetch s p ph op sec c s1)
    (hf : f ph sec c (begun ph sec c s1) = (v, true)) : onControl p op s f = .next (endControl ph sec c v) := by
  rw [onControl, controlAt_of_atFetch h, hf]

theorem onControl_stays {f : Nat → Section → Cmd → State → State × Bool} (h : AtFetch s p ph op sec c s1)
    (hf : f ph sec c (begun ph sec c s1) = (v, false)) : onControl p op s f = .next v := by
  rw [onControl, controlAt_of_atFetch h, hf]

theorem begun_canonical (h : Canonical s1) : Canonical (begun ph sec c s1) := by
  unfold begun
  split
  · exact h
  · exact (startControl_keeps (.refl s1)).canonical h

theorem numbered_begun (h : AtFetch s p ph op sec c s1) : Numbered (begun ph sec c s1) ph :=
  numbered_of_onPond h.toOnPond ((begun_map ph sec c s1).trans (fetchControl_map h.goesOn))

end

/-! ## The completion of a control command (06 R151, R153, R189) -/

section
variable {u : State} {ph pc : Nat} {k : Core} {sec : Section} {c : Cmd}

/-- A completion is a trace record and a signal. -/
theorem endControl_own (h : Canonical u) : FrameKept ph u (endControl ph sec c u) ∧
    RegsAlike (pondOf u ph).core (pondOf (endControl ph sec c u) ph).core := by
  unfold endControl signalDone
  extract_lets began
  have htraced := (Aside.refl (ph := ph) h).traceInfo 0x0005 2 (tagOf c) 0 ((u.now - began) % 2 ^ 32) (some sec.program)
  split
  · obtain ⟨hframe, hregs⟩ := signalPond_own (ph := ph) (c := signalCounterOf c) (n := signalCount c)
      (mark := markOf c) htraced.canonical
    exact ⟨htraced.toFrameKept.trans hframe, htraced.core.toRegsAlike.trans hregs⟩
  · exact ⟨htraced.toFrameKept, htraced.core.toRegsAlike⟩

/-- A core that has been given its new registers and index, and then its completion, has retired its command. -/
theorem retired_endControl (h : Canonical u) (hnumber : Numbered u ph) :
    Retired u (endControl ph sec c (modPond u ph fun pd => setPc pc { pd with core := k })) ph pc k sec c := by
  have hframe := (FrameKept.refl (ph := ph) h).modPond fun pd => setPc pc { pd with core := k }
  obtain ⟨hown, hregs⟩ := endControl_own (ph := ph) (sec := sec) (c := c) hframe.canonical
  rw [pondOf_modPond_same h.ponds] at hregs
  have hall := hframe.trans hown
  refine ⟨rfl, hregs.params, hregs.loops, hregs.comps, fun x hx => ?_, hall.ponds, hall.mem hnumber⟩
  obtain ⟨y, hy, -, -, hpc⟩ := hregs.sect_eq hx
  obtain ⟨z, -, rfl⟩ := Option.map_eq_some_iff.mp hy
  exact hpc.symm

end

section
variable {s s1 v : State} {p ph op pc : Nat} {sec : Section} {c : Cmd} {k : Core}

/-- A control command that leaves `v` beside the registers and the index that it gives its core. -/
theorem onControl_retires {f : Nat → Section → Cmd → State → State × Bool} {g : Core → Core}
    (h : AtFetch s p ph op sec c s1) (hf : f ph sec c (begun ph sec c s1) = retire ph pc g v)
    (hv : Canonical v) (hmap : v.map = (begun ph sec c s1).map) (hk : g (pondOf v ph).core = k) :
    ∃ t, onControl p op s f = .next t ∧ Retired v t ph pc k sec c := by
  have hnumber : Numbered v ph := fun l hl => numbered_begun h l (by rwa [logicalOf, ← hmap])
  subst hk
  exact ⟨_, onControl_ends h hf, retired_endControl hv hnumber⟩

/-- A control command that changes nothing but its core's registers and index. -/
theorem onControl_retires_here {f : Nat → Section → Cmd → State → State × Bool} {g : Core → Core}
    (h : AtFetch s p ph op sec c s1) (hs : Canonical s1)
    (hf : f ph sec c (begun ph sec c s1) = retire ph pc g (begun ph sec c s1))
    (hk : g (pondOf (begun ph sec c s1) ph).core = k) :
    ∃ t, onControl p op s f = .next t ∧ Retired (begun ph sec c s1) t ph pc k sec c :=
  onControl_retires h hf (begun_canonical hs) rfl hk

end

/-- BR is taken always, on K[n], or on its complement (06 R160). -/
theorem branchTaken_iff (func : Nat) (kn : Bool) :
    (match func with
      | 0 => true
      | 1 => kn
      | _ => !kn) = true ↔ func = 0 ∨ (func = 1 ∧ kn = true) ∨ (2 ≤ func ∧ kn = false) := by
  match func with
  | 0 => simp
  | 1 => simp
  | n + 2 => simp

/-- Settles O21: each command retires with the registers and the index that it gives (`onControl_retires_here`). -/
theorem registerCommands : Obligations.RegisterCommands := by
  unfold Obligations.RegisterCommands
  intro s s1 p ph op sec c hs h
  refine ⟨?set, ?alu, ?loop, ?endloop, ?cmp, ?br, ?nop, ?resume⟩ <;> rintro rfl
  case set =>
    change ∃ t, execSet p s = .next t ∧ _
    exact onControl_retires_here h hs rfl rfl
  case alu =>
    change ∃ t, execAlu p s = .next t ∧ _
    exact onControl_retires_here h hs rfl rfl
  case loop =>
    change ∃ t, execLoop p s = .next t ∧ _
    exact onControl_retires_here h hs rfl rfl
  case endloop =>
    change ∃ t, execEndloop p s = .next t ∧ _
    rw [← Nat.add_sub_assoc (show 1 ≤ 2 ^ 32 by decide)]
    exact onControl_retires_here h hs rfl rfl
  case cmp =>
    change ∃ t, execCmp p s = .next t ∧ _
    exact onControl_retires_here h hs rfl rfl
  case br =>
    change ∃ t, execBr p s = .next t ∧ _
    simp only [← branchTaken_iff]
    exact onControl_retires_here h hs rfl rfl
  case nop =>
    change ∃ t, execNop p s = .next t ∧ _
    exact onControl_retires_here h hs rfl rfl
  case resume =>
    change ∃ t, execResume p s = .next t ∧ _
    exact onControl_retires_here h hs rfl rfl

end Sys2Proof
end

section
/-! LOAD and STORE (06 R160, R162; 10 R286, R302 to R304). -/

namespace Sys2Proof

open Machine Safety Laws

/-! ## Accesses to memory leave the ponds and the pond map (10 R297; 16 R433) -/

/-- No pond differs, and no logical number has moved. -/
structure PlacesKept (a s : State) : Prop where
  ponds : s.ponds = a.ponds
  map : s.map = a.map

namespace PlacesKept
variable {a s t : State}

theorem refl (s : State) : PlacesKept s s := ⟨rfl, rfl⟩

theorem of_clocked (h : Clocked a s) : PlacesKept a s := ⟨h.ponds, by rw [h.rest]⟩

theorem ite {c : Prop} [Decidable c] (h : PlacesKept a s) (k : PlacesKept a t) :
    PlacesKept a (if c then s else t) := by
  split <;> assumption

theorem of_eq (h : PlacesKept a s) (hponds : t.ponds = s.ponds) (hmap : t.map = s.map) : PlacesKept a t :=
  ⟨hponds.trans h.ponds, hmap.trans h.map⟩

theorem writeByte (h : PlacesKept a s) (uda : Nat) (b : Byte) : PlacesKept a (writeByte s uda b) :=
  h.of_eq (writeByte_ponds s uda b) ((apply_ite State.map _ _ _).trans (ite_self _))

theorem addObj (h : PlacesKept a s) (k n : Nat) : PlacesKept a (addObj s k n) := h.of_eq rfl rfl

theorem agentWrite (h : PlacesKept a s) (uda : Nat) (bs : List Byte) : PlacesKept a (agentWrite s uda bs) := by
  unfold Machine.agentWrite
  refine foldl_keeps (P := PlacesKept a) (fun _ _ k => ite k (k.writeByte _ _)) ?_
  refine foldl_keeps (P := PlacesKept a) (fun _ _ k => k.addObj _ _) ?_
  exact h.of_eq (mirrorWrite_ponds _ _ _) (mirrorWrite_map _ _ _)

theorem deviceAgentWrite (h : PlacesKept a s) (uda : Nat) (bs : List Byte) :
    PlacesKept a (deviceAgentWrite s uda bs) := by
  unfold Machine.deviceAgentWrite deviceAgentStore
  extract_lets -underBinder -merge -useContext +onlyGivenNames ls
  extract_lets -underBinder -merge -useContext +onlyGivenNames ex
  extract_lets -underBinder -merge -useContext +onlyGivenNames sh
  extract_lets -underBinder -merge -useContext +onlyGivenNames snooped
  have hsnooped : PlacesKept a snooped := forEach_keeps (P := PlacesKept a) (fun _ _ k => k.of_eq rfl rfl) h
  clear_value snooped
  extract_lets -underBinder -merge -useContext +onlyGivenNames lines
  extract_lets -underBinder -merge -useContext +onlyGivenNames shared
  have hshared : PlacesKept a shared := hsnooped.of_eq rfl rfl
  clear_value shared
  split
  · exact hshared.agentWrite _ _
  · exact hshared.of_eq rfl rfl

end PlacesKept

theorem Clocked.countBytes {a s : State} (h : Clocked a s) (write : Bool) (runs : List Run) :
    Clocked a (countBytes write runs s) := by
  have hkey (i : Nat) : key 0x2A05 i ≠ windowKey := by
    unfold key windowKey key
    omega
  exact forEach_keeps (P := Clocked a)
    (fun _ _ k => forEach_keeps (P := Clocked a) (fun _ _ j => .ite (j.addObj _ (hkey _)) j) k) h

/-! ## Accesses that are performed (06 R162) -/

theorem accessOk_iff {s : State} {a : Nat} :
    accessOk s a = true ↔ a % 8 = 0 ∧ a < 2 ^ 48 ∧ unitMapped s [(a, 8)] = true := by
  simp [accessOk, and_assoc]

section
variable {s s1 v : State} {p ph op pc : Nat} {sec : Section} {c : Cmd} {k : Core}

/-- A command that retires after an access to memory, which leaves the ponds. -/
theorem onControl_retires_of_places {f : Nat → Section → Cmd → State → State × Bool} {g : Core → Core}
    (h : AtFetch s p ph op sec c s1) (hf : f ph sec c (begun ph sec c s1) = retire ph pc g v)
    (hv : Canonical v) (hplaces : PlacesKept (begun ph sec c s1) v)
    (hk : g (pondOf (begun ph sec c s1) ph).core = k) :
    ∃ t, onControl p op s f = .next t ∧ Retired v t ph pc k sec c := by
  refine onControl_retires h hf hv hplaces.map ?_
  rw [pondOf, hplaces.ponds, ← pondOf, hk]

end

/-- Settles O22: the checks of an access decide its case; what an access that is performed counts and writes leaves the ponds
(`PlacesKept`). That a STORE lands in the step in which it executes is the model's choice (log 16); that a LOAD which waits for
a re-fetch keeps the core at its index is deduced (log 50). -/
theorem loadAndStore : Obligations.LoadAndStore := by
  unfold Obligations.LoadAndStore
  intro s s1 p ph op sec c hs h u k a haligned hrange hmapped
  have hu : Canonical u := begun_canonical hs
  have hchecked : ¬ (!accessOk u a) = true := by
    simp [accessOk_iff.mpr ⟨haligned, hrange, hmapped⟩]
  refine ⟨?load, ?lost, ?refetch, ?store, ?readOnly⟩ <;> rintro rfl
  case load =>
    intro hserved hready
    change ∃ t, execLoad p s = .next t ∧ _
    unfold execLoad
    have hcounted := ((Clocked.refl u).countWait (sectionWait u ph)).countBytes false [(a, 8)]
    refine onControl_retires_of_places (g := fun k => setParam k (fieldD c) (BitVec.ofNat 64 (readLe u a 8)))
      h ?_ ((countBytes_keeps (countWait_keeps (.refl u))).canonical hu) (.of_clocked hcounted) rfl
    exact (if_neg hchecked).trans
      ((if_neg (ne_true_of_eq_false hserved)).trans (if_neg (ne_true_of_eq_false hready)))
  case lost =>
    intro hlost
    change execLoad p s = _
    exact onControl_stays h ((if_neg hchecked).trans (if_pos hlost))
  case refetch =>
    intro hserved hwaits
    change execLoad p s = _
    exact onControl_stays h
      ((if_neg hchecked).trans ((if_neg (ne_true_of_eq_false hserved)).trans (if_pos hwaits)))
  case store =>
    intro hwritable
    change ∃ t, execStore p s = .next t ∧ _
    unfold execStore
    have hcounted := (Clocked.refl u).countBytes true [(a, 8)]
    refine onControl_retires_of_places (g := id) h ?_ ((deviceAgentWrite_keeps (countBytes_keeps (.refl u))).canonical hu)
      ((PlacesKept.of_clocked hcounted).deviceAgentWrite _ _) rfl
    exact (if_neg hchecked).trans (congrArg (retire ph (sec.pc + 1) id) (if_neg (ne_true_of_eq_false hwritable)))
  case readOnly =>
    intro hreadOnly
    change ∃ t, execStore p s = .next t ∧ _
    unfold execStore
    refine onControl_retires_of_places (g := id) h ?_ ((addObj_keeps (.refl u)).canonical hu)
      ((PlacesKept.refl u).addObj _ _) rfl
    exact (if_neg hchecked).trans (congrArg (retire ph (sec.pc + 1) id) (if_pos hreadOnly))

/-! ## Accesses that are not performed (06 R162) -/

/-- Settles O23: the check of the access fails, so the command ends in `noAccess`, whose exit changes only its own pond and
its trace ring (`startExit_aside`). -/
theorem misalignedAccess : Obligations.MisalignedAccess := by
  unfold Obligations.MisalignedAccess
  intro s s1 p ph op sec c hs h hop u a hbad
  have hu : Canonical u := begun_canonical hs
  have hfails : (!accessOk u a) = true := by
    by_contra hpass
    obtain ⟨haligned, hrange, hmapped⟩ := accessOk_iff.mp (by simpa using hpass)
    rcases hbad with hbad | hbad | hbad
    · exact hbad haligned
    · omega
    · simp [hmapped] at hbad
  have hnext : exec (if op = 0x03 then .load p else .store p) s = .next (noAccess ph a c u).1 := by
    rcases hop with rfl | rfl
    · change execLoad p s = _
      exact onControl_stays h (if_pos hfails)
    · change execStore p s = _
      exact onControl_stays h (if_pos hfails)
  let v := if a % 8 = 0 then unmappedAccess u else u
  have hcounted : Aside ph u v := .ite ((Aside.refl hu).addObj _ (by decide)) (.refl hu)
  have hplaces : v.ponds = u.ponds := (apply_ite State.ponds _ _ _).trans (ite_self _)
  have hexit := hcounted.trans (startExit_aside hcounted.canonical ph 0x0C (markOf c))
  refine ⟨_, v, hnext, rfl, hplaces, hexit.mem (numbered_begun h), hexit.ponds, hexit.core.params,
    fun x hsect hnone hfirst => ?_⟩
  exact exiting_startExit hcounted.canonical (sec := x) (by
    rw [pondOf, hplaces, ← pondOf]
    exact ⟨hsect, hnone, hfirst⟩)

end Sys2Proof
end

section
/-! FENCE, SIGPEER, ERR and RET (06 R156, R160, R161, R174, R181; 13 R357, R363, R371). -/

namespace Sys2Proof

open Machine Safety Laws

/-! ## SIGPEER (06 R156) -/

/-- The addition of a SIGPEER is on its way to the pond `q`: visible after the halo latency, behind what its pond has
pushed. -/
def peerSent (ph q : Nat) (c : Cmd) (s : State) : State :=
  modPond s q fun pd => { pd with core := { pd.core with signals := pd.core.signals ++
    [{ counter := fieldD c, count := fieldFunc c + 1, visible := s.now + haloLatency ph q, sender := ph,
       after := (pondOf s ph).pushes, tag := tagOf c }] } }

/-- What SIGPEER does where it stands at the fetch point (`execSigpeer_eq`). -/
def sendPeer (ph p : Nat) (sec : Section) (c : Cmd) (s : State) : State × Bool :=
  match (gangMembers s p)[(operandY (pondOf s ph).core c).toNat]? with
  | none => exits ph 0x01 c s
  | some l => retire ph (sec.pc + 1) id (if physOf s l = 0xFF then s else peerSent ph (physOf s l) c s)

theorem execSigpeer_eq (p : Nat) (s : State) :
    execSigpeer p s = onControl p 0x09 s fun ph sec c u => sendPeer ph p sec c u := rfl

section
variable {s : State} {p ph l : Nat} {sec : Section} {c : Cmd}

theorem sendPeer_of_member (hl : (gangMembers s p)[(operandY (pondOf s ph).core c).toNat]? = some l)
    (hpresent : physOf s l ≠ 0xFF) :
    sendPeer ph p sec c s = retire ph (sec.pc + 1) id (peerSent ph (physOf s l) c s) := by
  simp [sendPeer, hl, hpresent]

theorem sendPeer_of_none (hl : (gangMembers s p)[(operandY (pondOf s ph).core c).toNat]? = none) :
    sendPeer ph p sec c s = exits ph 0x01 c s := by
  simp [sendPeer, hl]

end

/-! ## RET (06 R160, R174, R181) -/

/-- How a section of a kind returns after its fence and its signal (06 R174, R181; 13 R363, R371). -/
def returned (g p ph : Nat) (sec : Section) (s : State) : State :=
  match sec.kind with
  | .background => returnTask g ph s
  | .error =>
    if sec.task then taskFaulted g (leaveSection ph s) else chargeServing sec (leaveSection ph s)
  | .prologue => startMember g p .step (chargeServing sec (leaveSection ph s))
  | .step => endGroup g (chargeServing sec (leaveSection ph s))

section
variable {s s1 : State} {p ph : Nat} {sec : Section} {c : Cmd}

/-- A RET whose fence is not met waits (06 R160). -/
theorem execRet_of_not_fenced (h : AtFetch s p ph 0x0B sec c s1)
    (hfence : fenced (pondOf (begun ph sec c s1) ph) sec.program = false) :
    execRet p s = .next (begun ph sec c s1) := by
  unfold execRet
  rw [controlAt_of_atFetch h]
  exact congrArg _ (if_pos (by simp [hfence]))

/-- A RET whose fence is met gives its signal, and returns unless its program has ended or takes its exit (log 50). -/
theorem execRet_of_fenced (h : AtFetch s p ph 0x0B sec c s1)
    (hfence : fenced (pondOf (begun ph sec c s1) ph) sec.program = true) :
    execRet p s = .next (
      let v := signalDone ph c
        (traceInfo ph 0x0002 0 (tagOf c) 0 (kindCode sec.kind) (some sec.program) (begun ph sec c s1))
      if (pondOf v ph).core.sect.isNone || (pondOf v ph).core.exiting.isSome then v
      else returned (rank0Of (begun ph sec c s1) p) p ph sec v) := by
  unfold execRet
  rw [controlAt_of_atFetch h]
  exact congrArg _ (if_neg (by simp [hfence]))

end

/-- Settles O24: a fence that is met, and SIGPEER, retire; the others stay at their index or take their exit; a RET is
`execRet_of_fenced`. That a RET gives its signal before its section ends is deduced (log 50). -/
theorem signalCommands : Obligations.SignalCommands := by
  unfold Obligations.SignalCommands
  constructor
  · intro s s1 p ph op sec c hs h u k y
    have hu : Canonical u := begun_canonical hs
    refine ⟨?met, ?unmet, ?peer, ?noPeer, ?err⟩ <;> rintro rfl
    case met =>
      intro hfence
      change ∃ t, execFence p s = .next t ∧ _
      exact onControl_retires_here (g := id) h hs (if_pos hfence) rfl
    case unmet =>
      intro hfence
      change execFence p s = _
      exact onControl_stays h (if_neg (ne_true_of_eq_false hfence))
    case peer =>
      intro l hl hpresent
      have hsent : sendPeer ph p sec c u = retire ph (sec.pc + 1) id (peerSent ph (physOf u l) c u) :=
        sendPeer_of_member hl hpresent
      have hcanonical : Canonical (peerSent ph (physOf u l) c u) := (modPond_keeps (.refl u)).canonical hu
      obtain ⟨t, ht, hretired⟩ := onControl_retires (f := fun ph sec c u => sendPeer ph p sec c u) (g := id) h hsent
        hcanonical rfl rfl
      exact ⟨_, t, (execSigpeer_eq p s).trans ht, hretired, rfl⟩
    case noPeer =>
      intro hnone
      change execSigpeer p s = _
      rw [execSigpeer_eq]
      exact onControl_stays h (sendPeer_of_none hnone)
    case err =>
      change execErr p s = _
      exact onControl_stays h rfl
  · intro s s1 p ph sec c hs h u v g
    refine ⟨execRet_of_not_fenced h, fun hfence hsect hexit => ?returns, fun hfence hexit => ?ended⟩
    case returns =>
      have hruns : ¬ ((pondOf v ph).core.sect.isNone || (pondOf v ph).core.exiting.isSome) = true := by
        simp [hsect, hexit]
      have hreturns : execRet p s = .next (returned g p ph sec v) :=
        (execRet_of_fenced h hfence).trans (congrArg _ (if_neg hruns))
      change (_ → execRet p s = _) ∧ (_ → execRet p s = _) ∧ (_ → _ → execRet p s = _) ∧ (_ → _ → execRet p s = _) ∧
        (_ → execRet p s = _)
      rw [hreturns]
      exact ⟨fun hkind => by simp [returned, hkind], fun hkind => by simp [returned, hkind],
        fun hkind htask => by simp [returned, hkind, htask], fun hkind htask => by simp [returned, hkind, htask],
        fun hkind => by simp [returned, hkind]⟩
    case ended =>
      have hends : ((pondOf v ph).core.sect.isNone || (pondOf v ph).core.exiting.isSome) = true := by
        simp [Option.isSome_iff_ne_none.mpr hexit]
      exact (execRet_of_fenced h hfence).trans (congrArg _ (if_pos hends))

end Sys2Proof
end

section
/-! The push of engine commands (06 R150, R152, R157, R182, R481). -/

namespace Sys2Proof

open Machine Safety Laws

section
variable {s : State} {p ph t ecc pc : Nat} {sec : Section} {r : Resident} {c : Cmd} {q : Queued}

/-- The step of the program on a pond is a function of the state alone once the pond is known. -/
theorem onPond_of (h : OnPond s p ph) (f : Nat → State) : onPond p s f = .next (f ph) := by
  obtain ⟨hp, rfl, hpresent⟩ := h
  exact onPond_mapped hp hpresent

theorem sect_of_fetchPoint {pd : Pond} (h : fetchPoint pd = some (sec, r, c)) : pd.core.sect = some sec := by
  unfold fetchPoint at h
  split at h
  · cases h
  split at h
  · cases h
  split at h <;> cases h
  assumption

/-- The patch leaves the header of a command (06 R157). -/
theorem patched_w0 (k : Core) (c : Cmd) : (patched k c).w0 = c.w0 :=
  (apply_ite Cmd.w0 _ _ _).trans (ite_self _)

theorem classOf_patched (k : Core) (c : Cmd) : classOf (patched k c) = classOf c := by
  rw [classOf, patched_w0, classOf]

/-- What the push does where an engine command stands at the fetch point and its fetch goes on. -/
theorem execCommandPush_of_engine (h : OnPond s p ph) (hfetch : canFetch (pondOf s ph) = true)
    (hpoint : fetchPoint (pondOf s ph) = some (sec, r, c)) (hclass : classOf c ≠ 0)
    (hgoes : fetchEnds p ph ecc sec c (advanceTo s t) = none) :
    execCommandPush p t ecc s = .next (
      let u := fetchMarks p ph ecc sec c (advanceTo s t)
      if engineAbsent u (classOf c) then
        startExit ph 0x02 (markOf c)
          (traceFault ph 0x0010 (tagOf c) (classOf c) 0x02 (addObj u (key 0x2601 5) 1))
      else
        pushCommand ph (sec.pc + 1)
          { cmd := patched (pondOf u ph).core c, program := sec.program, pushed := u.now } u) := by
  have hsect := sect_of_fetchPoint hpoint
  have hsame : pondOf (advanceTo s t) ph = pondOf s ph := rfl
  rw [execCommandPush, onPond_of h]
  simp only [hsame, hfetch, hsect, hpoint, hclass, hgoes, Bool.not_true, Bool.false_eq_true, if_false]

/-- What the push does where the section has no command left (06 R481). -/
theorem execCommandPush_of_end (h : OnPond s p ph) (hfetch : canFetch (pondOf s ph) = true)
    (hsect : (pondOf s ph).core.sect = some sec) (hresident : residentOf (pondOf s ph) sec.program = some r)
    (hpoint : fetchPoint (pondOf s ph) = none) :
    execCommandPush p t ecc s = .next (startExit ph 0x0D (slotTag sec.program sec.pc) (advanceTo s t)) := by
  have hsame : pondOf (advanceTo s t) ph = pondOf s ph := rfl
  rw [execCommandPush, onPond_of h]
  simp only [hsame, hfetch, hsect, hpoint, hresident, Bool.not_true, Bool.false_eq_true, if_false]

end

/-- Settles O27: one equation for a command at the fetch point and one for a section without one; the patch keeps the class.
That the exit of a fetch past the section is recorded with the program's number and the index of that fetch is deduced
(log 43). -/
theorem commandPush : Obligations.CommandPush := by
  unfold Obligations.CommandPush
  constructor
  · intro s p ph t ecc sec r c h hfetch hpoint hclass hgoes u cls pd q
    have hpush := execCommandPush_of_engine h hfetch hpoint hclass hgoes
    refine ⟨fun hpresent hroom => ?pushed, fun hpresent hfull => ?stalled, fun habsent => ?discarded⟩
    case pushed =>
      refine hpush.trans (congrArg _ ((if_neg (ne_true_of_eq_false hpresent)).trans ?_))
      simp only [pushCommand, classOf_patched]
      exact if_pos hroom
    case stalled =>
      refine hpush.trans (congrArg _ ((if_neg (ne_true_of_eq_false hpresent)).trans ?_))
      simp only [pushCommand, classOf_patched]
      exact if_neg (not_lt.mpr hfull)
    case discarded =>
      exact hpush.trans (congrArg _ (if_pos habsent))
  · intro s p ph t ecc sec r h hfetch hsect hresident hpoint
    exact execCommandPush_of_end h hfetch hsect hresident hpoint

end Sys2Proof
end

section
/-! Error exits: a state in which the records of an exit leave the ring of their pond (06 R179, R188). -/

namespace Sys2Proof

open Machine Safety Laws

/-! ## An exit whose second record leaves the ring

The dictionary object at which a pond's trace index is kept is 0x2621.(l + 1) for its logical number `l`; for a number far
above those of the hardware it is the object 0x2A00.09, the base of the host's window, on which the cells of tier 2 rest.
`Canonical` does not bound the logical numbers of the pond map. -/

/-- A number above those of the hardware: its trace index would be the base of the host's window. -/
def strayNumber : Nat := 253704

theorem strayNumber_index : key 0x2621 (strayNumber + 1) = key 0x2A00 9 := by decide

def strayBase : Nat := 2097152

def straySection : Section :=
  { kind := .step, program := 0, pc := 0, group := [], epoch := 0, carried := false, task := false, resume := 0,
    started := 0, progress := 0 }

/-- A command of the matrix class that waits for nothing. -/
def strayQueued : Queued :=
  { cmd := { w0 := 0x0110000000000000, w1 := 0, w2 := 0, w3 := 0 }, program := 0, pushed := 0 }

/-- A pond whose program has two commands that have not started. -/
def strayPond : Pond :=
  { Pond.reset with
    queues := [(1, [strayQueued, strayQueued])]
    core := { Core.reset with sect := some straySection } }

/-- The reset state with that pond under the stray number, its ring in the host's window. -/
def strayState : State :=
  { State.reset with
    map := { State.reset.map with toPhys := [(strayNumber, 0)] }
    dict := [(key 0x2A00 9, strayBase)]
    ponds := [(0, strayPond)]
    tiers := { State.reset.tiers with extents := [(67130176, { Extent.unmapped with tier := 2 })] } }

theorem strayState_canonical : Canonical strayState :=
  { reset_canonical with
    dict := List.pairwise_singleton _ _
    ponds := List.pairwise_singleton _ _
    extents := List.pairwise_singleton _ _ }

/-- The cells of the ring: the extent of the trace rings stands at the start of the host's window. -/
theorem cellOf_strayState {b : Nat} (hb : b < 131072) :
    cellOf strayState (traceBase strayNumber + b) = 2 ^ 50 + strayBase + 2 ^ 20 + b := by
  have hextent : extentIndex (traceBase strayNumber + b) = some 67130176 := by
    unfold extentIndex traceBase strayNumber deviceBase extentSize
    rw [if_neg (by omega), if_pos (by omega)]
    congr 1
    omega
  have hoffset : (traceBase strayNumber + b) % extentSize = 2 ^ 20 + b := by
    unfold traceBase strayNumber extentSize
    omega
  have hplace : extentAt strayState (traceBase strayNumber + b) = { Extent.unmapped with tier := 2 } := by
    rw [extentAt, hextent]
    rfl
  rw [cellOf, hplace, hoffset]
  change 2 ^ 50 + strayBase + 0 * extentSize + (2 ^ 20 + b) = _
  omega

/-- A byte outside the ring: once the trace index has taken the place of the window's base, which is then 1, the second
record's code stands there. -/
def strayCell : Nat := 2 ^ 50 + 1 + 2 ^ 20 + 32 + 14

theorem not_traceCell_strayCell : ¬ TraceCell strayState 0 strayCell := by
  rintro ⟨l, b, hl, hb, hcell⟩
  obtain rfl : strayNumber = l := Option.some.inj hl
  rw [cellOf_strayState hb] at hcell
  unfold strayCell strayBase at hcell
  omega

theorem startExit_strayState :
    mapFind memDefault (startExit 0 1 0 strayState).mem strayCell = 0x10 := by decide +kernel

/-- Refutes O28: in `strayState` the first record of the exit moves the host's window, and the second lands outside the
pond's ring. Where logical numbers are bytes, the memory clause holds (`startExit_aside`, `Numbered`). -/
theorem not_errorExit : ¬ Obligations.ErrorExit := by
  unfold Obligations.ErrorExit
  intro h
  obtain ⟨-, -, -, -, -, -, hmem⟩ := h strayState 0 1 0 straySection strayState_canonical rfl rfl (.inl rfl)
  have hkept := hmem strayCell not_traceCell_strayCell
  rw [startExit_strayState] at hkept
  exact absurd hkept (by decide)

end Sys2Proof
end

section
/-! The entry of the error-exit section, and the notification of the gang (06 R179 steps 3 to 5, R180, R181). -/

namespace Sys2Proof

open Machine Safety Laws

/-! ## ERROR_HANDLER_ENTRY (06 R179 steps 3 to 5, R181) -/

/-- The entry point of the error-exit section of a program (06 R179 step 5); 0xFFFF when it has none. -/
def handlerEntry (ph program : Nat) (s : State) : Nat :=
  match imageOn s ph program with
  | some i => i.errorExit
  | none => 0xFFFF

/-- The state in which an exit has been recorded and the pond has entered its handler (06 R179 steps 4 and 5, R180). -/
def handlerEntered (p ph g : Nat) (e : Exiting) (sec : Section) (s : State) : State :=
  let t := noteExit p ph e s
  let t := if sec.task then t else failGroup g sec (chargeServing sec t)
  modCore t ph fun k => { k with exiting := none, exited := true }

section
variable {s : State} {p ph : Nat} {e : Exiting} {sec : Section}

theorem disarmExiting_of_no_tap (h : (pondOf s ph).tap = none) : disarmExiting ph s = s := by
  simp [disarmExiting, h]

/-- What the entry does once no started command of the program runs. -/
theorem execErrorHandlerEntry_eq (h : OnPond s p ph) (htap : (pondOf s ph).tap = none)
    (hexit : (pondOf s ph).core.exiting = some e) (hsect : (pondOf s ph).core.sect = some sec)
    (hdone : ∀ r ∈ (pondOf s ph).running, r.program ≠ sec.program) :
    execErrorHandlerEntry p s = .next (
      let g := rank0Of s p
      let s4 := handlerEntered p ph g e sec s
      let s5 := allEntered g s4
      if sec.kind = .error then endHandler g ph sec s
      else if handlerEntry ph sec.program s4 = 0xFFFF then
        (if sec.task then taskFaulted g (leaveSection ph s5) else leaveSection ph s5)
      else
        startSection p ph .error sec.program sec.epoch sec.carried
          { group := sec.group, flags := (if sec.task then 24 else 8) + (if sec.carried then 2 else 0),
            index := (getParam (pondOf s5 ph).core 13).toNat, cause := e.cause, tag := e.tag % 2 ^ 24 } s5) := by
  have hnone : ¬ ((pondOf s ph).running.any fun r => decide (r.program = sec.program)) = true := by
    simpa using hdone
  rw [execErrorHandlerEntry, onPond_of h]
  simp only [disarmExiting_of_no_tap htap, hexit, hsect, hnone]
  rfl

end

/-! ## GANG_ERROR_NOTIFY (06 R180) -/

/-- A fold that keeps `P` and establishes `Q` at one of its elements ends with `Q` when it keeps `Q`. -/
theorem forEach_establishes {α σ : Type} {P Q : σ → Prop} {f : α → σ → σ} {xs : List α} {x : α} {b : σ} (hx : x ∈ xs)
    (hP : ∀ y b, P b → P (f y b)) (hPQ : ∀ b, P b → Q (f x b)) (hQ : ∀ y b, Q b → Q (f y b)) (h : P b) :
    Q (forEach xs f b) := by
  obtain ⟨as, bs, rfl⟩ := List.append_of_mem hx
  simp only [forEach, List.foldl_append, List.foldl_cons]
  exact forEach_keeps hQ (hPQ _ (forEach_keeps hP h))

/-- What the notification does at the member with number `l`. -/
def notifyMember (l : Nat) (s : State) : State :=
  let q := physOf s l
  if q = 0xFF then s
  else if (pondOf s q).core.sect.isNone then modCore s q fun k => { k with exited := true }
  else if (pondOf s q).core.exited then s
  else startExit q 0x08 0 s

section
variable {s : State} {l q : Nat}

theorem notifyMember_absent (h : physOf s l = 0xFF) : notifyMember l s = s := if_pos h

theorem notifyMember_idle (hq : physOf s l = q) (hpresent : q ≠ 0xFF) (h : (pondOf s q).core.sect = none) :
    notifyMember l s = modCore s q fun k => { k with exited := true } := by
  subst hq
  simp [notifyMember, hpresent, h]

theorem notifyMember_running (hq : physOf s l = q) (hpresent : q ≠ 0xFF) (h : (pondOf s q).core.sect ≠ none)
    (hfirst : (pondOf s q).core.exited = false) : notifyMember l s = startExit q 0x08 0 s := by
  subst hq
  simp [notifyMember, hpresent, h, hfirst]

/-- The notification of a member touches no other pond, and no logical number moves. -/
theorem notifyMember_frame (h : Canonical s) : FrameKept (physOf s l) s (notifyMember l s) := by
  unfold notifyMember
  exact .ite (.refl h) (.ite ((FrameKept.refl h).modPond _) (.ite (.refl h) (startExit_aside h _ _ _).toFrameKept))

end

/-- On the way from `a` a member on pond `q` with nothing in progress has stayed so, and counts as having entered if `done`
(06 R180). -/
structure IdleMember (a : State) (q : Nat) (done : Bool) (s : State) : Prop where
  canonical : Canonical s
  map : s.map = a.map
  sect : (pondOf s q).core.sect = none
  exited : done = true → (pondOf s q).core.exited = true

/-- On the way from `a` a member on pond `q` that runs has not entered its handler; it takes its exit with cause 0x08, if
`done` (06 R180). -/
structure RunningMember (a : State) (q : Nat) (done : Bool) (s : State) : Prop where
  canonical : Canonical s
  map : s.map = a.map
  sect : (pondOf s q).core.sect ≠ none
  exited : (pondOf s q).core.exited = false
  exiting : (pondOf s q).core.exiting = some { cause := 0x08, tag := 0 } ∨
    (done = false ∧ (pondOf s q).core.exiting = none)

section
variable {a s : State} {l q : Nat} {done : Bool}

theorem IdleMember.notify_here (h : IdleMember a q done s) (hpresent : q ≠ 0xFF) (hq : physOf s l = q) :
    IdleMember a q true (notifyMember l s) := by
  have hframe := notifyMember_frame (l := l) h.canonical
  have hcore : (pondOf (notifyMember l s) q).core = { (pondOf s q).core with exited := true } := by
    rw [notifyMember_idle hq hpresent h.sect, modCore, pondOf_modPond_same h.canonical.ponds]
  exact ⟨hframe.canonical, hframe.map.trans h.map, by rw [hcore]; exact h.sect, fun _ => by rw [hcore]⟩

theorem IdleMember.notify (h : IdleMember a q done s) (hpresent : q ≠ 0xFF) (l : Nat) :
    IdleMember a q done (notifyMember l s) := by
  by_cases hq : physOf s l = q
  · have hdone := h.notify_here hpresent hq
    exact { hdone with exited := fun _ => hdone.exited rfl }
  · have hframe := notifyMember_frame (l := l) h.canonical
    have hsame := hframe.ponds q (Ne.symm hq)
    exact ⟨hframe.canonical, hframe.map.trans h.map, by rw [hsame]; exact h.sect, by rw [hsame]; exact h.exited⟩

theorem RunningMember.notify_here (h : RunningMember a q done s) (hpresent : q ≠ 0xFF) (hq : physOf s l = q) :
    RunningMember a q true (notifyMember l s) := by
  obtain ⟨sec, hsec⟩ := Option.ne_none_iff_exists'.mp h.sect
  have haside := startExit_aside h.canonical q 0x08 0
  have hmark := haside.core.sect
  rw [hsec, Option.map_some] at hmark
  obtain ⟨x, hx, -⟩ := Option.map_eq_some_iff.mp hmark
  have hexiting : (pondOf (startExit q 0x08 0 s) q).core.exiting = some { cause := 0x08, tag := 0 } := by
    obtain htaken | ⟨-, hnone⟩ := h.exiting
    · rw [startExit_of_not fun sec hmay => by simp [hmay.exiting] at htaken]
      exact htaken
    · exact exiting_startExit h.canonical ⟨hsec, hnone, .inl h.exited⟩
  rw [notifyMember_running hq hpresent h.sect h.exited]
  exact ⟨haside.canonical, haside.map.trans h.map, by simp [hx], haside.core.exited.trans h.exited, .inl hexiting⟩

theorem RunningMember.notify (h : RunningMember a q done s) (hpresent : q ≠ 0xFF) (l : Nat) :
    RunningMember a q done (notifyMember l s) := by
  by_cases hq : physOf s l = q
  · have hdone := h.notify_here hpresent hq
    exact { hdone with exiting := hdone.exiting.imp_right fun hfalse => absurd hfalse.1 (by decide) }
  · have hframe := notifyMember_frame (l := l) h.canonical
    have hsame := hframe.ponds q (Ne.symm hq)
    refine ⟨hframe.canonical, hframe.map.trans h.map, ?_, ?_, ?_⟩ <;> rw [hsame]
    exacts [h.sect, h.exited, h.exiting]

end

/-- No pond takes or leaves an exit. -/
structure ExitsKept (a s : State) : Prop where
  ponds : MapSorted s.ponds
  exited : ∀ i, (pondOf s i).core.exited = (pondOf a i).core.exited
  exiting : ∀ i, (pondOf s i).core.exiting = (pondOf a i).core.exiting

namespace ExitsKept
variable {a s t : State} {ph : Nat}

theorem refl (h : MapSorted s.ponds) : ExitsKept s s := ⟨h, fun _ => rfl, fun _ => rfl⟩

theorem ite {c : Prop} [Decidable c] (h : ExitsKept a s) (k : ExitsKept a t) : ExitsKept a (if c then s else t) := by
  split <;> assumption

theorem clocked (h : ExitsKept a s) (k : Clocked s t) : ExitsKept a t :=
  ⟨k.ponds ▸ h.ponds, fun i => by rw [k.pondOf, h.exited], fun i => by rw [k.pondOf, h.exiting]⟩

theorem modPond (h : ExitsKept a s) {f : Pond → Pond} (hexited : ∀ pd, (f pd).core.exited = pd.core.exited)
    (hexiting : ∀ pd, (f pd).core.exiting = pd.core.exiting) : ExitsKept a (modPond s ph f) := by
  refine ⟨modPond_ponds_sorted h.ponds ph f, fun i => ?_, fun i => ?_⟩ <;> by_cases hi : i = ph
  · rw [hi, pondOf_modPond_same h.ponds, hexited, h.exited]
  · rw [pondOf_modPond_other h.ponds ph f hi, h.exited]
  · rw [hi, pondOf_modPond_same h.ponds, hexiting, h.exiting]
  · rw [pondOf_modPond_other h.ponds ph f hi, h.exiting]

theorem allEntered (h : MapSorted s.ponds) (g : Nat) : ExitsKept s (allEntered g s) := by
  have hzeroed : ExitsKept s (zeroPeers g s) := forEach_keeps (P := ExitsKept s)
    (fun _ _ k => .ite k (k.modPond (fun _ => rfl) fun _ => rfl)) (.refl h)
  refine .ite (forEach_keeps (P := ExitsKept s) (fun l t k => ?_) hzeroed) (.refl h)
  exact (k.clocked ((Clocked.refl t).countStalls (physOf t l))).modPond (fun _ => rfl) fun _ => rfl

end ExitsKept

section
variable {s : State} {p ph l q : Nat}

/-- The state in which every other member has been notified. -/
def gangNotified (p g : Nat) (s : State) : State := forEach ((gangMembers s g).filter (· ≠ p)) notifyMember s

theorem execGangErrorNotify_eq (h : OnPond s p ph)
    (hexit : (pondOf s ph).core.exiting ≠ none ∨ (pondOf s ph).core.exited = true) :
    execGangErrorNotify p s = .next (
      let t := gangNotified p (rank0Of s p) s
      if (pondOf s ph).core.exited then allEntered (rank0Of s p) t else t) := by
  have hone : ¬ ((pondOf s ph).core.exiting.isNone && !(pondOf s ph).core.exited) = true := by
    simpa [imp_iff_not_or] using hexit
  rw [execGangErrorNotify, onPond_of h]
  exact congrArg _ (if_neg hone)

theorem execGangErrorNotify_of_none (h : OnPond s p ph) (hexit : (pondOf s ph).core.exiting = none)
    (hexited : (pondOf s ph).core.exited = false) : execGangErrorNotify p s = .next s := by
  have hnone : ((pondOf s ph).core.exiting.isNone && !(pondOf s ph).core.exited) = true := by simp [hexit, hexited]
  rw [execGangErrorNotify, onPond_of h]
  exact congrArg _ (if_pos hnone)

theorem gangNotified_canonical {g : Nat} (h : Canonical s) : Canonical (gangNotified p g s) :=
  forEach_keeps (P := Canonical) (fun _ _ k => (notifyMember_frame k).canonical) h

theorem exited_gangNotified {g : Nat} (h : Canonical s) (hl : l ∈ gangMembers s g) (hne : l ≠ p)
    (hpresent : physOf s l ≠ 0xFF) (hsect : (pondOf s (physOf s l)).core.sect = none) :
    (pondOf (gangNotified p g s) (physOf s l)).core.exited = true := by
  have hother : l ∈ (gangMembers s g).filter (· ≠ p) := List.mem_filter.mpr ⟨hl, decide_eq_true hne⟩
  have hdone := forEach_establishes (P := IdleMember s (physOf s l) false) (Q := IdleMember s (physOf s l) true)
    hother (fun m _ k => k.notify hpresent m) (fun t k => k.notify_here hpresent (by rw [physOf, k.map, ← physOf]))
    (fun m _ k => k.notify hpresent m) ⟨h, rfl, hsect, by simp⟩
  exact hdone.exited rfl

theorem exiting_gangNotified {g : Nat} (h : Canonical s) (hl : l ∈ gangMembers s g) (hne : l ≠ p)
    (hpresent : physOf s l ≠ 0xFF) (hsect : (pondOf s (physOf s l)).core.sect ≠ none)
    (hnone : (pondOf s (physOf s l)).core.exiting = none) (hfirst : (pondOf s (physOf s l)).core.exited = false) :
    (pondOf (gangNotified p g s) (physOf s l)).core.exiting = some { cause := 0x08, tag := 0 } := by
  have hother : l ∈ (gangMembers s g).filter (· ≠ p) := List.mem_filter.mpr ⟨hl, decide_eq_true hne⟩
  have hdone := forEach_establishes (P := RunningMember s (physOf s l) false) (Q := RunningMember s (physOf s l) true)
    hother (fun m _ k => k.notify hpresent m) (fun t k => k.notify_here hpresent (by rw [physOf, k.map, ← physOf]))
    (fun m _ k => k.notify hpresent m) ⟨h, rfl, hsect, hfirst, .inr ⟨rfl, hnone⟩⟩
  exact hdone.exiting.resolve_right fun hfalse => absurd hfalse.1 (by decide)

end

/-- Settles O29: the entry is `execErrorHandlerEntry_eq`; in the notification each member is reached once the fold comes to
its number (`IdleMember`, `RunningMember`), and the close of the gang's streams takes no exit back (`ExitsKept`). -/
theorem errorHandlerEntered : Obligations.ErrorHandlerEntered := by
  unfold Obligations.ErrorHandlerEntered
  constructor
  · intro s p ph e sec h htap hexit hsect hdone g tag s0 s1 s2 s3 s4 s5
    have hentry := execErrorHandlerEntry_eq h htap hexit hsect hdone
    have hwhere {n : Nat} {i : Image} (himage : imageOn s4 ph sec.program = some i) (hi : i.errorExit = n) :
        handlerEntry ph sec.program (handlerEntered p ph g e sec s) = n := by
      have himage' : imageOn (handlerEntered p ph g e sec s) ph sec.program = some i := himage
      rw [handlerEntry, himage', ← hi]
    refine ⟨fun i hkind himage hi => ?_, fun i hkind himage hi => ?_, fun hkind => ?_⟩
    · have hsome : handlerEntry ph sec.program (handlerEntered p ph g e sec s) ≠ 0xFFFF := (hwhere himage rfl).symm ▸ hi
      exact hentry.trans (congrArg _ ((if_neg hkind).trans (if_neg hsome)))
    · exact hentry.trans (congrArg _ ((if_neg hkind).trans (if_pos (hwhere himage hi))))
    · exact hentry.trans (congrArg _ (if_pos hkind))
  · intro s p ph h hs
    refine ⟨fun hexit => ⟨_, execGangErrorNotify_eq h hexit, fun l hl hne hpresent => ?_⟩,
      execGangErrorNotify_of_none h⟩
    have hnotified : MapSorted (gangNotified p (rank0Of s p) s).ponds := (gangNotified_canonical hs).ponds
    have hkept : ExitsKept (gangNotified p (rank0Of s p) s) _ :=
      .ite (c := (pondOf s ph).core.exited = true) (.allEntered hnotified (rank0Of s p)) (.refl hnotified)
    refine ⟨fun hsect => ?_, fun hsect hnone hfirst => ?_⟩
    · exact (hkept.exited _).trans (exited_gangNotified hs hl hne hpresent hsect)
    · exact (hkept.exiting _).trans (exiting_gangNotified hs hl hne hpresent hsect hnone hfirst)

end Sys2Proof
end

section
/-! SCONF, SSEND and SFREE (06 R184 to R187). -/

namespace Sys2Proof

open Machine Safety Laws

section
variable {s : State} {p ph op : Nat} {q : Queued} {rest : List Queued} {r : Started}
  {effect : Nat → Queued → State → Started}

/-- The oldest startable stream command starts, when it is legal and meets no stream fault. -/
theorem onStream_starts (h : AtStream s p ph op q rest) (hr : effect ph q (dequeued ph q rest s) = r)
    (hcause : r.cause = none) :
    ∃ t, onStream p op s effect = .next t ∧ Starts (dequeued ph q rest s) t ph q r := by
  obtain ⟨hon, hpick, hopcode, hvalid, hsound, hgrant⟩ := h
  refine ⟨_, ?_, startQueued_starts rfl hr hcause⟩
  rw [onStream, onPond_of hon]
  simp [hpick, takesOp_of_opcode hopcode, hvalid, hsound, hgrant]

end

/-! ## The effects (06 R184, R185) -/

/-- SSEND with its stream's peer: one credit is taken, the wait for it and the bytes are counted, and the bytes stand in the
consumer's next slot. -/
def ssendTo (p ph : Nat) (c : Cmd) (peer : Nat) (pe : StreamEnd) (s : State) : Started :=
  let st := sconfStream c
  let e := streamOf (pondOf s ph) st
  let taken := modPond (countStall p ph st e.waitSince s) ph fun pd =>
    setStream pd st { e with credits := e.credits - 1, next := (e.next + 1) % e.slotCount, waitSince := 0 }
  let copied := modPond taken peer fun pd => bufWrite pd (e.slotBase + e.next * e.slotSize * 64)
    (bufRead (pondOf s ph) (ssendSource c * 64) (ssendLength c * 64))
  { ran (addObj copied (streamStatKey 1 p st) (ssendLength c * 64)) with
    arrival := some (peer, e.peerStream * 32 + pe.counter) }

/-- SFREE with its stream's peer: the slots are free, and their credits on their way. -/
def sfreeTo (ph : Nat) (c : Cmd) (peer : Nat) (s : State) : Started :=
  let st := sconfStream c
  let e := streamOf (pondOf s ph) st
  ran (modPond (modPond s ph fun pd => setStream pd st { e with filled := e.filled - sfreeCount c }) peer
    (addCredits (sfreeCount c) e.peerStream (s.now + creditLatency ph peer)))

/-- The effect of a stream command that has a peer. -/
def withPeer (p : Nat) (c : Cmd) (f : Nat → StreamEnd → State → Started) (s : State) : Started :=
  match peerEnd s p (sconfStream c) with
  | none => ended 0x05 s
  | some (peer, pe) => f peer pe s

theorem withPeer_of_some {p peer : Nat} {c : Cmd} {pe : StreamEnd} {f : Nat → StreamEnd → State → Started} {s : State}
    (h : peerEnd s p (sconfStream c) = some (peer, pe)) : withPeer p c f s = f peer pe s := by
  simp [withPeer, h]

theorem execSsend_eq (p : Nat) (s : State) : execSsend p s =
    (match onStream p 0x02 s fun ph q u => withPeer p q.cmd (ssendTo p ph q.cmd) u with
     | .next t => if physOf s p = 0xFF then .next t else .next (noteCreditWaits (physOf s p) t)
     | o => o) := rfl

theorem execSfree_eq (p : Nat) (s : State) : execSfree p s =
    onStream p 0x03 s fun ph q u => withPeer p q.cmd (fun peer _ => sfreeTo ph q.cmd peer) u := rfl

/-- Settles O30: each command starts with its effect (`onStream_starts`). That the bytes of an SSEND stand in the consumer's
buffer in the step in which it starts is the model's choice (log 16). -/
theorem streamCommands : Obligations.StreamCommands := by
  unfold Obligations.StreamCommands
  constructor
  · intro s p ph q rest h u st
    change ∃ t, execSconf p s = .next t ∧ _
    exact onStream_starts h rfl rfl
  · intro s p ph peer q rest pe u st e hpeer
    refine ⟨fun h => ?ssend, fun h => ?sfree⟩
    case ssend =>
      have hsend := withPeer_of_some (f := ssendTo p ph q.cmd) hpeer
      obtain ⟨t, ht, hstarts⟩ := onStream_starts
        (effect := fun ph q u => withPeer p q.cmd (ssendTo p ph q.cmd) u) h hsend rfl
      have hpresent : physOf s p ≠ 0xFF := h.mapped.symm ▸ h.present
      refine ⟨t, ?_, hstarts⟩
      change execSsend p s = _
      rw [execSsend_eq, ht, ← h.mapped]
      exact if_neg hpresent
    case sfree =>
      change ∃ t, execSfree p s = .next t ∧ _
      rw [execSfree_eq]
      exact onStream_starts (effect := fun ph q u => withPeer p q.cmd (fun peer _ => sfreeTo ph q.cmd peer) u) h
        (withPeer_of_some hpeer) rfl

end Sys2Proof
end

section
/-! Completions of commands, samples of the tile watch, the activation expander, program loads, margin measurements and
copies into spares (06 R151 to R153, R167, R189; 11 R324 to R326; 04 R96; 10 R308; 01 R12, R15). -/

namespace Sys2Proof

open Machine Safety Laws

section
variable {s : State} {p ph i t id : Nat} {ids : List Nat} {r : Running} {w : WatchSample}

/-! ## Completions (06 R151 to R153, R189) -/

theorem ne_id_of_mem_endRunning (r : Running) (pd : Pond) : ∀ x ∈ (endRunning r pd).running, x.id ≠ r.id := by
  intro x hx
  simpa using (List.mem_filter.mp hx).2

theorem execCommandComplete_of_mayComplete (h : OnPond s p ph)
    (hfind : (pondOf s ph).running.find? (fun x => decide (x.id = i)) = some r) (hmay : mayComplete s ph r = true) :
    execCommandComplete p i t s = .next (
      let u := traceInfo ph 0x0005 2 (tagOf r.cmd) (classOf r.cmd) ((max s.now t - r.started) % 2 ^ 32) (some r.program)
        (modPond (advanceTo s t) ph (endRunning r))
      signalDone ph r.cmd (countIdle ph (classOf r.cmd) (tapFault ph r (finishEngine ph r u)))) := by
  rw [execCommandComplete, onPond_of h]
  simp only [hfind, hmay]
  rfl

/-! ## The tile watch (11 R324 to R326) -/

theorem execWatchSampleDone_of_good (h : OnPond s p ph) (hwatch : (pondOf s ph).watch = some w)
    (hgood : ∀ c ∈ w.cols, c.good = true) :
    execWatchSampleDone p s = .next (
      let u := addObj (modPond s ph fun pd => { pd with watch := none }) (key 0x2B11 1) 1
      let top := w.cols.foldl (fun (m : Nat) c =>
        if flCompare (flOf32 (BitVec.ofNat 32 m)) (flOf32 c.d) = -1 then c.d.toNat else m) (getObj u (key 0x2B11 4))
      setObj (setObj u (key 0x2B11 4) top) (key 0x2B13 (p + 1)) 0) := by
  have hnone : (w.cols.find? fun c => !c.good) = none := by simpa using hgood
  rw [execWatchSampleDone, onPond_of h]
  simp only [hwatch, hnone]

/-! ## The activation expander (04 R96) -/

/-- The pond whose expander the oldest waiting command has got. -/
def expanderGiven (ids : List Nat) (id now : Nat) (r : Running) (pd : Pond) : Pond :=
  noteBusy now (classOf r.cmd)
    { pd with expanders := mapPut [] (mapPut [] pd.expanders 0 ids) 1 [id + 1, classOf r.cmd] }

/-- A vector or pooling command gets the expander: the clk of its wait are counted. -/
theorem execExpanderGrant_of_other (h : OnPond s p ph) (hwaits : mapFind [] (pondOf s ph).expanders 0 = id :: ids)
    (hfind : (pondOf s ph).running.find? (fun x => decide (x.id = id)) = some r) (hclass : classOf r.cmd ≠ 1) :
    execExpanderGrant p s = .next (
      addObj (setPond s ph (expanderGiven ids id s.now r (pondOf s ph))) (key 0x2401 3) (s.now - r.started)) := by
  rw [execExpanderGrant, onPond_of h]
  simp only [hwaits, hfind, if_neg hclass, if_pos hclass]
  rfl

/-- An MMA gets the expander and begins to stream; behind a command of another class the clk of its wait are counted. -/
theorem execExpanderGrant_of_mma (h : OnPond s p ph) (hwaits : mapFind [] (pondOf s ph).expanders 0 = id :: ids)
    (hfind : (pondOf s ph).running.find? (fun x => decide (x.id = id)) = some r) (hclass : classOf r.cmd = 1) :
    execExpanderGrant p s = .next (
      let v := beginStream ph id (setPond s ph (expanderGiven ids id s.now r (pondOf s ph)))
      if (mapFind [] (pondOf s ph).expanders 1).getD 1 0 ≠ 1 then addObj v (key 0x2401 4) (v.now - r.started)
      else v) := by
  rw [execExpanderGrant, onPond_of h]
  simp only [hwaits, hfind, if_pos hclass, if_neg (not_not.mpr hclass)]
  rfl

end

/-- Settles O35: one equation for each of the three events. -/
theorem commandCompletes : Obligations.CommandCompletes := by
  unfold Obligations.CommandCompletes
  constructor
  · intro s p ph i t r h hfind hmay u
    exact ⟨ne_id_of_mem_endRunning r _, execCommandComplete_of_mayComplete h hfind hmay⟩
  · intro s p ph id ids w r h
    refine ⟨execWatchSampleDone_of_good h, fun hwaits hfind => ?_⟩
    intro before u
    exact ⟨execExpanderGrant_of_other h hwaits hfind,
      fun hclass hbefore => (execExpanderGrant_of_mma h hwaits hfind hclass).trans
        (congrArg Host.Outcome.next (if_neg (not_not.mpr hbefore))),
      fun hclass hbefore => (execExpanderGrant_of_mma h hwaits hfind hclass).trans
        (congrArg Host.Outcome.next (if_pos hbefore))⟩

/-! ## Program loads (06 R167, Table CMD-9) -/

section
variable {s : State}

/-- A load whose slot is mapped, waits for nothing and is served ends with the code of its image. -/
theorem execProgramLoadDone_of_served (hloads : getObj s (key 0x2610 3) ≠ 0) :
    let p := s.requests.loadProgram
    let runs := [(slotAt p, imageLength s p)]
    let u := { countWait s.requests.loadWaiting s with requests := { s.requests with loadWaiting := none } }
    unitMapped s [(slotAt p, 256)] = true → waitsRefetch s [(slotAt p, 256)] = false → waitsRefetch s runs = false →
    unitMapped u runs = true → unitPoisoned u runs = false →
    execProgramLoadDone s = .next (
      let bs := readBytes u (slotAt p) (imageLength u p)
      let code := loadCode u p s.requests.loadBasin bs
      let v := setDir (takeProgram s.requests.loadBasin bs u) p (recordOf p (programOf bs))
      if code.1 ≠ 0 then finishLoad code u
      else setObj (finishLoad code (followUnavailable (settleDirectory p v))) (key 0x2610 7) (tickNumber v)) := by
  intro p runs u hhead hready hreads hmapped hsound
  have hslot : ¬ (!unitMapped s [(slotAt p, 256)]) = true := by simp [hhead]
  have hwait : ¬ (waitsRefetch s [(slotAt p, 256)] || (unitMapped s runs && waitsRefetch s runs)) = true := by
    simp [hready, hreads]
  have himage : ¬ (!unitMapped u runs) = true := by simp [hmapped]
  exact congrArg Host.Outcome.next ((if_neg hloads).trans ((if_neg hslot).trans ((if_neg hwait).trans
    ((if_neg himage).trans (if_neg (ne_true_of_eq_false hsound))))))

end

/-! ## Margin measurements (10 R308, Table MEM-16) -/

/-- What a measurement that finds the values `w`, `a` for the width and `h`, `b` for the height leaves, by what was asked
for; `low` when a value is below its minimum. -/
def measured (timing voltage low : Bool) (w h a b tier i : Nat) (s : State) : State :=
  let s := setObj { s with fresh := s.fresh + 1, requests := { s.requests with margin := none } } (key 0x2A20 4) 0
  let s := if timing then setObj (setObj s (key 0x2A20 6) w) (key 0x2A20 8) a else s
  let s := if voltage then setObj (setObj s (key 0x2A20 7) h) (key 0x2A20 9) b else s
  let m := memberOf s tier i
  let s := setMember s tier i { m with eyeWidth := if timing then w else m.eyeWidth,
                                       eyeHeight := if voltage then h else m.eyeHeight }
  wakeAccesses (noteMargin tier i low (setObj s (key 0x2A20 5) (if low then 1 else 0)))

theorem execMarginDone_of_asked {s : State} {tier i mode : Nat} (hasked : s.requests.margin = some (tier, i, mode)) :
    let w := Config.eye s.fresh tier i 0 % 65536
    let h := Config.eye s.fresh tier i 1 % 65536
    let narrow := decide (w < (if tier = 0 then 26 else 23))
    let shallow := decide (h < (if tier = 0 then 16 else 20))
    execMarginDone s = .next (measured (decide (mode ≠ 1)) (decide (mode ≠ 0))
      ((decide (mode ≠ 1) && narrow) || (decide (mode ≠ 0) && shallow)) w h (Config.eye s.fresh tier i 2 % 2 ^ 32)
      (Config.eye s.fresh tier i 3 % 2 ^ 32) tier i s) := by
  unfold execMarginDone
  rw [hasked]
  exact rfl

/-! ## Copies into spares (01 R12, R15) -/

theorem execSpareCopyDone_of_copying {s : State} {r : Replacement} {sp : Nat} (ok : Bool)
    (hfind : s.map.replacements.find? (fun r => !r.copied) = some r) (hspare : r.spare = some sp) :
    execSpareCopyDone ok s = .next (
      if ok then setReplacement r { r with copied := true } (copyInto r.logical r.failed sp s)
      else if r.reload then s
      else spareFailed raise sp s) := by
  unfold execSpareCopyDone
  simp only [hfind, hspare]

/-- Settles O49: a load and a copy by the checks of their ends; in each mode a measurement is `measured` of what was asked
for, with the free values of the eye (log 10). -/
theorem loadsAndSpares : Obligations.LoadsAndSpares := by
  unfold Obligations.LoadsAndSpares
  refine ⟨fun s hloads => ?load, fun s tier i mode hasked hmode => ?margin, fun s r sp hfind hspare => ?spare⟩
  case load =>
    intro p b head runs u bs hhead hready hreads hmapped hsound v
    have hdone := execProgramLoadDone_of_served hloads hhead hready hreads hmapped hsound
    exact ⟨fun hcode => hdone.trans (congrArg Host.Outcome.next (if_neg (not_not.mpr hcode))),
      fun hcode => hdone.trans (congrArg Host.Outcome.next (if_pos hcode))⟩
  case margin =>
    have hdone := execMarginDone_of_asked hasked
    refine ⟨_, _, Config.eye s.fresh tier i 2 % 2 ^ 32, Config.eye s.fresh tier i 3 % 2 ^ 32,
      Nat.mod_lt (Config.eye s.fresh tier i 0) (by decide), Nat.mod_lt (Config.eye s.fresh tier i 1) (by decide), ?_⟩
    intro u wide high narrow shallow m ends
    refine ⟨?width, ?height, ?both⟩ <;> rintro rfl
    case width =>
      exact hdone.trans
        (congrArg (fun low => Host.Outcome.next (measured true false low _ _ _ _ tier i s)) (Bool.or_false narrow))
    case height => exact hdone
    case both => exact hdone
  case spare =>
    exact ⟨execSpareCopyDone_of_copying true hfind hspare,
      fun hreload => (execSpareCopyDone_of_copying false hfind hspare).trans
        (congrArg Host.Outcome.next (if_neg (ne_true_of_eq_false hreload)))⟩

end Sys2Proof
end

section
/-! PWALK, PAPPEND, ATTF and ATTB start with their effect, and what the completion of a PAPPEND leaves (07 R212 to R219,
R221, R224, R228). -/

namespace Sys2Proof

open Machine Safety

section
variable {s : State} {p ph : Nat} {q : Queued} {rest : List Queued}

/-! ## PWALK (07 R218) -/

/-- A legal PWALK of valid entries of a future that may be named writes their descriptors. -/
theorem exec_pwalk_starts (h : AtHead s p ph 0x6 q rest) (hidle : classIdle (pondOf s ph) 0x6 = true)
    (hop : opcodeOf q.cmd = 0x01) (hlegal : pwalkLegal q.cmd = true) :
    let u := dequeued ph q rest s
    let f := pageFuture (pondOf u ph) q.cmd
    let e := futureOf u f
    let xs := (List.range (walkCount q.cmd)).map (walkFirst q.cmd + ·)
    mayName u ph f = true → xs.all (entryValid u f) = true →
    ∃ t, exec (.pwalk p) s = .next t ∧ Starts u t ph q (ran (writeDescriptors ph (descOff q.cmd) (xs.map fun x =>
      descriptor u f x (e.length + e.pending) (decide (1 < (pageRecord u (e.pages.getD x 0)).count))
        (preparedEntry e x)) (addObj u (key 0x2720 1) 1))) := by
  intro u f e xs hname hentries
  have hsound : ¬ (!mayName u ph f || !xs.all (entryValid u f)) = true := by simp [hname, hentries]
  change ∃ t, execPwalk p s = .next t ∧ _
  exact onHead_starts h hop hidle (by decide) hlegal (if_neg hsound) rfl (waitsRefetch_nil s)

/-! ## PAPPEND (07 R213 to R216, R219) -/

/-- The entries of a PAPPEND that need a page are prepared, and the descriptors of all its entries are written. -/
def appended (ph : Nat) (q : Queued) (s : State) : Started :=
  let c := q.cmd
  let f := pageFuture (pondOf s ph) c
  let n := appendTokens c
  let src := appendReads s f n
  let v := forEach (neededEntries s f n) (prepareEntry f)
    (addObj (tierMiss ph q.program (src ++ appendWrites s f n) s) (key 0x2720 3) 1)
  let e := futureOf v f
  { ran (writeDescriptors ph (descOff c) ((touchedEntries (futureOf s f) n).map fun x =>
      descriptor v f x (e.length + e.pending + n) (decide (1 < (pageRecord v (e.pages.getD x 0)).count)) true) v) with
    epochReads := epochOf v ph src }

/-- A PAPPEND passes its checks: what it names, the context limit and the page table, the pool, and what it copies
(07 R213 to R217, R219). -/
structure AppendSound (s : State) (ph : Nat) (c : Cmd) (f n : Nat) : Prop where
  named : mayName s ph f = true
  entries : ((touchedEntries (futureOf s f) n).filter (· < (futureOf s f).pages.length)).all (entryValid s f) = true
  context : (futureOf s f).length + (futureOf s f).pending + n ≤ getObj s (key 0x2700 8)
  table : ((touchedEntries (futureOf s f) n).map (· + 1)).foldl max 0 ≤ 4096
  pool : (neededEntries s f n).length ≤ poolFree s (futureOf s f).pool
  mapped : unitMapped s (appendReads s f n ++ appendWrites s f n) = true
  writable : unitReadOnly s (appendWrites s f n) = false
  served : unservable s (appendReads s f n) = false

theorem runPappend_of_sound (h : AppendSound s ph q.cmd (pageFuture (pondOf s ph) q.cmd) (appendTokens q.cmd)) :
    runPappend ph q s = appended ph q s := by
  obtain ⟨hnamed, hentries, hcontext, htable, hpool, hmapped, hwritable, hserved⟩ := h
  unfold runPappend
  simp only [hnamed, hentries, hmapped, hwritable, hserved, Nat.not_lt.mpr hcontext, Nat.not_lt.mpr htable,
    Nat.not_lt.mpr hpool]
  rfl

/-! ## ATTF and ATTB (07 R221, R224, R228) -/

/-- An attention command has been counted, with what it moves (10 R286, R300). -/
def attentionCounted (ph program k : Nat) (reads writes : List Run) (s : State) : State :=
  countBytes true writes (countBytes false reads (tierMiss ph program (reads ++ writes) (addObj s k 1)))

/-- An attention command whose pages are valid, and whose runs are mapped, writable and servable, asks for the expander. -/
theorem startAttention_of_sound {k : Nat} {reads writes : List Run} {effect : State → State}
    (hname : mayName s ph (attOf (pondOf s ph) q.cmd).future = true)
    (hentries : (attEntries s (attOf (pondOf s ph) q.cmd)).all
      (entryValid s (attOf (pondOf s ph) q.cmd).future) = true)
    (hmapped : unitMapped s (reads ++ writes) = true) (hwritable : unitReadOnly s writes = false)
    (hserved : unservable s reads = false) :
    let w := attentionCounted ph q.program k reads writes s
    startAttention ph q k reads writes effect s =
      { ran (effect w) with epochReads := epochOf w ph reads, expander := true } := by
  unfold startAttention
  simp only [hname, hentries, hmapped, hwritable, hserved]
  rfl

/-- An attention command names the future of its descriptor. -/
theorem attOf_future {pd : Pond} {c : Cmd} (h : 2 < opcodeOf c) : (attOf pd c).future = pageFuture pd c := by
  rw [pageFuture, if_neg (Nat.not_le.mpr h)]
  rfl

theorem unitReadOnly_nil (s : State) : unitReadOnly s [] = false := by
  simp [unitReadOnly, unitExtents]

end

/-! ## The completion of a PAPPEND (07 R213) -/

theorem futureOf_setFuture_other {s : State} (h : MapSorted s.seq.futures) (f : Nat) (e : Future) {g : Nat}
    (hg : g ≠ f) : futureOf (setFuture s f e) g = futureOf s g :=
  mapFind_put_other _ _ _ _ _ _ h hg

/-- Settles O37: each command is a head that starts (`onHead_starts`) and passes the checks of its effect. That the effect
stands in the step in which the command starts is the model's choice (log 16); the counts at 0x2720 and the shared flag of
a PAPPEND's descriptors are deduced (log 25). -/
theorem pageCommands : Obligations.PageCommands := by
  unfold Obligations.PageCommands
  constructor
  · intro s p ph q rest h hidle u c f e hname
    refine ⟨?pwalk, ?pappend, ?attention⟩
    case pwalk =>
      intro xs hop hlegal hentries
      exact exec_pwalk_starts h hidle hop hlegal hname hentries
    case pappend =>
      intro n xs need src dst v tokens hop hlegal hwait hentries hcontext htable hpool hmapped hwritable hserved
      have hsound : AppendSound u ph c f n :=
        ⟨hname, hentries, hcontext, htable, hpool, hmapped, hwritable, hserved⟩
      change ∃ t, execPappend p s = .next t ∧ _
      exact onHead_starts h hop hidle (by decide) hlegal (runPappend_of_sound hsound) rfl hwait
    case attention =>
      intro a v hready hentries
      constructor
      · intro w hop hlegal hwait hmapped hserved
        have hnamed : mayName u ph a.future = true := by rwa [attOf_future (hop ▸ by decide)]
        change ∃ t, execAttf p s = .next t ∧ _
        exact onHead_starts h hop hready (by decide) hlegal (startAttention_of_sound hnamed hentries
          ((List.append_nil (attRuns u a)).symm ▸ hmapped) (unitReadOnly_nil u) hserved) rfl hwait
      · intro w hop hlegal hwait hmapped hwritable hserved
        have hnamed : mayName u ph a.future = true := by rwa [attOf_future (hop ▸ by decide)]
        change ∃ t, execAttb p s = .next t ∧ _
        exact onHead_starts h hop hready (by decide) hlegal
          (startAttention_of_sound hnamed hentries hmapped hwritable hserved) rfl hwait
  · intro s ph g c hs
    unfold completeAppend
    rw [futureOf_setFuture_same hs.futures]
    exact ⟨rfl, rfl, futureOf_setFuture_other hs.futures _ _, rfl⟩

end Sys2Proof
end

section
/-! The operations on futures: every one ends as 07 Table FUT-4 says, and what an operation on one future leaves unchanged
(07 R193 to R197, R482). The write of the result meets a copy under way of the ring's extent (10 R287), whose cursor is a
free value of the manual (log 10): the statement about the tiers turns on that value alone. -/

namespace Sys2Proof

open Machine Safety Laws

/-! ## The end of an operation (07 R193 to R196) -/

section
variable {s v : State} {o : FutureOp}

/-- An operation of its own has its effect if it is accepted, and ends with its result. -/
theorem oneOp_ends (hf : o.f < 32768) (hc : o.c < 32768)
    (hv : (if opResult (ringed o s) o = 0 then opEffect o (ringed o s) else ringed o s) = v) :
    oneOp o s = .next (opEnds (opConsumed s) (opResult (ringed o s) o) v) := by
  subst hv
  exact if_pos ⟨hf, hc⟩

theorem oneOp_accepted (hf : o.f < 32768) (hc : o.c < 32768) (hok : opResult (ringed o s) o = 0)
    (heffect : opEffect o (ringed o s) = v) : oneOp o s = .next (opEnds (opConsumed s) 0 v) := by
  rw [oneOp_ends hf hc ((if_pos hok).trans heffect), hok]

theorem oneOp_refused (hf : o.f < 32768) (hc : o.c < 32768) (hbad : ¬ opResult (ringed o s) o = 0) :
    oneOp o s = .next (opEnds (opConsumed s) (opResult (ringed o s) o) (ringed o s)) :=
  oneOp_ends hf hc (if_neg hbad)

end

/-- SET writes each field that its mask selects. -/
theorem opSet_eq (o : FutureOp) (s : State) : opSet o s = setFuture s o.f
    { futureOf s o.f with
      basin := if bitAt o.b 0 then bits o.a 7 0 else (futureOf s o.f).basin,
      model := if bitAt o.b 1 then bits o.a 15 8 else (futureOf s o.f).model,
      fallback := if bitAt o.b 1 then bits o.a 23 16 else (futureOf s o.f).fallback,
      fallbackEligible := if bitAt o.b 2 then bitAt o.a 24 else (futureOf s o.f).fallbackEligible,
      inputRequired := if bitAt o.b 2 then bitAt o.a 25 else (futureOf s o.f).inputRequired,
      priority := if bitAt o.b 3 then bits o.a 27 26 else (futureOf s o.f).priority,
      window := if bitAt o.b 4 then bits o.a 44 32 else (futureOf s o.f).window } := by
  unfold opSet
  split_ifs <;> rfl

/-! ## What an operation leaves unchanged -/

/-- The state with other page records. -/
def withRecords (s : State) (r : NMap PageRec) : State := { s with seq := { s.seq with records := r } }

/-- References dropped change page records, and nothing else (07 R210). -/
theorem dropPages_eq (ps : List Nat) (s : State) : ∃ r, dropPages ps s = withRecords s r := by
  refine forEach_keeps (P := fun t => ∃ r, t = withRecords s r) (fun p t h => ?_) ⟨s.seq.records, rfl⟩
  obtain ⟨r, rfl⟩ := h
  unfold dropPage
  dsimp only
  split <;> exact ⟨_, rfl⟩

/-- CREATE, PARK, SET, TRUNCATE, SHIFT and SETUSER change the entry of their future and page records, and nothing else. -/
theorem opEffect_own (o : FutureOp) (s : State) (hop : o.op ∈ [1, 3, 6, 7, 8, 9]) :
    ∃ r e, opEffect o s = setFuture (withRecords s r) o.f e := by
  have hcases : o.op = 1 ∨ o.op = 3 ∨ o.op = 6 ∨ o.op = 7 ∨ o.op = 8 ∨ o.op = 9 := by simpa using hop
  unfold opEffect
  rcases hcases with h | h | h | h | h | h <;> rw [h]
  · exact ⟨s.seq.records, _, rfl⟩
  · exact ⟨s.seq.records, _, rfl⟩
  · exact ⟨s.seq.records, _, opSet_eq o s⟩
  · obtain ⟨r, hr⟩ := dropPages_eq ((futureOf s o.f).pages.drop (ceilDiv o.a 64)) s
    exact ⟨r, _, congrArg (setFuture · o.f _) hr⟩
  · obtain ⟨r, hr⟩ := dropPages_eq ((futureOf s o.f).pages.take o.a) s
    exact ⟨r, _, congrArg (setFuture · o.f _) hr⟩
  · exact ⟨s.seq.records, _, rfl⟩

theorem writeByte_seq_tiers (s : State) (uda : Nat) (b : Byte) :
    (writeByte s uda b).seq = s.seq ∧ (writeByte s uda b).tiers = s.tiers :=
  ⟨(apply_ite State.seq _ _ _).trans (ite_self _), (apply_ite State.tiers _ _ _).trans (ite_self _)⟩

theorem writeBytes_seq_tiers (s : State) (uda : Nat) (bs : List Byte) :
    (writeBytes s uda bs).seq = s.seq ∧ (writeBytes s uda bs).tiers = s.tiers := by
  induction bs generalizing s uda with
  | nil => exact ⟨rfl, rfl⟩
  | cons b bs ih =>
    rw [writeBytes, (ih _ _).1, (ih _ _).2]
    exact writeByte_seq_tiers s uda b

theorem deviceWrite_seq (s : State) (uda : Nat) (bs : List Byte) : (deviceWrite s uda bs).seq = s.seq := by
  have hmirror (n : Nat) : (mirrorWrite uda n s).seq = s.seq :=
    forEach_keeps (P := fun t : State => t.seq = s.seq) (fun _ _ h => h) rfl
  unfold deviceWrite
  split_ifs
  · rfl
  · rw [(writeBytes_seq_tiers _ _ _).1, hmirror]
  · rfl

/-- An operation leaves every future but its own, and the ponds. -/
theorem applyOp_others {s : State} (hs : Canonical s) {o : FutureOp} (hop : o.op ∈ [1, 3, 6, 7, 8, 9]) (slot : Nat)
    {g : Nat} (hg : g ≠ o.f) :
    futureOf (applyOp slot o s) g = futureOf s g ∧ (applyOp slot o s).ponds = s.ponds := by
  obtain ⟨r, e, heffect⟩ := opEffect_own o s hop
  unfold applyOp
  dsimp only
  rw [futureOf, deviceWrite_seq, deviceWrite_ponds, addObj_seq, addObj_ponds, ← futureOf]
  split
  · rw [heffect]
    exact ⟨futureOf_setFuture_other (s := withRecords s r) hs.futures o.f e hg, rfl⟩
  · exact ⟨rfl, rfl⟩

/-! ## The copy that a write meets (10 R287) -/

/-- A copy has done no granule beyond those known while the free value is 0. -/
theorem cursorNow_of_zero (h : ∀ n, Config.copyCursor n = 0) (s : State) (m : Migration) : cursorNow s m = m.cursor := by
  simp [cursorNow, h]

theorem mirrorInto_tiers_of_zero (h : ∀ n, Config.copyCursor n = 0) (uda n : Nat) (m : Migration) (s : State) :
    (mirrorInto uda n m s).tiers = s.tiers := by
  have hsame : (s.tiers.migrations.map fun q => if q = m then { m with cursor := cursorNow s m } else q) =
      s.tiers.migrations := by
    rw [cursorNow_of_zero h]
    exact List.map_id'' (fun q => ite_eq_right_iff.mpr Eq.symm) _
  simp only [mirrorInto, addObj_tiers, hsame]

theorem deviceWrite_tiers_of_zero (h : ∀ n, Config.copyCursor n = 0) (s : State) (uda : Nat) (bs : List Byte) :
    (deviceWrite s uda bs).tiers = s.tiers := by
  have hmirror (n : Nat) : (mirrorWrite uda n s).tiers = s.tiers :=
    forEach_keeps (P := fun t : State => t.tiers = s.tiers)
      (fun m t ht => (mirrorInto_tiers_of_zero h uda n m t).trans ht) rfl
  unfold deviceWrite
  split_ifs
  · rfl
  · rw [(writeBytes_seq_tiers _ _ _).2, hmirror]
  · rfl

theorem applyOp_tiers_of_zero (h : ∀ n, Config.copyCursor n = 0) (slot : Nat) {o : FutureOp} (s : State)
    (hop : o.op ∈ [1, 3, 6, 7, 8, 9]) : (applyOp slot o s).tiers = s.tiers := by
  obtain ⟨r, e, heffect⟩ := opEffect_own o s hop
  unfold applyOp
  dsimp only
  rw [deviceWrite_tiers_of_zero h, addObj_tiers]
  split
  · rw [heffect]
    rfl
  · rfl

/-- The copy of the extent that holds the operation ring, with `c` granules known to be done. -/
def ringCopy (c : Nat) : Migration :=
  { extent := 67114330, toTier := 0, toFrame := some 1, directive := none, schedule := none, evacuate := false,
    cursor := c }

/-- Future 0 is active, and the ring's extent has been under copy for 32768 clk; the next free value has number `n`. -/
def copyingRing (n : Nat) : State :=
  { State.reset with
    fresh := n, now := 32768,
    seq := { Seq.cold with futures := [(0, { Future.free with state := 1 })] },
    tiers := { Tiers.cold with extents := [(67114330, { Extent.unmapped with tier := 0 })], migrations := [ringCopy 0] } }

theorem copyingRing_canonical (n : Nat) : Canonical (copyingRing n) :=
  { reset_canonical with futures := List.pairwise_singleton _ _, extents := List.pairwise_singleton _ _ }

theorem cursorNow_ringCopy {s : State} {n : Nat} (hfresh : s.fresh = n) (hnow : s.now = 32768) :
    cursorNow s (ringCopy 0) = min (Config.copyCursor n) 8192 := by
  rw [cursorNow, hfresh, hnow]
  exact Nat.zero_max _

/-- A write of the result of an operation in slot 0 meets the copy of the ring's extent, where that is the only one. -/
theorem deviceWrite_ring_migrations {s : State} {e : Extent} {m : Migration} {bs : List Byte} (hlength : bs.length = 8)
    (hextents : s.tiers.extents = [(67114330, e)]) (htier : e.tier < 3) (hmigrations : s.tiers.migrations = [m])
    (hframe : m.toFrame.isSome = true) (hextent : m.extent = 67114330) :
    (deviceWrite s (opSlot 0 + 24) bs).tiers.migrations = [{ m with cursor := cursorNow s m }] := by
  have hbytes : bs ≠ [] := by
    rintro rfl
    cases hlength
  have hfirst : extentIndex (opSlot 0 + 24) = some 67114330 := by decide
  have hlast : extentIndex (opSlot 0 + 24 + 8 - 1) = some 67114330 := by decide
  have htouched : extentsOf (opSlot 0 + 24) 8 = some [67114330] := by decide
  have hin {uda : Nat} (h : extentIndex uda = some 67114330) : mappedAt s uda = true := by
    simp [mappedAt, extentAt, h, extentOf, hextents, mapFind, htier]
  have hmapped : (mappedAt s (opSlot 0 + 24) && mappedAt s (opSlot 0 + 24 + bs.length - 1)) = true := by
    rw [hlength, hin hfirst, hin hlast, Bool.and_self]
  have hmirror : mirrorWrite (opSlot 0 + 24) 8 s = mirrorInto (opSlot 0 + 24) 8 m s := by
    simp [mirrorWrite, hmigrations, hframe, htouched, hextent, forEach]
  rw [deviceWrite, if_neg hbytes, if_pos hmapped, (writeBytes_seq_tiers _ _ _).2, hlength, hmirror]
  simp [mirrorInto, hmigrations]

/-- The result of an accepted SETUSER moves the cursor of that copy to the free value, at most 8192. -/
theorem copyingRing_migrations (n : Nat) :
    (applyOp (opSlot 0) (opOf 9 0 7 0) (copyingRing n)).tiers.migrations =
      [ringCopy (min (Config.copyCursor n) 8192)] := by
  have hok : opResult (copyingRing n) (opOf 9 0 7 0) = 0 := rfl
  rw [applyOp, hok]
  refine (deviceWrite_ring_migrations (leBytes_length _ 8) rfl (by decide : 0 < 3) rfl rfl rfl).trans ?_
  rw [cursorNow_ringCopy rfl rfl]
  rfl

/-! ## The operations (07 Table FUT-4) -/

/-- O36 stays unsettled: it says neither more nor less than that the free value `Config.copyCursor`, which no proof can see
(log 10), is always 0. The result of an operation is a write of the device, and a write that meets a copy under way moves
the copy's cursor by that value (10 R287), which the clause on the tiers forbids. All else that O36 states holds, whatever
the value is. That CREATE keeps the user word and clears the parent, that RETIRE leaves the other fields, and that an
operation takes the slot at the consumed count are deduced (log 39). -/
theorem futureOperations_iff_copyCursor_zero : Obligations.FutureOperations ↔ ∀ n, Config.copyCursor n = 0 := by
  unfold Obligations.FutureOperations
  constructor
  · rintro ⟨-, hframe⟩ n
    obtain ⟨-, -, htiers⟩ := hframe (copyingRing n) (opOf 9 0 7 0) (opSlot 0) 1 (copyingRing_canonical n) (by decide)
      (by decide)
    have hcursor : [ringCopy (min (Config.copyCursor n) 8192)] = [ringCopy 0] :=
      (copyingRing_migrations n).symm.trans (congrArg Tiers.migrations htiers)
    have hzero : min (Config.copyCursor n) 8192 = 0 := congrArg (fun l => (l.headD (ringCopy 0)).cursor) hcursor
    omega
  · intro hzero
    refine ⟨fun s f c a b hf hc => ?ends, fun s o slot g hs hop hg => ?frame⟩
    case ends =>
      intro i done ok
      refine ⟨?create, ?fork, ?park, ?unpark, ?retire, ?set, ?truncate, ?shift, ?setuser, ?refused⟩
      case create =>
        intro hok
        refine oneOp_accepted hf (by decide : 0 < 32768) hok ?_
        simp only [opEffect, opOf, opCreate, BitVec.ofNat_toNat, BitVec.setWidth_eq]
        rfl
      case fork => exact fun hok => oneOp_accepted hf hc hok rfl
      case park => exact fun hok => oneOp_accepted hf (by decide : 0 < 32768) hok rfl
      case unpark => exact fun hok => oneOp_accepted hf (by decide : 0 < 32768) hok rfl
      case retire => exact fun hok => oneOp_accepted hf (by decide : 0 < 32768) hok rfl
      case set => exact fun hok => oneOp_accepted hf (by decide : 0 < 32768) hok (opSet_eq _ _)
      case truncate => exact fun hok => oneOp_accepted hf (by decide : 0 < 32768) hok rfl
      case shift => exact fun hok => oneOp_accepted hf (by decide : 0 < 32768) hok rfl
      case setuser =>
        intro hok
        refine oneOp_accepted hf (by decide : 0 < 32768) hok ?_
        simp only [opEffect, opOf, BitVec.ofNat_toNat, BitVec.setWidth_eq]
      case refused =>
        intro row hrow hbad
        simp only [List.mem_cons, List.not_mem_nil, or_false] at hrow
        rcases hrow with rfl | rfl | rfl | rfl | rfl | rfl | rfl | rfl | rfl
        case inr.inl => exact oneOp_refused hf hc hbad
        all_goals exact oneOp_refused hf (by decide : 0 < 32768) hbad
    case frame =>
      obtain ⟨hfuture, hponds⟩ := applyOp_others hs hop slot hg
      exact ⟨hfuture, hponds, applyOp_tiers_of_zero hzero slot s hop⟩

end Sys2Proof
end

section
/-! The chip-level units: commands on the unit given to their pond, dispatch, and greedy suppression (09 R262, R263, R268 to
R272). -/

namespace Sys2Proof

open Machine Safety

/-! ## Commands on the unit given to their pond (09 R262, R263, R268 to R272) -/

/-- What a command of class `cls` leaves, once the unit that its pond holds has passed on. -/
def passUnit (cls p : Nat) (s : State) (o : Out) : Out :=
  match o with
  | .next t => .next (if physOf s p = 0xFF then t else settleUse cls (physOf s p) s t)
  | o => o

theorem execIctx_eq (p : Nat) (s : State) : execIctx p s =
    passUnit 0xA p s (onHead p 0xA 0x01 (key 0x2901 8) s (hasUnit 0xA) (fun _ _ q => ictxLegal q.cmd) fun _ q u =>
      ran (setCtx u (ictxContext q.cmd) (ictxOpens q.cmd p))) := rfl

theorem decodeRow_eq (p op : Nat) (s : State) : decodeRow p op s =
    passUnit 0xA p s (onHead p 0xA op (key 0x2901 8) s (hasUnit 0xA) (fun s ph q => decodeLegal s ph q.cmd) (runDecode p)
      fun s _ q => decodeReads s q.cmd) := rfl

theorem execBoxsel_eq (p : Nat) (s : State) : execBoxsel p s =
    passUnit 0x9 p s (onHead p 0x9 0x01 (key 0x2902 8) s (hasUnit 0x9) (fun s ph q => boxLegal s ph q.cmd) runBoxsel
      fun s ph q => boxReads (boxOf (pondOf s ph) q.cmd)) := rfl

section
variable {s : State} {p ph cls op own : Nat} {q : Queued} {rest : List Queued}
  {valid : State → Nat → Queued → Bool} {effect : Nat → Queued → State → Started}
  {reads : State → Nat → Queued → List Run}

/-- The head of a chip-level queue starts on the unit that its pond holds, which passes to it. -/
theorem onUnit_starts (h : AtHead s p ph cls q rest) (hunit : hasUnit cls s ph q = true) (hop : opcodeOf q.cmd = op)
    (hlegal : op ∈ legalOpcodes cls) (hvalid : valid s ph q = true)
    (hcause : (effect ph q (dequeued ph q rest s)).cause = none) (hreads : waitsRefetch s (reads s ph q) = false) :
    ∃ v, passUnit cls p s (onHead p cls op own s (hasUnit cls) valid effect reads) = .next (settleUse cls ph s v) ∧
      Starts (dequeued ph q rest s) v ph q (effect ph q (dequeued ph q rest s)) := by
  obtain ⟨v, hrun, hstarts⟩ := onHead_starts (own := own) h hop hunit hlegal hvalid rfl hcause hreads
  refine ⟨v, ?_, hstarts⟩
  have hpresent : physOf s p ≠ 0xFF := h.mapped.symm ▸ h.present
  rw [hrun, ← h.mapped]
  exact congrArg Host.Outcome.next (if_neg hpresent)

/-- DECODE or FLUSH takes no error exit on an open context of its own pond whose reads are mapped and servable. -/
theorem runDecode_cause (hopen : (ctxOf s (ictxContext q.cmd)).opened = true)
    (howner : (ctxOf s (ictxContext q.cmd)).owner = p) (hmapped : unitMapped s (decodeReads s q.cmd) = true)
    (hserved : unservable s (decodeReads s q.cmd) = false) : (runDecode p ph q s).cause = none := by
  unfold runDecode
  simp only [hopen, howner, hmapped, hserved, Bool.not_true, ne_eq, not_true, decide_false, Bool.or_self,
    Bool.false_eq_true, if_false]
  cases releasedOf s q.cmd <;> simp only [ran, apply_ite Started.cause, ite_self]

theorem runBoxsel_cause (hserved : unservable s (boxReads (boxOf (pondOf s ph) q.cmd)) = false) :
    (runBoxsel ph q s).cause = none := by
  unfold runBoxsel
  simp only [hserved]
  rfl

/-- DECODE and FLUSH are one row, which starts on an open context of its own pond. -/
theorem decodeRow_starts (h : AtHead s p ph 0xA q rest) (hunit : hasUnit 0xA s ph q = true) (hop : opcodeOf q.cmd = op)
    (hlegal : op ∈ legalOpcodes 0xA) (hvalid : decodeLegal s ph q.cmd = true)
    (hreads : waitsRefetch s (decodeReads s q.cmd) = false) :
    let u := dequeued ph q rest s
    (ctxOf u (ictxContext q.cmd)).opened = true → (ctxOf u (ictxContext q.cmd)).owner = p →
    unitMapped u (decodeReads u q.cmd) = true → unservable u (decodeReads u q.cmd) = false →
    ∃ v, decodeRow p op s = .next (settleUse 0xA ph s v) ∧ Starts u v ph q (runDecode p ph q u) := by
  intro u hopen howner hmapped hserved
  rw [decodeRow_eq]
  exact onUnit_starts h hunit hop hlegal hvalid (runDecode_cause hopen howner hmapped hserved) hreads

end

/-! ## Dispatch (09 R272) -/

section
variable {s : State} {cls : Nat}

/-- The heads that wait for a unit of a class, each with its logical pond. -/
def unitHeads (s : State) (cls : Nat) : List (Nat × Queued) :=
  (List.range (logicalCount s)).filterMap fun l => (dispatchable s cls l).map fun q => (l, q)

theorem execChipUnitDispatch_given {n l : Nat} {q : Queued} (hcls : cls = 0x9 ∨ cls = 0xA)
    (hfree : freeUnit s cls = some n) (holdest : minBy (fun e => e.2.pushed) (unitHeads s cls) = some (l, q)) :
    execChipUnitDispatch cls s = .next (setUses (endUnitWait cls (physOf s l) s)
      (liveUses s ++ [{ cls := cls, unit := n, pond := physOf s l, run := none, report := 0, bound := 0,
                        context := if cls = 0xA then some (ictxContext q.cmd) else none }])) := by
  unfold unitHeads at holdest
  simp only [execChipUnitDispatch, if_pos hcls, hfree, holdest]

theorem execChipUnitDispatch_waiting (hcls : cls = 0x9 ∨ cls = 0xA) (hfree : freeUnit s cls = none) :
    execChipUnitDispatch cls s =
      .next (forEach (unitHeads s cls) (fun e v => noteUnitWait cls (physOf v e.1) v) s) := by
  simp only [execChipUnitDispatch, if_pos hcls, hfree]
  rfl

end

/-! ## Greedy suppression (09 R270) -/

section
variable {a : BoxArgs} {kept : List Box}

theorem length_suppress_le (bs : List Box) (h : kept.length ≤ a.out) : (suppress a kept bs).length ≤ a.out := by
  induction bs generalizing kept with
  | nil => exact h
  | cons b bs ih =>
    rw [suppress]
    split_ifs with hfull hhit
    · exact h
    · exact ih h
    · exact ih (by rw [List.length_append]; exact Nat.not_le.mp hfull)

theorem suppress_sublist (a : BoxArgs) (kept bs : List Box) : (suppress a kept bs).Sublist (kept ++ bs) := by
  induction bs generalizing kept with
  | nil => exact List.sublist_append_left kept []
  | cons b bs ih =>
    rw [suppress]
    split_ifs
    · exact List.sublist_append_left kept (b :: bs)
    · exact (ih kept).trans ((List.sublist_cons_self b bs).append_left kept)
    · simpa using ih (kept ++ [b])

theorem suppress_pairwise (bs : List Box) (h : kept.Pairwise fun k b => suppresses a k b = false) :
    (suppress a kept bs).Pairwise fun k b => suppresses a k b = false := by
  induction bs generalizing kept with
  | nil => exact h
  | cons b bs ih =>
    rw [suppress]
    split_ifs with hfull hhit
    · exact h
    · exact ih h
    · have hclear : ∀ k ∈ kept, suppresses a k b = false := by simpa using hhit
      exact ih (List.pairwise_append.mpr ⟨h, List.pairwise_singleton _ b, by simpa using hclear⟩)

end

/-- Settles O38: each command is a head that starts on its pond's unit (`onUnit_starts`), and each claim about suppression is
an induction over the boxes still to come, from any list already kept. That the effects of DECODE, FLUSH and BOXSEL stand in
the step in which the command starts is the model's choice (log 16). -/
theorem unitCommands : Obligations.UnitCommands := by
  unfold Obligations.UnitCommands
  constructor
  · intro s p ph cls n l q rest u c
    refine ⟨fun h hunit => ⟨?ictx, ?decode⟩, ?boxsel, ?dispatch⟩
    case ictx =>
      intro hop hvalid
      change ∃ v, execIctx p s = _ ∧ _
      rw [execIctx_eq]
      exact onUnit_starts (effect := fun _ q u => ran (setCtx u (ictxContext q.cmd) (ictxOpens q.cmd p))) h hunit hop
        (by decide) hvalid rfl (waitsRefetch_nil s)
    case decode =>
      intro hvalid hreads hopen howner hmapped hserved
      exact ⟨fun hop => decodeRow_starts h hunit hop (by decide) hvalid hreads hopen howner hmapped hserved,
        fun hop => decodeRow_starts h hunit hop (by decide) hvalid hreads hopen howner hmapped hserved⟩
    case boxsel =>
      intro h hunit hop hvalid hreads hserved
      change ∃ v, execBoxsel p s = _ ∧ _
      rw [execBoxsel_eq]
      exact onUnit_starts h hunit hop (by decide) hvalid (runBoxsel_cause hserved) hreads
    case dispatch =>
      intro heads hcls
      exact ⟨execChipUnitDispatch_given hcls, execChipUnitDispatch_waiting hcls⟩
  · intro a bs
    exact ⟨length_suppress_le bs (Nat.zero_le a.out), suppress_sublist a [] bs, suppress_pairwise bs List.Pairwise.nil⟩

end Sys2Proof
end

section
/-! Every step keeps what `Keeps` names: one arm for each command, from the theorem about its meaning. The canonical form of
the tables is one part of it (10 R275, 14 R376). -/

namespace Sys2Proof

open Machine Safety Laws

/-- Every command keeps what its meaning keeps. -/
theorem exec_keeps {s : State} (c : Instr) : KeepsOut s (exec c s) := by
  have h : Keeps s s := .refl s
  cases c with
  | internalGeneratorEdge => exact execInternalGeneratorEdge_keeps h
  | tickInEdge _ _ => exact execTickInEdge_keeps h
  | tickSourceTakeover => exact execTickSourceTakeover_keeps h
  | readoptFallback => exact execReadoptFallback_keeps h
  | inputLatch => exact execInputLatch_keeps h
  | arrayStartStaggerRelease _ => exact execArrayStartStaggerRelease_keeps h
  | servingDispatchStart _ => exact execServingDispatchStart_keeps h
  | groupFetch _ _ => exact execGroupFetch_keeps h
  | servingEnd => exact execServingEnd_keeps h
  | rowRepair => exact execRowRepair_keeps h
  | costExceeded _ => exact execCostExceeded_keeps h
  | registerWrite _ _ _ _ _ => exact execRegisterWrite_keeps h
  | sourceSelectWrite _ _ => exact execSourceSelectWrite_keeps h
  | readoptRequest _ => exact execReadoptRequest_keeps h
  | readoptWithdraw _ => exact execReadoptWithdraw_keeps h
  | stagedBasinWrite _ _ _ _ => exact execStagedBasinWrite_keeps h
  | basinCommitRequest _ => exact execBasinCommitRequest_keeps h
  | testSpareRequest _ _ => exact execTestSpareRequest_keeps h
  | loadRequest _ => exact execLoadRequest_keeps h
  | programLoadDone => exact execProgramLoadDone_keeps h
  | bankSwitchRequest _ => exact execBankSwitchRequest_keeps h
  | clearBankRequest _ => exact execClearBankRequest_keeps h
  | stateStrideWrite _ _ => exact execStateStrideWrite_keeps h
  | poolConfigWrite _ _ _ _ => exact execPoolConfigWrite_keeps h
  | adoptRequest _ => exact execAdoptRequest_keeps h
  | fabricCommitRequest _ => exact execFabricCommitRequest_keeps h
  | taskStart _ _ => exact execTaskStart_keeps h
  | taskEnd _ _ => exact execTaskEnd_keeps h
  | acknowledgeSources _ _ _ => exact execAcknowledgeSources_keeps h
  | clearSources _ _ _ => exact execClearSources_keeps h
  | regimeRequest _ _ => exact execRegimeRequest_keeps h
  | retireRequest _ => exact execRetireRequest_keeps h
  | activationRequest _ => exact execActivationRequest_keeps h
  | verifyRequest _ => exact execVerifyRequest_keeps h
  | burnRequest _ => exact execBurnRequest_keeps h
  | relock _ => exact execRelock_keeps h
  | permanentDebugDisable _ => exact execPermanentDebugDisable_keeps h
  | marginRequest _ => exact execMarginRequest_keeps h
  | marginDone => exact execMarginDone_keeps h
  | powerStateRequest _ _ => exact execPowerStateRequest_keeps h
  | claim _ _ => exact execClaim_keeps h
  | leaseHeartbeat _ => exact execLeaseHeartbeat_keeps h
  | release _ => exact execRelease_keeps h
  | successor _ _ => exact execSuccessor_keeps h
  | accept _ => exact execAccept_keeps h
  | seize _ => exact execSeize_keeps h
  | resetCommunication _ => exact execResetCommunication_keeps h
  | electionClose => exact execElectionClose_keeps h
  | leaseExpiry => exact execLeaseExpiry_keeps h
  | handoverTimeout => exact execHandoverTimeout_keeps h
  | masterTableTimeout _ => exact execMasterTableTimeout_keeps h
  | commandPush _ _ _ => exact execCommandPush_keeps h
  | queueSlotFreed _ _ => exact execQueueSlotFreed_keeps h
  | commandComplete _ _ _ => exact execCommandComplete_keeps h
  | errorHandlerEntry _ => exact execErrorHandlerEntry_keeps h
  | gangErrorNotify _ => exact execGangErrorNotify_keeps h
  | set _ => exact execSet_keeps h
  | alu _ => exact execAlu_keeps h
  | load _ => exact execLoad_keeps h
  | store _ => exact execStore_keeps h
  | loop _ => exact execLoop_keeps h
  | endloop _ => exact execEndloop_keeps h
  | cmp _ => exact execCmp_keeps h
  | br _ => exact execBr_keeps h
  | sigpeer _ => exact execSigpeer_keeps h
  | peerSignalArrival _ => exact execPeerSignalArrival_keeps h
  | fence _ => exact execFence_keeps h
  | ret _ => exact execRet_keeps h
  | err _ => exact execErr_keeps h
  | nop _ => exact execNop_keeps h
  | resume _ => exact execResume_keeps h
  | sconf _ => exact execSconf_keeps h
  | ssend _ => exact execSsend_keeps h
  | sfree _ => exact execSfree_keeps h
  | creditReturn _ _ => exact execCreditReturn_keeps h
  | mma _ => exact execMma_keeps h
  | watchSampleDone _ => exact execWatchSampleDone_keeps h
  | wload _ => exact execWload_keeps h
  | expanderGrant _ => exact execExpanderGrant_keeps h
  | add _ => exact execAdd_keeps h
  | sub _ => exact execSub_keeps h
  | mul _ => exact execMul_keeps h
  | fma _ => exact execFma_keeps h
  | min _ => exact execMin_keeps h
  | max _ => exact execMax_keeps h
  | abs _ => exact execAbs_keeps h
  | neg _ => exact execNeg_keeps h
  | sel _ => exact execSel_keeps h
  | vectorCmp _ => exact execVectorCmp_keeps h
  | cvt _ => exact execCvt_keeps h
  | div _ => exact execDiv_keeps h
  | rcp _ => exact execRcp_keeps h
  | sqrt _ => exact execSqrt_keeps h
  | rsqrt _ => exact execRsqrt_keeps h
  | exp2 _ => exact execExp2_keeps h
  | log2 _ => exact execLog2_keeps h
  | exp _ => exact execExp_keeps h
  | log _ => exact execLog_keeps h
  | tanh _ => exact execTanh_keeps h
  | sigmoid _ => exact execSigmoid_keeps h
  | silu _ => exact execSilu_keeps h
  | gelu _ => exact execGelu_keeps h
  | softplus _ => exact execSoftplus_keeps h
  | rrow _ => exact execRrow_keeps h
  | rcol _ => exact execRcol_keeps h
  | gate _ => exact execGate_keeps h
  | pool _ => exact execPool_keeps h
  | sstep _ => exact execSstep_keeps h
  | scan _ => exact execScan_keeps h
  | sfix _ => exact execSfix_keeps h
  | tload _ => exact execTload_keeps h
  | create _ _ _ => exact execCreate_keeps h
  | fork _ _ _ _ => exact execFork_keeps h
  | park _ _ _ => exact execPark_keeps h
  | unpark _ _ _ => exact execUnpark_keeps h
  | retire _ _ _ => exact execRetire_keeps h
  | setFuture _ _ _ => exact execSetFuture_keeps h
  | truncate _ _ _ => exact execTruncate_keeps h
  | shift _ _ _ => exact execShift_keeps h
  | setuser _ _ _ => exact execSetuser_keeps h
  | pwalk _ => exact execPwalk_keeps h
  | pappend _ => exact execPappend_keeps h
  | attf _ => exact execAttf_keeps h
  | attb _ => exact execAttb_keeps h
  | ictx _ => exact execIctx_keeps h
  | decode _ => exact execDecode_keeps h
  | flush _ => exact execFlush_keeps h
  | boxsel _ => exact execBoxsel_keeps h
  | chipUnitDispatch _ => exact execChipUnitDispatch_keeps h
  | directiveRingRead => exact execDirectiveRingRead_keeps h
  | define _ => exact execDefine_keeps h
  | place _ => exact execPlace_keeps h
  | free _ => exact execFree_keeps h
  | setbackup _ => exact execSetbackup_keeps h
  | clean _ => exact execClean_keeps h
  | setmask _ => exact execSetmask_keeps h
  | directiveComplete _ => exact execDirectiveComplete_keeps h
  | frameRelease _ _ => exact execFrameRelease_keeps h
  | migrationDone _ => exact execMigrationDone_keeps h
  | copy _ => exact execCopy_keeps h
  | fp32Add _ => exact execFp32Add_keeps h
  | zeroFill _ => exact execZeroFill_keeps h
  | pfmark _ => exact execPfmark_keeps h
  | uncorrectableMemoryError _ => exact execUncorrectableMemoryError_keeps h
  | refetchDone _ => exact execRefetchDone_keeps h
  | correctedError _ => exact execCorrectedError_keeps h
  | hbmRecentre _ => exact execHbmRecentre_keeps h
  | shoreWckCheck _ _ => exact execShoreWckCheck_keeps h
  | shoreRetrainDone _ => exact execShoreRetrainDone_keeps h
  | flitReceive _ _ _ _ => exact execFlitReceive_keeps h
  | brookRetrainDone _ _ => exact execBrookRetrainDone_keeps h
  | laneErrorWindow _ _ _ => exact execLaneErrorWindow_keeps h
  | ack _ _ => exact execAck_keeps h
  | creditGrant _ _ _ => exact execCreditGrant_keeps h
  | spareRequest _ _ => exact execSpareRequest_keeps h
  | spareConfirm _ _ => exact execSpareConfirm_keeps h
  | widthChange _ _ => exact execWidthChange_keeps h
  | endToEndAck _ _ _ => exact execEndToEndAck_keeps h
  | identity _ _ => exact execIdentity_keeps h
  | write _ _ _ _ => exact execWrite_keeps h
  | writeLastSignal _ _ _ _ _ => exact execWriteLastSignal_keeps h
  | readRequest _ _ _ _ _ => exact execReadRequest_keeps h
  | readResponse _ _ _ _ _ => exact execReadResponse_keeps h
  | collectivePart _ _ _ _ _ _ _ => exact execCollectivePart_keeps h
  | endToEndTimeout _ _ => exact execEndToEndTimeout_keeps h
  | put _ => exact execPut_keeps h
  | get _ => exact execGet_keeps h
  | allreduce _ => exact execAllreduce_keeps h
  | reducescatter _ => exact execReducescatter_keeps h
  | allgather _ => exact execAllgather_keeps h
  | broadcast _ => exact execBroadcast_keeps h
  | alltoall _ => exact execAlltoall_keeps h
  | stampchk _ => exact execStampchk_keeps h
  | waitf _ => exact execWaitf_keeps h
  | waitfTimeout _ => exact execWaitfTimeout_keeps h
  | collectiveTimeout _ => exact execCollectiveTimeout_keeps h
  | permute _ => exact execPermute_keeps h
  | permuteRoundEnd _ => exact execPermuteRoundEnd_keeps h
  | sliceExpiry _ => exact execSliceExpiry_keeps h
  | schedulerDecision _ => exact execSchedulerDecision_keeps h
  | restoreDone _ => exact execRestoreDone_keeps h
  | forcedStop _ => exact execForcedStop_keeps h
  | switchOutSave _ => exact execSwitchOutSave_keeps h
  | switchOutDone _ => exact execSwitchOutDone_keeps h
  | mailboxGo _ _ _ _ => exact execMailboxGo_keeps h
  | usdoRequest _ _ _ => exact execUsdoRequest_keeps h
  | usdoSessionTimeout _ _ => exact execUsdoSessionTimeout_keeps h
  | nmtStart _ => exact execNmtStart_keeps h
  | nmtStop _ => exact execNmtStop_keeps h
  | nmtEnterPreoperational _ => exact execNmtEnterPreoperational_keeps h
  | nmtResetNode _ => exact execNmtResetNode_keeps h
  | nmtResetCommunication _ => exact execNmtResetCommunication_keeps h
  | heartbeat => exact execHeartbeat_keeps h
  | emcyInhibitExpiry _ => exact execEmcyInhibitExpiry_keeps h
  | tpdoInhibitExpiry _ => exact execTpdoInhibitExpiry_keeps h
  | tpdoEventTimer _ => exact execTpdoEventTimer_keeps h
  | busOff _ => exact execBusOff_keeps h
  | busOffRecovery _ => exact execBusOffRecovery_keeps h
  | escalationExpiry _ => exact execEscalationExpiry_keeps h
  | pondWatchdogTimeout _ => exact execPondWatchdogTimeout_keeps h
  | spareCopyDone _ => exact execSpareCopyDone_keeps h
  | memberEvacuationDone _ _ => exact execMemberEvacuationDone_keeps h
  | powerPhaseFailure => exact execPowerPhaseFailure_keeps h
  | serviceCoreWatchdog => exact execServiceCoreWatchdog_keeps h
  | activationTimeout => exact execActivationTimeout_keeps h
  | perstNAssert => exact execPerstNAssert_keeps h
  | hotReset => exact execHotReset_keeps h
  | linkTrained _ _ => exact execLinkTrained_keeps h
  | cxlLinkDown => exact execCxlLinkDown_keeps h
  | linkRetrainTimer => exact execLinkRetrainTimer_keeps h
  | linkLossTimeout => exact execLinkLossTimeout_keeps h
  | hostMemRead _ _ _ => exact execHostMemRead_keeps h
  | hostMemWrite _ _ => exact execHostMemWrite_keeps h
  | snoopResponse _ _ => exact execSnoopResponse_keeps h
  | modrstNRelease _ => exact execModrstNRelease_keeps h
  | bootStageEnd _ => exact execBootStageEnd_keeps h
  | verifyDone => exact execVerifyDone_keeps h
  | getVersion => exact execGetVersion_keeps h
  | getCapabilities => exact execGetCapabilities_keeps h
  | negotiateAlgorithms => exact execNegotiateAlgorithms_keeps h
  | getDigests => exact execGetDigests_keeps h
  | getCertificate _ => exact execGetCertificate_keeps h
  | challenge _ => exact execChallenge_keeps h
  | getMeasurements _ => exact execGetMeasurements_keeps h
  | tapReset => exact execTapReset_keeps h
  | extest _ => exact execExtest_keeps h
  | samplePreload _ => exact execSamplePreload_keeps h
  | idcode => exact execIdcode_keeps h
  | lockstat => exact execLockstat_keeps h
  | nonce => exact execNonce_keeps h
  | unlock _ => exact execUnlock_keeps h
  | unlockVerifyDone => exact execUnlockVerifyDone_keeps h
  | dict _ => exact execDict_keeps h
  | debugStatus _ => exact execDebugStatus_keeps h
  | debugHalt _ => exact execDebugHalt_keeps h
  | debugResume _ => exact execDebugResume_keeps h
  | debugStep _ => exact execDebugStep_keeps h
  | debugHaltGang _ => exact execDebugHaltGang_keeps h
  | debugRelock _ => exact execDebugRelock_keeps h
  | pondHalted _ => exact execPondHalted_keeps h
  | brkpt _ => exact execBrkpt_keeps h
  | dbgmemPoll => exact execDbgmemPoll_keeps h
  | dbgmemRead _ _ _ => exact execDbgmemRead_keeps h
  | dbgmemWrite _ _ _ _ => exact execDbgmemWrite_keeps h
  | bypass => exact execBypass_keeps h
  | powerEntryDone => exact execPowerEntryDone_keeps h
  | powerExitDone => exact execPowerExitDone_keeps h
  | wakeNAssert _ => exact execWakeNAssert_keeps h
  | wakeNRelease => exact execWakeNRelease_keeps h
  | wakeTimerExpiry => exact execWakeTimerExpiry_keeps h
  | pondPowerUp => exact execPondPowerUp_keeps h
  | supplyOutOfRange _ => exact execSupplyOutOfRange_keeps h
  | supplyStop => exact execSupplyStop_keeps h
  | supplyRecovered => exact execSupplyRecovered_keeps h
  | temperatureHigh _ => exact execTemperatureHigh_keeps h
  | temperatureCritical => exact execTemperatureCritical_keeps h
  | coolDownRelease => exact execCoolDownRelease_keeps h
  | pwrOkFall => exact execPwrOkFall_keeps h
  | modrstNAssert => exact execModrstNAssert_keeps h
  | perstNRelease => exact execPerstNRelease_keeps h
  | powerUp => exact execPowerUp_keeps h
  | powerStagesOff => exact execPowerStagesOff_keeps h
  | wakeNPulseFiltered => exact execWakeNPulseFiltered_keeps h
  | msixUnmask _ => exact execMsixUnmask_keeps h
  | spdmUnsupportedRequest => exact execSpdmUnsupportedRequest_keeps h
  | chipEngineUnitFailed _ _ => exact execChipEngineUnitFailed_keeps h

/-- A step keeps everything but the command that it takes from the queue (log 1). -/
theorem step_keeps {s t : State} (h : step s = .next t) : Keeps { s with pending := s.pending.tail } t := by
  unfold step at h
  split at h
  case h_1 hidle =>
    cases h
    exact Keeps.same (.refl _) (by simp [hidle])
  case h_2 c rest hqueue =>
    rw [hqueue]
    exact exec_keeps c t h

/-- The queue of commands is no table. -/
theorem canonical_pending {s : State} (h : Canonical s) (cs : List Instr) : Canonical { s with pending := cs } :=
  { h with }

/-- Settles O4: `Keeps` carries the canonical form over every command. -/
theorem stepKeepsCanonical : Obligations.StepKeepsCanonical := by
  unfold Obligations.StepKeepsCanonical
  intro s t hs hstep
  exact (step_keeps hstep).canonical (canonical_pending hs _)

end Sys2Proof
end

section
/-! The directives of the memory tiers: performed with their effect, or refused with their result (10 R283, R284, Table
MEM-7). -/

namespace Sys2Proof

open Machine Safety

section
variable {s : State} {i op : Nat} {d : Directive}

/-- Directive `d` has been checked, with result `r`. -/
def judged (d : Directive) (r : Nat) (s : State) : State :=
  { s with tiers := { s.tiers with directives := s.tiers.directives.map fun x =>
    if x = d then { d with result := r, performed := true } else x } }

/-- The entry of a directive that started with opcode `op`: what its slot holds, under that opcode and the object that it
named. -/
def startedEntry (s : State) (i op : Nat) (d : Directive) : DirectiveEntry :=
  { directiveAt s i with op := op, obj := d.obj }

theorem performDirective_found (effect : Nat → DirectiveEntry → State → State)
    (hfind : s.tiers.directives.find? (fun d => decide (d.index = i) && decide (d.op = op) && !d.performed) = some d) :
    performDirective i op effect s = .next (
      let en := startedEntry s i op d
      if directiveResult s en = 0 then effect i en (judged d (directiveResult s en) s)
      else judged d (directiveResult s en) s) := by
  unfold performDirective
  rw [hfind]
  rfl

theorem performDirective_accepted {effect : Nat → DirectiveEntry → State → State}
    (hfind : s.tiers.directives.find? (fun d => decide (d.index = i) && decide (d.op = op) && !d.performed) = some d)
    (hr : directiveResult s (startedEntry s i op d) = 0) :
    performDirective i op effect s = .next (effect i (startedEntry s i op d)
      (judged d (directiveResult s (startedEntry s i op d)) s)) :=
  (performDirective_found effect hfind).trans (congrArg _ (if_pos hr))

theorem performDirective_refused {effect : Nat → DirectiveEntry → State → State}
    (hfind : s.tiers.directives.find? (fun d => decide (d.index = i) && decide (d.op = op) && !d.performed) = some d)
    (hr : directiveResult s (startedEntry s i op d) ≠ 0) :
    performDirective i op effect s = .next (judged d (directiveResult s (startedEntry s i op d)) s) :=
  (performDirective_found effect hfind).trans (congrArg _ (if_neg hr))

end

/-- Settles O39: the six directives are one row, `performDirective`, each with its own effect. -/
theorem directivesPerformed : Obligations.DirectivesPerformed := by
  unfold Obligations.DirectivesPerformed
  intro s i op d _ hfind en r u o new
  refine ⟨fun hr => ?performed, fun hr => ?refused⟩
  case performed =>
    have hperformed (effect : Nat → DirectiveEntry → State → State) :
        performDirective i op effect s = .next (effect i en u) := performDirective_accepted hfind hr
    refine ⟨?define, ?place, ?free, ?setbackup, ?clean, ?setmask⟩ <;> rintro rfl
    case define => exact hperformed defineEffect
    case place => exact hperformed placeEffect
    case free => exact hperformed freeEffect
    case setbackup => exact hperformed setbackupEffect
    case clean => exact hperformed cleanEffect
    case setmask => exact hperformed setmaskEffect
  case refused =>
    have hrefused (effect : Nat → DirectiveEntry → State → State) : performDirective i op effect s = .next u :=
      performDirective_refused hfind hr
    refine ⟨?define, ?place, ?free, ?setbackup, ?clean, ?setmask⟩ <;> rintro rfl
    case define => exact hrefused defineEffect
    case place => exact hrefused placeEffect
    case free => exact hrefused freeEffect
    case setbackup => exact hrefused setbackupEffect
    case clean => exact hrefused cleanEffect
    case setmask => exact hrefused setmaskEffect

end Sys2Proof
end

section
/-! The events of the memory tiers: the ring is read, a directive completes, a frame is free again, a copy ends, and a member
has no frame left (10 R283, R284, R287; 15 R420). -/

namespace Sys2Proof

open Machine Safety

/-! ## The directive ring and the completion of a directive (10 R283) -/

section
variable {s : State} {i : Nat} {d : Directive}

theorem exec_directiveRingRead_mapped (hmapped : mappedAt s directivePublish = true) (hawake : tiersAsleep s = false) :
    exec .directiveRingRead s = .next (startDirectives (readLe s directivePublish 8) 16 s) := by
  change execDirectiveRingRead s = _
  simp [execDirectiveRingRead, hmapped, hawake]

/-- The object of an accepted PLACE, and its extents in that tier, show the tier and pinned flag of the directive. -/
def shownPlace (i : Nat) (d : Directive) (s : State) : State :=
  let en := directiveAt s i
  forEach (objExtents (objOf s d.obj)) (fun e v =>
    if (extentOf v e).tier = en.tier then setExtent v e { extentOf v e with pinned := en.pinned } else v)
    (setObject s d.obj { objOf s d.obj with tier := en.tier, pinned := en.pinned })

/-- A directive's result is written and counted, and the consumed count moves over it. -/
def finished (i : Nat) (d : Directive) (v : State) : State :=
  advanceConsumed 1024 (addObj (writeResult i d.result
    { v with tiers := { v.tiers with directives := v.tiers.directives.map fun q =>
      if q = d then { d with complete := true } else q } }) (key 0x2A03 (if d.result = 0 then 1 else 2)) 1)

/-- A performed directive whose moves have ended completes; an accepted PLACE shows its effect first. -/
theorem exec_directiveComplete_ended
    (hfind : s.tiers.directives.find? (fun d => decide (d.index = i) && d.performed && !d.complete) = some d)
    (hended : ∀ m ∈ s.tiers.migrations, m.directive ≠ some i) :
    exec (.directiveComplete i) s =
      .next (finished i d (if d.op = 2 ∧ d.result = 0 then shownPlace i d s else s)) := by
  have hnone : (s.tiers.migrations.any fun m => decide (m.directive = some i)) = false := by simpa using hended
  change execDirectiveComplete i s = _
  unfold execDirectiveComplete
  rw [hfind]
  dsimp only
  rw [hnone]
  rfl

end

/-! ## Frames, copies and members (10 R284, R287; 15 R420) -/

section
variable {s : State} {tier n fr e : Nat} {m : Migration}

theorem exec_frameRelease_waiting (h : (tier, fr) ∈ s.tiers.releasing) :
    exec (.frameRelease tier fr) s = .next (pumpMigrations (releasedFrame tier fr s)) :=
  congrArg Host.Outcome.next (if_pos h)

/-- A copy from or to tier 2 is not held once the link is up (16 R438). -/
theorem copy_not_held {a b : Nat} (h : linkUp s = true ∨ (a ≠ 2 ∧ b ≠ 2)) :
    (!linkUp s && (decide (a = 2) || decide (b = 2))) = false := by
  rcases h with hup | ⟨ha, hb⟩
  · simp [hup]
  · simp [ha, hb]

/-- The bytes of a copy of one extent have moved and are counted at both tiers (10 R287; 0x2A05). -/
def copied (s : State) (fromTier fromFrame toTier toFrame : Nat) : State :=
  addObj (addObj (copyFrame s fromTier fromFrame toTier toFrame) (key 0x2A05 (2 * fromTier + 1)) extentSize)
    (key 0x2A05 (2 * toTier + 2)) extentSize

/-- A copy that has ended, with its old frame on its way to be free. -/
def leftFrame (s : State) (x : Extent) (m : Migration) (fr : Nat) : State :=
  let u := copied s x.tier x.frame m.toTier fr
  releaseFrame x.tier x.frame { u with tiers := { u.tiers with migrations := u.tiers.migrations.erase m } }

theorem exec_migrationDone_copied
    (hfind : s.tiers.migrations.find? (fun m => decide (m.extent = e) && m.toFrame.isSome) = some m)
    (hframe : m.toFrame = some fr) (hlink : linkUp s = true ∨ ((extentOf s e).tier ≠ 2 ∧ m.toTier ≠ 2)) :
    let x := extentOf s e
    let v := leftFrame s x m fr
    exec (.migrationDone e) s = .next (retryEvacuation (noteEntry m.schedule (addObj (setExtent v e
      { x with tier := m.toTier, frame := fr, migrating := false, pinned := pinnedAfter v m x }) (key 0x2A03 3) 1))) := by
  intro x v
  change execMigrationDone e s = _
  unfold execMigrationDone
  rw [hfind]
  dsimp only
  rw [copy_not_held hlink, hframe]
  rfl

/-- The member is retired: its channels are out of service, and none of them is degraded any more (15 R420, R422). -/
def retiredMember (tier n : Nat) (s : State) : State :=
  let u := forEach (groupMembers tier n) (fun i v => setMember v tier i { memberOf v tier i with state := 2 }) s
  followDegraded (addObj { u with tiers := { u.tiers with
    evacuating := u.tiers.evacuating.erase (tier, n),
    degraded := u.tiers.degraded.filter fun k =>
      !(decide (k / 1024 = tier) && decide (groupOf tier (k % 1024) = n)) } } (key 0x2E10 7) 1)

theorem exec_memberEvacuationDone_empty (htier : tier < 2) (hn : n < memberGroups tier)
    (hmember : (tier, n) ∈ s.tiers.evacuating) (hleft : framesLeft s tier n = 0) :
    let w := retiredMember tier n s
    exec (.memberEvacuationDone tier n) s = .next (
      if w.requests.retire = some (tier, n) then
        setObj (setObj { w with requests := { w.requests with retire := none } } (key 0x2E10 0xB) 0) (key 0x2E10 0xC) 0
      else w) := by
  intro w
  change execMemberEvacuationDone tier n s = _
  rw [execMemberEvacuationDone, if_pos ⟨htier, hn⟩, if_pos ⟨hmember, hleft⟩]
  rfl

end

/-- Settles O40, event by event. That PLACE pins its extents at its completion (log 25) and that the bytes of a migration
are counted at 0x2A05 (log 29) is deduced. -/
theorem tierEvents : Obligations.TierEvents := by
  unfold Obligations.TierEvents
  intro s i tier n fr e d m
  refine ⟨exec_directiveRingRead_mapped, ?complete, exec_frameRelease_waiting, exec_migrationDone_copied, ?evacuated⟩
  case complete =>
    intro hfind hended en placed finish
    have hrun := exec_directiveComplete_ended hfind hended
    constructor
    · intro hother
      rw [if_neg hother] at hrun
      exact hrun
    · intro hop hr
      rw [if_pos ⟨hop, hr⟩] at hrun
      exact hrun
  case evacuated =>
    intro htier hn hmember hleft u w
    have hrun := exec_memberEvacuationDone_empty htier hn hmember hleft
    exact ⟨fun hother => hrun.trans (congrArg _ (if_neg hother)), fun hasked => hrun.trans (congrArg _ (if_pos hasked))⟩

end Sys2Proof
end

section
/-! Errors, recalibration and re-fetches of memory members (10 R276, R302, R303, R307; 15 R422). -/

namespace Sys2Proof

open Machine Safety

/-! ## Errors of memory (10 R276, R302; 15 R422) -/

section
variable {s : State} {uda e c : Nat}

theorem exec_uncorrectableMemoryError_mapped (he : extentIndex uda = some e) (hmapped : (extentOf s e).tier < 3) :
    exec (.uncorrectableMemoryError uda) s = .next (serveReads (poisonExtent uda e s)) := by
  change execUncorrectableMemoryError uda s = _
  unfold execUncorrectableMemoryError
  rw [he]
  exact congrArg _ (if_pos hmapped)

/-- The instants of the last hour, with the present one (15 R422). -/
def lastHour (now : Nat) (times : List Nat) : List Nat := now :: times.filter fun t => decide (now < t + hourClk)

/-- A corrected error is counted at its tier and member, which is degraded at its threshold (10 R276, 15 R422). -/
def countCorrected (tier i : Nat) (s : State) : State :=
  let u := addObj s (key 0x2A04 (1 + tier)) 1
  let recent := lastHour s.now (memberOf u tier i).recent
  let v := setMember u tier i
    { memberOf u tier i with corrected := (memberOf u tier i).corrected + 1, recent := recent }
  if getObj v (key 0x2E10 1) ≤ recent.length then degrade tier i v else v

/-- A corrected error of tier 0 is noted at its row, with source 47 at the threshold (15 R422). -/
def noteRow (row : Nat) (s : State) : State :=
  let hits := lastHour s.now (mapFind [] s.tiers.rows row)
  let x := { s with tiers := { s.tiers with rows := mapPut [] s.tiers.rows row hits } }
  if getObj x (key 0x2E10 2) ≤ hits.length then rowEvent row x else x

theorem exec_correctedError_counted (htier : (extentAt s uda).tier < 2) :
    let tier := (extentAt s uda).tier
    let w := countCorrected tier (memberOfByte (extentAt s uda) (uda % extentSize)) s
    exec (.correctedError uda) s =
      .next (if tier = 0 then noteRow (rowOfByte (extentAt s uda) (uda % extentSize)) w else w) :=
  congrArg Host.Outcome.next (if_neg (Nat.not_le.mpr htier))

/-! ## Recalibration (10 R307) -/

theorem exec_hbmRecentre_working (hc : c < 512) (hworks : memberWorks (memberOf s 0 c) = true) :
    exec (.hbmRecentre c) s =
      .next (setMember s 0 c { memberOf s 0 c with recals := (memberOf s 0 c).recals + 1 }) := by
  change execHbmRecentre c s = _
  rw [execHbmRecentre, if_pos hc]
  exact congrArg _ (if_pos hworks)

theorem exec_shoreWckCheck_working (hc : c < 64) (hworks : memberWorks (memberOf s 1 c) = true) (drift : Bool) :
    exec (.shoreWckCheck c drift) s =
      .next (if drift then setMember s 1 c { memberOf s 1 c with retraining := true } else s) := by
  change execShoreWckCheck c drift s = _
  simp only [execShoreWckCheck, if_pos hc, hworks, Bool.true_and]

theorem exec_shoreRetrainDone_retraining (hc : c < 64) (hretrains : (memberOf s 1 c).retraining = true) :
    exec (.shoreRetrainDone c) s = .next (serveReads (flushWrites
      (setMember s 1 c { memberOf s 1 c with retraining := false, recals := (memberOf s 1 c).recals + 1 }))) := by
  change execShoreRetrainDone c s = _
  rw [execShoreRetrainDone, if_pos hc]
  exact congrArg _ (if_pos hretrains)

end

/-! ## Re-fetches (10 R303, R304) -/

section
variable {s : State} {e : Nat} {r : Refetch}

/-- The object that an extent belongs to is poisoned while one of its extents is. -/
def followPoison (e : Nat) (s : State) : State :=
  match objectOfExtent s e with
  | none => s
  | some o => setObject s o { objOf s o with poisoned := (objExtents (objOf s o)).any fun k => (extentOf s k).poisoned }

/-- A re-fetch of extent `e` from the extent `b` into frame `fr` has ended: the bytes have moved, the map has switched, and
the poison is gone. -/
def refetched (e : Nat) (b : Extent) (fr : Nat) (x : Extent) (s : State) : State :=
  followPoison e (setExtent (copied s b.tier b.frame x.tier fr) e { x with frame := fr, poisoned := false })

theorem exec_refetchDone_served (hfind : s.tiers.refetches.find? (fun r => decide (r.extent = e)) = some r)
    (hlink : linkUp s = true ∨ ((extentOf s r.backup).tier ≠ 2 ∧ (extentOf s e).tier ≠ 2)) :
    let x := extentOf s e
    let b := extentOf s r.backup
    let u := { s with tiers := { s.tiers with refetches := s.tiers.refetches.erase r } }
    exec (.refetchDone e) s = .next (
      if 3 ≤ b.tier ∨ b.poisoned = true then
        serveReads (refetchFailed e (markFrame u x.tier r.toFrame false))
      else retryEvacuation (serveReads (addObj (refetched e b r.toFrame x u) (key 0x2A04 7) 1))) := by
  intro x b u
  have hgoes : ¬ ((!linkUp s) = true ∧ (b.tier = 2 ∨ x.tier = 2)) := by
    rintro ⟨hdown, htier⟩
    rcases hlink with hup | ⟨hb, hx⟩
    · simp [hup] at hdown
    · exact htier.elim hb hx
  change execRefetchDone e s = _
  unfold execRefetchDone
  rw [hfind]
  exact congrArg _ (if_neg hgoes)

end

/-- Settles O41, event by event. That a re-fetch counts its bytes at 0x2A05 (log 29) and which member holds a byte (log 11)
is deduced. -/
theorem memberEvents : Obligations.MemberEvents := by
  unfold Obligations.MemberEvents
  intro s uda e c r
  refine ⟨exec_uncorrectableMemoryError_mapped, ?corrected, exec_hbmRecentre_working, ?check,
    exec_shoreRetrainDone_retraining, ?refetch⟩
  case corrected =>
    intro htier tier i u recent v w row hits x
    have hrun := exec_correctedError_counted htier
    exact ⟨fun hone => hrun.trans (congrArg _ (if_neg (by omega))), fun hzero => hrun.trans (congrArg _ (if_pos hzero))⟩
  case check =>
    exact fun hc hworks =>
      ⟨exec_shoreWckCheck_working hc hworks true, exec_shoreWckCheck_working hc hworks false⟩
  case refetch =>
    intro hfind x b u hlink
    have hrun := exec_refetchDone_served hfind hlink
    constructor
    · intro htier hsound v w z
      have hgood : ¬ (3 ≤ b.tier ∨ b.poisoned = true) := by simp [hsound, htier]
      exact hrun.trans (congrArg _ (if_neg hgood))
    · exact fun hlost => hrun.trans (congrArg _ (if_pos hlost))

end Sys2Proof
end

section
/-! The DMA commands of a pond: COPY in its three forms, and PFMARK (10 R280, R286, R292, R295 to R297, R304). -/

namespace Sys2Proof

open Machine Safety

section
variable {s : State} {p ph cls own : Nat} {q : Queued} {rest : List Queued} {r : Started}
  {mine ready valid : State → Nat → Queued → Bool} {effect : Nat → Queued → State → Started}
  {reads : State → Nat → Queued → List Run}

/-- The head of a queue that is this row's starts once its engine is ready, its reads wait for nothing and it is legal. -/
theorem onHeadIf_starts (h : AtHead s p ph cls q rest) (hmine : mine s ph q = true) (hready : ready s ph q = true)
    (hlegal : opcodeOf q.cmd ∈ legalOpcodes cls) (hvalid : valid s ph q = true)
    (hr : effect ph q (dequeued ph q rest s) = r) (hcause : r.cause = none)
    (hreads : waitsRefetch s (reads s ph q) = false) :
    ∃ t, onHeadIf p cls own mine s ready valid effect reads = .next t ∧ Starts (dequeued ph q rest s) t ph q r := by
  obtain ⟨⟨hp, hph, hpresent⟩, hqueue, hwait, hfree, hgrant⟩ := h
  subst hph
  refine ⟨_, ?_, startQueued_starts rfl hr hcause⟩
  rw [onHeadIf, onPond_mapped hp hpresent]
  simp [hqueue, hmine, hwait, hfree, hready, hreads, hlegal, hvalid, hgrant]

end

section
variable {s : State} {p ph : Nat} {q : Queued} {rest : List Queued}

/-! ## COPY (10 R286, R296, R297) -/

/-- A COPY has counted what it reads and writes, and the granules of an add (10 R286, R297). -/
def copyCounted (ph : Nat) (q : Queued) (s : State) : State :=
  let c := q.cmd
  let v := countBytes true (copyWrites c) (countBytes false (copyReads c)
    (tierMiss ph q.program (copyReads c ++ copyWrites c) s))
  if copyOp c = 1 then addObj v (key 0x2A05 7) ((copyWrites c).map granulesOf).sum else v

/-- A COPY whose bytes are mapped, writable and servable moves its rows in ascending order. -/
theorem runCopy_of_sound (hmapped : unitMapped s (copyReads q.cmd ++ copyWrites q.cmd) = true)
    (hwritable : unitReadOnly s (copyWrites q.cmd) = false) (hserved : unservable s (copyReads q.cmd) = false) :
    runCopy p ph q s = { ran (forUpTo (copyRows q.cmd) (moveRow p ph q.cmd) (copyCounted ph q s)) with
      epochReads := epochOf s ph (copyReads q.cmd) } := by
  unfold runCopy
  simp only [hmapped, hwritable, hserved]
  rfl

theorem isCopy_of_opcode (hop : opcodeOf q.cmd = 0x01) : isCopy (copyOp q.cmd) s ph q = true := by
  simp [isCopy, hop]

theorem copyRow_starts (h : AtHead s p ph 0x4 q rest) (hfree : dmaFree (pondOf s ph) = true)
    (hop : opcodeOf q.cmd = 0x01) (hvalid : copyLegal (gangMembers s p).length q.cmd = true)
    (hreads : waitsRefetch s (copyReads q.cmd) = false) :
    let u := dequeued ph q rest s
    unitMapped u (copyReads q.cmd ++ copyWrites q.cmd) = true → unitReadOnly u (copyWrites q.cmd) = false →
    unservable u (copyReads q.cmd) = false →
    ∃ t, copyRow p (copyOp q.cmd) s = .next t ∧
      Starts u t ph q { ran (forUpTo (copyRows q.cmd) (moveRow p ph q.cmd) (copyCounted ph q u)) with
        epochReads := epochOf u ph (copyReads q.cmd) } := by
  intro u hmapped hwritable hserved
  have hlegal : opcodeOf q.cmd ∈ legalOpcodes 0x4 := hop ▸ by decide
  exact onHeadIf_starts h (isCopy_of_opcode hop) hfree hlegal hvalid (runCopy_of_sound hmapped hwritable hserved) rfl
    hreads

/-! ## PFMARK (10 R295) -/

theorem exec_pfmark_starts (h : AtHead s p ph 0x4 q rest) (hfree : dmaFree (pondOf s ph) = true)
    (hop : opcodeOf q.cmd = 0x02) (hvalid : pfmarkLegal s q.cmd = true) :
    let n := pfSchedule q.cmd
    let m := pfMark q.cmd
    let v := markSchedule n m (dequeued ph q rest s)
    ∃ t, exec (.pfmark p) s = .next t ∧ Starts (dequeued ph q rest s) t ph q
      { ran v with waits := if pfWait q.cmd then markTier v n m * 65536 + n * 4096 + m + 1 else 0 } := by
  intro n m v
  change ∃ t, execPfmark p s = .next t ∧ _
  exact onHead_starts h hop hfree (by decide) hvalid rfl rfl (waitsRefetch_nil s)

end

/-- Settles O42: COPY, FP32 add and zero fill are one row (`copyRow_starts`), chosen by the op field. That the rows land when
the command starts (log 16), each read whole before it is written and one after the other (log 19), is the model's choice. -/
theorem dmaCommands : Obligations.DmaCommands := by
  unfold Obligations.DmaCommands
  intro s p ph q rest h hfree u c
  refine ⟨?copy, exec_pfmark_starts h hfree⟩
  case copy =>
    intro hop hvalid hreads hmapped hwritable hserved v w
    obtain ⟨t, hrun, hstarts⟩ := copyRow_starts h hfree hop hvalid hreads hmapped hwritable hserved
    have hrow {op : Nat} (ho : copyOp c = op) : copyRow p op s = .next t := ho ▸ hrun
    exact ⟨t, hrow, hrow, hrow, hstarts⟩

end Sys2Proof
end

section
/-! Requests and masks of the fabric, the numerics, the tasks, the weir, the firmware, the debug lock and the power state,
written as one object, or as three for a task (11 R312; 12 R341; 13 R360; 14 R381; 15 R405 to R408, R420, R425; 16 R446,
R447, R452; 17 R460). -/

namespace Sys2Proof

open Machine Safety

/-! ## One-shot requests without a result object -/

/-- The one-shot objects whose request has a result object of its own (14 Table DIC-4 check 12). -/
def resultKeys : List Nat := [key 0x2610 3, key 0x2A20 4, key 0x2E10 0xB, key 0x2E30 1, key 0x3020 3]

theorem resultRequest_eq_none_of_notMem {s : State} {k v : Nat} (h : k ∉ resultKeys) : resultRequest k v s = none := by
  simp only [resultKeys, List.mem_cons, List.not_mem_nil, or_false, not_or] at h
  simp [resultRequest, h]

theorem writeObject_request {s s1 : State} {m index sub : Nat} {r : ObjRow} (h : AcceptedAs s m index sub 1 r s1)
    (hk : oneShot (key index sub) = true ∧ key index sub ∉ resultKeys) :
    writeObject m index sub 1 s = .next (answered m index sub (actOne m (key index sub) s1)) :=
  writeObject_one h hk.1 (resultRequest_eq_none_of_notMem hk.2)

/-! ## Requests with a result object (15 R420, R425; 16 R447) -/

/-- A request with a result object that is not refused leaves what it makes, and is answered. -/
theorem writeObject_resultRequest {s s1 : State} {m index sub : Nat} {r : ObjRow} {p : Nat × State}
    (h : AcceptedAs s m index sub 1 r s1) (hp : resultRequest (key index sub) 1 s1 = some p) (hok : p.1 = 0) :
    writeObject m index sub 1 s = .next (answered m index sub p.2) :=
  writeObject_of_accepted h ((applyWrite_of_resultRequest hp).trans (Prod.ext hok rfl))

theorem resultRequest_retire (s : State) : resultRequest (key 0x2E10 0xB) 1 s = some (requestRetire s) := by
  simp [resultRequest, key]

theorem resultRequest_activation (s : State) : resultRequest (key 0x2E30 1) 1 s = some (requestActivation s) := by
  simp [resultRequest, key]

theorem resultRequest_verify (s : State) : resultRequest (key 0x3020 3) 1 s = some (requestVerify s) := by
  simp [resultRequest, key]

/-- An activation is requested while none is under way and an image is staged (15 R425). -/
theorem requestActivation_of_staged {s : State} (hidle : s.boot.activating = none) (hstaged : s.boot.staged = true) :
    requestActivation s = (0, setObj s (key 0x2E30 1) 1) := by
  simp [requestActivation, hidle, hstaged]

/-! ## Masks of the weir and the power state (15 R405, R406; 17 R460) -/

section
variable {s : State} {m v : Nat} {a : Access}

theorem applyWrite_acknowledge (high : Bool) (ha : a ≠ .rw) :
    applyWrite m (key 0x2E01 (if high then 6 else 5)) v a s = (0, ackMask (if high then 64 else 0) v s) := by
  have ho : oneShot (key 0x2E01 (if high then 6 else 5)) = false := by
    cases high <;> decide
  simp only [applyWrite, resultRequest_eq_none ho, ho, ha, Bool.false_eq_true, if_false]
  cases high
  case false => simp [key]
  case true => simp [key]

theorem applyWrite_clear (high : Bool) (ha : a ≠ .rw) :
    applyWrite m (key 0x2E01 (if high then 8 else 7)) v a s = (0, clearMask (if high then 64 else 0) v s) := by
  have ho : oneShot (key 0x2E01 (if high then 8 else 7)) = false := by
    cases high <;> decide
  simp only [applyWrite, resultRequest_eq_none ho, ho, ha, Bool.false_eq_true, if_false]
  cases high
  case false => simp [key]
  case true => simp [key]

theorem applyWrite_powerState (ha : a ≠ .rw) :
    applyWrite m (key 0x2F00 1) v a s = (0, requestPower v m s) := by
  have ho : oneShot (key 0x2F00 1) = false := by decide
  simp only [applyWrite, resultRequest_eq_none ho, ho, ha, Bool.false_eq_true, if_false]
  simp [key]

end

/-! ## A task request (13 R360) -/

/-- The write that a command of one object performs. -/
theorem masterWrite_eq_of_writeObject {s t : State} {m index sub v : Nat} (h : writeObject m index sub v s = .next t) :
    masterWrite m index sub 0 (naturalWidth m index sub) v s = t := by
  unfold writeObject at h
  split at h
  · injection h
  · cases h

/-- A task request writes the number and the action, which are settings, and then makes the request. -/
theorem taskRequest_accepted {s sa sb s1 : State} {m task action : Nat} {ra rb r : ObjRow}
    (hnumber : AcceptedAs s m 0x2D02 1 task ra sa)
    (haction : AcceptedAs (answered m 0x2D02 1 (setObj sa (key 0x2D02 1) task)) m 0x2D02 2 action rb sb)
    (hrequest : AcceptedAs (answered m 0x2D02 2 (setObj sb (key 0x2D02 2) action)) m 0x2D02 3 1 r s1) :
    taskRequest m task action s = .next (answered m 0x2D02 3 (setObj s1 (key 0x2D02 3) 1)) := by
  have writesNumber := masterWrite_eq_of_writeObject (writeObject_setting hnumber (by decide) (by decide))
  have writesAction := masterWrite_eq_of_writeObject (writeObject_setting haction (by decide) (by decide))
  have writesRequest := masterWrite_eq_of_writeObject (writeObject_request hrequest (by decide))
  rw [taskRequest, if_pos hnumber.master, writesNumber, writesAction, writesRequest]
  rfl

/-- Settles O13: a task request is three accepted writes (`taskRequest_accepted`), every other command one, whose effect is
the rule of the object's kind: a plain setting, a one-shot request with or without a result object, or an object with an
effect of its own. -/
theorem serviceRequestsComplete : Obligations.ServiceRequestsComplete := by
  unfold Obligations.ServiceRequestsComplete
  intro s s1 m v r
  refine ⟨?adopt, ?fabric, ?task, ?acknowledge, ?clear, ?regime, ?retire, ?activation, ?verify, ?burn, ?relock, ?disable,
    ?power, ?resetComm⟩
  case adopt => exact fun h => writeObject_request h (by decide)
  case fabric => exact fun h => writeObject_request h (by decide)
  case task =>
    intro sa sb ra rb x hnumber haction hrequest
    have hdone := taskRequest_accepted hnumber haction hrequest
    constructor
    · rintro rfl
      exact hdone
    · rintro rfl
      exact hdone
  case acknowledge =>
    exact fun high h => writeObject_of_accepted h (applyWrite_acknowledge high (h.access_ne_rw (by decide)))
  case clear => exact fun high h => writeObject_of_accepted h (applyWrite_clear high (h.access_ne_rw (by decide)))
  case regime => exact fun h => writeObject_setting h (by decide) (by decide)
  case retire => exact fun h hok => writeObject_resultRequest h (resultRequest_retire s1) hok
  case activation =>
    intro h hidle hstaged
    have hp := resultRequest_activation s1
    rw [requestActivation_of_staged hidle hstaged] at hp
    exact writeObject_resultRequest h hp rfl
  case verify => exact fun h hok => writeObject_resultRequest h (resultRequest_verify s1) hok
  case burn => exact fun h => writeObject_request h (by decide)
  case relock => exact fun h => writeObject_request h (by decide)
  case disable => exact fun h => writeObject_request h (by decide)
  case power => exact fun h => writeObject_of_accepted h (applyWrite_powerState (h.access_ne_rw (by decide)))
  case resetComm => exact fun h => writeObject_request h (by decide)

end Sys2Proof
end

section
/-! The commands of the fabric engine start: transfers, waits, stamps, collectives and permutes (12 R342 to R351, R354). -/

namespace Sys2Proof

open Machine Safety

/-! ## The start of a fabric command (12 R342) -/

section
variable {s : State} {p ph op : Nat} {q : Queued} {rest : List Queued} {mine valid : State → Nat → Queued → Bool}
  {reads : State → Nat → Queued → List Run} {effect : Nat → Queued → State → Started}

/-- The head of a fabric queue that is this row's starts once there is room, it is legal and its reads wait for nothing. -/
theorem fabRow_starts (h : AtHead s p ph 0x8 q rest) (hroom : fabRoom s ph = true) (hop : opcodeOf q.cmd = op)
    (hlegal : op ∈ legalOpcodes 0x8) (hmine : mine s ph q = true) (hvalid : valid s ph q = true)
    (hreads : waitsRefetch s (reads s ph q) = false)
    (hcause : (effect ph q (dequeued ph q rest s)).cause = none) :
    ∃ t, fabRow p op mine reads s valid effect = .next t ∧
      Starts (dequeued ph q rest s) t ph q (effect ph q (dequeued ph q rest s)) :=
  onHeadIf_starts h (by simp [takesOp_of_opcode hop, hmine]) hroom (hop ▸ hlegal) hvalid rfl hcause hreads

/-- What follows the row of a collective or a permute: a command that has started takes the parts that came early. -/
def thenSettle (p : Nat) (settle : Nat → Nat → State → State) (s : State) (o : Out) : Out :=
  match o with
  | .next t => .next (if physOf s p = 0xFF ∨ (pondOf t (physOf s p)).nextId = (pondOf s (physOf s p)).nextId then t
      else settle (physOf s p) (pondOf s (physOf s p)).nextId t)
  | o => o

theorem thenSettle_next (h : OnPond s p ph) (settle : Nat → Nat → State → State) (t : State) :
    thenSettle p settle s (.next t) =
      .next (if (pondOf t ph).nextId = (pondOf s ph).nextId then t else settle ph (pondOf s ph).nextId t) := by
  obtain ⟨-, rfl, hpresent⟩ := h
  simp only [thenSettle, hpresent, false_or]

/-- `fabRow_starts` for the row of a collective or a permute. -/
theorem fabRow_settles (h : AtHead s p ph 0x8 q rest) (hroom : fabRoom s ph = true) (hop : opcodeOf q.cmd = op)
    (hlegal : op ∈ legalOpcodes 0x8) (hmine : mine s ph q = true) (hvalid : valid s ph q = true)
    (hreads : waitsRefetch s (reads s ph q) = false)
    (hcause : (effect ph q (dequeued ph q rest s)).cause = none) (settle : Nat → Nat → State → State) :
    ∃ v, Starts (dequeued ph q rest s) v ph q (effect ph q (dequeued ph q rest s)) ∧
      thenSettle p settle s (fabRow p op mine reads s valid effect) =
        .next (if (pondOf v ph).nextId = (pondOf s ph).nextId then v else settle ph (pondOf s ph).nextId v) := by
  obtain ⟨v, hrun, hstarts⟩ := fabRow_starts h hroom hop hlegal hmine hvalid hreads hcause
  exact ⟨v, hstarts, by rw [hrun, thenSettle_next h.toOnPond]⟩

theorem collRow_eq (p op : Nat) (s : State) : collRow p op s =
    thenSettle p settleColl s (fabRow p 0x03
      (fun s ph q => decide (collOp (fabFields (pondOf s ph) q.cmd) = op) ||
        decide (5 ≤ collOp (fabFields (pondOf s ph) q.cmd)))
      (fun s ph q => collReads (collOf s p ph q.cmd)) s (collLegal p) (runColl p)) := rfl

theorem execPermute_eq (p : Nat) (s : State) : execPermute p s =
    thenSettle p settlePerm s (fabRow p 0x06 (fun _ _ _ => true)
      (fun s ph q => [(permBuffer (permOf s p ph q.cmd).fields,
        permK (permOf s p ph q.cmd).fields * permBlock (permOf s p ph q.cmd).fields)]) s (permLegal p)
      (runPermute p)) := rfl

end

section
variable {s : State} {p ph : Nat} {q : Queued} {rest : List Queued}

/-! ## PUT (12 R344, R345) -/

/-- A transfer of at most 65,536 bytes is one message (12 R338). -/
theorem messageCuts_one {n : Nat} (hlow : 64 ≤ n) (hhigh : n ≤ 65536) : messageCuts n = [(0, n)] := by
  have hone : ceilDiv n 65536 = 1 := by
    unfold ceilDiv
    omega
  simp [messageCuts, hone, hhigh]

theorem fabLength_of_putLegal (h : putLegal s ph q = true) : 64 ≤ fabLength q.cmd := by
  simp only [putLegal, Bool.and_eq_true, decide_eq_true_eq] at h
  obtain ⟨⟨⟨-, hlength⟩, -⟩, -⟩ := h
  exact hlength

/-- A PUT has taken a transfer number and counted the bytes that it reads. -/
def putCounted (c : Cmd) (s : State) : State :=
  countBytes false (putReads c) { s with fabric := { s.fabric with
    nextTransfer := (s.fabric.nextTransfer + 1) % 2 ^ 32 } }

/-- The messages of a PUT; the last one signals. -/
def putMessages (ph : Nat) (c : Cmd) (s : State) : List OutMsg :=
  (messageCuts (fabLength c)).zipIdx.map fun e =>
    putMessage s ph c (decide (e.2 + 1 = (messageCuts (fabLength c)).length)) e.1

theorem putMessages_one (hlow : 64 ≤ fabLength q.cmd) (hhigh : fabLength q.cmd ≤ 65536) :
    putMessages ph q.cmd s = [putMessage s ph q.cmd true (0, fabLength q.cmd)] := by
  rw [putMessages, messageCuts_one hlow hhigh]
  rfl

theorem runPut_cause (hreach : reachable s (fabPeer q.cmd) = true) (hserved : unservable s (putReads q.cmd) = false) :
    (runPut p ph q s).cause = none := by
  unfold runPut
  extract_lets c
  rw [if_neg (by simp [c, hreach]), if_neg (by simp [c, hserved])]
  change Started.cause (ite _ _ _) = none
  split
  · split
    rfl
  · split
    rfl

/-- A PUT of one message to another module sends it and awaits its acknowledgement. -/
theorem runPut_sent (hreach : reachable s (fabPeer q.cmd) = true) (hserved : unservable s (putReads q.cmd) = false)
    (hlow : 64 ≤ fabLength q.cmd) (hhigh : fabLength q.cmd ≤ 65536)
    (haway : fabPeer q.cmd ≠ ownId (putCounted q.cmd s)) :
    let v := putCounted q.cmd s
    let f := withRoutes v [fabPeer q.cmd] (newFab v p ph q.cmd)
    let m := putMessage s ph q.cmd true (0, fabLength q.cmd)
    runPut p ph q s = { enterFab { f with acks := [(fabPeer q.cmd, (sendOf f m v).1)] } (sendOf f m v).2 with
      epochReads := epochOf v ph (putReads q.cmd) } := by
  unfold runPut
  extract_lets v f m c cuts ms _ w g ep held
  have hms : ms = [m] := putMessages_one hlow hhigh
  have hheld : ¬ held = true := by simp [held, hms]
  rw [if_neg (by simp [c, hreach]), if_neg (by simp [c, hserved]), if_neg (c := fabPeer c = ownId w) haway,
    if_neg hheld, if_neg hheld, hms]
  rfl

/-- A PUT of one message to the module itself lands its data, gives its signal, and is done (log 23). -/
theorem runPut_landed (hreach : reachable s (fabPeer q.cmd) = true) (hserved : unservable s (putReads q.cmd) = false)
    (hlow : 64 ≤ fabLength q.cmd) (hhigh : fabLength q.cmd ≤ 65536)
    (hhome : fabPeer q.cmd = ownId (putCounted q.cmd s)) :
    let v := putCounted q.cmd s
    let f := withRoutes v [fabPeer q.cmd] (newFab v p ph q.cmd)
    let m := putMessage s ph q.cmd true (0, fabLength q.cmd)
    let w := (fabricWrite v m.uda m.data).1
    (fabricWrite v m.uda m.data).2 = true →
    runPut p ph q s = { enterFab { f with done := true }
      (if fabSignal q.cmd then bumpCounter (fabCounter q.cmd) w else w) with
        epochReads := epochOf v ph (putReads q.cmd) } := by
  intro v f m w hlands
  unfold runPut
  extract_lets c cuts ms _ u g ep held
  have hms : ms = [m] := putMessages_one hlow hhigh
  have hwrite : fabricWrite u m.uda m.data = (w, true) := Prod.ext rfl hlands
  rw [if_neg (by simp [c, hreach]), if_neg (by simp [c, hserved]), if_pos (c := fabPeer c = ownId u) hhome, hms,
    List.foldl_cons, List.foldl_nil, hwrite]
  change withReads ep (enterFab _ (if (fabSignal c && true) = true then _ else _)) = _
  rw [Bool.and_true]
  rfl

/-! ## GET (12 R344) -/

theorem runGet_cause (hreach : reachable s (fabPeer q.cmd) = true)
    (hserved : fabPeer q.cmd ≠ ownId s ∨ unservable s [(fabSource q.cmd, fabLength q.cmd)] = false) :
    (runGet p ph q s).cause = none := by
  unfold runGet
  extract_lets c run f
  rw [if_neg (by simp [c, hreach])]
  split
  next hown =>
    have hserved : unservable s [run] = false := hserved.resolve_left (not_not.mpr hown)
    rw [if_neg (c := unservable s [run] = true) (by simp [hserved])]
    split <;> rfl
  next =>
    split
    rfl

/-! ## STAMPCHK (12 R351) -/

/-- The stamp of a member asked for, unless it is the module itself. -/
def askStamp (f : FabCmd) (c : Cmd) (a : FabCmd × State) (i : Nat) : FabCmd × State :=
  if i = f.own then a
  else
    let (ids, s) := sendReads a.1 (f.members.getD i 0) [(stampAt a.2 (stampSlot c), 8)] a.2
    ({ a.1 with pieces := a.1.pieces ++ ids,
                scratch := ids.foldl (fun m t => mapInsert m t (i + 1)) a.1.scratch }, s)

/-- A STAMPCHK as it enters, with the module's own stamp. -/
def stampchkOf (l ph : Nat) (c : Cmd) (s : State) : FabCmd :=
  let f := inGroup s (stampGroup c) (newFab s l ph c)
  { f with stamps := mapPut 0 [] f.own (ownStamp s (stampSlot c)) }

/-- A STAMPCHK and the state after the stamps of its peers have been asked for. -/
def stampsAsked (l ph : Nat) (c : Cmd) (s : State) : FabCmd × State :=
  let f := stampchkOf l ph c s
  (List.range f.members.length).foldl (askStamp f c) (f, s)

theorem runStampchk_eq (hreach : groupReachable s (stampGroup q.cmd) = true) : runStampchk p ph q s =
    let a := stampsAsked p ph q.cmd s
    if a.1.pieces = [] then
      (if stampsMatch a.2 (stampKeep q.cmd) (stampList a.1) then enterFab { a.1 with done := true } a.2
       else ended 0x0A (raise 18 (.pond ph) (addObj a.2 (key 0x2C05 8) 1)))
    else enterFab a.1 a.2 := by
  simp only [runStampchk, hreach]
  rfl

/-- While no stamp is awaited, none has been asked for: every member so far is the module itself. -/
theorem foldl_askStamp_of_pieces_nil {f : FabCmd} {c : Cmd} (is : List Nat) {a : FabCmd × State}
    (h : (is.foldl (askStamp f c) a).1.pieces = []) :
    a.1.pieces = [] ∧ is.foldl (askStamp f c) a = a ∧ ∀ i ∈ is, i = f.own := by
  induction is generalizing a with
  | nil => exact ⟨h, rfl, by simp⟩
  | cons i is ih =>
    obtain ⟨hpieces, hfold, hall⟩ := ih h
    by_cases hi : i = f.own
    · have hstep : askStamp f c a i = a := if_pos hi
      rw [hstep] at hpieces hfold
      exact ⟨hpieces, by rw [List.foldl_cons, hstep, hfold], by simpa [hi] using hall⟩
    · rw [askStamp, if_neg hi] at hpieces
      simp [sendReads] at hpieces

theorem stampchkOf_members (l ph : Nat) (c : Cmd) (s : State) (hreach : groupReachable s (stampGroup c) = true) :
    (stampchkOf l ph c s).members.length = groupSize s (stampGroup c) := by
  cases hgroup : groupInForce s (stampGroup c) with
  | none => simp [groupReachable, hgroup] at hreach
  | some gr => simp [stampchkOf, inGroup, groupSize, hgroup, withRoutes]

/-- A STAMPCHK of a group with no other member than the module itself compares the own stamp. -/
theorem stampsMatch_alone {keep l ph : Nat} {c : Cmd} (hown : stampsMatch s keep [ownStamp s (stampSlot c)] = true)
    (hsize : (stampchkOf l ph c s).members.length < 2)
    (halone : ∀ i ∈ List.range (stampchkOf l ph c s).members.length, i = (stampchkOf l ph c s).own) :
    stampsMatch s keep (stampList (stampchkOf l ph c s)) = true := by
  unfold stampList
  interval_cases hn : (stampchkOf l ph c s).members.length
  · rfl
  · have hzero : (stampchkOf l ph c s).own = 0 := (halone 0 (by simp)).symm
    have hfind : mapFind 0 (stampchkOf l ph c s).stamps (stampchkOf l ph c s).own = ownStamp s (stampSlot c) :=
      mapFind_put_same _ _ _ _ MapSorted.nil
    rw [hzero] at hfind
    simpa [hfind] using hown

theorem runStampchk_cause (hreach : groupReachable s (stampGroup q.cmd) = true)
    (hsound : 2 ≤ groupSize s (stampGroup q.cmd) ∨
      stampsMatch s (stampKeep q.cmd) [ownStamp s (stampSlot q.cmd)] = true) :
    (runStampchk p ph q s).cause = none := by
  rw [runStampchk_eq hreach]
  by_cases hnone : (stampsAsked p ph q.cmd s).1.pieces = []
  · obtain ⟨-, hsame, halone⟩ := foldl_askStamp_of_pieces_nil _ hnone
    have hasked : stampsAsked p ph q.cmd s = (stampchkOf p ph q.cmd s, s) := hsame
    have hsmall : (stampchkOf p ph q.cmd s).members.length < 2 := by
      by_contra hbig
      have h0 := halone 0 (List.mem_range.mpr (by omega))
      have h1 := halone 1 (List.mem_range.mpr (by omega))
      omega
    have hown := hsound.resolve_left (by rw [← stampchkOf_members p ph q.cmd s hreach]; omega)
    have hmatch := stampsMatch_alone hown hsmall halone
    simp only [hnone, if_true]
    rw [hasked, if_pos hmatch]
    rfl
  · simp only [if_neg hnone]
    rfl

/-! ## Collectives (12 R346 to R350) -/

theorem runColl_cause (hreach : groupReachable s (collGroup (collOf s p ph q.cmd).fields) = true)
    (hserved : unservable s (collReads (collOf s p ph q.cmd)) = false) : (runColl p ph q s).cause = none := by
  simp only [runColl, hreach, hserved, Bool.not_true, Bool.false_eq_true, if_false]
  rfl

/-! ## PERMUTE (12 R354) -/

/-- The checks of a plan read the unified range, which the fabric's own state is no part of. -/
theorem permChecks_of_fabric (s : State) (x : Fabric) (f : FabCmd) : permChecks { s with fabric := x } f = permChecks s f :=
  rfl

theorem runPermute_cause (hreach : groupReachable s (permGroup (permOf s p ph q.cmd).fields) = true)
    (hserved : unservable s [(permBuffer (permOf s p ph q.cmd).fields,
      permK (permOf s p ph q.cmd).fields * permBlock (permOf s p ph q.cmd).fields),
      (permPlan (permOf s p ph q.cmd).fields,
        (permOf s p ph q.cmd).members.length * permK (permOf s p ph q.cmd).fields * 8)] = false)
    (hsound : 2 ≤ (permOf s p ph q.cmd).members.length ∨ permChecks s (permOf s p ph q.cmd) = true) :
    (runPermute p ph q s).cause = none := by
  simp only [runPermute, hreach, hserved, Bool.not_true, Bool.false_eq_true, if_false]
  split
  next hbad =>
    obtain ⟨halone, hchecks⟩ := hbad
    rcases hsound with hsize | hown
    · have hother : ∃ i < (permOf s p ph q.cmd).members.length, i ≠ (permOf s p ph q.cmd).own := by
        by_cases h0 : 0 = (permOf s p ph q.cmd).own
        · exact ⟨1, hsize, by omega⟩
        · exact ⟨0, by omega, h0⟩
      obtain ⟨i, hi, hne⟩ := hother
      exact absurd (List.filter_eq_nil_iff.mp halone i (List.mem_range.mpr hi)) (by simpa using hne)
    · rw [permChecks_of_fabric, hown] at hchecks
      exact absurd hchecks (by decide)
  next => rfl

/-! ## The commands at their head (12 Table FAB-5) -/

theorem exec_put_starts (h : AtHead s p ph 0x8 q rest) (hroom : fabRoom s ph = true) (hop : opcodeOf q.cmd = 0x01)
    (hvalid : putLegal s ph q = true) (hreads : waitsRefetch s (putReads q.cmd) = false)
    (hreach : reachable (dequeued ph q rest s) (fabPeer q.cmd) = true)
    (hserved : unservable (dequeued ph q rest s) (putReads q.cmd) = false) :
    ∃ t, exec (.put p) s = .next t ∧ Starts (dequeued ph q rest s) t ph q (runPut p ph q (dequeued ph q rest s)) := by
  change ∃ t, execPut p s = .next t ∧ _
  exact fabRow_starts h hroom hop (by decide) rfl hvalid hreads (runPut_cause hreach hserved)

theorem exec_get_starts (h : AtHead s p ph 0x8 q rest) (hroom : fabRoom s ph = true) (hop : opcodeOf q.cmd = 0x02)
    (hvalid : getLegal s ph q = true)
    (hreads : waitsRefetch s (if fabPeer q.cmd = ownId s then [(fabSource q.cmd, fabLength q.cmd)] else []) = false)
    (hreach : reachable (dequeued ph q rest s) (fabPeer q.cmd) = true)
    (hserved : fabPeer q.cmd ≠ ownId (dequeued ph q rest s) ∨
      unservable (dequeued ph q rest s) [(fabSource q.cmd, fabLength q.cmd)] = false) :
    ∃ t, exec (.get p) s = .next t ∧ Starts (dequeued ph q rest s) t ph q (runGet p ph q (dequeued ph q rest s)) := by
  change ∃ t, execGet p s = .next t ∧ _
  exact fabRow_starts h hroom hop (by decide) rfl hvalid hreads (runGet_cause hreach hserved)

theorem exec_waitf_starts (h : AtHead s p ph 0x8 q rest) (hroom : fabRoom s ph = true) (hop : opcodeOf q.cmd = 0x05)
    (hlow : bits q.cmd.w1.toNat 55 0 = 0) (hhigh : bits q.cmd.w3.toNat 63 32 = 0) :
    let u := dequeued ph q rest s
    ∃ t, exec (.waitf p) s = .next t ∧ Starts u t ph q (enterFab { newFab u p ph q.cmd with
      done := decide (q.cmd.w2.toNat ≤ mapFind 0 u.fabric.counters (waitfCounter q.cmd)) } u) := by
  change ∃ t, execWaitf p s = .next t ∧ _
  exact fabRow_starts h hroom hop (by decide) rfl (by simp [hlow, hhigh]) (waitsRefetch_nil s) rfl

theorem exec_stampchk_starts (h : AtHead s p ph 0x8 q rest) (hroom : fabRoom s ph = true) (hop : opcodeOf q.cmd = 0x04)
    (hvalid : stampLegal s ph q = true) (hreach : groupReachable (dequeued ph q rest s) (stampGroup q.cmd) = true)
    (hsound : 2 ≤ groupSize (dequeued ph q rest s) (stampGroup q.cmd) ∨ stampsMatch (dequeued ph q rest s)
      (stampKeep q.cmd) [ownStamp (dequeued ph q rest s) (stampSlot q.cmd)] = true) :
    ∃ t, exec (.stampchk p) s = .next t ∧
      Starts (dequeued ph q rest s) t ph q (runStampchk p ph q (dequeued ph q rest s)) := by
  change ∃ t, execStampchk p s = .next t ∧ _
  exact fabRow_starts h hroom hop (by decide) rfl hvalid (waitsRefetch_nil s) (runStampchk_cause hreach hsound)

/-- The five collectives are one row, which the op field of the descriptor chooses. -/
theorem collRow_starts (h : AtHead s p ph 0x8 q rest) (hroom : fabRoom s ph = true) (hop : opcodeOf q.cmd = 0x03)
    (hvalid : collLegal p s ph q = true) (hreads : waitsRefetch s (collReads (collOf s p ph q.cmd)) = false) :
    let u := dequeued ph q rest s
    let run := (pondOf s ph).nextId
    groupReachable u (collGroup (collOf u p ph q.cmd).fields) = true →
    unservable u (collReads (collOf u p ph q.cmd)) = false →
    ∃ v, Starts u v ph q (runColl p ph q u) ∧ collRow p (collOp (fabFields (pondOf s ph) q.cmd)) s =
      .next (if (pondOf v ph).nextId = run then v else settleColl ph run v) := by
  intro u run hreach hserved
  rw [collRow_eq]
  refine fabRow_settles h hroom hop (by decide) (by simp) hvalid ?reads (runColl_cause hreach hserved) settleColl
  exact hreads

theorem exec_permute_starts (h : AtHead s p ph 0x8 q rest) (hroom : fabRoom s ph = true) (hop : opcodeOf q.cmd = 0x06)
    (hvalid : permLegal p s ph q = true) :
    let u := dequeued ph q rest s
    let f := permOf u p ph q.cmd
    let run := (pondOf s ph).nextId
    waitsRefetch s [(permBuffer (permOf s p ph q.cmd).fields,
      permK (permOf s p ph q.cmd).fields * permBlock (permOf s p ph q.cmd).fields)] = false →
    groupReachable u (permGroup f.fields) = true →
    unservable u [(permBuffer f.fields, permK f.fields * permBlock f.fields),
      (permPlan f.fields, f.members.length * permK f.fields * 8)] = false →
    2 ≤ f.members.length ∨ permChecks u f = true →
    ∃ v, Starts u v ph q (runPermute p ph q u) ∧
      exec (.permute p) s = .next (if (pondOf v ph).nextId = run then v else settlePerm ph run v) := by
  intro u f run hreads hreach hserved hsound
  change ∃ v, _ ∧ execPermute p s = _
  rw [execPermute_eq]
  refine fabRow_settles h hroom hop (by decide) rfl hvalid ?reads (runPermute_cause hreach hserved hsound) settlePerm
  exact hreads

end

/-- Settles O43: every command is a head that starts (`fabRow_starts`), and what may still end it at its start is excluded
by one lemma on the cause of its effect; the collectives and PERMUTE then take the early parts (`thenSettle`). That a PUT to
the module itself lands at once is deduced (logs 23, 59). -/
theorem fabricCommands : Obligations.FabricCommands := by
  unfold Obligations.FabricCommands
  constructor
  · intro s p ph q rest h hroom u c
    refine ⟨?put, exec_get_starts h hroom, exec_waitf_starts h hroom, exec_stampchk_starts h hroom⟩
    case put =>
      intro hop hvalid hreads hreach hserved v f m ep
      obtain ⟨t, hrun, hstarts⟩ := exec_put_starts h hroom hop hvalid hreads hreach hserved
      have hlow := fabLength_of_putLegal hvalid
      exact ⟨t, hrun, hstarts, runPut_sent hreach hserved hlow, runPut_landed hreach hserved hlow⟩
  · intro s p ph q rest h hroom u run op settle
    refine ⟨?coll, exec_permute_starts h hroom⟩
    case coll =>
      intro hop hvalid hreads hreach hserved
      obtain ⟨v, hstarts, hrun⟩ := collRow_starts h hroom hop hvalid hreads hreach hserved
      have hrow {k : Nat} (hk : op = k) : collRow p k s = .next (settle (settleColl ph run) v) := hk ▸ hrun
      exact ⟨v, hstarts, hrow, hrow, hrow, hrow, hrow⟩

end Sys2Proof
end

section
/-! Messages from the fabric: one rule for each way that a message meets its source's channel, and what each kind of message
does when it is taken (12 R338 to R340, R345, R346; 10 R302). -/

namespace Sys2Proof

open Machine Safety

/-! ## A message and the channel of its source (12 R338, R339) -/

section
variable {s : State} {src msg n : Nat} {effect : State → State}

/-- A message not seen before takes effect, and is noted, counted and acknowledged. -/
theorem onMessage_new (hsrc : src < 4096) (hn : 1 ≤ n ∧ n ≤ 65536) (hon : fabricOn s = true)
    (hopen : routeAccepts s src = true) (hnew : msg % 2 ^ 32 ∉ mapFind [] s.fabric.acked src) :
    onMessage src msg n s effect =
      .next (receipted src msg (mapFind [] s.fabric.acked src) (effect (addObj s (key 0x2C05 2) 1))) := by
  rw [onMessage, if_pos ⟨hsrc, hn⟩, if_neg (by simp [hon]), if_neg (by simp [hopen])]
  exact congrArg Host.Outcome.next (if_neg hnew)

/-- A message seen before is counted and acknowledged again, whatever its effect would be. -/
theorem onMessage_seen (hsrc : src < 4096) (hn : 1 ≤ n ∧ n ≤ 65536) (hon : fabricOn s = true)
    (hopen : routeAccepts s src = true) (hseen : msg % 2 ^ 32 ∈ mapFind [] s.fabric.acked src) :
    onMessage src msg n s effect = .next (acknowledge src msg (addObj s (key 0x2C05 4) 1)) := by
  rw [onMessage, if_pos ⟨hsrc, hn⟩, if_neg (by simp [hon]), if_neg (by simp [hopen])]
  exact congrArg Host.Outcome.next (if_pos hseen)

/-- A message of a source whose channel is not open is discarded. -/
theorem onMessage_closed (hsrc : src < 4096) (hn : 1 ≤ n ∧ n ≤ 65536) (hon : fabricOn s = true)
    (hclosed : routeAccepts s src = false) :
    onMessage src msg n s effect = .next (raise 55 .chip (addObj s (key 0x2C04 6) (flitsOf n))) := by
  simp [onMessage, hsrc, hn, hon, hclosed]

end

/-! ## The messages as rows of that rule -/

section
variable {s u : State} {src msg uda n x y z w : Nat} {poisoned : Bool} {data : List Byte} {f : FabCmd}

/-- What a write with a signal does: the data land, and then the counter gains 1 (12 R345). -/
def writeSignal (uda counter : Nat) (data : List Byte) (u : State) : State :=
  if (fabricWrite u uda data).2 then bumpCounter counter (fabricWrite u uda data).1 else (fabricWrite u uda data).1

/-- What a read request does: it is held while a re-fetch restores its extent, and else answered (10 R302). -/
def takeRead (src msg uda n transfer : Nat) (u : State) : State :=
  if unitMapped u [(uda, n)] && waitsRefetch u [(uda, n)] then
    { u with tiers := { u.tiers with
        reads := u.tiers.reads ++ [{ host := false, uda := uda, len := n, peer := src, msg := msg, transfer := transfer,
                                     waiting := waitNote u [(uda, n)] }] } }
  else answerPeer src transfer uda n u

/-- A GET or STAMPCHK in progress that awaits a transfer. -/
def awaitsTransfer (transfer : Nat) (f : FabCmd) : Bool :=
  decide (transfer ∈ f.pieces) && decide (opcodeOf f.cmd = 0x02 ∨ opcodeOf f.cmd = 0x04)

/-- What a read response does: the command that awaits it takes it. -/
def giveResponse (transfer : Nat) (poisoned : Bool) (data : List Byte) (u : State) : State :=
  match (fabCmds u).find? (awaitsTransfer transfer) with
  | none => u
  | some f => takeResponse f transfer poisoned data u

/-- A collective or permute of a group and sequence that has not ended. -/
def awaitsPart (group seq : Nat) (f : FabCmd) : Bool :=
  decide (f.group = group ∧ f.seq % 2 ^ 32 = seq % 2 ^ 32) && !f.done &&
    decide (opcodeOf f.cmd = 0x03 ∨ opcodeOf f.cmd = 0x06)

/-- A part taken by its command (12 R346, R355). -/
def partTaken (f : FabCmd) (src stamp part : Nat) (data : List Byte) (u : State) : State :=
  if opcodeOf f.cmd = 0x06 then settlePerm f.pond f.run (takePerm f src part data u) else takePart f src stamp part data u

/-- A part kept for a command that has not started (12 R346). -/
def partKept (src group seq stamp part : Nat) (data : List Byte) (u : State) : State :=
  { u with fabric := { u.fabric with early := u.fabric.early ++
    [{ src := src, group := group, seq := seq, stamp := stamp, part := part, data := data }] } }

/-- What a part of a collective does (12 R346). -/
def givePart (src group seq stamp part : Nat) (data : List Byte) (u : State) : State :=
  match (fabCmds u).find? (awaitsPart group seq) with
  | some f => partTaken f src stamp part data u
  | none =>
    if mapFind 0 u.fabric.seqs group % 2 ^ 32 ≤ seq % 2 ^ 32 then partKept src group seq stamp part data u else u

theorem exec_write (src msg uda : Nat) (data : List Byte) (s : State) : exec (.write src msg uda data) s =
    onMessage src msg data.length s fun u => (fabricWrite u uda data).1 := rfl

theorem exec_writeLastSignal (src msg uda : Nat) (data : List Byte) (s : State) (hx : x < 256) :
    exec (.writeLastSignal src msg uda x data) s = onMessage src msg data.length s (writeSignal uda x data) :=
  if_pos hx

theorem exec_readRequest (src msg uda n x : Nat) (s : State) :
    exec (.readRequest src msg uda n x) s = onMessage src msg n s (takeRead src msg uda n x) := rfl

theorem exec_readResponse (src msg x : Nat) (poisoned : Bool) (s : State) (hdata : 1 ≤ data.length) :
    exec (.readResponse src msg x poisoned data) s = onMessage src msg data.length s (giveResponse x poisoned data) := by
  change onMessage src msg (max data.length 1) s (giveResponse x poisoned data) = _
  rw [Nat.max_eq_left hdata]

theorem exec_collectivePart (src msg x y z w : Nat) (data : List Byte) (s : State) :
    exec (.collectivePart src msg x y z w data) s = onMessage src msg data.length s (givePart src x y z w data) := rfl

theorem takeRead_answered (h : unitMapped u [(uda, n)] = false ∨ waitsRefetch u [(uda, n)] = false) :
    takeRead src msg uda n x u = answerPeer src x uda n u :=
  if_neg (by simpa only [Bool.and_eq_true, not_and_or, Bool.not_eq_true] using h)

theorem takeRead_held (hmapped : unitMapped u [(uda, n)] = true) (hwaits : waitsRefetch u [(uda, n)] = true) :
    takeRead src msg uda n x u = { u with tiers := { u.tiers with
      reads := u.tiers.reads ++ [{ host := false, uda := uda, len := n, peer := src, msg := msg, transfer := x,
                                   waiting := waitNote u [(uda, n)] }] } } :=
  if_pos (by rw [hmapped, hwaits]; rfl)

theorem giveResponse_awaited (h : (fabCmds u).find? (awaitsTransfer x) = some f) :
    giveResponse x poisoned data u = takeResponse f x poisoned data u := by
  rw [giveResponse, h]

theorem givePart_awaited (h : (fabCmds u).find? (awaitsPart x y) = some f) :
    givePart src x y z w data u = partTaken f src z w data u := by
  rw [givePart, h]

theorem givePart_early (h : (fabCmds u).find? (awaitsPart x y) = none)
    (hnext : mapFind 0 u.fabric.seqs x % 2 ^ 32 ≤ y % 2 ^ 32) :
    givePart src x y z w data u = partKept src x y z w data u := by
  rw [givePart, h]
  exact if_pos hnext

end

/-- Settles O44: all five messages go through `onMessage`, so a message seen before, or without an open channel, is one case
for all, and a new one is the effect of its kind. That a write which is discarded does not bump its counter (`writeSignal`)
is deduced (log 23). -/
theorem messagesTakeEffectOnce : Obligations.MessagesTakeEffectOnce := by
  unfold Obligations.MessagesTakeEffectOnce
  intro s src msg uda n x y z w poisoned data f hsrc hlow hhigh hlown hhighn hon seen u mine
  have hdata : 1 ≤ data.length ∧ data.length ≤ 65536 := ⟨hlow, hhigh⟩
  have hn : 1 ≤ n ∧ n ≤ 65536 := ⟨hlown, hhighn⟩
  have hresponse := exec_readResponse src msg x poisoned s hlow
  refine ⟨?new, ?again, ?closed⟩
  case new =>
    intro hopen hnew
    have hany {k : Nat} {e : State → State} (hk : 1 ≤ k ∧ k ≤ 65536) :
        onMessage src msg k s e = .next (receipted src msg seen (e u)) := onMessage_new hsrc hk hon hopen hnew
    refine ⟨(exec_write ..).trans (hany hdata), fun hx => ?signal, fun h => ?answered, fun hmapped hwaits => ?held,
      fun h => ?response, fun h => ?part, fun h hnext => ?early⟩
    case signal => exact (exec_writeLastSignal src msg uda data s hx).trans (hany hdata)
    case answered => rw [exec_readRequest, hany hn, takeRead_answered h]
    case held => rw [exec_readRequest, hany hn, takeRead_held hmapped hwaits]
    case response => rw [hresponse, hany hdata, giveResponse_awaited h]
    case part =>
      rw [exec_collectivePart, hany hdata, givePart_awaited h]
      rfl
    case early =>
      rw [exec_collectivePart, hany hdata, givePart_early h hnext]
      rfl
  case again =>
    intro hopen hseen again
    have hany {k : Nat} {e : State → State} (hk : 1 ≤ k ∧ k ≤ 65536) : onMessage src msg k s e = .next again :=
      onMessage_seen hsrc hk hon hopen hseen
    exact ⟨(exec_write ..).trans (hany hdata), fun hx => (exec_writeLastSignal src msg uda data s hx).trans (hany hdata),
      (exec_readRequest ..).trans (hany hn), hresponse.trans (hany hdata), (exec_collectivePart ..).trans (hany hdata)⟩
  case closed =>
    intro hclosed dropped
    have hany {k : Nat} {e : State → State} (hk : 1 ≤ k ∧ k ≤ 65536) : onMessage src msg k s e = .next (dropped k) :=
      onMessage_closed hsrc hk hon hclosed
    exact ⟨(exec_write ..).trans (hany hdata), fun hx => (exec_writeLastSignal src msg uda data s hx).trans (hany hdata),
      (exec_readRequest ..).trans (hany hn), hresponse.trans (hany hdata), (exec_collectivePart ..).trans (hany hdata)⟩

end Sys2Proof
end

section
/-! The events of a brook: flits, acknowledgements and credit, lanes and training (12 R336 to R339). -/

namespace Sys2Proof

open Machine Safety

/-! ## Flits (12 R336) -/

section
variable {s : State} {k lane peer n : Nat} {head crc : W64} {payload : List Byte}

/-- A payload of 240 bytes is a flit's whole payload. -/
theorem padded_payload (h : payload.length = 240) :
    (payload ++ List.replicate (240 - payload.length) 0).take 240 = payload := by
  simp [h]

/-- A flit with a bad check word is counted and answered with a nak. -/
theorem exec_flitReceive_bad (hk : k < 18) (hlen : payload.length = 240) (hup : brookUp s k = true)
    (hon : fabricOn s = true) (hbad : crc64 (leBytes head.toNat 8 ++ payload) ≠ crc.toNat) :
    exec (.flitReceive k head payload crc) s = .next (answerNak k (bits head.toNat 49 38)
      (addObj (addObj { s with fresh := s.fresh + 1 } (brookKey k 6) 1) (brookKey k 0xC)
        (Config.badCodewords s.fresh))) := by
  change execFlitReceive k head payload crc s = _
  simp only [execFlitReceive, if_pos hk, padded_payload hlen]
  rw [if_neg (by simp [hup, hon]), if_pos hbad]

/-- A data flit in order, with no acknowledgement in it, moves the brook on, is acknowledged, and is taken when it is for
this module. -/
theorem exec_flitReceive_data (hk : k < 18) (hlen : payload.length = 240) (hup : brookUp s k = true)
    (hon : fabricOn s = true) (hgood : crc64 (leBytes head.toNat 8 ++ payload) = crc.toNat)
    (hack : bitAt head.toNat 13 = false) (hkind : bits head.toNat 63 62 ∈ [1, 2])
    (hseq : bits head.toNat 37 26 = (brookOf s k).rxNext) :
    let v := addObj s (brookKey k 5) 1
    let u := sendControl k (bits head.toNat 49 38) 1 []
      (setBrook v k { brookOf v k with rxNext := ((brookOf v k).rxNext + 1) % 4096, nakCount := 0 })
    exec (.flitReceive k head payload crc) s = .next (if bits head.toNat 61 50 ≠ ownId u then u
      else takeData k (bits head.toNat 49 38) (bits head.toNat 63 62) (bits head.toNat 7 0) payload u) := by
  intro v u
  have hdata : bits head.toNat 63 62 ≠ 0 ∧ bits head.toNat 63 62 ≠ 3 := by
    constructor <;> intro h <;> simp [h] at hkind
  have hwant : bits head.toNat 37 26 = (brookOf v k).rxNext := hseq
  change execFlitReceive k head payload crc s = _
  simp only [execFlitReceive, if_pos hk, padded_payload hlen]
  rw [if_neg (by simp [hup, hon]), if_neg (not_not.mpr hgood)]
  simp only [hack, Bool.false_eq_true, if_false, if_neg hdata.1, hdata.2, false_and]
  rw [if_neg (not_not.mpr hwant)]

/-- An idle flit with a nak acts as that nak. -/
theorem exec_flitReceive_nak (hk : k < 18) (hlen : payload.length = 240) (hup : brookUp s k = true)
    (hon : fabricOn s = true) (hgood : crc64 (leBytes head.toNat 8 ++ payload) = crc.toNat)
    (hack : bitAt head.toNat 13 = true) (hnak : bitAt head.toNat 12 = true) (hkind : bits head.toNat 63 62 = 0) :
    exec (.flitReceive k head payload crc) s =
      .next (nakFrom k (bits head.toNat 25 14) (addObj s (brookKey k 5) 1)) := by
  change execFlitReceive k head payload crc s = _
  simp only [execFlitReceive, if_pos hk, padded_payload hlen]
  rw [if_neg (by simp [hup, hon]), if_neg (not_not.mpr hgood)]
  simp only [hack, hnak, if_true, if_pos hkind]

/-! ## Lanes (12 R337) -/

theorem exec_spareRequest_free (hk : k < 18) (hlane : lane < 8) (hup : brookUp s k = true)
    (hfree : (brookOf s k).spared = none) : exec (.spareRequest k lane) s =
      .next (sendControl k (getObj (useSpare k lane s) (brookKey k 3) % 4096) 4 [BitVec.ofNat 8 lane]
        (useSpare k lane s)) := by
  change execSpareRequest k lane s = _
  rw [execSpareRequest, if_pos ⟨hk, hlane⟩]
  exact congrArg _ (if_pos (by simp [hup, hfree]))

theorem exec_spareConfirm_asked (hk : k < 18) (hlane : lane < 8) (hasked : (brookOf s k).asked = some lane) :
    exec (.spareConfirm k lane) s = .next (resumeBrook k (useSpare k lane s)) := by
  change execSpareConfirm k lane s = _
  rw [execSpareConfirm, if_pos ⟨hk, hlane⟩, if_pos hasked]

theorem exec_widthChange_up (hk : k < 18) (hn : n < 2) (hup : brookUp s k = true) : exec (.widthChange k n) s =
    .next (resumeBrook k (showWidth k (setBrook s k { brookOf s k with half := some n, asked := none }))) := by
  change execWidthChange k n s = _
  rw [execWidthChange, if_pos ⟨hk, hn⟩, if_pos hup]

/-- A window has counted the symbols that its brook corrected, a free number (log 59). -/
def windowCounted (k : Nat) (s : State) : State :=
  addObj { s with fresh := s.fresh + 1 } (brookKey k 0xB) (Config.correctedSymbols s.fresh)

theorem canSpare_iff (b : Brook) :
    (b.spared.isNone && b.asked.isNone && b.half.isNone) = true ↔ b.spared = none ∧ b.asked = none ∧ b.half = none := by
  simp [and_assoc]

/-- A working lane above the threshold has failed: the spare is asked for while it is free, and else the brook narrows. -/
theorem exec_laneErrorWindow_high {ratio : F32} (hk : k < 18) (hlane : lane < 8) :
    let v := windowCounted k s
    let b := brookOf v k
    let u := setBrook v k { b with failed := b.failed ++ [lane] }
    brookUp v k = true → lane ∉ b.failed → b.spared ≠ some lane →
    flCompare (flOf32 ratio) (flOf32 (BitVec.ofNat 32 (getObj v (key 0x2C03 5)))) = 1 →
    exec (.laneErrorWindow k lane ratio) s = .next (cutOff
      (if b.spared.isNone && b.asked.isNone && b.half.isNone then askSpare k lane u else narrow k u)) := by
  intro v b u hup hworks hused hhigh
  change execLaneErrorWindow k lane ratio s = _
  have hlogical : lane ≠ 8 := Nat.ne_of_lt hlane
  have hneeds : ¬ ((!brookUp v k || !decide (flCompare (flOf32 ratio)
      (flOf32 (BitVec.ofNat 32 (getObj v (key 0x2C03 5)))) = 1) || decide (lane = 8) ||
      decide (lane ≠ 8 ∧ b.spared = some lane) || decide (lane ∈ b.failed)) = true) := by
    simp [hup, hhigh, hlogical, hused, hworks]
  simp only [execLaneErrorWindow, if_pos (⟨hk, Nat.le_of_lt hlane⟩ : k < 18 ∧ lane ≤ 8), if_neg hlogical]
  exact congrArg (fun t => Host.Outcome.next (cutOff t)) (if_neg hneeds)

/-! ## Training (12 R336) -/

/-- A brook whose training has succeeded, and which has sent again what its peer had not acknowledged. -/
def trained (k : Nat) (s : State) : State :=
  let u := setBrook s k { brookOf s k with retrains := 0, replayCount := 0, nakCount := 0, asked := none }
  followBrooks (resumeBrook k (replayAll k (showWidth k (setObj u (brookKey k 1) 2))))

/-- A trained brook pays the grants that are owed and names itself to its peer. -/
theorem exec_brookRetrainDone_good (hk : k < 18) (htrains : brookState s k = 1) :
    exec (.brookRetrainDone k true) s = .next (cutOff (payGrants
      (sendControl k (getObj (trained k s) (brookKey k 3) % 4096) 7 (leBytes (ownId (trained k s)) 2) (trained k s)))) := by
  change execBrookRetrainDone k true s = _
  rw [execBrookRetrainDone, if_pos hk, if_neg (not_not.mpr htrains), if_pos rfl]
  rfl

/-- A training that fails is counted; the third in a row takes the brook down, and another is tried again. -/
theorem exec_brookRetrainDone_bad (hk : k < 18) (htrains : brookState s k = 1) :
    let w := setBrook s k { brookOf s k with retrains := (brookOf s k).retrains + 1 }
    exec (.brookRetrainDone k false) s =
      .next (cutOff (if 3 ≤ (brookOf s k).retrains + 1 then brookDown k w else retrain k w)) := by
  intro w
  change execBrookRetrainDone k false s = _
  rw [execBrookRetrainDone, if_pos hk, if_neg (not_not.mpr htrains), if_neg Bool.false_ne_true]

end

/-- Settles O45: each event is one lemma above, for the branch that it takes. How many codewords a bad check word makes bad,
and how many symbols a window corrected, are free values (log 59). -/
theorem brookEvents : Obligations.BrookEvents := by
  unfold Obligations.BrookEvents
  intro s k lane peer n head crc payload ratio hk hlen
  refine ⟨exec_flitReceive_bad hk hlen, ?data, exec_flitReceive_nak hk hlen, fun hn => if_pos ⟨hk, hn⟩,
    fun hpeer => if_pos ⟨hk, hpeer⟩, fun hpeer => ⟨_, rfl, if_pos ⟨hk, hpeer⟩⟩, if_pos hk,
    exec_spareRequest_free hk, exec_spareConfirm_asked hk, exec_widthChange_up hk, ?lane, ?training⟩
  case data =>
    intro hup hon hgood hack hkind hseq b u hown
    exact (exec_flitReceive_data hk hlen hup hon hgood hack hkind hseq).trans (congrArg _ (if_neg (not_not.mpr hown)))
  case lane =>
    intro v u hlane hup hworks hused hhigh
    have hrun := exec_laneErrorWindow_high hk hlane hup hworks hused hhigh
    constructor
    · intro hspared hasked hhalf
      exact hrun.trans (congrArg (fun t => Host.Outcome.next (cutOff t))
        (if_pos ((canSpare_iff _).mpr ⟨hspared, hasked, hhalf⟩)))
    · intro hgone
      refine hrun.trans (congrArg (fun t => Host.Outcome.next (cutOff t)) (if_neg fun hfree => ?_))
      obtain ⟨hspared, hasked, hhalf⟩ := (canSpare_iff _).mp hfree
      exact hgone.elim (· hspared) fun h => h.elim (· hasked) (· hhalf)
  case training =>
    intro htrains b u v w
    have hbad := exec_brookRetrainDone_bad hk htrains
    refine ⟨exec_brookRetrainDone_good hk htrains, fun hthird => ?_, fun hearly => ?_⟩
    · exact hbad.trans (congrArg (fun t => Host.Outcome.next (cutOff t)) (if_pos (Nat.succ_le_succ hthird)))
    · exact hbad.trans (congrArg (fun t => Host.Outcome.next (cutOff t))
        (if_neg (Nat.not_le.mpr (Nat.succ_lt_succ hearly))))

end Sys2Proof
end

section
/-! What ends the waits of fabric commands: the time-outs of messages, of WAITF and of collectives, and the end of a PERMUTE
round (12 R338, R345, R346, R355). -/

namespace Sys2Proof

open Machine Safety

section
variable {s : State} {p ph dst n : Nat} {m : OutMsg} {f g : FabCmd}

/-- A message that is still out is sent again at the end of its time (12 R338). -/
theorem exec_endToEndTimeout_out (h : s.fabric.out.find? (fun m => decide (m.dst = dst ∧ m.id = n)) = some m) :
    exec (.endToEndTimeout dst n) s =
      .next (resendAll [m] (advanceTo s (m.sentAt + getObj s (key 0x2C03 1) * usClk))) := by
  change execEndToEndTimeout dst n s = _
  rw [execEndToEndTimeout, h]

/-- The WAITF commands of a pond that still wait (12 R345). -/
def waitingWaitfs (s : State) (ph : Nat) : List FabCmd :=
  (fabCmds s).filter fun f => decide (f.pond = ph) && decide (opcodeOf f.cmd = 0x05) && !f.done

/-- The WAITF that expires first ends at its instant (12 R345). -/
theorem exec_waitfTimeout_first (h : OnPond s p ph)
    (hfirst : (waitingWaitfs s ph).find? (fun f =>
      (waitingWaitfs s ph).all fun g => decide (waitfEnd s f ≤ waitfEnd s g)) = some f) :
    exec (.waitfTimeout p) s = .next (failFab f 0x0B 20 9 (advanceTo s (waitfEnd s f))) := by
  obtain ⟨hp, rfl, hpresent⟩ := h
  change execWaitfTimeout p s = _
  rw [execWaitfTimeout, onPond_mapped hp hpresent]
  simp only [waitingWaitfs] at hfirst
  simp only [hfirst]

/-- The oldest collective that has not completed ends at the collective timeout (12 R346). -/
theorem exec_collectiveTimeout_oldest (h : OnPond s p ph)
    (hfind : (fabCmds s).find? (fun f => decide (f.pond = ph) &&
      decide (opcodeOf f.cmd = 0x03 ∨ opcodeOf f.cmd = 0x06) && !f.done) = some f) :
    exec (.collectiveTimeout p) s = .next (spoilDestination f
      (failFab f 0x0B 21 7 (addObj (advanceTo s (f.started + collectiveTimeout s)) (key 0x2C05 9) 1))) := by
  obtain ⟨hp, rfl, hpresent⟩ := h
  change execCollectiveTimeout p s = _
  rw [execCollectiveTimeout, onPond_mapped hp hpresent, hfind]

/-- A PERMUTE whose round has ended, and whose scratch block is settled: it is done after its last round, and else begins
the next one (12 R355). -/
def roundEnded (ph : Nat) (g : FabCmd) (v : State) : State :=
  if permK g.fields ≤ g.round + 1 then addObj (putFab { g with round := g.round + 1, done := true } v) (key 0x2C05 0xC) 1
  else settlePerm ph g.run (startRound ph g.run (putFab { g with round := g.round + 1 } v))

theorem exec_permuteRoundEnd_settled (h : OnPond s p ph)
    (hfind : (fabCmds s).find? (fun f => decide (f.pond = ph) && decide (opcodeOf f.cmd = 0x06) && !f.done) = some f)
    (hacks : f.acks = []) (hpieces : f.pieces = []) (hsettled : findFab (settleRound f s) ph f.run = some g) :
    exec (.permuteRoundEnd p) s = .next (roundEnded ph g (settleRound f s)) := by
  obtain ⟨hp, rfl, hpresent⟩ := h
  change execPermuteRoundEnd p s = _
  rw [execPermuteRoundEnd, onPond_mapped hp hpresent]
  simp [hfind, hacks, hpieces, hsettled, roundEnded]

end

/-- Settles O46: each event finds its message or command (the lemmas above), and the end of a round is last or not by the
number of its blocks (`roundEnded`). That the destination of a failed collective holds free values is log 24. -/
theorem fabricTimeouts : Obligations.FabricTimeouts := by
  unfold Obligations.FabricTimeouts
  intro s p ph dst n m f h
  refine ⟨exec_endToEndTimeout_out, exec_waitfTimeout_first h, exec_collectiveTimeout_oldest h, ?round⟩
  case round =>
    intro hfind hacks hpieces g hsettled
    have hrun := exec_permuteRoundEnd_settled h hfind hacks hpieces hsettled
    exact ⟨fun hlast => hrun.trans (congrArg _ (if_pos hlast)),
      fun hmore => hrun.trans (congrArg _ (if_neg (Nat.not_le.mpr hmore)))⟩

end Sys2Proof
end

section
/-! The step as a machine (log 1): it takes the front command, and what `Keeps` names never goes back. -/

namespace Sys2Proof

open Machine Safety Laws

theorem step_of_queued {s : State} {c : Instr} {rest : List Instr} (hqueue : s.pending = c :: rest) :
    step s = exec c { s with pending := rest } := by
  unfold step
  rw [hqueue]

/-- Settles O1. -/
theorem stepRunsFrontCommand : Obligations.StepRunsFrontCommand := by
  unfold Obligations.StepRunsFrontCommand
  exact fun _ _ _ => step_of_queued

theorem step_of_idle {s : State} (hidle : s.pending = []) : step s = .next s := by
  unfold step
  rw [hidle]

/-- Settles O3: `Keeps` holds the rest of the queue over every command. -/
theorem stepTakesOneCommand : Obligations.StepTakesOneCommand := by
  unfold Obligations.StepTakesOneCommand
  exact ⟨fun _ _ hstep => (step_keeps hstep).pending, fun _ => step_of_idle⟩

/-- Settles O5: `Keeps` holds the fuse rule over every command. -/
theorem stepKeepsDebugFuse : Obligations.StepKeepsDebugFuse := by
  unfold Obligations.StepKeepsDebugFuse
  intro s t hfuse hstep
  have hkept : SecureKeeps s.secure t.secure := (step_keeps hstep).secure
  have hlevel : DebugFuse t := hkept.fuse hfuse
  exact ⟨hlevel, fun hburned => ⟨hkept.disabled hburned, hlevel (hkept.disabled hburned)⟩⟩

/-- Settles O6: time, nonces, free values, fuses and what was sent only go on over every command. -/
theorem stepOnlyGoesOn : Obligations.StepOnlyGoesOn := by
  unfold Obligations.StepOnlyGoesOn
  intro s t hstep
  have hkept := step_keeps hstep
  exact ⟨hkept.now, hkept.fresh, hkept.secure.nonce, hkept.secure.floor, hkept.sent, hkept.grade⟩

end Sys2Proof
end

section
/-! Every command whose operands name units that the device has completes, and every other one ends in the fault
`noSuchUnit` (log 53). -/

namespace Sys2Proof

open Machine Safety Laws

/-- An outcome that completes where the units named exist (`P`), and is the fault `noSuchUnit` elsewhere (log 53). -/
structure Guarded (P : Prop) (o : Out) : Prop where
  completes : P → Completes o
  faults : ¬ P → o = .fault .noSuchUnit

section
variable {P Q : Prop} {_ : Decidable P} {o : Out} {t : State}

theorem next_guarded : Guarded True (.next t) := ⟨fun _ => ⟨t, rfl⟩, fun h => absurd trivial h⟩

theorem ite_guarded (h : P → Completes o) : Guarded P (if P then o else .fault .noSuchUnit) :=
  ⟨fun hp => (if_pos hp).symm ▸ h hp, fun hp => if_neg hp⟩

theorem guard_guarded : Guarded P (if P then .next t else .fault .noSuchUnit) := ite_guarded fun _ => ⟨t, rfl⟩

/-- A guard behind another one. -/
theorem Guarded.behind (h : Guarded Q o) : Guarded (P ∧ Q) (if P then o else .fault .noSuchUnit) := by
  refine ⟨fun ⟨hp, hq⟩ => (if_pos hp).symm ▸ h.completes hq, fun hpq => ?_⟩
  by_cases hp : P
  · exact (if_pos hp).trans (h.faults fun hq => hpq ⟨hp, hq⟩)
  · exact if_neg hp

theorem Guarded.of_iff (h : Guarded P o) (hiff : Q ↔ P) : Guarded Q o :=
  ⟨fun hq => h.completes (hiff.mp hq), fun hq => h.faults fun hp => hq (hiff.mpr hp)⟩

/-- A completed command goes on; a fault stays. -/
theorem Guarded.onward {k : State → Out} (hk : ∀ t, Completes (k t)) :
    Guarded P o → Guarded P (match o with
      | .next t => k t
      | o => o) := by
  refine fun h => ⟨fun hp => ?_, fun hp => ?_⟩
  · obtain ⟨t, rfl⟩ := h.completes hp
    exact hk t
  · rw [h.faults hp]

end

section
variable {s : State} {p : Nat} {f : Nat → State}

theorem onPond_guarded : Guarded (p < logicalCount s) (onPond p s f) :=
  ite_guarded fun _ => by split <;> exact ⟨_, rfl⟩

theorem writeObject_guarded {m index sub v : Nat} : Guarded (isMaster m = true) (writeObject m index sub v s) :=
  guard_guarded

theorem oneOp_guarded {o : FutureOp} : Guarded (o.f < 32768 ∧ o.c < 32768) (oneOp o s) := guard_guarded

/-- An operation on one future names no other. -/
theorem opOf_guarded {op f : Nat} {a b : W64} : Guarded (f < 32768) (oneOp (opOf op f a b) s) :=
  oneOp_guarded.of_iff ⟨fun h => ⟨h, Nat.zero_lt_succ _⟩, And.left⟩

/-- A message of `n` bytes (log 53). -/
theorem onMessage_guarded {src msg n : Nat} {effect : State → State} :
    Guarded (src < 4096 ∧ 1 ≤ n ∧ n ≤ 65536) (onMessage src msg n s effect) := guard_guarded

/-- A read response may be empty (log 53). -/
theorem execReadResponse_guarded {src msg transfer : Nat} {poisoned : Bool} {data : List Byte} :
    Guarded (src < 4096 ∧ data.length ≤ 65536) (execReadResponse src msg transfer poisoned data s) :=
  onMessage_guarded.of_iff (by omega)

/-- An object of the staged table is written by a master; a store elsewhere does nothing (01 R28). -/
theorem execStagedBasinWrite_guarded {m index sub v : Nat} :
    Guarded (isTreeKey (key index sub) = true → isMaster m = true) (execStagedBasinWrite m index sub v s) := by
  unfold execStagedBasinWrite
  by_cases hkey : isTreeKey (key index sub) = true
  · rw [if_pos hkey]
    exact writeObject_guarded.of_iff ⟨fun h => h hkey, fun h _ => h⟩
  · rw [if_neg hkey]
    exact next_guarded.of_iff ⟨fun _ => trivial, fun _ h => absurd h hkey⟩

section
variable {cls op own : Nat} {mine ready valid : State → Nat → Queued → Bool} {effect : Nat → Queued → State → Started}
  {reads : State → Nat → Queued → List Run}

theorem onStream_guarded : Guarded (p < logicalCount s) (onStream p op s effect) := onPond_guarded

theorem controlAt_guarded {f : Nat → Section → Cmd → State → State} :
    Guarded (p < logicalCount s) (controlAt p op s f) := onPond_guarded

theorem onControl_guarded {f : Nat → Section → Cmd → State → State × Bool} :
    Guarded (p < logicalCount s) (onControl p op s f) := controlAt_guarded

theorem onHeadIf_guarded : Guarded (p < logicalCount s) (onHeadIf p cls own mine s ready valid effect reads) :=
  onPond_guarded

theorem onHead_guarded : Guarded (p < logicalCount s) (onHead p cls op own s ready valid effect reads) :=
  onHeadIf_guarded

theorem vectorOp_guarded {f : Nat → F32 → F32 → F32 → F32} : Guarded (p < logicalCount s) (vectorOp p op f s) :=
  onHead_guarded

theorem copyRow_guarded : Guarded (p < logicalCount s) (copyRow p op s) := onHeadIf_guarded

theorem fabRow_guarded : Guarded (p < logicalCount s) (fabRow p op mine reads s valid effect) := onHeadIf_guarded

end

theorem execMma_guarded : Guarded (p < logicalCount s) (execMma p s) := by
  have hcount : logicalCount s = logicalCount (noteHold (physOf s p) s) := by
    unfold logicalCount
    rw [(noteHold_keeps (.refl s)).grade]
  exact onHead_guarded.of_iff (hcount ▸ Iff.rfl)

/-- A FORK names two futures (07 R197). -/
theorem execFork_guarded {f c : Nat} {a b : W64} : Guarded (f < 32768 ∧ c < 32768) (execFork f c a b s) :=
  oneOp_guarded (o := { opOf 2 f a b with c := c })

theorem taskRequest_guarded {m task action : Nat} : Guarded (isMaster m = true) (taskRequest m task action s) :=
  guard_guarded

/-- The latch does nothing before the first edge and when it has taken place (02 R40). -/
theorem execInputLatch_guarded : Guarded True (execInputLatch s) := by
  unfold execInputLatch
  split <;> exact next_guarded

theorem onUnitHead_guarded {cls op own : Nat} {valid : State → Nat → Queued → Bool}
    {effect : Nat → Queued → State → Started} :
    Guarded (p < logicalCount s) (onUnitHead p cls op own s valid effect) := by
  unfold onUnitHead
  exact Guarded.onward (fun _ => ⟨_, rfl⟩) onHead_guarded

theorem decodeRow_guarded {op : Nat} : Guarded (p < logicalCount s) (decodeRow p op s) := by
  unfold decodeRow
  exact Guarded.onward (fun _ => ⟨_, rfl⟩) onHead_guarded

theorem execBoxsel_guarded : Guarded (p < logicalCount s) (execBoxsel p s) := by
  unfold execBoxsel
  exact Guarded.onward (fun _ => ⟨_, rfl⟩) onHead_guarded

theorem collRow_guarded {op : Nat} : Guarded (p < logicalCount s) (collRow p op s) := by
  unfold collRow
  exact Guarded.onward (fun _ => ⟨_, rfl⟩) fabRow_guarded

theorem execPermute_guarded : Guarded (p < logicalCount s) (execPermute p s) := by
  unfold execPermute
  exact Guarded.onward (fun _ => ⟨_, rfl⟩) fabRow_guarded

theorem execSsend_guarded : Guarded (p < logicalCount s) (execSsend p s) := by
  unfold execSsend
  exact Guarded.onward (fun _ => by split <;> exact ⟨_, rfl⟩) onStream_guarded

end

/-- Every command completes or is the fault of its units. -/
theorem exec_guarded (c : Instr) (s : State) : Guarded (UnitsExist c s) (exec c s) := by
  delta exec UnitsExist
  cases c with
  | internalGeneratorEdge | tickInEdge | tickSourceTakeover | readoptFallback | servingEnd | rowRepair |
    programLoadDone | marginDone | electionClose | leaseExpiry | handoverTimeout | directiveRingRead | define |
    place | free | setbackup | clean | setmask | directiveComplete | frameRelease | migrationDone |
    uncorrectableMemoryError | refetchDone | correctedError | endToEndTimeout | mailboxGo | heartbeat |
    spareCopyDone | powerPhaseFailure | serviceCoreWatchdog | activationTimeout | perstNAssert | hotReset |
    linkTrained | cxlLinkDown | linkRetrainTimer | linkLossTimeout | hostMemRead | hostMemWrite | snoopResponse |
    modrstNRelease | bootStageEnd | verifyDone | getVersion | getCapabilities | negotiateAlgorithms | getDigests |
    getCertificate | challenge | getMeasurements | tapReset | extest | samplePreload | idcode | lockstat | nonce |
    unlock | unlockVerifyDone | dict | debugStatus | debugHalt | debugResume | debugStep | debugHaltGang |
    debugRelock | brkpt | dbgmemPoll | dbgmemRead | dbgmemWrite | bypass | powerEntryDone | powerExitDone |
    wakeNAssert | wakeNRelease | wakeTimerExpiry | pondPowerUp | supplyOutOfRange | supplyStop | supplyRecovered |
    temperatureHigh | temperatureCritical | coolDownRelease | pwrOkFall | modrstNAssert | perstNRelease | powerUp |
    powerStagesOff | wakeNPulseFiltered | spdmUnsupportedRequest =>
    exact next_guarded
  | servingDispatchStart | groupFetch | costExceeded | registerWrite | masterTableTimeout | chipUnitDispatch |
    hbmRecentre | shoreWckCheck | shoreRetrainDone | flitReceive | brookRetrainDone | laneErrorWindow | ack |
    creditGrant | spareRequest | spareConfirm | widthChange | endToEndAck | identity | sliceExpiry |
    schedulerDecision | restoreDone | switchOutSave | switchOutDone | usdoRequest | usdoSessionTimeout | nmtStart | nmtStop |
    nmtEnterPreoperational | nmtResetNode | nmtResetCommunication | emcyInhibitExpiry | tpdoInhibitExpiry | tpdoEventTimer | busOff | busOffRecovery |
    escalationExpiry | memberEvacuationDone | msixUnmask | chipEngineUnitFailed =>
    exact guard_guarded
  | arrayStartStaggerRelease | commandPush | queueSlotFreed | commandComplete | errorHandlerEntry | gangErrorNotify |
    peerSignalArrival | creditReturn | watchSampleDone | expanderGrant | waitfTimeout | collectiveTimeout |
    permuteRoundEnd | forcedStop | pondWatchdogTimeout | pondHalted =>
    exact onPond_guarded
  | sconf | sfree =>
    exact onStream_guarded
  | ret =>
    exact controlAt_guarded
  | set | alu | load | store | loop | endloop | cmp | br | sigpeer | fence | err | nop | resume =>
    exact onControl_guarded
  | mma =>
    exact execMma_guarded
  | wload | rrow | rcol | gate | pool | sstep | scan | sfix | tload | pwalk | pappend | attf | attb |
    pfmark =>
    exact onHead_guarded
  | add | sub | mul | fma | min | max | abs | neg | sel | vectorCmp | cvt | div | rcp | sqrt | rsqrt | exp2 | log2 |
    exp | log | tanh | sigmoid | silu | gelu | softplus =>
    exact vectorOp_guarded
  | copy | fp32Add | zeroFill =>
    exact copyRow_guarded
  | put | get | stampchk | waitf =>
    exact fabRow_guarded
  | sourceSelectWrite | readoptRequest | readoptWithdraw | basinCommitRequest | testSpareRequest | loadRequest |
    bankSwitchRequest | clearBankRequest | stateStrideWrite | adoptRequest | fabricCommitRequest |
    acknowledgeSources | clearSources | regimeRequest | retireRequest | activationRequest | verifyRequest |
    burnRequest | relock | permanentDebugDisable | marginRequest | powerStateRequest | claim | leaseHeartbeat |
    release | successor | accept | seize | resetCommunication =>
    exact writeObject_guarded
  | taskStart | taskEnd =>
    exact taskRequest_guarded
  | ssend =>
    exact execSsend_guarded
  | create | park | unpark | retire | setFuture | truncate | shift | setuser =>
    exact opOf_guarded
  | ictx =>
    exact onUnitHead_guarded
  | decode | flush =>
    exact decodeRow_guarded
  | boxsel =>
    exact execBoxsel_guarded
  | write | readRequest | collectivePart =>
    exact onMessage_guarded
  | readResponse =>
    exact execReadResponse_guarded
  | allreduce | reducescatter | allgather | broadcast | alltoall =>
    exact collRow_guarded
  | permute =>
    exact execPermute_guarded
  | poolConfigWrite | writeLastSignal =>
    exact guard_guarded.behind
  | fork =>
    exact execFork_guarded
  | inputLatch =>
    exact execInputLatch_guarded
  | stagedBasinWrite =>
    exact execStagedBasinWrite_guarded

/-- Settles O2: every command is one of the guarded forms above. -/
theorem commandsComplete : Obligations.CommandsComplete := by
  unfold Obligations.CommandsComplete
  exact ⟨fun c s => (exec_guarded c s).completes, fun c s => (exec_guarded c s).faults⟩

end Sys2Proof
end

section
/-! What is written reads back and leaves the rest alone: registers, objects, memory and masters' copies; accepted and
refused writes of masters (06 Table CMD-1; 10 R275, R281; 14 R376, R377, Table DIC-4). -/

namespace Sys2Proof

open Machine Safety

/-! ## Registers, objects and bytes -/

theorem getParam_setParam {k : Core} {v : W64} (h : MapSorted k.params) (d i : Nat) :
    getParam (setParam k d v) i = if i = 0 then 0 else if i = d then v else getParam k i := by
  by_cases hi : i = 0
  · simp [getParam, hi]
  by_cases hd : d = 0
  · simp [setParam, hi, hd, getParam]
  by_cases hid : i = d
  · subst hid
    simp [getParam, setParam, hi, mapFind_put_same _ _ _ _ h]
  · simp [getParam, setParam, hi, hd, hid, mapFind_put_other _ _ _ _ _ _ h hid]

theorem setParam_params_sorted {k : Core} (h : MapSorted k.params) (d : Nat) (v : W64) :
    MapSorted (setParam k d v).params := by
  unfold setParam
  split
  · exact h
  · exact mapPut_sorted _ _ _ _ h

theorem setParam_frame (k : Core) (d : Nat) (v : W64) : { setParam k d v with params := k.params } = k := by
  unfold setParam
  split <;> rfl

section
variable {s : State} {uda j : Nat} {b : Byte}

theorem getObj_setObj (h : MapSorted s.dict) (k v j : Nat) :
    getObj (setObj s k v) j = if j = k then v else getObj s j := by
  by_cases hj : j = k
  · rw [if_pos hj, hj, getObj_setObj_same h]
  · rw [if_neg hj, getObj_setObj_other h _ _ hj]

/-- A byte that no structure of the device holds lies outside the program directory, so a write of it lands in memory. -/
theorem writeByte_of_frame (h : deviceByte s uda = none) (b : Byte) :
    writeByte s uda b = { s with mem := mapPut memDefault s.mem (cellOf s uda) b } := by
  unfold writeByte
  refine if_neg fun hdir => ?_
  have hnone := h
  rw [deviceByte, if_pos hdir] at hnone
  split_ifs at hnone

theorem readByte_of_frame (h : deviceByte s uda = none) : readByte s uda = mapFind memDefault s.mem (cellOf s uda) := by
  unfold readByte
  rw [h]

theorem readByte_writeByte (hs : Canonical s) (huda : deviceByte s uda = none) (hj : deviceByte s j = none) :
    readByte (writeByte s uda b) j = if cellOf s j = cellOf s uda then b else readByte s j := by
  rw [writeByte_of_frame huda, readByte_of_frame hj]
  have hread : readByte { s with mem := mapPut memDefault s.mem (cellOf s uda) b } j =
      mapFind memDefault (mapPut memDefault s.mem (cellOf s uda) b) (cellOf s j) := readByte_of_frame hj
  rw [hread]
  by_cases hcell : cellOf s j = cellOf s uda
  · rw [if_pos hcell, hcell, mapFind_mapPut_same _ _ _ _ hs.mem]
  · rw [if_neg hcell, mapFind_mapPut_other _ _ _ _ _ hs.mem hcell]

end

/-- Settles O8. -/
theorem stateReadsBack : Obligations.StateReadsBack := by
  unfold Obligations.StateReadsBack
  refine ⟨?registers, ?objects, ?bytes⟩
  case registers =>
    exact fun k d i v h => ⟨getParam_setParam h d i, setParam_params_sorted h d v, setParam_frame k d v⟩
  case objects => exact fun s k j v hs => ⟨getObj_setObj hs.dict k v j, rfl, (Laws.setObj_keeps (.refl s)).canonical hs⟩
  case bytes =>
    intro s uda j b hs huda hj
    refine ⟨readByte_writeByte hs huda hj, ?frame, ?canonical⟩
    case frame => rw [writeByte_of_frame huda]
    case canonical => exact (Laws.writeByte_keeps (.refl s)).canonical hs

/-! ## Writes of objects (14 R376, R377) -/

section
variable {s s1 s2 : State} {m index sub len v : Nat} {r : ObjRow}

theorem exec_registerWrite_of_accepted (h : Accepted s m index sub len v r s1)
    (e : applyWrite m (key index sub) v r.access s1 = (0, s2)) :
    exec (.registerWrite m index sub len v) s = .next (answered m index sub s2) := by
  change execRegisterWrite m index sub len v s = _
  rw [execRegisterWrite, if_pos h.master, masterWrite_of_accepted h e]

/-- An object with a copy for each master holds the value in the writer's copy (14 R377). -/
theorem applyWrite_ownCopy {k : Nat} (ho : oneShot k = false) (hr : resultRequest k v s = none) :
    applyWrite m k v .rw s = (0, { s with copies := mapPut (objDefault k) s.copies (m * 2 ^ 24 + k) v }) := by
  simp [applyWrite, hr, ho]

/-- The copies of different masters, and of different objects, have different keys (14 R377). -/
theorem copyKey_inj {n j k : Nat} (hj : j < 2 ^ 24) (hk : k < 2 ^ 24) :
    n * 2 ^ 24 + j = m * 2 ^ 24 + k ↔ n = m ∧ j = k := by omega

end

/-- Settles O9. -/
theorem acceptedWriteTakesEffect : Obligations.AcceptedWriteTakesEffect := by
  unfold Obligations.AcceptedWriteTakesEffect
  exact fun _ _ _ _ _ _ _ _ _ => exec_registerWrite_of_accepted

/-- Settles O10: the write lands under the key of the writer and the object, which no other copy has. -/
theorem privateCopies : Obligations.PrivateCopies := by
  unfold Obligations.PrivateCopies
  intro s s1 m n index sub len v j r hs1 h hrw hone hresult _ hk hj
  have happly := applyWrite_ownCopy (m := m) hone hresult
  rw [← hrw] at happly
  refine ⟨_, exec_registerWrite_of_accepted h happly, ?own, ?others, rfl⟩
  case own => exact mapFind_put_same _ _ _ _ hs1.copies
  case others =>
    intro hne
    have hkey : n * 2 ^ 24 + j ≠ m * 2 ^ 24 + key index sub := fun he => by
      obtain ⟨hn, hjk⟩ := (copyKey_inj hj hk).mp he
      exact hne.elim (· hn) (· hjk)
    exact mapFind_put_other _ _ _ _ _ _ hs1.copies hkey

/-- Check 6 refuses a stranger's write, and counts it (14 Table DIC-4, 0x3130.03). -/
theorem dictWrite_stranger {s : State} {m index sub v : Nat} {r : ObjRow} (hrow : lookup s index sub = .ok r)
    (hrwo : r.access = .rwo) (hstranger : m ≠ ownerOf s) :
    dictWrite true m index sub (typeSize r.type) v s = (0x08000021, addObj s (key 0x3130 3) 1) := by
  simp [dictWrite, hrow, hrwo, mayWrite, hstranger, abortOwner]

/-- Settles O11: the write fails check 6 (`dictWrite_stranger`), and the client gets its abort code. -/
theorem strangerIsRefused : Obligations.StrangerIsRefused := by
  unfold Obligations.StrangerIsRefused
  intro s s1 m index sub v r hcan harrives hserved hsession hrow hrwo hstranger
  have hmaster : isMaster m = true := by simp [isMaster, hcan]
  have hhost : m ≠ hostMaster := by
    rintro rfl
    exact absurd hcan (by decide)
  have hdebug : m ≠ debugMaster := by
    rintro rfl
    exact absurd hcan (by decide)
  have henters : enterMaster m (resumeService s) = some s1 := by simpa [checkedIn, hhost, hdebug] using hserved
  change execRegisterWrite m index sub (typeSize r.type) v s = _
  simp [execRegisterWrite, hmaster, masterWrite, harrives, hhost, hdebug, henters, hsession, storeWidth,
    dictWrite_stranger hrow hrwo hstranger]

end Sys2Proof
end

section
/-! Ownership: the commands of masters, what a new owner gets, the timers, and the election (14 R392 to R399). -/

namespace Sys2Proof

open Machine Safety

/-! ## What a new owner gets (14 R394, R397, R398) -/

section
variable {s : State} {m j : Nat}

/-- No successor is named and no handover runs (14 R397). -/
def unnamed (s : State) : State := { setObj s (key 0x3101 3) 0 with own := { s.own with handover := none } }

theorem endHandover_cases (s : State) :
    endHandover s = unnamed s ∨ endHandover s = setObj (unnamed s) (key 0x3101 9) 2 := by
  have hcases : endHandover s =
      if ownState (unnamed s) = 3 then setObj (unnamed s) (key 0x3101 9) 2 else unnamed s := rfl
  rw [hcases]
  split
  · exact .inr rfl
  · exact .inl rfl

theorem endHandover_own (s : State) : (endHandover s).own = { s.own with handover := none } := by
  rcases endHandover_cases s with h | h <;> rw [h] <;> rfl

theorem endHandover_now (s : State) : (endHandover s).now = s.now := by
  rcases endHandover_cases s with h | h <;> rw [h] <;> rfl

theorem endHandover_frame (s : State) : { endHandover s with own := s.own, dict := s.dict } = s := by
  rcases endHandover_cases s with h | h <;> rw [h] <;> rfl

theorem unnamed_dict_sorted (h : MapSorted s.dict) : MapSorted (unnamed s).dict :=
  setObj_dict_sorted h (key 0x3101 3) 0

theorem endHandover_dict_sorted (h : MapSorted s.dict) : MapSorted (endHandover s).dict := by
  rcases endHandover_cases s with he | he <;> rw [he]
  · exact unnamed_dict_sorted h
  · exact setObj_dict_sorted (unnamed_dict_sorted h) _ _

/-- The end of a handover writes the successor, and the ownership state where it was pending (14 R397). -/
theorem getObj_endHandover (h : MapSorted s.dict) (hj : j ≠ key 0x3101 9) :
    getObj (endHandover s) j = if j = key 0x3101 3 then 0 else getObj s j := by
  have hnamed : getObj (unnamed s) j = if j = key 0x3101 3 then 0 else getObj s j :=
    getObj_setObj h (key 0x3101 3) 0 j
  rcases endHandover_cases s with he | he <;> rw [he]
  · exact hnamed
  · exact (getObj_setObj_other (unnamed_dict_sorted h) _ _ hj).trans hnamed

theorem getObj_becomeOwner (h : MapSorted s.dict) (m j : Nat) : getObj (becomeOwner m s) j =
    if j = key 0x3101 9 then 2 else if j = key 0x3101 7 then m else if j = key 0x3101 3 then 0 else getObj s j := by
  have hdict := endHandover_dict_sorted h
  change getObj (setObj (setObj (endHandover s) (key 0x3101 7) m) (key 0x3101 9) 2) j = _
  rw [getObj_setObj (setObj_dict_sorted hdict _ _), getObj_setObj hdict]
  by_cases hj : j = key 0x3101 9
  · rw [if_pos hj, if_pos hj]
  · rw [if_neg hj, if_neg hj, getObj_endHandover h hj]

theorem becomeOwner_own (h : MapSorted s.dict) (m : Nat) : (becomeOwner m s).own =
    { s.own with handover := none, claims := [], election := none,
                 lease := some (s.now + getObj s (key 0x3100 1) * msClk) } := by
  have hlength : getObj (becomeOwner m s) (key 0x3100 1) = getObj s (key 0x3100 1) := by
    rw [getObj_becomeOwner h]
    rfl
  unfold becomeOwner leaseClk at *
  simp only [setObj_own, setObj_now, endHandover_own, endHandover_now] at *
  rw [show getObj (setObj (setObj (endHandover s) _ m) _ 2) _ = _ from hlength]

theorem becomeOwner_frame (m : Nat) (s : State) : { becomeOwner m s with own := s.own, dict := s.dict } = s := by
  unfold becomeOwner setObj
  exact endHandover_frame s

end

section
variable {s : State} {m v : Nat} {a : Access}

theorem applyWrite_claim (ha : a ≠ .rw) (hopen : ownState s ≤ 1) :
    applyWrite m (key 0x3101 1) v a s = (0, claimEffect m v s) := by
  have ho : oneShot (key 0x3101 1) = false := by decide
  simp only [applyWrite, resultRequest_eq_none ho, ho, ha, Bool.false_eq_true, if_false]
  simp [key, hopen]

theorem applyWrite_refresh (ha : a ≠ .rw) : applyWrite m (key 0x3101 2) v a s = (0, refreshLease s) := by
  have ho : oneShot (key 0x3101 2) = false := by decide
  simp only [applyWrite, resultRequest_eq_none ho, ho, ha, Bool.false_eq_true, if_false]
  simp [key]

theorem applyWrite_successor (ha : a ≠ .rw) : applyWrite m (key 0x3101 3) v a s = (0, nameSuccessor v s) := by
  have ho : oneShot (key 0x3101 3) = false := by decide
  simp only [applyWrite, resultRequest_eq_none ho, ho, ha, Bool.false_eq_true, if_false]
  simp [key]

theorem actOne_accept : actOne m (key 0x3101 4) s = becomeOwner m (addObj s (key 0x3130 6) 1) := by
  simp [actOne, key, acceptHandover]

theorem actOne_release : actOne m (key 0x3101 5) s = vacate s := by
  simp [actOne, key]

theorem actOne_seize :
    actOne m (key 0x3101 6) s = raise 57 .chip (becomeOwner debugMaster (addObj s (key 0x3130 7) 1)) := by
  simp [actOne, key, seizeOwnership]

end

/-- Settles O14: each command is an accepted write of one object with the effect of its kind, and `getObj_becomeOwner` and
`becomeOwner_own` say what a new owner gets. -/
theorem ownershipCommandsComplete : Obligations.OwnershipCommandsComplete := by
  unfold Obligations.OwnershipCommandsComplete
  constructor
  · intro s s1 m v r
    refine ⟨?claim, ?refresh, ?successor, ?accept, ?release, ?seize⟩
    case claim =>
      exact fun h hopen => writeObject_of_accepted h (applyWrite_claim (h.access_ne_rw (by decide)) hopen)
    case refresh => exact fun h => writeObject_of_accepted h (applyWrite_refresh (h.access_ne_rw (by decide)))
    case successor => exact fun h => writeObject_of_accepted h (applyWrite_successor (h.access_ne_rw (by decide)))
    case accept => exact fun h => actOne_accept ▸ writeObject_request h (by decide)
    case release => exact fun h => actOne_release ▸ writeObject_request h (by decide)
    case seize => exact fun h => actOne_seize ▸ writeObject_request h (by decide)
  · intro s m j hs
    have hread := getObj_becomeOwner hs.dict m
    have hown := becomeOwner_own hs.dict m
    refine ⟨hread _, hread _, hread _, ?lease, ?election, ?handover, ?claims, ?others, becomeOwner_frame m s⟩
    case lease => rw [hown]
    case election => rw [hown]
    case handover => rw [hown]
    case claims => rw [hown]
    case others =>
      intro hj
      simp only [List.mem_cons, List.not_mem_nil, or_false, not_or] at hj
      obtain ⟨h3, h7, h9⟩ := hj
      rw [hread, if_neg h9, if_neg h7, if_neg h3]

/-! ## The timers (14 R392, R395 to R397, R399) -/

section
variable {s : State} {t m : Nat}

theorem exec_leaseExpiry_due (hlease : s.own.lease = some t) (hruns : s.own.frozen = none) (howner : ownerOf s ≠ 0) :
    exec .leaseExpiry s = .next (raise 57 .chip (vacate (addObj (advanceTo s t) (key 0x3130 5) 1))) := by
  change execLeaseExpiry s = _
  simp [execLeaseExpiry, hlease, clocksRun, hruns, howner, expireLease]

theorem exec_handoverTimeout_due (hhandover : s.own.handover = some t) (hruns : s.own.frozen = none) :
    exec .handoverTimeout s = .next (endHandover (advanceTo s t)) := by
  change execHandoverTimeout s = _
  simp [execHandoverTimeout, hhandover, clocksRun, hruns]

theorem clocksRun_of_frozen (h : s.own.frozen ≠ none) : clocksRun s = false := by
  simpa [clocksRun, Option.isSome_iff_ne_none] using h

theorem exec_leaseExpiry_frozen (h : s.own.frozen ≠ none) : exec .leaseExpiry s = .next s := by
  change execLeaseExpiry s = _
  rw [execLeaseExpiry, clocksRun_of_frozen h]
  cases s.own.lease <;> rfl

theorem exec_handoverTimeout_frozen (h : s.own.frozen ≠ none) : exec .handoverTimeout s = .next s := by
  change execHandoverTimeout s = _
  rw [execHandoverTimeout, clocksRun_of_frozen h]
  cases s.own.handover <;> rfl

theorem exec_electionClose_frozen (h : s.own.frozen ≠ none) : exec .electionClose s = .next s := by
  change execElectionClose s = _
  rw [execElectionClose, clocksRun_of_frozen h]
  cases s.own.election <;> rfl

theorem exec_masterTableTimeout_due (hm : isMaster m = true)
    (hfind : s.own.masters.find? (fun e => decide (e.1 = m)) = some (m, t)) (howner : m ≠ ownerOf s)
    (hsuccessor : m ≠ successorOf s) :
    exec (.masterTableTimeout m) s = .next (dropCopies m { advanceTo s (t + 60000 * msClk) with
      own := { s.own with masters := s.own.masters.filter fun x => decide (x.1 ≠ m) } }) := by
  change execMasterTableTimeout m s = _
  rw [execMasterTableTimeout, if_pos hm, hfind]
  exact congrArg _ (if_neg (not_or.mpr ⟨howner, hsuccessor⟩))

theorem exec_masterTableTimeout_held (hm : isMaster m = true) (h : m = ownerOf s ∨ m = successorOf s) :
    exec (.masterTableTimeout m) s = .next s := by
  change execMasterTableTimeout m s = _
  rw [execMasterTableTimeout, if_pos hm]
  cases s.own.masters.find? fun e => decide (e.1 = m) with
  | none => rfl
  | some e => exact congrArg _ (if_pos h)

end

/-! ## The election (14 R394) -/

/-- Claim `x` beats claim `c`: the higher priority, or the lower identifier of equals. -/
def Beats (x c : Nat × Nat) : Prop := c.2 < x.2 ∨ (c.2 = x.2 ∧ x.1 < c.1)

theorem Beats.trans {x y z : Nat × Nat} (h : Beats x y) (k : Beats y z) : Beats x z := by
  unfold Beats at *
  omega

theorem bestClaim_isSome {c : Nat × Nat} {cs : List (Nat × Nat)} : bestClaim (c :: cs) ≠ none := by
  unfold bestClaim
  split
  · simp
  · split <;> simp

/-- The claim that wins is one of the claims, and no other beats it. -/
theorem bestClaim_unbeaten {cs : List (Nat × Nat)} {b : Nat × Nat} (h : bestClaim cs = some b) :
    b ∈ cs ∧ ∀ x ∈ cs, ¬ Beats x b := by
  induction cs generalizing b with
  | nil => cases h
  | cons c cs ih =>
    have hself (x : Nat × Nat) : ¬ Beats x x := by
      unfold Beats
      omega
    unfold bestClaim at h
    cases hrest : bestClaim cs with
    | none =>
      obtain rfl : cs = [] := by
        cases cs with
        | nil => rfl
        | cons d ds => exact absurd hrest bestClaim_isSome
      rw [hrest] at h
      cases h
      simp [hself]
    | some d =>
      obtain ⟨hmem, hbest⟩ := ih hrest
      rw [hrest] at h
      by_cases hbeats : Beats c d
      · obtain rfl : c = b := Option.some.inj ((if_pos hbeats).symm.trans h)
        refine ⟨List.mem_cons_self, List.forall_mem_cons.mpr ⟨hself c, fun x hx hxc => ?_⟩⟩
        exact hbest x hx (hxc.trans hbeats)
      · obtain rfl : d = b := Option.some.inj ((if_neg hbeats).symm.trans h)
        exact ⟨List.mem_cons_of_mem _ hmem, List.forall_mem_cons.mpr ⟨hbeats, hbest⟩⟩

/-- A claim that beats every other one wins. -/
theorem bestClaim_eq_some {cs : List (Nat × Nat)} {c : Nat × Nat} (hmem : c ∈ cs)
    (hbest : ∀ x ∈ cs, x ≠ c → Beats c x) : bestClaim cs = some c := by
  cases h : bestClaim cs with
  | none =>
    cases cs with
    | nil => cases hmem
    | cons d ds => exact absurd h bestClaim_isSome
  | some b =>
    obtain ⟨hb, hunbeaten⟩ := bestClaim_unbeaten h
    by_contra hne
    exact hunbeaten c hmem (hbest b hb fun hbc => hne (congrArg some hbc))

section
variable {s : State} {t : Nat}

theorem exec_electionClose_won {c : Nat × Nat} (helection : s.own.election = some t) (hruns : s.own.frozen = none)
    (hwins : bestClaim s.own.claims = some c) :
    exec .electionClose s = .next (becomeOwner c.1 (addObj (advanceTo s t) (key 0x3130 8) 1)) := by
  change execElectionClose s = _
  simp [execElectionClose, helection, clocksRun, hruns, hwins]

theorem exec_electionClose_empty (helection : s.own.election = some t) (hruns : s.own.frozen = none)
    (hclaims : s.own.claims = []) :
    exec .electionClose s = .next (setObj { addObj (advanceTo s t) (key 0x3130 8) 1 with
      own := { s.own with election := none } } (key 0x3101 9) 0) := by
  change execElectionClose s = _
  simp [execElectionClose, helection, clocksRun, hruns, hclaims, bestClaim]

end

/-- Settles O15: each timer acts at its instant while the clocks run, and the election goes to the claim that beats every
other one (`bestClaim_eq_some`); a paused service core also keeps the election open (14 R399). -/
theorem ownershipTimers : Obligations.OwnershipTimers := by
  unfold Obligations.OwnershipTimers
  refine ⟨fun s t m => ⟨exec_leaseExpiry_due, exec_handoverTimeout_due, ?frozen, exec_masterTableTimeout_due,
    exec_masterTableTimeout_held⟩, fun s t helection hruns => ⟨?won, exec_electionClose_empty helection hruns⟩⟩
  case frozen =>
    exact fun h => ⟨exec_leaseExpiry_frozen h, exec_handoverTimeout_frozen h, exec_electionClose_frozen h⟩
  case won =>
    exact fun c hmem hbest => exec_electionClose_won helection hruns (bestClaim_eq_some hmem hbest)

end Sys2Proof
end

section
/-! The scheduling of background tasks: slices, stops, saves, restores and decisions (13 R360 to R369). -/

namespace Sys2Proof

open Machine Safety

section
variable {s : State} {g : Nat} {r : TaskRun}

/-! ## Slices and forced stops (13 R362 to R364) -/

/-- The tasks that a slice that has expired may give way to (13 R363). -/
def otherTasks (s : State) (g : Nat) (r : TaskRun) : List Nat :=
  (tasksOf s g).filter fun t => eligible s t && decide (t ≠ r.task)

theorem exec_sliceExpiry_due (hg : g < logicalCount s) (hrun : runOf s g = some r) (hstop : r.stopAt = none)
    (hsave : r.saving = false) (hrestore : r.restoring = false) (hothers : otherTasks s g r ≠ []) :
    let u := advanceTo s (r.entered + getObj s (key 0x2D00 7) + 1)
    exec (.sliceExpiry g) s = .next (traceTask g 0x0303
      (r.task + (minBy (passOf (chargeTask g false u)) (r.task :: otherTasks s g r)).getD 0 * 256)
      (taskField u r.task 1 1) (addObj (requestStop g u) (key 0x2D03 0xA) 1)) := by
  have hdue : ¬ ((r.stopAt.isSome || r.saving || r.restoring || decide (otherTasks s g r = [])) = true) := by
    simp [hstop, hsave, hrestore, hothers]
  change execSliceExpiry g s = _
  rw [execSliceExpiry, if_pos hg, hrun]
  exact congrArg _ (if_neg hdue)

theorem exec_forcedStop_due {p ph t : Nat} {sec : Section} (h : OnPond s p ph) (hrun : runOf s (rank0Of s p) = some r)
    (hsect : (pondOf s ph).core.sect = some sec) (hstop : r.stopAt = some t) (hkind : sec.kind = .background)
    (hstopped : (pondOf s ph).core.stopped = none) (hexiting : (pondOf s ph).core.exiting = none)
    (hrestore : r.restoring = false) (hhalt : (pondOf s ph).halt = none) :
    exec (.forcedStop p) s =
      .next (modCore (unfetch ph (settlePond ph (advanceTo s (t + taskField s r.task 40 4)))) ph fun k =>
        { k with stopped := some sec.pc, stopKind := 2 }) := by
  have hdue : ¬ (sec.kind ≠ .background ∨ (pondOf s ph).core.stopped.isSome ∨ (pondOf s ph).core.exiting.isSome ∨
      r.restoring ∨ (pondOf s ph).halt.isSome) := by
    simp [hkind, hstopped, hexiting, hrestore, hhalt]
  change execForcedStop p s = _
  rw [execForcedStop, onPond_of h, hrun, hsect]
  simp only [hstop]
  exact congrArg _ (if_neg hdue)

/-! ## Decisions (13 R363, R369) -/

/-- Without a task on the gang nothing is charged (13 R367). -/
theorem chargeTask_of_idle {switch : Bool} (hrun : runOf s g = none) : chargeTask g switch s = s := by
  unfold chargeTask
  rw [hrun]

/-- A gang without a task enters or restores the one that it chooses (13 R363). -/
theorem exec_schedulerDecision_idle (hg : g < logicalCount s) (hrun : runOf s g = none) (hquiet : gangQuiet s g = true)
    (htime : backgroundTime s g = true) :
    exec (.schedulerDecision g) s = .next (match chooseTask s g with
      | none => s
      | some t =>
        if bitAt (taskField s t 6 1) 0 then
          beginMove g (setRun (setTaskState s t 2) g
            (some { task := t, since := s.now, entered := s.now, stopAt := none, saving := false,
                    restoring := true, kind := 0, live := restoreLive s g t, ending := false }))
        else enterTask g t s) := by
  change execSchedulerDecision g s = _
  rw [execSchedulerDecision, if_pos hg, hrun, chargeTask_of_idle hrun]
  simp only [hquiet, htime, hrun, Bool.not_true, Bool.or_self, Bool.false_eq_true, if_false]
  cases chooseTask s g <;> rfl

/-- A task that stands at its RET runs again, or stops when another one is chosen (13 R363). -/
theorem exec_schedulerDecision_atRet {x : TaskRun} (hg : g < logicalCount s) (hrun : runOf s g = some r)
    (hstop : r.stopAt = none) (hsave : r.saving = false) (hrestore : r.restoring = false)
    (hquiet : gangQuiet s g = true) (hstopped : allStopped s g = true) (htime : backgroundTime s g = true)
    (hcharged : runOf (chargeTask g false s) g = some x) :
    exec (.schedulerDecision g) s = .next (if chooseTask (chargeTask g false s) g = some x.task
      then enterTask g x.task (chargeTask g false s)
      else setRun (chargeTask g false s) g (some { x with stopAt := some (chargeTask g false s).now })) := by
  change execSchedulerDecision g s = _
  rw [execSchedulerDecision, if_pos hg, hrun]
  simp only [hstop, hsave, hrestore, hquiet, hstopped, htime, hcharged, Option.isNone_none, Bool.not_true, Bool.not_false,
    Bool.and_self, Bool.or_self, Bool.false_eq_true, if_false]
  cases hchoice : chooseTask (chargeTask g false s) g with
  | none => simp
  | some t =>
    by_cases ht : t = x.task
    · simp [ht]
    · simp [ht]

/-! ## Saves and restores (13 R364 to R370) -/

theorem exec_switchOutSave_ready (hg : g < logicalCount s) (hrun : runOf s g = some r) (hstop : r.stopAt ≠ none)
    (hsave : r.saving = false) (hrestore : r.restoring = false)
    (hready : (gangMembers s g).all (fun l => readyToSave (pondOf s (physOf s l)) (taskField s r.task 1 1)) = true) :
    let u := chargeTask g false s
    let a := (gangMembers u g).foldl (fun (a : Nat × State) l =>
      (max a.1 (saveRank r.task l (gangStopKind u g) a.2).1, (saveRank r.task l (gangStopKind u g) a.2).2)) (0, u)
    exec (.switchOutSave g) s = .next (beginMove g (setRun a.2 g (some
      { r with saving := true, kind := gangStopKind u g, live := a.1 }))) := by
  have hdue : ¬ ((r.stopAt.isNone || r.saving || r.restoring ||
      !(gangMembers s g).all (fun l => readyToSave (pondOf s (physOf s l)) (taskField s r.task 1 1))) = true) := by
    simpa [hstop, hsave, hrestore, Option.isNone_iff_eq_none] using hready
  change execSwitchOutSave g s = _
  rw [execSwitchOutSave, if_pos hg, hrun]
  exact congrArg _ (if_neg hdue)

theorem exec_switchOutDone_saving (hg : g < logicalCount s) (hrun : runOf s g = some r) (hsave : r.saving = true) : ∃ w,
    let f := { s with fresh := s.fresh + 1 }
    let u := traceSwitchOut g r.task r.kind (chargeTask g true (advanceTo f (r.moved + switchTime f r w)))
    let v := addObj (addObj u (key 0x2D03 (if r.kind = 0 then 1 else if r.kind = 1 then 3 else 2)) 1)
      (key (0x5100 + taskField u r.task 2 1) 7) 1
    let off := if r.kind = 2 then 92 else 88
    let x := setTaskField (setTaskField v r.task off 4 (taskField v r.task off 4 + 1)) r.task 6 1
      (if r.kind = 2 then 3 else 1)
    let y := countDispatchWait g false (zeroPeers g (setRun x g none))
    let z := { y with shares := { y.shares with outAt := mapPut 0 y.shares.outAt r.task (y.now + 1) } }
    exec (.switchOutDone g) s = .next (if r.ending then freeTask r.task z else if mustHold z r.task then holdTask r.task z
      else setTaskState z r.task 3) := by
  refine ⟨(Config.freeWord s.fresh).toNat, ?_⟩
  have hdue : ¬ ((!r.saving) = true) := by simp [hsave]
  change execSwitchOutDone g s = _
  rw [execSwitchOutDone, if_pos hg, hrun]
  exact congrArg _ (if_neg hdue)

theorem exec_restoreDone_restoring (hg : g < logicalCount s) (hrun : runOf s g = some r) (hrestore : r.restoring = true) :
    ∃ w,
    let n := taskField s r.task 1 1
    let kind := savedKind s g r.task
    let f := { s with fresh := s.fresh + 1 }
    let took := switchTime f r w + reloadTime f g r.task kind
    let u := chargeTask g true (advanceTo f (r.moved + took))
    let v := addObj (forEach (gangMembers u g) (restoreRank r.task kind) u) (key 0x2D03 4) 1
    let y := traceTask g 0x0301 (r.task + took * 2 ^ 16) n v
    exec (.restoreDone g) s = .next (match runOf y g with
      | none => y
      | some x => setRun y g (some { x with restoring := false, since := y.now, entered := y.now })) := by
  refine ⟨(Config.freeWord s.fresh).toNat, ?_⟩
  have hdue : ¬ ((!r.restoring) = true) := by simp [hrestore]
  change execRestoreDone g s = _
  rw [execRestoreDone, if_pos hg, hrun]
  exact congrArg _ (if_neg hdue)

end

/-- Settles O47: each event finds the gang's task in the state that it needs (the lemmas above); the time of a move is a
free value (13 R366, log 10). What a forced stop gives back is log 52, and the stop kinds are log 14. -/
theorem taskScheduling : Obligations.TaskScheduling := by
  unfold Obligations.TaskScheduling
  intro s g p ph t r sec hg
  refine ⟨exec_sliceExpiry_due hg, exec_forcedStop_due, ?idle, ?atRet, exec_switchOutSave_ready hg,
    exec_switchOutDone_saving hg, exec_restoreDone_restoring hg⟩
  case idle =>
    intro hrun hquiet htime
    have hdecides := exec_schedulerDecision_idle hg hrun hquiet htime
    refine ⟨fun hnone => ?none, fun hchosen hfresh => ?enters, fun hchosen hsaved => ?restores⟩
    case none => rw [hdecides, hnone]
    case enters => rw [hdecides, hchosen]; exact congrArg _ (if_neg (ne_true_of_eq_false hfresh))
    case restores => rw [hdecides, hchosen]; exact congrArg _ (if_pos hsaved)
  case atRet =>
    intro hrun hstop hsave hrestore hquiet hstopped htime u x hcharged
    have hdecides := exec_schedulerDecision_atRet hg hrun hstop hsave hrestore hquiet hstopped htime hcharged
    exact ⟨fun hsame => hdecides.trans (congrArg _ (if_pos hsame)),
      fun hother => hdecides.trans (congrArg _ (if_neg hother))⟩

end Sys2Proof
end

section
/-! The mailbox and the CAN ports: accesses, USDO sessions, NMT, heartbeat, EMCY, status PDOs and bus-off (14 R381 to
R390). -/

namespace Sys2Proof

open Machine Safety

/-! ## The mailbox (14 R390) -/

section
variable {s : State} {index sub : Nat} {wr : Bool} {data : List Byte}

theorem exec_mailboxGo_idle (h : reaches s hostMaster wr = true) (hidle : s.cells.busyUntil ≤ s.now) :
    exec (.mailboxGo index sub wr data) s = .next (mailboxAccess index sub wr data (resumeService s)) := by
  have hfree : mailboxBusy s = false := decide_eq_false (Nat.not_lt.mpr hidle)
  change execMailboxGo index sub wr data s = _
  simp [execMailboxGo, h, hfree]

theorem exec_mailboxGo_busy (h : reaches s hostMaster wr = true) (hbusy : s.now < s.cells.busyUntil) :
    exec (.mailboxGo index sub wr data) s = .next (addObj s (key 0x3130 0xB) 1) := by
  have hbusy' : mailboxBusy s = true := decide_eq_true hbusy
  change execMailboxGo index sub wr data s = _
  simp [execMailboxGo, h, hbusy']

/-- A vector that is signalled leaves the cells alone (16 R436). -/
theorem signalVector_cells {c : Prop} [Decidable c] (v : Nat) (s : State) :
    (if c then signalVector v s else s).cells = s.cells := by
  unfold signalVector
  split
  · split <;> rfl
  · rfl

/-- What the cells show of the last access (14 Table DIC-9). -/
def shownCells (c : Cells) : Nat × Nat × Bool × Nat × Nat × List Byte :=
  (c.index, c.sub, c.write, c.length, c.abort, c.data)

theorem mailboxAccess_read_shows :
    shownCells (mailboxAccess index sub false data s).cells = (index, sub, false,
      (dictFetch true hostMaster index sub s).2.length, (dictFetch true hostMaster index sub s).1,
      (dictFetch true hostMaster index sub s).2) := by
  simp only [mailboxAccess, signalVector_cells]
  rfl

theorem mailboxAccess_write_shows :
    shownCells (mailboxAccess index sub true data s).cells = (index, sub, true, data.length,
      (dictWrite true hostMaster index sub data.length (leValue data) s).1, data) := by
  simp only [mailboxAccess, signalVector_cells]
  rfl

end

/-! ## USDO (14 R383) -/

section
variable {s u : State} {port client index sub len : Nat} {data : List Byte} {x : Session}

/-- A frame of a client that is in the master table, or enters it, is served (14 R392). -/
theorem exec_usdoRequest_served {frame : Usdo} (hunits : port < 2 ∧ 1 ≤ client ∧ client ≤ 127)
    (harrives : reaches s ((port + 1) * 256 + client) true = true)
    (hserved : enterMaster ((port + 1) * 256 + client) (countReceived port (resumeService s)) = some u) :
    exec (.usdoRequest port client frame) s = .next (serveUsdo port client frame u) := by
  change execUsdoRequest port client frame s = _
  simp [execUsdoRequest, hunits, harrives, hserved]

theorem serveUsdo_read (h : sessionFree u port client = true) :
    serveUsdo port client (.read index sub) u =
      answer port client (dictFetch true ((port + 1) * 256 + client) index sub u).1
        (.data (dictFetch true ((port + 1) * 256 + client) index sub u).2) u := if_pos h

theorem serveUsdo_write (h : sessionFree u port client = true) :
    serveUsdo port client (.write index sub data) u = clientWrite port client index sub data u := if_pos h

theorem serveUsdo_readOpen (h : sessionFree u port client = true)
    (hok : (dictFetch true ((port + 1) * 256 + client) index sub u).1 = 0) :
    serveUsdo port client (.readOpen index sub) u = nextSegment port client
      { port := port, client := client, index := index, sub := sub, writing := false,
        len := (dictFetch true ((port + 1) * 256 + client) index sub u).2.length,
        data := (dictFetch true ((port + 1) * 256 + client) index sub u).2, last := u.now } (countAccess 0 u) :=
  (if_pos h).trans (if_pos hok)

theorem serveUsdo_writeOpen (h : sessionFree u port client = true) :
    serveUsdo port client (.writeOpen index sub len) u = sendUsdo port client .done
      (putSession { port := port, client := client, index := index, sub := sub, writing := true, len := len,
                    data := [], last := u.now } u) := if_pos h

/-- The requests that open a session. -/
def Opens : Usdo → Prop
  | .read _ _ | .write _ _ _ | .readOpen _ _ | .writeOpen _ _ _ => True
  | _ => False

/-- A fifth session on a port is refused (14 R383). -/
theorem serveUsdo_full {frame : Usdo} (hopens : Opens frame) (h : sessionFree u port client = false) :
    serveUsdo port client frame u = abortSession port client 0x05040005 (countAccess 0x05040005 u) := by
  cases frame with
  | read | write | readOpen | writeOpen => exact if_neg (ne_true_of_eq_false h)
  | readNext | writeNext | abort | unknown => exact hopens.elim

theorem serveUsdo_readNext (h : sessionOf u port client = some x) (hreads : x.writing = false) :
    serveUsdo port client .readNext u = nextSegment port client x u := by
  simp [serveUsdo, h, hreads]

theorem serveUsdo_writeNext {last : Bool} (h : sessionOf u port client = some x) (hwrites : x.writing = true) :
    serveUsdo port client (.writeNext data last) u = takeSegment port client x data last u := by
  simp [serveUsdo, h, hwrites]

theorem exec_usdoSessionTimeout_due (hport : port < 2) (h : sessionOf s port client = some x) :
    let v := countAccess 0x05040000 (advanceTo s (x.last + 1000 * msClk + 1))
    exec (.usdoSessionTimeout port client) s =
      .next (if usdoOpen v port then abortSession port client 0x05040000 v else endSession port client v) := by
  change execUsdoSessionTimeout port client s = _
  rw [execUsdoSessionTimeout, onPort, if_pos hport, h]

end

/-- Settles O50: an access of the mailbox leaves its result in the cells, and a frame is served once its client is in the
master table (`exec_usdoRequest_served`), by the rule of its kind. -/
theorem clientRequests : Obligations.ClientRequests := by
  unfold Obligations.ClientRequests
  intro s u port client index sub len wr last data x
  refine ⟨exec_mailboxGo_idle, exec_mailboxGo_busy, ⟨mailboxAccess_read_shows, mailboxAccess_write_shows⟩, ?frames,
    ?timeout⟩
  case frames =>
    intro hport hlow hhigh harrives henters
    have hserves {frame : Usdo} {t : State} (h : serveUsdo port client frame u = t) :
        exec (.usdoRequest port client frame) s = .next t :=
      (exec_usdoRequest_served ⟨hport, hlow, hhigh⟩ harrives henters).trans (congrArg _ h)
    refine ⟨?free, ?full, ?readNext, ?writeNext, hserves rfl, hserves rfl⟩
    case free =>
      exact fun hfree => ⟨hserves (serveUsdo_read hfree), hserves (serveUsdo_write hfree),
        fun hok => hserves (serveUsdo_readOpen hfree hok), hserves (serveUsdo_writeOpen hfree)⟩
    case full =>
      exact fun hfull => ⟨hserves (serveUsdo_full trivial hfull), hserves (serveUsdo_full trivial hfull),
        hserves (serveUsdo_full trivial hfull), hserves (serveUsdo_full trivial hfull)⟩
    case readNext => exact fun h hreads => hserves (serveUsdo_readNext h hreads)
    case writeNext => exact fun h hwrites => hserves (serveUsdo_writeNext h hwrites)
  case timeout =>
    intro hport h
    have hdue := exec_usdoSessionTimeout_due hport h
    exact ⟨fun hopen => hdue.trans (congrArg _ (if_pos hopen)),
      fun hclosed => hdue.trans (congrArg _ (if_neg (ne_true_of_eq_false hclosed)))⟩

/-! ## The CAN ports (14 R381, R382, R384 to R388) -/

section
variable {s : State} {port n : Nat} {e : Emcy} {es : List Emcy}

/-- An NMT command is heard on a port that takes part in its bus, with or without a node-ID (14 R381, R382). -/
theorem onNmt_heard {f : State → State} (hport : port < 2) (hlistens : portListens s port = true)
    (hserved : dictServed s = true) (hbooted : s.boot.stopped = false) :
    onNmt port s f = .next (f (countReceived port s)) := by
  simp [onNmt, onPort, hport, hlistens, hserved, hbooted]

theorem exec_heartbeat_due (hperiod : getObj s (key 0x1017 0) ≠ 0) (hserved : dictServed s = true) :
    let u := advanceTo s (s.can.heartbeatAt + getObj s (key 0x1017 0) * msClk)
    exec .heartbeat s = .next (sendBoth false (0x700 + nodeId u) [BitVec.ofNat 8 (getObj u (key 0x3110 7))]
      { u with can := { u.can with heartbeatAt := u.now } }) := by
  change execHeartbeat s = _
  rw [execHeartbeat]
  exact congrArg _ (if_neg (by simp [hperiod, hserved]))

theorem exec_emcyInhibitExpiry_waiting (hport : port < 2) (hwaits : mapFind [] s.can.emcy port = e :: es)
    (hopen : portOpen s port = true) (hstate : getObj s (key 0x3110 7) ∈ [0x7F, 5]) :
    let u := advanceTo s (mapFind 0 s.can.emcyFree port)
    let v := emcyOn port e { u with can := { u.can with emcy := mapPut [] u.can.emcy port [] } }
    exec (.emcyInhibitExpiry port) s =
      .next { v with can := { v.can with emcy := mapPut [] v.can.emcy port es } } := by
  have hsends : ¬ ((!portOpen s port || decide (getObj s (key 0x3110 7) ≠ 0x7F ∧ getObj s (key 0x3110 7) ≠ 5)) = true) := by
    simp only [List.mem_cons, List.not_mem_nil, or_false] at hstate
    simpa [hopen, imp_iff_not_or] using hstate
  change execEmcyInhibitExpiry port s = _
  rw [execEmcyInhibitExpiry, onPort, if_pos hport, hwaits]
  exact congrArg _ (if_neg hsends)

theorem exec_tpdoInhibitExpiry_held (hn : n < 4) (hheld : mapFind false s.can.tpdoHeld n = true)
    (hon : tpdoOn (advanceTo s (inhibitEnd s n)) n = true) :
    exec (.tpdoInhibitExpiry n) s = .next (sendTpdo n (advanceTo s (inhibitEnd s n))) := by
  change execTpdoInhibitExpiry n s = _
  simp [execTpdoInhibitExpiry, hn, hheld, hon]

theorem exec_tpdoEventTimer_due (hn : n < 4) (hon : tpdoOn s n = true) (htimer : getObj s (key (0x1800 + n) 5) ≠ 0) :
    exec (.tpdoEventTimer n) s = .next (triggerTpdo n
      (advanceTo s (mapFind 0 s.can.tpdoLast n - 1 + getObj s (key (0x1800 + n) 5) * msClk))) := by
  change execTpdoEventTimer n s = _
  simp [execTpdoEventTimer, hn, hon, htimer]

/-- A TPDO that may be sent goes out, or is held back until its inhibit time ends (14 R388). -/
theorem triggerTpdo_on (hon : tpdoOn s n = true) : triggerTpdo n s = if s.now < inhibitEnd s n
    then { s with can := { s.can with tpdoHeld := mapPut false s.can.tpdoHeld n true } } else sendTpdo n s := by
  simp [triggerTpdo, hon]

theorem exec_busOff_new (hport : port < 2) (hon : getObj s (key (0x3111 + port) 2) ≠ 2) :
    exec (.busOff port) s =
      .next (followBus (addObj (setObj s (key (0x3111 + port) 2) 2) (key (0x3111 + port) 5) 1)) := by
  change execBusOff port s = _
  rw [execBusOff, onPort, if_pos hport, if_neg hon]

theorem exec_busOffRecovery_off (hport : port < 2) (hoff : getObj s (key (0x3111 + port) 2) = 2) :
    exec (.busOffRecovery port) s = .next (followBus (setObj (setObj (setObj s (key (0x3111 + port) 3) 0)
      (key (0x3111 + port) 4) 0) (key (0x3111 + port) 2) 0)) := by
  change execBusOffRecovery port s = _
  rw [execBusOffRecovery, onPort, if_pos hport, if_pos hoff]

end

/-- Settles O51: the five NMT commands are one row (`onNmt_heard`); every other event finds its timer, message or port due
(the lemmas above). -/
theorem canNetwork : Obligations.CanNetwork := by
  unfold Obligations.CanNetwork
  intro s port n e es
  refine ⟨?nmt, exec_heartbeat_due, exec_emcyInhibitExpiry_waiting, ?tpdo, exec_busOff_new, exec_busOffRecovery_off⟩
  case nmt =>
    intro hport hlistens hserved hbooted
    have hheard (f : State → State) : onNmt port s f = .next (f (countReceived port s)) :=
      onNmt_heard hport hlistens hserved hbooted
    exact ⟨hheard fun s => setObj s (key 0x3110 7) 5, hheard fun s => setObj s (key 0x3110 7) 4,
      hheard fun s => setObj s (key 0x3110 7) 0x7F, hheard resetComm, hheard resetComm⟩
  case tpdo =>
    intro hn hon
    refine ⟨exec_tpdoInhibitExpiry_held hn, ?event⟩
    case event =>
      intro htimer u hon'
      have hdue := (exec_tpdoEventTimer_due hn hon htimer).trans (congrArg _ (triggerTpdo_on hon'))
      exact ⟨fun hfree => hdue.trans (congrArg _ (if_neg (Nat.not_lt.mpr hfree))),
        fun hheld => hdue.trans (congrArg _ (if_pos hheld))⟩

end Sys2Proof
end

section
/-! Escalations, watchdogs, lost phases and units, and activations that fail (15 R409, R417, R418, R422 to R425). -/

namespace Sys2Proof

open Machine Safety

section
variable {s : State} {i p ph t n cls : Nat} {r : Running}

/-! ## Escalations (15 R409) -/

/-- The state in which the service target of source `i` acts: its timer has ended at `t`, and the escalation is noted,
counted, and leaves the member of source 45 degraded (15 R409, R422). -/
def escalated (i t : Nat) (s : State) : State :=
  let u := stopTimer i (advanceTo s t)
  noteEscalation i (addObj (addObj { u with weir := { u.weir with escalated := i :: u.weir.escalated } }
    (srcKey i 0xC) 1) (key 0x2E01 0xA) 1)

theorem exec_escalationExpiry_due (hi : i < 128) (htimer : mapFind 0 s.weir.timers i = t + 1)
    (hset : sourceSet s i = true) (hack : getObj s (srcKey i 3) ≠ 1) (honce : i ∉ s.weir.escalated)
    (hruns : s.own.frozen = none) :
    exec (.escalationExpiry i) s = .next (serviceTarget i (escalated i t s)) := by
  have hdue : ¬ (t + 1 = 0 ∨ (!sourceSet s i) = true ∨ getObj s (srcKey i 3) = 1 ∨ i ∈ s.weir.escalated ∨
      s.own.frozen.isSome = true) := by
    simp [hset, hack, honce, hruns]
  change execEscalationExpiry i s = _
  rw [execEscalationExpiry, if_pos hi, htimer]
  exact congrArg _ (if_neg hdue)

section
variable {w : State}

theorem serviceTarget_none (h : getObj w (srcKey i 7) = 0) : serviceTarget i w = w := by
  simp only [serviceTarget, h]

theorem serviceTarget_pin (h : getObj w (srcKey i 7) = 1) : serviceTarget i w = driveErrN i w := by
  simp only [serviceTarget, h]

theorem serviceTarget_repair (h : getObj w (srcKey i 7) = 2) : serviceTarget i w = driveErrN i (repairSource i w) := by
  simp only [serviceTarget, h]

theorem serviceTarget_reset (h : getObj w (srcKey i 7) = 3) : serviceTarget i w =
    chipReset (if i = 67 ∧ 3 ≤ w.weir.restarts.length then 4 else 3) i true w := by
  simp only [serviceTarget, h, causeOfReset]

end

/-! ## Watchdogs and lost parts (15 R417, R418, R423 to R425) -/

theorem exec_pondWatchdogTimeout_due (h : OnPond s p ph)
    (hfirst : minBy watchStart ((pondOf s ph).running.filter fun r => watched r && !heldByLink s ph r) = some r)
    (hrunning : ∀ l ∈ gangMembers s p, (pondOf s (physOf s l)).halt = none) :
    exec (.pondWatchdogTimeout p) s = .next (raise 14 (.pond ph)
      (advanceTo s (r.started + r.exempt + getObj s (key 0x2E00 4) * msClk))) := by
  have hdue : ¬ (((gangMembers s p).any fun l => (pondOf s (physOf s l)).halt.isSome) = true) := by
    simpa [Option.isSome_iff_ne_none] using hrunning
  change execPondWatchdogTimeout p s = _
  rw [execPondWatchdogTimeout, onPond_of h, hfirst]
  exact congrArg _ (if_neg hdue)

theorem exec_powerPhaseFailure_left (hphases : getObj s (key 0x2E20 3) = n + 1) :
    let u := raise 61 .chip (addObj (setObj s (key 0x2E20 3) n) (key 0x2E20 4) 1)
    exec .powerPhaseFailure s = .next (if n < 22 then raiseCause 62 .chip u else u) := by
  change execPowerPhaseFailure s = _
  rw [execPowerPhaseFailure, hphases]
  rfl

/-- The restarts of the service core that count at this one (15 R424). -/
def recentRestarts (s : State) : List Nat :=
  s.now :: s.weir.restarts.filter (fun t => decide (s.now < t + 60000 * msClk))

theorem exec_serviceCoreWatchdog_restarts :
    let u := raise 65 .chip (addObj
      (pauseService { s with weir := { s.weir with restarts := recentRestarts s } }) (key 0x2E02 6) 1)
    let v := raise 67 .chip u
    exec .serviceCoreWatchdog s = .next (if 3 ≤ (recentRestarts s).length
      then (if v.weir.restarts = [] then setObj v (key 0x2E02 1) 4 else v) else u) := rfl

/-- The previous image runs again and the staged slot is empty (15 R425, 16 R447). -/
def activationFailed (v : State) : State :=
  firmwareSignal (raise 66 .chip (setObj { v with boot := { v.boot with
    activating := none, staged := false, slots := mapInsert v.boot.slots (1 - v.boot.active) { image := [] } } }
    (key 0x2E30 2) 2))

theorem exec_activationTimeout_running (hactivating : s.boot.activating = some t)
    (hruns : (advanceTo s (t + 200 * msClk)).own.frozen = none) :
    exec .activationTimeout s = .next (activationFailed (advanceTo s (t + 200 * msClk))) := by
  change execActivationTimeout s = _
  rw [execActivationTimeout, hactivating]
  simp only [hruns]
  rfl

theorem exec_activationTimeout_paused {f : Nat} (hactivating : s.boot.activating = some t)
    (hpaused : (advanceTo s (t + 200 * msClk)).own.frozen = some f) :
    let u := advanceTo s (t + 200 * msClk)
    exec .activationTimeout s =
      .next (activationFailed (setObj (resumeClocks (u.now - f) u) (key 0x2E30 3) ((u.now - f) / msClk))) := by
  change execActivationTimeout s = _
  rw [execActivationTimeout, hactivating]
  simp only [hpaused]
  rfl

theorem exec_chipEngineUnitFailed_new (hunit : 8 ≤ cls ∧ cls ≤ 0xA ∧ n < unitsOf s cls) (hnew : (cls, n) ∉ s.weir.units) :
    let u := raiseCause 69 (.unit cls n) { s with weir := { s.weir with units := s.weir.units ++ [(cls, n)] } }
    exec (.chipEngineUnitFailed cls n) s =
      .next (if u.weir.units = [] ∧ causeActive u 69 = true then endCause 69 u else u) := by
  change execChipEngineUnitFailed cls n s = _
  rw [execChipEngineUnitFailed, if_pos hunit]
  exact congrArg _ (if_neg hnew)

end

/-- Settles O48: each event finds its timer, command, phase or unit (the lemmas above), and an escalation acts by the
service target of its source. That it is counted before a chip reset acts is log 12. -/
theorem faultEvents : Obligations.FaultEvents := by
  unfold Obligations.FaultEvents
  intro s i p ph t n cls r
  refine ⟨?escalation, exec_pondWatchdogTimeout_due, exec_powerPhaseFailure_left, ?restart, ?activation, ?unit⟩
  case escalation =>
    intro hi htimer hset hack honce hruns u v w
    have hacts {z : State} (h : serviceTarget i w = z) : exec (.escalationExpiry i) s = .next z :=
      (exec_escalationExpiry_due hi htimer hset hack honce hruns).trans (congrArg _ h)
    exact ⟨fun h => hacts (serviceTarget_none h), fun h => hacts (serviceTarget_pin h),
      fun h => hacts (serviceTarget_repair h), fun h => hacts (serviceTarget_reset h)⟩
  case restart =>
    rintro recent rfl
    have hrestarts := exec_serviceCoreWatchdog_restarts (s := s)
    exact ⟨fun hfew => hrestarts.trans (congrArg _ (if_neg (Nat.not_le.mpr hfew))),
      fun hmany => hrestarts.trans (congrArg _ (if_pos hmany))⟩
  case activation =>
    exact fun hactivating => ⟨exec_activationTimeout_running hactivating,
      fun f => exec_activationTimeout_paused hactivating⟩
  case unit => exact fun hlow hhigh hn hnew => exec_chipEngineUnitFailed_new ⟨hlow, hhigh, hn⟩ hnew

end Sys2Proof
end

section
/-! The host link, and what it does when it trains, goes down and times out (16 R436 to R439). -/

namespace Sys2Proof

open Machine Safety

section
variable {s : State} {lanes speed t v : Nat}

theorem exec_linkTrained_up (hperst : s.pins.perst = true) (hpower : powerState s ≠ 3) (hlanes : 8 ≤ lanes) :
    let width := if lanes < 16 then 8 else 16
    let u := { setObj (setObj (setObj s (key 0x3000 1) 2) (key 0x3000 2) width) (key 0x3000 3) speed with
      host := { s.host with downSince := none } }
    exec (.linkTrained lanes speed) s = .next (wakeAccesses (releaseVectors (watchLevel 59 false
      (watchLevel 58 (decide (width < 16 ∨ speed < 64)) u)))) := by
  have htrains : ¬ ((!s.pins.perst) = true ∨ powerState s = 3 ∨ lanes < 8) := by
    simp [hperst, hpower, hlanes]
  exact congrArg _ (if_neg (by simpa [or_assoc] using htrains))

theorem exec_linkTrained_few (hlanes : lanes < 8) : exec (.linkTrained lanes speed) s = .next s := by
  change execLinkTrained lanes speed s = _
  simp [execLinkTrained, hlanes]

theorem exec_cxlLinkDown_up (hup : s.host.downSince = none) :
    let u := { setObj (addObj s (key 0x3000 4) 1) (key 0x3000 1) 0 with host := { s.host with downSince := some s.now } }
    exec .cxlLinkDown s = .next (endHostLease (watchLevel 59 true (watchLevel 58 false u))) := by
  change execCxlLinkDown s = _
  simp [execCxlLinkDown, dropLink, hup]

theorem exec_linkRetrainTimer_down (hdown : s.host.downSince = some t) (hperst : s.pins.perst = true)
    (hpower : powerState s ≠ 3) :
    exec .linkRetrainTimer s = .next (setObj (advanceTo s (t + 100 * msClk)) (key 0x3000 1) 1) := by
  change execLinkRetrainTimer s = _
  simp [execLinkRetrainTimer, hdown, hperst, hpower]

theorem exec_hotReset_up (hup : linkUp s = true) :
    exec .hotReset s = .next (wakeAccesses { addObj (setObj s (key 0x3000 1) 1) (key 0x3000 5) 1 with
      host := { s.host with msixMask := 0xFF, msixPending := 0, decoders := 0, lines := [] } }) :=
  congrArg _ (if_pos hup)

theorem exec_perstNAssert_powered (hpwr : s.pins.pwrOk = true) :
    let u := dropLink true { s with pins := { s.pins with perst := false } }
    exec .perstNAssert s = .next (chipReset 2 0xFF u.pins.modrst u) :=
  congrArg _ (if_neg (by simp [hpwr]))

theorem exec_perstNRelease_powered (hperst : s.pins.perst = false) (hpwr : s.pins.pwrOk = true) :
    exec .perstNRelease s = .next (setObj { s with pins := { s.pins with perst := true } } (key 0x3000 1) 1) := by
  change execPerstNRelease s = _
  simp [execPerstNRelease, hperst, hpwr]

theorem execLinkLossTimeout_eq (hdown : s.host.downSince = some t) :
    let u := advanceTo s (t + getObj s (key 0x3000 7) * msClk)
    let reads := tier2Reads u
    let copies := tier2Copies u
    let lost := u.host.waiting.filter fun e => tier2Waits u [(e.uda, e.bytes.length)]
    let into := u.tiers.migrations.filter fun m => decide (m.toTier = 2) && m.toFrame.isSome
    let kept := { u with host := { u.host with waiting := u.host.waiting.filter fun e => decide (e ∉ lost) } }
    let counted := addObj kept (key 0x3000 6) (reads.length + copies.length + lost.length + into.length)
    let hit := ((reads.flatMap fun r => unitExtents u r fun x => decide (x.tier = 2) && !x.poisoned) ++ copies).dedup
    execLinkLossTimeout s = .next (serveReads (forEach hit (fun e v => poisonExtent (extentUda e) e v)
      (forEach into dropMigration (forEach lost countPark counted)))) := by
  simp only [execLinkLossTimeout, hdown]

end

/-- Settles O52: one lemma above for each event. That a hot reset masks every vector is log 9; the timeout from the
instant of link-down, one count for each request and the end of source 58 at link-down are log 51. -/
theorem linkEvents : Obligations.LinkEvents := by
  unfold Obligations.LinkEvents
  intro s lanes speed t v
  exact ⟨exec_linkTrained_up, exec_linkTrained_few, exec_cxlLinkDown_up, exec_linkRetrainTimer_down,
    exec_hotReset_up, fun hv => if_pos hv, exec_perstNAssert_powered, exec_perstNRelease_powered,
    execLinkLossTimeout_eq⟩

end Sys2Proof
end

section
/-! Reads, writes and snoop responses of the host (16 R431 to R434, 10 R280, R302, 17 R467). -/

namespace Sys2Proof

open Machine Safety

/-! ## Answers -/

section
variable {s : State} {uda len : Nat}

theorem answerHost_unmapped (hmap : unitMapped s [(uda, len)] = false) :
    answerHost uda len s = send (unmappedRead s) (.hostData false (List.replicate len 0xFF)) :=
  if_pos (by simp [hmap])

theorem answerHost_unservable (hmap : unitMapped s [(uda, len)] = true) (hlost : unservable s [(uda, len)] = true) :
    answerHost uda len s = send s (.hostData true (List.replicate len 0xFF)) :=
  (if_neg (by simp [hmap])).trans (if_pos hlost)

theorem hostTier2_unmapped (hmap : unitMapped s [(uda, len)] = false) : hostTier2 s uda len = false := by
  simp [hostTier2, hmap]

end

/-! ## Reads: what a read that reaches the device does, with its decoder in use -/

section
variable {s : State} {uda len hold : Nat} (hreach : hostReaches s uda len = true)
include hreach

theorem exec_hostMemRead_asleep (hsleep : asleep (useDecoder uda s) = true) :
    exec (.hostMemRead uda len hold) s =
      .next (sleepAccess (send (useDecoder uda s) (.hostData true (List.replicate len 0xFF)))) := by
  change execHostMemRead uda len hold s = _
  simp [execHostMemRead, hreach, hsleep]

theorem exec_hostMemRead_tier2 (hawake : asleep (useDecoder uda s) = false)
    (htier : hostTier2 (useDecoder uda s) uda len = true) :
    exec (.hostMemRead uda len hold) s =
      .next (addObj (send (useDecoder uda s) (.hostData true (List.replicate len 0xFF))) (key 0x3002 4) 1) := by
  change execHostMemRead uda len hold s = _
  simp [execHostMemRead, hreach, hawake, htier]

variable (hawake : asleep (useDecoder uda s) = false) (htier : hostTier2 (useDecoder uda s) uda len = false)
include hawake htier

theorem exec_hostMemRead_waits (hmap : unitMapped (useDecoder uda s) [(uda, len)] = true)
    (hwait : waitsRefetch (useDecoder uda s) [(uda, len)] = true) :
    let u := useDecoder uda s
    exec (.hostMemRead uda len hold) s = .next { u with tiers := { u.tiers with
      reads := u.tiers.reads ++ [{ host := true, uda := uda, len := len, peer := 0, msg := 0, transfer := 0,
                                   waiting := waitNote u [(uda, len)] }] } } := by
  change execHostMemRead uda len hold s = _
  simp [execHostMemRead, hreach, hawake, htier, hmap, hwait]

/-- A read that waits for no re-fetch is answered; the host holds its lines where they can be served. -/
theorem exec_hostMemRead_answered
    (hready : (unitMapped (useDecoder uda s) [(uda, len)] && waitsRefetch (useDecoder uda s) [(uda, len)]) = false) :
    let u := useDecoder uda s
    exec (.hostMemRead uda len hold) s = .next (answerHost uda len
      (if unitMapped u [(uda, len)] && !unservable u [(uda, len)] then holdLines uda len hold u else u)) := by
  change execHostMemRead uda len hold s = _
  simp [execHostMemRead, hreach, hawake, htier, hready]

end

/-! ## Writes -/

section
variable {s : State} {uda : Nat} {data : List Byte} (hreach : hostReaches s uda data.length = true)
include hreach

theorem exec_hostMemWrite_asleep (hsleep : asleep (useDecoder uda s) = true) :
    exec (.hostMemWrite uda data) s = .next (sleepAccess (send (useDecoder uda s) .hostWritten)) := by
  change execHostMemWrite uda data s = _
  simp [execHostMemWrite, hreach, hsleep]

theorem exec_hostMemWrite_tier2 (hawake : asleep (useDecoder uda s) = false)
    (htier : hostTier2 (useDecoder uda s) uda data.length = true) :
    exec (.hostMemWrite uda data) s = .next (addObj (send (useDecoder uda s) .hostWritten) (key 0x3002 4) 1) := by
  change execHostMemWrite uda data s = _
  simp [execHostMemWrite, hreach, hawake, htier]

theorem exec_hostMemWrite_performed (hawake : asleep (useDecoder uda s) = false)
    (htier : hostTier2 (useDecoder uda s) uda data.length = false) :
    let u := useDecoder uda s
    let v := { u with host := { u.host with
      lines := u.host.lines.filter (fun e => decide (e.1 ∉ linesOf uda data.length)) } }
    exec (.hostMemWrite uda data) s = .next (wakeAccesses (send (hostWrite v uda data) .hostWritten)) := by
  change execHostMemWrite uda data s = _
  simp [execHostMemWrite, hreach, hawake, htier]

end

/-- Settles O53: a request that reaches the device goes to the sleeping device, to tier 2, to the requests that wait for
a re-fetch, or is answered (the lemmas above); a snoop response is its definition. -/
theorem hostAccesses : Obligations.HostAccesses := by
  unfold Obligations.HostAccesses
  intro s uda len hold line data
  refine ⟨fun hreach => ?reads, fun hreach => ?writes, rfl⟩
  case reads =>
    intro u bad
    refine ⟨exec_hostMemRead_asleep hreach, exec_hostMemRead_tier2 hreach, exec_hostMemRead_waits hreach,
      fun hawake htier hmap hwait hserved => ?held, fun hawake htier hmap hwait hlost => ?poisoned,
      fun hawake hmap => ?unmapped⟩
    case held =>
      have hanswer := exec_hostMemRead_answered (hold := hold) hreach hawake htier (by simp [u, hwait])
      simpa only [u, hmap, hserved, Bool.not_false, Bool.and_self, if_true] using hanswer
    case poisoned =>
      have hanswer := exec_hostMemRead_answered (hold := hold) hreach hawake htier (by simp [u, hwait])
      rw [← answerHost_unservable hmap hlost]
      simpa only [u, hlost, Bool.not_true, Bool.and_false, Bool.false_eq_true, if_false] using hanswer
    case unmapped =>
      have hanswer := exec_hostMemRead_answered (hold := hold) hreach hawake (hostTier2_unmapped hmap) (by simp [u, hmap])
      rw [← answerHost_unmapped hmap]
      simpa only [u, hmap, Bool.false_and, Bool.false_eq_true, if_false] using hanswer
  case writes =>
    exact ⟨exec_hostMemWrite_asleep hreach, exec_hostMemWrite_tier2 hreach, exec_hostMemWrite_performed hreach⟩

end Sys2Proof
end

section
/-! The stages of boot, the module reset, and what a chip reset leaves (16 R440 to R442, R452, R453; 15 R412 to
R416). -/

namespace Sys2Proof

open Machine Safety Laws

/-! ## An instant within a bound (log 10) -/

section
variable {s : State} {hi : Nat}

theorem now_le_advanceWithin : s.now ≤ (advanceWithin hi s).now := (advanceWithin_keeps (.refl s)).now

theorem advanceWithin_now_le : (advanceWithin hi s).now ≤ max s.now hi := by
  unfold advanceWithin
  split
  · exact le_max_left _ _
  · next hlate =>
    have hmod := Nat.mod_lt (Config.freeWord s.fresh).toNat (show 0 < hi + 1 - s.now by omega)
    simp only [freeWord, advanceTo]
    omega

theorem advanceWithin_dict : (advanceWithin hi s).dict = s.dict := by
  unfold advanceWithin
  split <;> rfl

end

/-! ## Stages -/

section
variable {s : State} {fails : List Nat} {straps k : Nat}

theorem exec_bootStageEnd_runs (hboot : booting s = true) (hdies : ¬ (bootStage s = 3 ∧ diesHeld s = true)) :
    exec (.bootStageEnd fails) s = .next (runStage fails (advanceWithin (stageBy s) s)) :=
  congrArg _ (if_neg (by simpa [hboot] using hdies))

theorem exec_bootStageEnd_held (hstage : bootStage s = 3) (hheld : diesHeld s = true) :
    exec (.bootStageEnd fails) s = .next s :=
  congrArg _ (if_pos (by simp [hstage, hheld]))

theorem bootStage_enterStage (h : MapSorted s.dict) : bootStage (enterStage k s) = k := getObj_setObj_same h _ _

theorem now_enterStage : (enterStage k s).now = s.now := rfl

theorem noteFailure_none : noteFailure k false s = s := rfl

/-- Stages B1 and B5 in which nothing fails only enter the next one. -/
theorem runStage_plain (h : MapSorted s.dict) (hstage : bootStage s = 1 ∨ bootStage s = 5) :
    bootStage (runStage [] s) = bootStage s + 1 ∧ (runStage [] s).now = s.now := by
  unfold runStage
  rcases hstage with hstage | hstage
  · simp [hstage, noteFailure_none, bootStage_enterStage, setObj_dict_sorted h, now_enterStage]
  · simp [hstage, noteFailure_none, bootStage_enterStage, h, now_enterStage]

theorem exec_modrstNRelease_powered (hreset : s.pins.modrst = false) (hpwr : s.pins.pwrOk = true) :
    exec (.modrstNRelease straps) s =
      .next (startBoot { s with pins := { s.pins with modrst := true, straps := straps % 128 } }) := by
  change execModrstNRelease straps s = _
  simp [execModrstNRelease, hreset, hpwr]

end

/-! ## A chip reset -/

/-- What a chip reset leaves of a state, besides objects (15 R414 to R416, 16 R452, R453). -/
structure AfterReset (keep : Bool) (s r : State) : Prop where
  level : r.secure.level = 0
  nonce : r.secure.nonce = s.secure.nonce + 1
  disabled : r.secure.disabled = s.secure.disabled
  antiRollback : r.secure.antiRollback = s.secure.antiRollback
  nvm : r.nvm = s.nvm
  now : r.now = s.now
  sent : r.sent = s.sent
  ponds : r.ponds = []
  own : r.own = State.reset.own
  fabric : r.fabric = State.reset.fabric
  mem : keep = true → r.mem = s.mem

section
variable {keep : Bool} {s r : State} {cause src : Nat}

theorem AfterReset.setObj (h : AfterReset keep s r) (k v : Nat) : AfterReset keep s (setObj r k v) :=
  ⟨h.level, h.nonce, h.disabled, h.antiRollback, h.nvm, h.now, h.sent, h.ponds, h.own, h.fabric, h.mem⟩

theorem afterReset_resetChip (keep : Bool) (s : State) : AfterReset keep s (resetChip keep s) := by
  unfold resetChip
  refine forUpTo_keeps (fun port r hr => ?port) (List.foldlRecOn _ _ ?fields fun r hr i _ => hr.setObj _ _)
  case port =>
    split
    · exact hr.setObj _ _
    · exact hr
  case fields => exact ⟨rfl, rfl, rfl, rfl, rfl, rfl, rfl, rfl, rfl, rfl, fun hkeep => if_pos hkeep⟩

theorem AfterReset.setPins (h : AfterReset keep s r) (p : Pins) : AfterReset keep s { r with pins := p } :=
  ⟨h.level, h.nonce, h.disabled, h.antiRollback, h.nvm, h.now, h.sent, h.ponds, h.own, h.fabric, h.mem⟩

/-- The records that a reset of `cause` from source `src` leaves in the dictionary (15 Table FLT-7). -/
def resetRecords (cause src kept : Nat) (s : State) : State :=
  addObj (setObj (setObj (setObj s (key 0x2E02 1) cause) (key 0x2E02 2) src) (key 0x2E02 3) kept) (key 0x2E02 4) 1

theorem chipReset_without_boot : ∃ (p : Pins) (kept : Nat),
    chipReset cause src false s = resetRecords cause src kept { resetChip (contentsKept s) s with pins := p } :=
  ⟨_, _, rfl⟩

theorem afterReset_chipReset : AfterReset (contentsKept s) s (chipReset cause src false s) := by
  obtain ⟨p, kept, hreset⟩ := chipReset_without_boot (cause := cause) (src := src) (s := s)
  rw [hreset]
  exact (((((afterReset_resetChip _ s).setPins p).setObj _ _).setObj _ _).setObj _ _).setObj _ _

theorem getObj_resetRecords (h : MapSorted s.dict) (cause src kept : Nat) :
    getObj (resetRecords cause src kept s) (key 0x2E02 1) = cause ∧
      getObj (resetRecords cause src kept s) (key 0x2E02 2) = src := by
  have hcause := setObj_dict_sorted h (key 0x2E02 1) cause
  have hsrc := setObj_dict_sorted hcause (key 0x2E02 2) src
  have hkept := setObj_dict_sorted hsrc (key 0x2E02 3) kept
  unfold resetRecords
  constructor
  · rw [getObj_addObj_other hkept _ _ (by decide), getObj_setObj_other hsrc _ _ (by decide),
      getObj_setObj_other hcause _ _ (by decide), getObj_setObj_same h]
  · rw [getObj_addObj_other hkept _ _ (by decide), getObj_setObj_other hsrc _ _ (by decide), getObj_setObj_same hcause]

theorem getObj_chipReset (hs : Canonical s) :
    getObj (chipReset cause src false s) (key 0x2E02 1) = cause ∧
      getObj (chipReset cause src false s) (key 0x2E02 2) = src := by
  obtain ⟨p, kept, hreset⟩ := chipReset_without_boot (cause := cause) (src := src) (s := s)
  have hsorted : MapSorted (resetChip (contentsKept s) s).dict := ((resetChip_keeps (.refl s)).canonical hs).dict
  rw [hreset]
  exact getObj_resetRecords hsorted cause src kept

end

/-- Settles O54: the lemmas on stages, and what `AfterReset` says of a chip reset. -/
theorem bootStages : Obligations.BootStages := by
  unfold Obligations.BootStages
  refine ⟨fun s fails straps => ⟨exec_bootStageEnd_runs, fun _ => exec_bootStageEnd_held, ?plain,
    exec_modrstNRelease_powered, rfl⟩, fun s cause src hs => ?reset⟩
  case plain =>
    intro hs hboot hstage
    have hstages : bootStage s = 1 ∨ bootStage s = 5 := by simpa using hstage
    have hsame : bootStage (advanceWithin (stageBy s) s) = bootStage s := by
      simp [bootStage, getObj, advanceWithin_dict]
    have hsorted : MapSorted (advanceWithin (stageBy s) s).dict := by
      rw [advanceWithin_dict]
      exact hs.dict
    obtain ⟨hnext, hnow⟩ := runStage_plain hsorted (by rwa [hsame])
    exact ⟨_, exec_bootStageEnd_runs hboot (by omega), hnext.trans (congrArg (· + 1) hsame),
      hnow ▸ now_le_advanceWithin, hnow ▸ advanceWithin_now_le⟩
  case reset =>
    obtain ⟨hlevel, hnonce, hdisabled, hroll, hnvm, hnow, hsent, hponds, hown, hfabric, hmem⟩ :=
      afterReset_chipReset (s := s) (cause := cause) (src := src)
    obtain ⟨hcause, hsrc⟩ := getObj_chipReset (cause := cause) (src := src) hs
    exact ⟨hlevel, hnonce, hdisabled, hroll, hnvm, hnow, hsent, fun i => by simp [pondOf, hponds, mapFind], hown, hfabric,
      hmem, hcause, hsrc⟩

end Sys2Proof
end

section
/-! The check of a staged image (16 R444 to R447), and attestation over SPDM (16 R448 to R450). -/

namespace Sys2Proof

open Machine Safety

/-! ## The check of a staged image -/

section
variable {s : State} {bs : List Byte}

/-- The image under check leaves the checker. -/
def checkEnds (s : State) : State := { s with boot := { s.boot with verifying := none } }

/-- The code that the checks give for an image; an empty one was cut short (code 7). -/
def checkedCode (s : State) (bs : List Byte) : Nat := if bs = [] then 7 else imageCode (checkEnds s) bs

/-- The records of a check that has ended with a code (0x3020.03, .04). -/
def checkRecords (code : Nat) (s : State) : State := setObj (setObj s (key 0x3020 3) 0) (key 0x3020 4) code

theorem imageAlarm_iff (code : Nat) : imageAlarm code = true ↔ code ∈ [2, 3, 4, 6] := by simp [imageAlarm]

theorem exec_verifyDone_refused (hcheck : s.boot.verifying = some bs) (hcode : checkedCode s bs ≠ 0) :
    exec .verifyDone s = .next (firmwareSignal (checkRecords (checkedCode s bs)
      (if checkedCode s bs ∈ [2, 3, 4, 6] then raise 70 .chip (checkEnds s) else checkEnds s))) := by
  change execVerifyDone s = _
  unfold checkedCode checkEnds at *
  simp only [execVerifyDone, hcheck, ne_eq, hcode, not_false_eq_true, if_true, if_false, imageAlarm_iff]
  rfl

theorem exec_verifyDone_valid (hcheck : s.boot.verifying = some bs) (hcode : checkedCode s bs = 0) :
    exec .verifyDone s = .next (firmwareSignal (
      if Config.flashFails s.fresh then checkRecords 8 { checkEnds s with fresh := s.fresh + 1 }
      else stageImage bs (checkRecords 0 { checkEnds s with fresh := s.fresh + 1 }))) := by
  change execVerifyDone s = _
  unfold checkedCode checkEnds at *
  simp only [execVerifyDone, hcheck, ne_eq, hcode, not_true_eq_false, if_false]
  split
  · rfl
  · rfl

end

/-! ## SPDM -/

section
variable {s : State} {slot index code : Nat} (hserved : doeServed s = true)
include hserved

theorem spdmAnswer_served (payload : State → List Byte) :
    spdmAnswer code payload s = send (addObj s (key 0x3050 1) 1) (.spdm code (payload s)) := if_pos hserved

theorem spdmError_served (reason : Nat) : spdmError reason s =
    send (addObj (addObj s (key 0x3050 1) 1) (key 0x3050 2) 1) (.spdm 0x7F [BitVec.ofNat 8 reason]) := if_pos hserved

theorem exec_getCertificate_chain : exec (.getCertificate 0) s =
    .next (send (addObj s (key 0x3050 1) 1) (.spdm 0x02 (certificateChain s))) :=
  congrArg _ (spdmAnswer_served hserved certificateChain)

theorem exec_getCertificate_unknown (hslot : slot ≠ 0) : exec (.getCertificate slot) s =
    .next (send (addObj (addObj s (key 0x3050 1) 1) (key 0x3050 2) 1) (.spdm 0x7F [1])) :=
  congrArg _ ((if_neg hslot).trans (spdmError_served hserved _))

theorem exec_challenge_signed : exec (.challenge 0) s = .next (send
    { addObj s (key 0x3050 1) 1 with fresh := s.fresh + 1 } (.spdm 0x03
      (signedByAlias s (Config.sha384 (certificateChain s) ++ leBytes (Config.freeWord s.fresh).toNat 8)))) :=
  congrArg _ (if_pos hserved)

theorem exec_challenge_unknown (hslot : slot ≠ 0) : exec (.challenge slot) s =
    .next (send (addObj (addObj s (key 0x3050 1) 1) (key 0x3050 2) 1) (.spdm 0x7F [1])) :=
  congrArg _ ((if_neg hslot).trans (spdmError_served hserved _))

theorem exec_getMeasurements_block (hlow : 1 ≤ index) (hhigh : index ≤ 5) : exec (.getMeasurements index) s =
    .next (send (addObj s (key 0x3050 1) 1) (.spdm 0x60 (signedByAlias s (measurement s index)))) := by
  change execGetMeasurements index s = _
  rw [execGetMeasurements, if_neg (by omega), if_neg (by omega), if_pos hhigh]
  exact congrArg _ (if_pos hserved)

theorem exec_getMeasurements_count : exec (.getMeasurements 0) s =
    .next (send (addObj s (key 0x3050 1) 1) (.spdm 0x60 (signedByAlias s [5]))) :=
  congrArg _ (if_pos hserved)

theorem exec_getMeasurements_unknown (hindex : 5 < index) (hall : index ≠ 0xFF) : exec (.getMeasurements index) s =
    .next (send (addObj (addObj s (key 0x3050 1) 1) (key 0x3050 2) 1) (.spdm 0x7F [1])) := by
  change execGetMeasurements index s = _
  rw [execGetMeasurements, if_neg (by omega), if_neg hall, if_neg (by omega)]
  exact congrArg _ (if_pos hserved)

end

/-- Settles O55: a check ends with the code that it finds or, for a valid image, with that of the flash write; where
several checks fail the lowest code is reported (log 32). A request that the mailbox serves is answered by
`spdmAnswer` or `spdmError`, with the codes of log 40. -/
theorem imagesAndSpdm : Obligations.ImagesAndSpdm := by
  unfold Obligations.ImagesAndSpdm
  refine ⟨fun s bs hcheck => ?image, fun s slot index hserved => ?spdm⟩
  case image =>
    intro u code ends
    by_cases hcode : code = 0
    · refine .inr ⟨hcode, ?_⟩
      rw [exec_verifyDone_valid hcheck hcode]
      by_cases hfails : Config.flashFails s.fresh = true
      · exact .inl (by rw [if_pos hfails]; rfl)
      · exact .inr (by rw [if_neg hfails]; rfl)
    · exact .inl ⟨hcode, exec_verifyDone_refused hcheck hcode⟩
  case spdm =>
    refine ⟨⟨_, congrArg _ (spdmAnswer_served hserved _)⟩, ⟨_, congrArg _ (spdmAnswer_served hserved _)⟩,
      ⟨_, congrArg _ (spdmAnswer_served hserved _)⟩, congrArg _ (spdmAnswer_served hserved _), ?slot0, ?slots,
      exec_getMeasurements_block hserved, exec_getMeasurements_count hserved,
      exec_getMeasurements_unknown hserved, congrArg _ (spdmError_served hserved _)⟩
    case slot0 =>
      rintro rfl
      exact ⟨exec_getCertificate_chain hserved, _, exec_challenge_signed hserved⟩
    case slots =>
      exact fun hslot => ⟨exec_getCertificate_unknown hserved hslot, exec_challenge_unknown hserved hslot⟩

end Sys2Proof
end

section
/-! The debug port: scans of the TAP and of the debug lock (16 R451 to R453), and the accesses that need a debug level
(16 R452, R454 to R456, 14 R391). -/

namespace Sys2Proof

open Machine Safety

/-! ## Scans of the TAP and of the debug lock -/

section
variable {s : State} {pins code level : Nat} {w : F32} {bs : List Byte}

theorem exec_extest_drives (hreset : s.pins.modrst = false) :
    ∃ v, exec (.extest pins) s = .next v ∧ v.debugPort.boundary = pins ∧ v.debugPort.instruction = 0x00 := by
  have hdrives : ¬ (selectTap 0x00 s).pins.modrst = true := by simp [selectTap, hreset]
  refine ⟨_, show Host.Outcome.next _ = _ from congrArg _ (if_neg hdrives), rfl, rfl⟩

theorem exec_extest_ignored (hruns : s.pins.modrst = true) :
    exec (.extest pins) s = .next (send (selectTap 0x00 s) (.tdo 0)) :=
  congrArg _ (if_pos hruns)

theorem exec_unlock_ignored (hfailures : 3 ≤ s.secure.failures) :
    exec (.unlock w) s = .next (selectTap 0x0A s) :=
  congrArg _ (if_pos (.inl hfailures))

/-- A word that is taken is kept while the token is short, and starts the check when it is the last one. -/
theorem exec_unlock_taken (hfailures : s.secure.failures < 3) (hfree : s.secure.checking = none) :
    let u := selectTap 0x0A s
    exec (.unlock w) s = .next (
      if s.secure.words.length < 482 then { u with secure := { u.secure with words := s.secure.words ++ [w] } }
      else { u with secure := { u.secure with
        words := [], checking := some ((s.secure.words ++ [w]).flatMap fun w => leBytes w.toNat 4) } }) := by
  have htaken : ¬ (3 ≤ s.secure.failures ∨ s.secure.checking.isSome = true) := by simp [hfree, hfailures]
  have hshort : (s.secure.words ++ [w]).length < tokenWords ↔ s.secure.words.length < 482 := by
    rw [List.length_append]
    exact Nat.succ_lt_succ_iff
  refine congrArg _ ((if_neg htaken).trans ?_)
  exact if_congr hshort rfl rfl

theorem execUnlockVerifyDone_eq (hcheck : s.secure.checking = some bs) :
    let u := { s with secure := { s.secure with checking := none, nonce := s.secure.nonce + 1 } }
    execUnlockVerifyDone s = .next (if tokenValid s bs then unlockTo (imageField bs 5 1) u
      else { u with secure := { u.secure with failures := s.secure.failures + 1 } }) := by
  simp only [execUnlockVerifyDone, hcheck]

end

/-- Settles O56: each scan selects its instruction and answers what it captures; a token is taken word by word
(`exec_unlock_taken`) and its check counts a failure or raises the level, with the sources of log 38. -/
theorem tapScans : Obligations.TapScans := by
  unfold Obligations.TapScans
  intro s pins w bs
  refine ⟨rfl, ⟨_, rfl, rfl, rfl⟩, exec_extest_drives, exec_extest_ignored, rfl, rfl, rfl, rfl, ?unlock,
    execUnlockVerifyDone_eq⟩
  case unlock =>
    refine ⟨exec_unlock_ignored, fun hfailures hfree hshort => ?_, fun hfailures hfree hlast => ?_⟩
    · exact (exec_unlock_taken hfailures hfree).trans (congrArg _ (if_pos hshort))
    · exact (exec_unlock_taken hfailures hfree).trans (congrArg _ (if_neg (by omega)))

end Sys2Proof
end

section
/-! Accesses of the debug port at their levels: dictionary, memory, breakpoints and ponds (16 R452, R454 to R456,
14 R391). -/

namespace Sys2Proof

open Machine Safety

/-! ## A scan at its level -/

section
variable {s : State} {code level : Nat} {f : State → State}

theorem scan_below (h : s.secure.level < level) : scan code level s f = send (selectTap code s) (.tdo 0) := if_pos h

theorem scan_at (h : level ≤ s.secure.level) : scan code level s f = f (selectTap code s) := if_neg (Nat.not_lt.mpr h)

end

/-! ## The dictionary -/

section
variable {s : State} {dr : Nat}

/-- DICT at level 1 or 2 starts the access that the register asks for. -/
theorem exec_dict_at (hlevel : 1 ≤ s.secure.level) :
    let u := send (selectTap 0x10 s) (.tdo (dictCapture s))
    exec (.dict dr) s = .next (if !dictServed s then u
      else if bits dr 103 102 = 1 then debugRead (bits dr 127 112) (bits dr 111 104) u
      else if bits dr 103 102 = 2 ∧ s.secure.level = 2 then
        debugStore (bits dr 127 112) (bits dr 111 104) (dr % 2 ^ 64) u
      else u) :=
  congrArg _ (scan_at hlevel)

theorem exec_dict_read (hlevel : 1 ≤ s.secure.level) (hserved : dictServed s = true) (hop : bits dr 103 102 = 1) :
    exec (.dict dr) s = .next (debugRead (bits dr 127 112) (bits dr 111 104)
      (send (selectTap 0x10 s) (.tdo (dictCapture s)))) := by
  rw [exec_dict_at hlevel, hserved, if_neg (by decide), if_pos hop]

theorem exec_dict_write (hlevel : s.secure.level = 2) (hserved : dictServed s = true) (hop : bits dr 103 102 = 2) :
    exec (.dict dr) s = .next (debugStore (bits dr 127 112) (bits dr 111 104) (dr % 2 ^ 64)
      (send (selectTap 0x10 s) (.tdo (dictCapture s)))) := by
  rw [exec_dict_at (by omega), hserved, if_neg (by decide), if_neg (by omega), if_pos ⟨hop, hlevel⟩]

/-- A write at level 1 only captures. -/
theorem exec_dict_locked (hlevel : s.secure.level = 1) (hop : bits dr 103 102 = 2) :
    exec (.dict dr) s = .next (send (selectTap 0x10 s) (.tdo (dictCapture s))) := by
  rw [exec_dict_at hlevel.ge, if_neg (by omega : ¬ bits dr 103 102 = 1),
    if_neg (by omega : ¬ (bits dr 103 102 = 2 ∧ s.secure.level = 2)), ite_self]

end

/-! ## Memory -/

section
variable {s : State} {p a space : Nat} {w : W64} {f : State → State}

/-- The state after a DBGMEM scan without an access in progress has captured the latest one. -/
def memShown (s : State) : State := send (selectTap 0x13 s) (.tdo (memCapture (selectTap 0x13 s)))

theorem memScan_free (hlevel : 1 ≤ s.secure.level) (hfree : s.debugPort.memWait = none) :
    memScan s f = f (memShown s) := by
  have hsettled : settleMem (selectTap 0x13 s) = selectTap 0x13 s := by
    have hwait : (selectTap 0x13 s).debugPort.memWait = none := hfree
    simp only [settleMem, hwait]
  rw [memScan, scan_at hlevel, hsettled]
  exact if_neg (by simp [selectTap, hfree])

theorem memScan_id (hlevel : 1 ≤ s.secure.level) :
    memScan s id = send (settleMem (selectTap 0x13 s)) (.tdo (memCapture (settleMem (selectTap 0x13 s)))) := by
  rw [memScan, scan_at hlevel]
  exact ite_self _

theorem readMem_served (hmap : unitMapped s [(a, 8)] = true) (hwait : waitsRefetch s [(a, 8)] = false)
    (hclean : unitPoisoned s [(a, 8)] = false) :
    readMem a s = noteMem 0 (readLe s a 8) (countBytes false [(a, 8)] s) := by
  simp [readMem, hmap, hwait, hclean]

theorem readMem_waits (hmap : unitMapped s [(a, 8)] = true) (hwait : waitsRefetch s [(a, 8)] = true) :
    readMem a s = { s with debugPort := { s.debugPort with memWait := some a } } := by
  simp [readMem, hmap, hwait]

section
variable (hlevel : 1 ≤ s.secure.level) (hfree : s.debugPort.memWait = none)
include hlevel hfree

theorem exec_dbgmemRead_unified : exec (.dbgmemRead 0 p a) s = .next (readMem (a - a % 8) (memShown s)) :=
  congrArg _ (memScan_free hlevel hfree)

theorem exec_dbgmemRead_buffer : exec (.dbgmemRead 1 p a) s = .next (
    if bufferStatus (memShown s) p (a - a % 8) = 0 then
      noteMem 0 (leValue (bufRead (pondOf (memShown s) (physOf (memShown s) p)) (a - a % 8) 8)) (memShown s)
    else noRead (bufferStatus (memShown s) p (a - a % 8)) (memShown s)) :=
  congrArg _ (memScan_free hlevel hfree)

end

/-- A buffer access of a pond that is not halted ends with status 5. -/
theorem exec_dbgmemRead_running (hlevel : 1 ≤ s.secure.level) (hfree : s.debugPort.memWait = none)
    (hrunning : debugState (memShown s) p ≠ 2) : exec (.dbgmemRead 1 p a) s = .next (noRead 5 (memShown s)) := by
  have hstatus : bufferStatus (memShown s) p (a - a % 8) = 5 := if_pos hrunning
  rw [exec_dbgmemRead_buffer hlevel hfree, hstatus, if_neg (by decide)]

theorem exec_dbgmemWrite_locked (hlevel : s.secure.level = 1) (hfree : s.debugPort.memWait = none) :
    exec (.dbgmemWrite 0 p a w) s = .next (noRead 6 (memShown s)) :=
  (congrArg Host.Outcome.next (memScan_free hlevel.ge hfree)).trans
    (congrArg _ (if_pos (show s.secure.level < 2 by omega)))

/-- A write at level 2: to the unified range, to a buffer, or to a space without a stated meaning. -/
theorem exec_dbgmemWrite_at (hlevel : s.secure.level = 2) (hfree : s.debugPort.memWait = none) :
    let m := memShown s
    exec (.dbgmemWrite space p a w) s = .next (
      if 1 < space then
        (if Config.bankSpace space && decide (p < logicalCount m ∧ physOf m p ≠ 0xFF)
         then noRead 4 (blockBankWrite (physOf m p) (a % 2 ^ 48) m) else m)
      else if space = 0 then
        noRead (memWriteStatus m (a - a % 8)) (hostWrite m (a - a % 8) (leBytes w.toNat 8))
      else noRead (bufferStatus m p (a - a % 8)) (if bufferStatus m p (a - a % 8) = 0 then
        modPond m (physOf m p) fun pd => bufWrite pd (a - a % 8) (leBytes w.toNat 8) else m)) :=
  (congrArg Host.Outcome.next (memScan_free (by omega) hfree)).trans
    (congrArg _ (if_neg (show ¬ s.secure.level < 2 by omega)))

theorem exec_dbgmemWrite_buffer (hlevel : s.secure.level = 2) (hfree : s.debugPort.memWait = none)
    (hstatus : bufferStatus (memShown s) p (a - a % 8) = 0) :
    exec (.dbgmemWrite 1 p a w) s = .next (noRead 0 (modPond (memShown s) (physOf (memShown s) p)
      fun pd => bufWrite pd (a - a % 8) (leBytes w.toNat 8))) := by
  rw [exec_dbgmemWrite_at hlevel hfree, if_neg (by decide), if_neg (by decide), hstatus, if_pos rfl]

theorem exec_dbgmemWrite_unstated (hlevel : s.secure.level = 2) (hfree : s.debugPort.memWait = none)
    (hspace : 1 < space) (hbank : Config.bankSpace space = false) :
    exec (.dbgmemWrite space p a w) s = .next (memShown s) := by
  simp only [exec_dbgmemWrite_at hlevel hfree, hspace, hbank, Bool.false_and, Bool.false_eq_true, if_true, if_false]

theorem exec_dbgmemWrite_bank (hlevel : s.secure.level = 2) (hfree : s.debugPort.memWait = none)
    (hspace : 1 < space) (hbank : Config.bankSpace space = true) (hp : p < logicalCount (memShown s))
    (hphys : physOf (memShown s) p ≠ 0xFF) : exec (.dbgmemWrite space p a w) s =
      .next (noRead 4 (blockBankWrite (physOf (memShown s) p) (a % 2 ^ 48) (memShown s))) := by
  rw [exec_dbgmemWrite_at hlevel hfree, if_pos hspace, if_pos (by simp [hbank, hp, hphys])]

end

/-! ## Control of ponds -/

section
variable {s : State} {p level : Nat} {f : Nat → State → State}

/-- A DBGCTL scan has captured the pond polled last, and polls `p` from now on. -/
def polled (p : Nat) (s : State) : State :=
  let c := controlCapture (selectTap 0x11 s)
  { c with debugPort := { c.debugPort with pollPond := p } }

theorem controlCapture_secure : (controlCapture s).secure = s.secure := by
  dsimp only [controlCapture]
  split <;> rfl

theorem polled_level : (polled p s).secure.level = s.secure.level := by
  change (controlCapture (selectTap 0x11 s)).secure.level = _
  rw [controlCapture_secure]
  rfl

/-- A DBGCTL scan at level 1 or 2 acts on the ponds named when its level suffices. -/
theorem control_polled (hpoll : 1 ≤ s.secure.level) : control p level s f =
    if s.secure.level < level then polled p s else forEach (namedPonds (polled p s) p) f (polled p s) := by
  rw [Machine.control, scan_at hpoll, ← polled_level (p := p)]
  rfl

theorem control_below (hpoll : 1 ≤ s.secure.level) (hlevel : s.secure.level < level) :
    control p level s f = polled p s :=
  (control_polled hpoll).trans (if_pos hlevel)

theorem control_at (hpoll : 1 ≤ s.secure.level) (hlevel : level ≤ s.secure.level) :
    control p level s f = forEach (namedPonds (polled p s) p) f (polled p s) :=
  (control_polled hpoll).trans (if_neg (Nat.not_lt.mpr hlevel))

theorem namedPonds_one (hone : p ≠ 0xFF) (hthere : debugState s p ≠ 3) : namedPonds s p = [p] := by
  simp [namedPonds, hone, hthere]

/-- An action of level 2 on one pond that the device has. -/
theorem control_one (hlevel : s.secure.level = 2) (hone : p ≠ 0xFF) (hthere : debugState (polled p s) p ≠ 3) :
    control p 2 s f = f p (polled p s) := by
  rw [control_at (by omega) hlevel.ge, namedPonds_one hone hthere]
  rfl

theorem modPond_congr {ph : Nat} {g k : Pond → Pond} (h : g (pondOf s ph) = k (pondOf s ph)) :
    modPond s ph g = modPond s ph k :=
  congrArg (setPond s ph) h

theorem exec_debugStatus_polled (hlevel : 1 ≤ s.secure.level) : exec (.debugStatus p) s = .next (polled p s) :=
  congrArg Host.Outcome.next ((control_at hlevel hlevel).trans (List.foldl_fixed _))

section
variable (hlevel : s.secure.level = 2) (hone : p ≠ 0xFF) (hthere : debugState (polled p s) p ≠ 3)
  (hhalted : (pondOf (polled p s) (physOf (polled p s) p)).halt = some 2)
include hlevel hone hthere hhalted

theorem exec_debugResume_halted : exec (.debugResume p) s =
    .next (unhalt p (modPond (polled p s) (physOf (polled p s) p) passBreak)) :=
  (congrArg Host.Outcome.next (control_one hlevel hone hthere)).trans
    (congrArg _ (congrArg _ (modPond_congr (if_pos (Option.isSome_of_eq_some hhalted)))))

theorem exec_debugStep_halted : exec (.debugStep p) s =
    .next (modPond (polled p s) (physOf (polled p s) p) fun pd => { passBreak pd with stepping := true }) :=
  (congrArg Host.Outcome.next (control_one hlevel hone hthere)).trans (congrArg _ (modPond_congr (if_pos hhalted)))

end

end

/-- Settles O57: a scan below its level captures zeros; at its level the accesses are those of the lemmas above. Spaces
without a stated meaning, and a relock at level 1, are log 38. -/
theorem debugAccesses : Obligations.DebugAccesses := by
  unfold Obligations.DebugAccesses
  refine ⟨fun s dr p a space w => ?accesses, fun s p => ?control⟩
  case accesses =>
    intro m settled free
    refine ⟨fun hlevel => ?level1, fun hlevel hfree => ⟨_, exec_dbgmemWrite_locked hlevel hfree, rfl, rfl⟩,
      fun hlevel => ?level2, fun hlevel => ?level0, fun hlevel => congrArg _ (scan_below hlevel)⟩
    case level1 =>
      intro u
      exact ⟨exec_dict_read hlevel, fun hserved hop htwo => exec_dict_write htwo hserved hop,
        fun hop hlocked => exec_dict_locked hlocked hop, congrArg _ (memScan_id hlevel),
        fun hfree hmap hwait hclean =>
          (exec_dbgmemRead_unified hlevel hfree).trans (congrArg _ (readMem_served hmap hwait hclean)),
        fun hfree hmap hwait => (exec_dbgmemRead_unified hlevel hfree).trans (congrArg _ (readMem_waits hmap hwait)),
        fun hfree hstatus => (exec_dbgmemRead_buffer hlevel hfree).trans (congrArg _ (if_pos hstatus)),
        fun hfree hrunning => ⟨_, exec_dbgmemRead_running hlevel hfree hrunning, rfl⟩⟩
    case level2 =>
      intro v z b
      exact ⟨fun hfree => ⟨_, exec_dbgmemWrite_at hlevel hfree⟩,
        fun hfree hstatus => ⟨_, exec_dbgmemWrite_buffer hlevel hfree hstatus⟩, exec_dbgmemWrite_unstated hlevel,
        fun hfree hspace hbank hp hphys => ⟨_, exec_dbgmemWrite_bank hlevel hfree hspace hbank hp hphys⟩,
        congrArg _ (scan_at hlevel.ge)⟩
    case level0 =>
      have hlow : s.secure.level < 1 := by omega
      exact ⟨congrArg _ (scan_below hlow), congrArg _ (scan_below hlow), congrArg _ (scan_below hlow),
        congrArg _ (scan_below hlow)⟩
  case control =>
    intro c u
    refine ⟨fun hlevel => ⟨exec_debugStatus_polled hlevel, congrArg _ (scan_at hlevel)⟩, fun hlevel => ?poll,
      fun hlevel hone hthere => ?one, fun hlevel => congrArg _ (control_at (by omega) hlevel.ge)⟩
    case poll =>
      exact ⟨congrArg _ (control_below hlevel.ge (by omega)), congrArg _ (control_below hlevel.ge (by omega))⟩
    case one =>
      exact ⟨congrArg _ (control_one hlevel hone hthere), congrArg _ (control_one hlevel hone hthere),
        fun hhalted => ⟨exec_debugResume_halted hlevel hone hthere hhalted,
          exec_debugStep_halted hlevel hone hthere hhalted⟩⟩

end Sys2Proof
end

section
/-! Events of a pond: stagger, queue slots, credits, peer signals and halts (17 R470; 06 R152, R156, R185; 16 R454). -/

namespace Sys2Proof

open Machine Safety

/-! ## The least element of a list -/

section
variable {α : Type} {key : α → Nat} {l : List α} {a : α}

theorem minBy_cons_ne_none (x : α) (l : List α) : minBy key (x :: l) ≠ none := by
  unfold minBy
  split
  · exact Option.some_ne_none _
  · split <;> exact Option.some_ne_none _

theorem minBy_least (h : minBy key l = some a) : a ∈ l ∧ ∀ x ∈ l, key a ≤ key x := by
  induction l generalizing a with
  | nil => cases h
  | cons y ys ih =>
    unfold minBy at h
    split at h
    next hnone =>
      cases h
      match ys, hnone with
      | [], _ => simp
      | z :: zs, hnone => exact absurd hnone (minBy_cons_ne_none z zs)
    next b hb =>
      obtain ⟨hmem, hleast⟩ := ih hb
      split_ifs at h with hyb
      · cases h
        exact ⟨List.mem_cons_self, List.forall_mem_cons.mpr ⟨le_rfl, fun x hx => hyb.trans (hleast x hx)⟩⟩
      · cases h
        exact ⟨List.mem_cons_of_mem _ hmem, List.forall_mem_cons.mpr ⟨(Nat.not_le.mp hyb).le, hleast⟩⟩

end

section
variable {s : State} {p ph t st due n : Nat} {q : Queued} {sig : PeerSignal}

/-- The next signal is the first to become visible among those that wait for no write and for no earlier one of their
sender. -/
theorem nextSignal_least (h : nextSignal s ph = some sig) :
    sig ∈ (pondOf s ph).core.signals ∧ writeUnderWay s ph sig = false ∧
      ∀ x ∈ (pondOf s ph).core.signals, writeUnderWay s ph x = false →
        (pondOf s ph).core.signals.find? (fun y => decide (y.sender = x.sender)) = some x → sig.visible ≤ x.visible := by
  obtain ⟨hmem, hleast⟩ := minBy_least h
  obtain ⟨hfirst, hfree⟩ := List.mem_filter.mp hmem
  refine ⟨(List.mem_filter.mp hfirst).1, by simpa using hfree, fun x hx hxfree hxfirst => hleast x ?_⟩
  exact List.mem_filter.mpr ⟨List.mem_filter.mpr ⟨hx, by simp [hxfirst]⟩, by simp [hxfree]⟩

theorem pondOf_countStall (l waited j : Nat) : pondOf (countStall l ph st waited s) j = pondOf s j := by
  unfold countStall
  split <;> rfl

section
variable (h : OnPond s p ph)
include h

theorem exec_arrayStartStaggerRelease_ticking (hedge : s.tick.anyEdge = true) :
    exec (.arrayStartStaggerRelease p) s = .next
      (modPond (advanceTo (beginStagger s) (s.tick.lastEdge + 15000 + 16 * p)) ph
        fun pd => { pd with gated := false }) := by
  change execArrayStartStaggerRelease p s = _
  rw [execArrayStartStaggerRelease, onPond_of h]
  exact congrArg _ (if_neg (by simp [hedge]))

theorem exec_queueSlotFreed_room (hstalled : (pondOf s ph).core.stalled = some (q, t))
    (hroom : (queueOf (pondOf s ph) (classOf q.cmd)).length < 64) :
    exec (.queueSlotFreed p n) s = .next
      (addObj (addObj (setPond (advanceTo s n) ph (setQueue (unstalled (pondOf s ph)) (classOf q.cmd)
        (queueOf (pondOf s ph) (classOf q.cmd) ++ [pushedAt q (max s.now n)])))
        (key 0x2601 1) 1) (key 0x2601 3) (max s.now n - t)) := by
  change execQueueSlotFreed p n s = _
  rw [execQueueSlotFreed, onPond_of h]
  simp only [hstalled]
  exact congrArg _ (if_pos hroom)

theorem exec_creditReturn_producer
    (hdue : (pondOf s ph).core.creditsDue.find? (fun e => decide (e.1 = st)) = some (st, due))
    (hopen : (streamOf (pondOf s ph) st).opened = true) (hproducer : (streamOf (pondOf s ph) st).consumer = false) :
    exec (.creditReturn p st) s = .next
      (modPond (countStall p ph st (streamOf (pondOf s ph) st).waitSince (advanceTo s due)) ph fun pd =>
        setStream { pd with core := { pd.core with creditsDue := pd.core.creditsDue.erase (st, due) } } st
          { streamOf pd st with credits := (streamOf pd st).credits + 1, waitSince := 0 }) := by
  change execCreditReturn p st s = _
  rw [execCreditReturn, onPond_of h, hdue]
  refine congrArg _ (modPond_congr (if_pos ?_))
  simp [pondOf_countStall, hopen, hproducer]

theorem exec_peerSignalArrival_next (hnext : nextSignal s ph = some sig) :
    exec (.peerSignalArrival p) s = .next (signalPond ph sig.counter sig.count sig.sender sig.tag
      (modPond (advanceTo s sig.visible) ph fun pd =>
        { pd with core := { pd.core with signals := pd.core.signals.erase sig } })) := by
  change execPeerSignalArrival p s = _
  rw [execPeerSignalArrival, onPond_of h, hnext]
  rfl

theorem exec_pondHalted_quiet (hhalting : (pondOf s ph).halt = some 1) (hrunning : (pondOf s ph).running = [])
    (hqueues : (pondOf s ph).queues = []) :
    exec (.pondHalted p) s = .next (modPond s ph fun pd => { pd with halt := some 2 }) := by
  change execPondHalted p s = _
  rw [execPondHalted, onPond_of h]
  exact congrArg _ (if_pos ⟨hhalting, hrunning, hqueues⟩)

end

end

/-- Settles O20: one lemma above for each event; the next signal is the least one that may be delivered. -/
theorem pondEvents : Obligations.PondEvents := by
  unfold Obligations.PondEvents
  intro s p ph t st due q sig h
  refine ⟨exec_arrayStartStaggerRelease_ticking h, fun hstalled hroom n => exec_queueSlotFreed_room h hstalled hroom,
    exec_creditReturn_producer h, fun hnext => ?signal, exec_pondHalted_quiet h⟩
  case signal =>
    obtain ⟨hmem, hfree, hleast⟩ := nextSignal_least hnext
    exact ⟨hmem, hfree, hleast, exec_peerSignalArrival_next h hnext⟩

end Sys2Proof
end

section
/-! Power states, wakes and pacing (17 R460 to R469). -/

namespace Sys2Proof

open Machine Safety Laws

/-! ## Entries and exits (17 R460 to R462) -/

section
variable {s : State} {n t : Nat}

theorem exec_powerEntryDone_ready (htrans : transition s = 1) (hready : entryReady s = true) :
    let u := advanceWithin (s.power.wakeStart + entryBound s s.power.target) s
    let v := addObj (setObj (setObj (enterState s.power.target u) (key 0x2F00 2) s.power.target) (key 0x2F00 3) 0)
      (key 0x2F30 s.power.target) 1
    exec .powerEntryDone s = .next (if v.power.wake.isSome
      then beginExit { v with power := { v.power with entered := some v.now } }
      else heldRequest { v with power := { v.power with entered := some v.now } }) :=
  congrArg _ (if_neg (by simp [htrans, hready]))

/-- The module is Active: it enters the state that the wake's request named, unless another request waits. -/
def exitEnds (next : Option Nat) (s : State) : State :=
  match s.power.request, next with
  | none, some v => { s with power := { s.power with request := some (v, 0) } }
  | _, _ => heldRequest s

theorem exitEnds_none : exitEnds none s = heldRequest s := by
  unfold exitEnds
  cases s.power.request <;> rfl

theorem exitEnds_some (hrequest : s.power.request = none) :
    exitEnds (some n) s = { s with power := { s.power with request := some (n, 0) } } := by
  simp only [exitEnds, hrequest]

/-- The exit ends at an instant within its bound; the state left gives back what it had taken. -/
theorem exec_powerExitDone_exiting (htrans : transition s = 2) :
    let u := advanceWithin (s.power.wakeStart + exitBound (powerState s)) s
    let v := if powerState s = 3 then leaveStandby u else if powerState s = 2 then powerPonds u else u
    let w := setObj (setObj v (key 0x2F00 2) 0) (key 0x2F00 3) 0
    let x := match w.power.wake with
      | some (_, _, t) => setObj w (key 0x2F02 5) ((w.now - t) / usClk)
      | none => w
    let y := { x with power := { x.power with wake := none, entered := none, thenState := none } }
    exec .powerExitDone s = .next (exitEnds x.power.thenState
      (releasePads (if powerState s = 2 then pumpMigrations (restoreCredit y) else y))) :=
  congrArg _ (if_neg (by simp [htrans]))

/-! ## Wake inputs, and the pacing of ponds (17 R463, R466, R469) -/

theorem exec_wakeNAssert_low (hlow : getObj s (key 0x2F00 6) = 0) : exec (.wakeNAssert t) s =
    .next (wakeEvent 2 0 (setObj (advanceTo s (t + usClk)) (key 0x2F00 6) 1)) :=
  congrArg _ (if_neg (by simp [getObj_advanceTo, hlow]))

theorem exec_wakeNPulseFiltered_counted (hlow : getObj s (key 0x2F00 6) ≠ 1) :
    exec .wakeNPulseFiltered s = .next (addObj s (key 0x2F02 7) 1) :=
  congrArg _ (if_neg hlow)

theorem exec_wakeTimerExpiry_set (hentered : s.power.entered = some t) (htimer : getObj s (key 0x2F01 2) ≠ 0)
    (htrans : transition s = 0) : exec .wakeTimerExpiry s =
      .next (wakeEvent 4 0 (advanceTo s (t + getObj s (key 0x2F01 2) * msClk))) := by
  change execWakeTimerExpiry s = _
  simp [execWakeTimerExpiry, hentered, htimer, htrans]

theorem exec_pondPowerUp_allowed (hallowed : powerAllowed s = true)
    (hgo : ((powerOrder s).filter fun ph => !(pondOf s ph).powered).take 16 ≠ []) :
    let go := ((powerOrder s).filter fun ph => !(pondOf s ph).powered).take 16
    let u := if s.power.interval = 0 then s else advanceTo s (s.power.interval - 1 + 10 * usClk)
    exec .pondPowerUp s = .next (forEach go (fun ph v => modPond v ph fun pd => { pd with powered := true })
      { u with power := { u.power with interval := u.now + 1 } }) :=
  congrArg _ (if_neg (by simpa [hallowed] using hgo))

end

/-! ## Wakes (17 R463 to R465) -/

section
variable {s : State} {code m left : Nat}

theorem recordWake_dict_sorted (h : MapSorted s.dict) : MapSorted (recordWake code m left s).dict :=
  setObj_dict_sorted (setObj_dict_sorted (setObj_dict_sorted (setObj_dict_sorted h _ _) _ _) _ _) _ _

theorem getObj_recordWake (h : MapSorted s.dict) (j : Nat) : getObj (recordWake code m left s) j =
    if j = key 0x2F02 4 then (s.now - s.power.poweredAt) / usClk
    else if j = key 0x2F02 3 then left
    else if j = key 0x2F02 2 then (if code = 1 then m else 0)
    else if j = key 0x2F02 1 then code
    else getObj s j := by
  have hcode := setObj_dict_sorted h (key 0x2F02 1) code
  have hmaster := setObj_dict_sorted hcode (key 0x2F02 2) (if code = 1 then m else 0)
  have hleft := setObj_dict_sorted hmaster (key 0x2F02 3) left
  rw [← getObj_setObj h, ← getObj_setObj hcode, ← getObj_setObj hmaster, ← getObj_setObj hleft]
  rfl

/-- The source of a wake is recorded, and nothing of the transition in progress changes. -/
theorem getObj_recordWake_code (h : MapSorted s.dict) : getObj (recordWake code m left s) (key 0x2F02 1) = code := by
  rw [getObj_recordWake h, if_neg (by decide), if_neg (by decide), if_neg (by decide), if_pos rfl]

theorem getObj_recordWake_left (h : MapSorted s.dict) : getObj (recordWake code m left s) (key 0x2F02 3) = left := by
  rw [getObj_recordWake h, if_neg (by decide), if_pos rfl]

theorem getObj_recordWake_other (h : MapSorted s.dict) {j : Nat}
    (hj : j ∉ [key 0x2F02 1, key 0x2F02 2, key 0x2F02 3, key 0x2F02 4]) :
    getObj (recordWake code m left s) j = getObj s j := by
  simp only [List.mem_cons, List.not_mem_nil, or_false, not_or] at hj
  obtain ⟨hcode, hmaster, hleft, htime⟩ := hj
  rw [getObj_recordWake h, if_neg htime, if_neg hleft, if_neg hmaster, if_neg hcode]

theorem recordWake_power : (recordWake code m left s).power = { s.power with wake := some (code, m, s.now) } := by
  simp [recordWake]

theorem recordWake_now : (recordWake code m left s).now = s.now := by simp [recordWake]

theorem recordWake_mem : (recordWake code m left s).mem = s.mem := by simp [recordWake]

theorem recordWake_ponds : (recordWake code m left s).ponds = s.ponds := by simp [recordWake]

theorem beginExit_power : (beginExit s).power = { s.power with wakeStart := s.now } := by simp [beginExit]

theorem beginExit_mem : (beginExit s).mem = s.mem := by simp [beginExit]

theorem beginExit_ponds : (beginExit s).ponds = s.ponds := by simp [beginExit]

theorem transition_beginExit (h : MapSorted s.dict) : transition (beginExit s) = 2 :=
  (getObj_addObj_other (setObj_dict_sorted h _ _) _ _ (by decide)).trans (getObj_setObj_same h _ _)

/-- The start of an exit changes the transition in progress and its count, and no other object. -/
theorem getObj_beginExit_other (h : MapSorted s.dict) {j : Nat} (hj : j ∉ [key 0x2F00 3, key 0x2F30 4]) :
    getObj (beginExit s) j = getObj s j := by
  simp only [List.mem_cons, List.not_mem_nil, or_false, not_or] at hj
  obtain ⟨htrans, hcount⟩ := hj
  exact (getObj_addObj_other (setObj_dict_sorted h _ _) _ _ hcount).trans (getObj_setObj_other h _ _ htrans)

theorem wakeEvent_masked (hmask : bitAt (getObj s (key 0x2F01 1)) (code - 1) = false) : wakeEvent code m s = s :=
  if_pos (by simp [hmask])

section
variable (hmask : bitAt (getObj s (key 0x2F01 1)) (code - 1) = true)
include hmask

theorem wakeEvent_active (htrans : transition s = 0) (hactive : powerState s = 0) : wakeEvent code m s = s := by
  simp [wakeEvent, hmask, htrans, hactive]

theorem wakeEvent_asleep (htrans : transition s = 0) (hasleep : powerState s ≠ 0) :
    wakeEvent code m s = beginExit (recordWake code m (powerState s) s) := by
  simp [wakeEvent, hmask, htrans, hasleep]

theorem wakeEvent_entering (htrans : transition s = 1) : wakeEvent code m s =
    if s.power.wake.isSome then addObj s (key 0x2F02 6) 1
    else recordWake code m s.power.target (addObj s (key 0x2F02 6) 1) :=
  (if_neg (by simp [hmask])).trans (if_pos htrans)

end

/-- A wake in a sleeping state is recorded, and the exit begins. -/
theorem wakeEvent_asleep_records (h : MapSorted s.dict) (hmask : bitAt (getObj s (key 0x2F01 1)) (code - 1) = true)
    (htrans : transition s = 0) (hasleep : powerState s ≠ 0) :
    transition (wakeEvent code m s) = 2 ∧ getObj (wakeEvent code m s) (key 0x2F02 1) = code ∧
      getObj (wakeEvent code m s) (key 0x2F02 3) = powerState s ∧
      (wakeEvent code m s).power.wake = some (code, m, s.now) ∧ (wakeEvent code m s).power.wakeStart = s.now ∧
      (wakeEvent code m s).mem = s.mem ∧ (wakeEvent code m s).ponds = s.ponds := by
  rw [wakeEvent_asleep hmask htrans hasleep]
  have hrecord := recordWake_dict_sorted (code := code) (m := m) (left := powerState s) h
  exact ⟨transition_beginExit hrecord,
    (getObj_beginExit_other hrecord (by decide)).trans (getObj_recordWake_code h),
    (getObj_beginExit_other hrecord (by decide)).trans (getObj_recordWake_left h),
    by rw [beginExit_power, recordWake_power], by rw [beginExit_power, recordWake_now],
    by rw [beginExit_mem, recordWake_mem], by rw [beginExit_ponds, recordWake_ponds]⟩

/-- A wake during an entry is counted, and the first one is recorded. -/
theorem wakeEvent_entering_counts (h : MapSorted s.dict) (hmask : bitAt (getObj s (key 0x2F01 1)) (code - 1) = true)
    (htrans : transition s = 1) :
    transition (wakeEvent code m s) = 1 ∧ getObj (wakeEvent code m s) (key 0x2F02 6) = getObj s (key 0x2F02 6) + 1 ∧
      (s.power.wake = none → (wakeEvent code m s).power.wake = some (code, m, s.now)) ∧
      (s.power.wake ≠ none → (wakeEvent code m s).power.wake = s.power.wake) := by
  have hsorted := addObj_dict_sorted h (key 0x2F02 6) 1
  have hstays : transition (addObj s (key 0x2F02 6) 1) = 1 := (getObj_addObj_other h _ _ (by decide)).trans htrans
  have hcounted := getObj_addObj_same h (key 0x2F02 6) 1
  rw [wakeEvent_entering hmask htrans]
  cases hwake : s.power.wake with
  | none =>
    exact ⟨(getObj_recordWake_other hsorted (by decide)).trans hstays,
      (getObj_recordWake_other hsorted (by decide)).trans hcounted, fun _ => rfl, fun hsome => absurd rfl hsome⟩
  | some w =>
    exact ⟨hstays, hcounted, fun hnone => absurd hnone (Option.some_ne_none w), fun _ => hwake⟩

end

/-- Settles O58: the lemmas above on entries, exits and wakes, with the instants of `advanceWithin` (log 10). The credits
withheld while the module slept return at the exit from Dormant (log 49). -/
theorem powerStates : Obligations.PowerStates := by
  unfold Obligations.PowerStates
  refine ⟨fun s t => ⟨?entry, ?exit, exec_wakeNAssert_low, rfl, exec_wakeNPulseFiltered_counted, exec_wakeTimerExpiry_set,
    ?ponds⟩, fun s code m hs _ => ⟨wakeEvent_masked, wakeEvent_active, wakeEvent_asleep_records hs.dict,
    wakeEvent_entering_counts hs.dict⟩⟩
  case entry =>
    exact fun htrans hready _ => ⟨_, _, rfl, now_le_advanceWithin, advanceWithin_now_le, rfl,
      exec_powerEntryDone_ready htrans hready⟩
  case exit =>
    intro htrans u v w x y z
    have hexit : exec .powerExitDone s = .next (exitEnds x.power.thenState z) := exec_powerExitDone_exiting htrans
    refine ⟨now_le_advanceWithin, advanceWithin_now_le, fun hnone => ?_, fun n hsome hrequest => ?_⟩
    · rw [hexit, hnone, exitEnds_none]
    · rw [hexit, hsome, exitEnds_some hrequest]
  case ponds =>
    intro hallowed go u hgo
    exact exec_pondPowerUp_allowed hallowed hgo

end Sys2Proof
end

section
/-! Supply, temperature, PWR_OK and power-up (17 R473 to R476). -/

namespace Sys2Proof

open Machine Safety

section
variable {s : State}

theorem exec_supplyStop_running (hruns : s.pins.supplyStopped = false) :
    let u := stopForSupply s
    exec .supplyStop s = .next { u with pins := { u.pins with supplyStopped := true, supplyOut := true } } :=
  congrArg _ (if_neg (by simp [hruns]))

/-- The power stages go off after a supply stop, in which tiers that are not in self-refresh lose their contents. -/
theorem exec_powerStagesOff :
    let u := stopForSupply (if inSelfRefresh s then s
      else { s with host := { s.host with memoryActive := false }, boot := { s.boot with preserved := false } })
    exec .powerStagesOff s =
      .next { u with pins := { u.pins with supplyStopped := true, supplyOut := true, stagesOff := true } } := rfl

theorem exec_temperatureHigh_reached : exec (.temperatureHigh true) s =
    .next (followAlert 63 true { s with pins := { s.pins with tempHigh := true } }) := rfl

theorem exec_temperatureHigh_left : exec (.temperatureHigh false) s = .next (followAlert 64 false (followAlert 63 false
    { s with pins := { s.pins with tempHigh := false, tempCritical := false } })) := rfl

/-- A power-up keeps what manufacture, the fuses and the flash hold, and the numbers of the ponds; the rest is that of a
reset state. `t` is the state at its end, named so that no proof evaluates the instant. -/
theorem exec_powerUp_fields {t : State} (ht : advanceWithin (s.now + 25 * msClk) s = t) :
    ∃ u, exec .powerUp s = .next u ∧ u.now = t.now ∧
    u.pending = s.pending ∧ u.nvm = s.nvm ∧ u.map = s.map ∧ u.boot.slots = s.boot.slots ∧
    u.boot.active = s.boot.active ∧ u.secure.disabled = s.secure.disabled ∧
    u.secure.antiRollback = s.secure.antiRollback ∧ u.secure.revoked = s.secure.revoked ∧ u.secure.level = 0 ∧
    u.secure.nonce = s.secure.nonce + 1 ∧ u.ponds = [] ∧ u.dict = State.reset.dict ∧ u.own = State.reset.own ∧
    u.pins = State.reset.pins := by
  have hexec : exec .powerUp s = execPowerUp s := rfl
  rw [hexec, execPowerUp, ht]
  exact ⟨_, rfl, rfl, rfl, rfl, rfl, rfl, rfl, rfl, rfl, rfl, rfl, rfl, rfl, rfl, rfl, rfl⟩

end

/-- Settles O59: the alerts are their definitions, and a power-up ends at an instant within its bound
(`exec_powerUp_fields`). That it keeps the map is log 32 and the levels of the pins are log 9; that the cause of source 64
ends when the temperature is no longer high is log 49. -/
theorem supplyAndTemperature : Obligations.SupplyAndTemperature := by
  unfold Obligations.SupplyAndTemperature
  intro s out hot
  refine ⟨rfl, exec_supplyStop_running, rfl, fun hlost => ?lost, fun hkept => ?kept, ?reached, ?left, rfl, rfl, rfl,
    ?powerUp⟩
  case lost => simpa only [hlost, Bool.false_eq_true, if_false] using exec_powerStagesOff (s := s)
  case kept => simpa only [hkept, if_true] using exec_powerStagesOff (s := s)
  case reached =>
    rintro rfl
    exact exec_temperatureHigh_reached
  case left =>
    rintro rfl
    exact exec_temperatureHigh_left
  case powerUp =>
    obtain ⟨u, hnext, hnow, hfields⟩ := exec_powerUp_fields (s := s) rfl
    have hbound := advanceWithin_now_le (s := s) (hi := s.now + 25 * msClk)
    rw [max_eq_right (Nat.le_add_right _ _)] at hbound
    exact ⟨u, hnext, hnow ▸ now_le_advanceWithin, hnow ▸ hbound, hfields⟩

end Sys2Proof
end
